-- ==== Sys2Proof/Word.lean ====
section
/-! DEFINITION. The word types of the module (R8: registers are 32 bits wide) and the codes that more than one file
names. -/

namespace Sys2Proof

/-- A register of the control window (R8). -/
abbrev Word := BitVec 32

/-- One byte of any memory. -/
abbrev Byte := BitVec 8

/-- A reason code (R12): the high byte names the block that owns it. -/
abbrev Reason := BitVec 16

/-- A stall of the module (R369), 0 to 7. -/
abbrev Stall := Fin 8

/-- A logical core C00 to C31 (R2). -/
abbrev CoreId := Fin 32

/-- A route port RP0 to RP7 (R2). -/
abbrev PortId := Fin 8

/-- A copy engine CE0 to CE7. -/
abbrev EngineId := Fin 8

/-- A host link (R367), 0 to 3. -/
abbrev LinkId := Fin 4

/-- A compute die CD0 to CD3. -/
abbrev DieId := Fin 4

/-- A member index of a caravan, 0 to 67; 0x7F names none (R315, Table 02-8). -/
abbrev Member := BitVec 7

end Sys2Proof
end

