-- ==== Sys2Proof/Syntax.lean ====
section
/-! DEFINITION. The commands of the module: one constructor of `Instr` for each row of opcode_table.json, with the
operands the row's rule gives it, and the types of those operands. A command is a write or a read from outside, a word,
flit or segment that arrives, an event at a pin or in a unit, or an instant that the module's own sequencers reach. -/

namespace Sys2Proof

/-- Who reads or writes the control window (R9): a host link, an on-module processor, or the relay that stands for the
lead of a hostless stall's caravan (R322, R371). -/
inductive Requester where
  | link (l : LinkId)
  | tollgate
  | quartermaster (d : DieId)
  | waystation
  | relay (s : Stall)
  deriving DecidableEq, Repr

/-- The lists that hold entries of a charter (Table 12-6: the SPACE codes; sends cannot be named as predecessors, but
they are entries too). -/
inductive EntryRef where
  | stream (core : CoreId) (index : Nat)
  | copy (engine : EngineId) (index : Nat)
  | recv (index : Nat)
  | ledger (index : Nat)
  | settle (index : Nat)
  | send (index : Nat)
  deriving DecidableEq, Repr

/-- A unit of a memory tier: a pseudo-channel of near memory (R25) or a Serai channel (R26). -/
inductive MemUnit where
  | near (pc : Fin 256)
  | serai (ch : Fin 24)
  deriving DecidableEq, Repr

/-- The symbols in error of one read, by number, each once (R283, R284): of a near-memory transfer the symbols 0 to 35,
32 of data and 4 of check; of a Serai block symbol `32 * pin + k`, the `k`-th eight beats of a data pin. -/
abbrev SymbolErrors := List (Fin 2048)

/-- The row a first read failed on, and the symbols it read wrong (R285). -/
structure FailedRow where
  row : BitVec 18
  errors : SymbolErrors
  deriving DecidableEq, Repr

/-- One direction of a route port (R305): its lanes recalibrate on their own (R326). -/
structure PortSide where
  port : PortId
  rx : Bool
  deriving DecidableEq, Repr

/-- An engine that writes memory (R300): a core, a copy engine, a stall's ledger or settlement engine, the route ports. -/
inductive Writer where
  | core (k : CoreId)
  | copy (e : EngineId)
  | ledger (s : Stall)
  | settle (s : Stall)
  | route
  deriving DecidableEq, Repr

/-- A child whose partial sum had not fully arrived at a bucket's deadline tick (R239, R240). -/
structure MissingChild where
  bucket : BitVec 20
  member : Member
  caravan : BitVec 6
  deriving DecidableEq, Repr

/-- A member's verdict word (R62, R239, R251, R267, R463). -/
structure VerdictWord where
  member : Member
  causes : BitVec 13          -- bit k: the member reports verdict code k (Table 02-2)
  reason : Reason             -- reason of its highest cause
  step : BitVec 40            -- STEP (R251)
  norm : BitVec 704           -- norm partial (R234)
  loss : BitVec 32            -- F32 loss word (R267)
  longer : Bool               -- the member needs longer before a repeat (R64)
  missing : List MissingChild -- children whose partial sums were not complete (R239), up to four
  mirrorOf : Member           -- a standby's mirrored member, 0x7F none (R241, R459)
  mirrorMarch : BitVec 40     -- the march its mirror is current to (R459)
  ownGen : Option (BitVec 40)   -- newest valid own generation (R463)
  buddyGen : Option (BitVec 40) -- newest valid buddy generation (R463)
  deriving DecidableEq, Repr

/-- An exact sum as chunk_round takes it: in units of 2^−298, the finest weight of Table 03-6, with its three flags and
the records that a term entered and that every term was −0 (R88, R89, R94). -/
structure ChunkSum where
  sum : Int := 0
  nan : Bool := false
  posInf : Bool := false
  negInf : Bool := false
  entered : Bool := false
  allNegZero : Bool := true
  deriving DecidableEq, Repr

/-- A caravan lead's combined verdict word for the federation lead (R243). -/
structure FederationWord where
  caravan : BitVec 6
  causes : BitVec 13
  code : BitVec 4
  reason : Reason
  source : Member
  step : BitVec 40
  norm : BitVec 704
  loss : ChunkSum             -- the exact sum of its members' loss words (R267)
  reports : List (Member × MissingChild)   -- what its members have reported missing (R239, R240)
  mirrors : List (Member × Member)         -- its members that a standby mirrors, with the standby (R241)
  deriving DecidableEq, Repr

/-- The caravan verdict as the lead broadcasts it (R62, R234, R267, R270). -/
structure CaravanVerdict where
  code : BitVec 4
  reason : Reason
  source : Member
  causes : BitVec 13
  norm2 : BitVec 32
  loss : BitVec 32
  alarms : BitVec 4           -- the alarms the lead found: SPIKE and NF_LOSS (R270)
  deriving DecidableEq, Repr

/-- A command the lead relays (R68, R263, R464). -/
inductive RelayedCommand where
  | start (origin : Option (BitVec 64))   -- START, with the origin where the lead has set it
  | single (origin : BitVec 64)
  | stop
  | stopNow
  | accept
  | discard
  | restore (march : BitVec 40)     -- RESTORE of the common checkpoint (R464)
  | lift (fences : BitVec 68)       -- fences the lead lifts at the next origin (R242)
  | fence (caravan : BitVec 6) (m : Member) (standby : Member)  -- a member fenced and replaced (R241, R460)
  | swap (origin : BitVec 64)       -- a charter swap announced with its origin (R358)
  | origin (t : BitVec 64)          -- the origin the lead announces (R64, R68)
  | period (p : BitVec 16)          -- the lead's checkpoint period (R461)
  deriving DecidableEq, Repr

/-- The header of a ledger segment (Table 08-3). -/
structure SegmentHeader where
  march : BitVec 40
  attempt : BitVec 8
  bucket : BitVec 20
  tariff : BitVec 8
  maxexp : BitVec 8
  width : BitVec 6
  nonfinite : Bool
  saturated : Bool
  short : Bool
  survey : Bool
  down : Bool                 -- DIR: false upwards, true downwards
  count : BitVec 13
  source : Member
  sourceCaravan : BitVec 6
  step : BitVec 40
  segment : BitVec 9
  segElems : BitVec 12
  deriving DecidableEq, Repr

/-- A ledger segment: its header and its L48 elements (R230). -/
structure Segment where
  header : SegmentHeader
  elems : List (BitVec 48)
  deriving DecidableEq, Repr

/-- A flit: the 16-byte header of Table 11-1, 256 payload bytes and the CRC-64 (R308). -/
structure Flit where
  header : BitVec 128
  payload : List Byte
  crc : BitVec 64
  deriving DecidableEq, Repr

/-- The contents of an IDENT message (R319). -/
structure IdentMessage where
  tag : BitVec 64
  seat : BitVec 4
  port : BitVec 3
  timeDomain : BitVec 32
  member : Member
  caravan : BitVec 6
  deriving DecidableEq, Repr

/-- What a relay request asks of its target (R322, Table 11-10). -/
inductive RelayOp where
  | read32 (offset : BitVec 24)
  | write32 (offset : BitVec 24) (data : Word)
  | post (offset : BitVec 24) (len : BitVec 9) (buf : List Byte)
  deriving DecidableEq, Repr

/-- One request of a stall on a shared resource in an arbiter frame (R377 to R380). -/
structure FrameRequest where
  stall : Stall
  resource : Fin 6            -- 0 near memory, 1 Serai, 2 to 5 the CXL bandwidth of links 0 to 3
  bytes : Nat
  charter : Bool              -- charter work, which never borrows (R297)
  cxlMem : Bool               -- a CXL.mem request (R380)
  deriving DecidableEq, Repr

/-- A retired or tested unit as the retired list names it (Table 16-8 kinds 1, 2, 3, 4, 6, 7). -/
structure UnitRef where
  kind : BitVec 8
  index : BitVec 16
  deriving DecidableEq, Repr

/-- What the tests and trainings of a bring-up find (R17, R288, R328, R429, R434). -/
structure BringupReport where
  banksValid : List (Fin 2)     -- image banks valid under R399
  failedCores : List (DieId × Fin 9)
  failedUnits : List MemUnit
  linksUp : List LinkId         -- links that reach L0
  links256 : List LinkId        -- of those, links with 256-byte flits
  links64 : List LinkId         -- of those, links at 64 GT/s
  interlock : Bool              -- laser rail and bias monitors within limits (R329)
  deriving DecidableEq, Repr

/-- A message of the Kwerritex MCTP type (R479, R444). -/
inductive MctpRequest where
  | readPower (offset : BitVec 16)
  | readIdent (offset : BitVec 16)
  | voteWrite (s : Stall) (v : Word)
  | control                      -- an MCTP base control message
  deriving DecidableEq, Repr

/-- The commands, in the order of opcode_table.json. -/
inductive Instr where
  -- control window (R8 to R11)
  | registerWrite (r : Requester) (off : BitVec 26) (v : Word)
  | writeLowHalf (r : Requester) (off : BitVec 26) (v : Word)
  | writeHighHalf (r : Requester) (off : BitVec 26) (v : Word)
  | readLowHalf (r : Requester) (off : BitVec 26)
  | w1cWrite (r : Requester) (off : BitVec 26) (v sets : Word)
  | rcRead (r : Requester) (off : BitVec 26) (events : Word)
  -- module anatomy
  | permanentCoreFault (d : DieId) (pc : Fin 9) (reason : Reason)
  | spareReady (s : Stall) (m : Member)
  | d2dLinkRetire (l : Fin 12)
  | sourceFailover (p : PortId) (src : Fin 2) (standbyLights : Bool)
  | standbySourceFailed (p : PortId)
  | interlockLost
  | pllLockLoss (domain : Fin 100)
  | osc156Stop
  -- time and march
  | syncFlitSend (s : Stall)
  | syncFlitReceive (s : Stall) (p : PortId) (stamp : BitVec 64) (hops : BitVec 8)
  | delayMeasure (p : PortId) (ns : BitVec 32)
  | holdover (s : Stall)
  | syncedLost (s : Stall)
  | outOfStep (s : Stall)
  | leadChange (s : Stall)
  | marchOrigin (s : Stall)
  | tick (s : Stall)
  | entryComplete (s : Stall) (e : EntryRef) (dt : BitVec 64)
  | settleLate (s : Stall) (m : Member) (time : BitVec 64)
  | haltFlit (s : Stall) (m : Member) (code : BitVec 4) (reason : Reason)
  | haltBroadcast (s : Stall)
  | verdictWord (s : Stall) (w : VerdictWord)
  | verdictLost (s : Stall)
  | federationWord (s : Stall) (w : FederationWord)
  | federationWordTimeout (s : Stall)
  | caravanVerdict (s : Stall) (v : CaravanVerdict)
  | decisionLost (s : Stall)
  | start (r : Requester) (s : Stall) (withStopNow : Bool)
  | single (r : Requester) (s : Stall)
  | stop (r : Requester) (s : Stall)
  | stopNow (r : Requester) (s : Stall)
  | accept (r : Requester) (s : Stall)
  | discard (r : Requester) (s : Stall)
  | commandRelay (s : Stall) (c : RelayedCommand)
  -- dense arrays
  | matmul (c : CoreId) (index : Nat)
  | governorStep (c : CoreId) (a : Fin 2)
  | governorHoldExpire (c : CoreId) (a : Fin 2)
  -- gather-merge engines and Assay
  | spmm (c : CoreId) (index : Nat)
  | ragged (c : CoreId) (index : Nat)
  | dispatchMain (c : CoreId) (index : Nat)
  | dispatchSpill (c : CoreId) (index : Nat)
  | combine (c : CoreId) (index : Nat)
  | assay (c : CoreId) (index : Nat)
  | coreChooserWrite (r : Requester) (c : CoreId) (v : Word)
  -- vector unit
  | vmapCopy (c : CoreId) (index : Nat)
  | vmapAdd (c : CoreId) (index : Nat)
  | vmapMul (c : CoreId) (index : Nat)
  | vmapFma (c : CoreId) (index : Nat)
  | vmapMax (c : CoreId) (index : Nat)
  | vmapMin (c : CoreId) (index : Nat)
  | vmapScale (c : CoreId) (index : Nat)
  | vfunc (c : CoreId) (index : Nat)
  | vderivTable (c : CoreId) (index : Nat)
  | vderivBits (c : CoreId) (index : Nat)
  | vdropForward (c : CoreId) (index : Nat)
  | vdropBackward (c : CoreId) (index : Nat)
  | vsum (c : CoreId) (index : Nat)
  -- copy engines
  | copyEntry (e : EngineId) (index : Nat)
  | copyBatchTake (e : EngineId) (borrowed : Bool)
  | copyBatchComplete (e : EngineId)
  | cpyQtailWrite (r : Requester) (e : EngineId) (v : Word)
  | cpyQsizeWrite (r : Requester) (e : EngineId) (v : Word)
  | cpyQreset (r : Requester) (e : EngineId) (v : Word)
  | cpyQen (r : Requester) (e : EngineId) (v : Word)
  -- ledger
  | contribute (s : Stall) (index : Nat)
  | ledgerSendUp (s : Stall) (bucket : BitVec 20)
  | ledgerSegment (s : Stall) (g : Segment)
  | shortNotice (s : Stall) (h : SegmentHeader)
  | ldgFenceWrite (r : Requester) (s : Stall) (reg : Fin 3) (v : Word)
  | forget (r : Requester) (s : Stall)
  | ldgHeadroomWrite (r : Requester) (s : Stall) (v : Word)
  -- settlement, tally, lot
  | settle (s : Stall) (index : Nat)
  | settled (s : Stall) (m : Member) (march step : BitVec 40)
  | recordRequest (s : Stall)
  | recordAnswer (s : Stall) (m : Member)
  | settleUnconfirmed (s : Stall) (m : Member)
  | stlStepWrite (r : Requester) (s : Stall) (v : BitVec 64)
  | tlyStatsWrite (r : Requester) (s : Stall) (which : Fin 3) (v : Word)
  | tlyKWrite (r : Requester) (s : Stall) (v : Word)
  | lotSeedWrite (r : Requester) (s : Stall) (v : BitVec 64)
  | lotTestCall (r : Requester) (s : Stall) (v : Word)
  | lotTestDone (s : Stall)
  -- memory tiers
  | memCorrected (u : MemUnit) (errors : SymbolErrors)
  | ceRate (u : MemUnit)
  | memUncorrectable (u : MemUnit) (bay : BitVec 10) (row : FailedRow)
  | memRepeatRead (u : MemUnit) (bay : BitVec 10) (row : BitVec 18) (errors : SymbolErrors)
  | patrolScrub (u : MemUnit) (errors : SymbolErrors)
  | rebuildRow (serai : Bool)
  | refit (s : Stall)
  | cxlMemRead (l : LinkId) (offset : BitVec 48) (len : Fin 65) (uncorrectable : Bool)
  | cxlMemWrite (l : LinkId) (offset : BitVec 48) (data : List Byte)
  | backInvalidateResponse (w : Writer)
  | seraiHoldRoom (ch : Fin 24)
  -- route ports
  | routeSend (s : Stall) (index : Nat)
  | banditDelayExpire (p : PortId)
  | flitReceive (p : PortId) (f : Flit) (ueLanes : List (Fin 18))
  | receivedTransfer (s : Stall) (index : Nat)
  | nak (p : PortId) (ack : BitVec 12)
  | replayTimeout (p : PortId)
  | auditFlit (p : PortId) (cls : Fin 5) (granted spent held : Nat)
  | retireMessage (p : PortId) (lane : Fin 18) (seq : BitVec 12)
  | identMessage (p : PortId) (m : IdentMessage)
  | portReturn (p : PortId)
  | relayRead32 (r : Requester) (ctrl : Word)
  | relayWrite32 (r : Requester) (ctrl : Word)
  | relayPost (r : Requester) (ctrl : Word)
  | relayRequest (s : Stall) (from_ : Member) (op : RelayOp)
  | relayResponse (result : BitVec 3) (data : Word)
  | relayTimeout
  | relayEvent (s : Stall) (m : Member) (vector : BitVec 6)
  | relayEventRead (r : Requester)
  | recalGo (r : Requester) (p : PortId) (v : Word)
  | recalAuto (p : PortId)
  | recalComplete (p : PortSide)
  | probeBurst (p : PortId)
  | lightIn (p : PortId)
  | portDark (p : PortId)
  | mateOpen (p : PortId)
  | mateClose (p : PortId)
  | rteBanditWrite (r : Requester) (p : PortId) (v : Word)
  -- charter
  | chtPortDataWrite (r : Requester) (s : Stall) (v : Word)
  | load (r : Requester) (s : Stall)
  | charterAccepted (s : Stall)
  | unload (r : Requester) (s : Stall)
  | cancel (r : Requester) (s : Stall)
  | acceptedWord (s : Stall) (m : Member) (epoch : Word) (seq : BitVec 64)
  | withdraw (s : Stall) (m : Member)
  | updateFunction (s : Stall) (secure : Bool)
  | updateCoef (s : Stall) (secure : Bool)
  -- host attachment
  | cxlLinkDown (l : LinkId)
  | cxlHotReset (l : LinkId)
  | stallReset (r : Requester) (s : Stall)
  | heartbeat (r : Requester) (s : Stall)
  | arm (r : Requester) (s : Stall) (v : Word)
  | claim (l : LinkId) (s : Stall)
  | arbiterFrame (reqs : List FrameRequest)
  | postWrite (r : Requester) (s : Stall) (secure : Bool) (n : Fin 24) (word : Fin 65) (v : Word)
  | postSend (r : Requester) (s : Stall) (secure : Bool) (n : Fin 24) (v : Word)
  | postAck (s : Stall) (secure : Bool) (n : Fin 24) (code : Reason) (reply : List Byte)
  | postTake (r : Requester) (s : Stall) (secure : Bool) (n : Fin 24)
  | postNotice (s : Stall) (secure : Bool) (n : Fin 24) (msg : List Byte)
  | configRequest (l : LinkId)
  -- Tollgate
  | qmWatchdog (d : DieId)
  | tollgateWatchdog
  | exchangePut (s : Stall) (secure : Bool) (n : Fin 24)
  | exchangeGet (s : Stall) (secure : Bool) (n : Fin 24)
  | recoveryPut (s : Stall)
  | install (s : Stall)
  | kex (s : Stall)
  | commit (s : Stall)
  | waybillRequest (s : Stall)
  | compose (s : Stall)
  | fullReset (s : Stall)
  | clearRetired (s : Stall)
  | enrolKey (s : Stall)
  | revokeKey (s : Stall)
  | image (s : Stall)
  | commitSvn (s : Stall)
  | debugStall (s : Stall)
  | debugFull (s : Stall)
  | setThresh (s : Stall)
  | setPower (s : Stall)
  | customsDeny (s : Stall) (unit : BitVec 8) (cause : BitVec 4) (va : BitVec 48)
  | componentRestart
  | componentReady
  | imageRollback
  -- reset, power, Waystation
  | powerOn
  | inputReset (channel : BitVec 8)
  | perstN (ns : Nat)
  | pwrokRise (seatCode : BitVec 8) (bootsrc : BitVec 2) (clkmode : Bool)
  | bringup (rep : BringupReport)
  | startTimeout
  | startRetry
  | channelSample (ch : Fin 64) (raw : BitVec 16)
  | throttleStep (c : CoreId)
  | powerCap
  | thermalHaltEnd
  | thermalTrip (ch : Fin 64)
  | brace (rail : Bool)
  | braceEnd
  | haltSupply
  | railFault (d : DieId) (pc : Fin 9)
  | pwrVoteWrite (r : Requester) (s : Stall) (v : Word)
  | wakeMessage
  | wakeTimer
  | smbusMctp (q : MctpRequest)
  | aux3v3Loss
  -- faults and live service
  | takeoverWait (s : Stall)
  | mirrorApply (s : Stall) (march : BitVec 40) (totals : List (List (BitVec 32))) (tariffs : List (BitVec 128))
  | ckptJobDone (s : Stall)
  | buddyCkptReceive (s : Stall) (m : Member) (header : List Byte) (data : List Byte)
  | restore (r : Requester) (s : Stall)
  | fltMirrorWrite (r : Requester) (s : Stall) (v : Word)
  | cxlLinkTraining (l : LinkId) (rate : BitVec 2) (width : BitVec 3) (flit256 cxl3 : Bool)
  | memberReady (s : Stall) (m : Member)
  | jtagTap (tck tms tdi trstN : Bool)
  deriving DecidableEq, Repr

end Sys2Proof
end

