-- ==== Sys2Proof/Decode.lean ====
section
/-! DEFINITION. The decoder of the command table. No row of opcode_table.json gives bits: a command of this block is not
encoded as a word, so no word spells one (log entry 4). -/

namespace Sys2Proof

/-- The command that a word of `nbits` bits spells by the table's bits: none, for no row gives bits. -/
def decodeTableWord (_nbits _w : Nat) : Option Instr := none

end Sys2Proof
end

