-- ==== Sys2Proof/Machine/Bits.lean ====
section
/-! DEFINITION. Bit fields, byte order and small operations on lists, used by every chapter. -/

namespace Sys2Proof.Machine

/-- The field of `n` bits from bit `lo` up, as the tables number them (R117). -/
def fld {w : Nat} (x : BitVec w) (lo n : Nat) : BitVec n := x.extractLsb' lo n

/-- A field as a number. -/
def fldN {w : Nat} (x : BitVec w) (lo n : Nat) : Nat := (x.extractLsb' lo n).toNat

/-- One bit. -/
def bit {w : Nat} (x : BitVec w) (i : Nat) : Bool := x.getLsbD i

/-- A field placed at bit `lo` of a register. -/
def put {n : Nat} (v : BitVec n) (lo : Nat) : Word := (v.setWidth 32) <<< lo

/-- A flag placed at bit `lo` of a register. -/
def putB (b : Bool) (lo : Nat) : Word := if b then (1 : Word) <<< lo else 0

/-- The low half of a 64-bit value (R9). -/
def loHalf (v : BitVec 64) : Word := v.setWidth 32

/-- The high half of a 64-bit value (R9). -/
def hiHalf (v : BitVec 64) : Word := (v >>> 32).setWidth 32

/-- Two halves joined (R9). -/
def joinHalves (lo hi : Word) : BitVec 64 := (hi.setWidth 64 <<< 32) ||| lo.setWidth 64

/-- `x` with bit `i` set. -/
def setBit {w : Nat} (x : BitVec w) (i : Nat) : BitVec w := x ||| (1#w <<< i)

/-- `x` with bit `i` cleared. -/
def clearBit {w : Nat} (x : BitVec w) (i : Nat) : BitVec w := x &&& ~~~(1#w <<< i)

/-- A counter of Table 04-8: it saturates at its largest value. -/
def satAdd {w : Nat} (c : BitVec w) (n : Nat) : BitVec w := BitVec.ofNat w (min (c.toNat + n) (2 ^ w - 1))

/-- The larger of two unsigned values. -/
def maxU {w : Nat} (a b : BitVec w) : BitVec w := if a.toNat < b.toNat then b else a

/-- How many bits of `x` are set. -/
def popCount {w : Nat} (x : BitVec w) : Nat := ((List.range w).filter fun i => x.getLsbD i).length

/-- The bytes of a value, lowest first (R8, R117). -/
def leBytes {w : Nat} (n : Nat) (v : BitVec w) : List Byte := (List.range n).map fun i => v.extractLsb' (8 * i) 8

/-- The number that bytes spell, lowest first. -/
def ofLe : List Byte → Nat
  | [] => 0
  | b :: bs => b.toNat + 256 * ofLe bs

/-- The bytes as a bit vector, lowest first. -/
def ofBytes (w : Nat) (bs : List Byte) : BitVec w := BitVec.ofNat w (ofLe bs)

/-- `n` items from position `i`. -/
def slice {α : Type} (l : List α) (i n : Nat) : List α := (l.drop i).take n

/-- A list cut into pieces of `n` items; `fuel` bounds the pieces. -/
def chunksOf {α : Type} (n : Nat) : Nat → List α → List (List α)
  | 0, _ => []
  | fuel + 1, l => if l.isEmpty then [] else l.take n :: chunksOf n fuel (l.drop n)

/-- Division rounded up. -/
def ceilDiv (a b : Nat) : Nat := (a + b - 1) / b

/-- The value under a key of a list sorted by key. -/
def lookupKey {α : Type} (k : Nat) : List (Nat × α) → Option α
  | [] => none
  | (k', a) :: l => if k = k' then some a else lookupKey k l

/-- Put a value under a key of a list sorted by key. -/
def insertKey {α : Type} (k : Nat) (a : α) : List (Nat × α) → List (Nat × α)
  | [] => [(k, a)]
  | (k', a') :: l => if k < k' then (k, a) :: (k', a') :: l else if k = k' then (k, a) :: l else (k', a') :: insertKey k a l

/-- Remove a key of a list sorted by key. -/
def eraseKey {α : Type} (k : Nat) : List (Nat × α) → List (Nat × α)
  | [] => []
  | (k', a') :: l => if k = k' then l else (k', a') :: eraseKey k l

/-- Item `i` of a list replaced, where there is one. -/
def setAt {α : Type} (l : List α) (i : Nat) (a : α) : List α := l.set i a

/-- The least number of a list under a starting bound. -/
def minOf (l : List Nat) (d : Nat) : Nat := l.foldl min d

/-- The largest number of a list, at least `d`. -/
def maxOf (l : List Nat) (d : Nat) : Nat := l.foldl max d

/-- Keep the first of equal items. -/
def dedup {α : Type} [DecidableEq α] : List α → List α
  | [] => []
  | a :: l => a :: (dedup l).filter fun b => b ≠ a

/-- A signed value as an integer. -/
def sx {w : Nat} (x : BitVec w) : Int := x.toInt

end Sys2Proof.Machine
end

