-- ==== Sys2Proof/Machine/Numbers.lean ====
section
/-! DEFINITION. The number formats, rounding and the reference order (chapter 03): values are exact, every operation
rounds once. -/

namespace Sys2Proof.Machine

/-- A value: a NaN, an infinity, or (−1)^neg × m × 2^e. -/
inductive Val where
  | nan
  | inf (neg : Bool)
  | fin (neg : Bool) (m : Nat) (e : Int)
  deriving DecidableEq, Repr, Inhabited

/-- The floating-point formats of Table 03-2. -/
inductive Fmt where
  | h16 | g16 | f32
  deriving DecidableEq, Repr, Inhabited

/-- Fraction width (Table 03-2). -/
def fracBits : Fmt → Nat
  | .h16 => 10 | .g16 => 7 | .f32 => 23

/-- Exponent width (Table 03-2). -/
def expBits : Fmt → Nat
  | .h16 => 5 | .g16 => 8 | .f32 => 8

/-- Exponent of the smallest subnormal (Table 03-2). -/
def minExp : Fmt → Int
  | .h16 => -24 | .g16 => -133 | .f32 => -149

/-- Width in bytes. -/
def fmtBytes : Fmt → Nat
  | .h16 => 2 | .g16 => 2 | .f32 => 4

/-- The encoding of +infinity, as a number. -/
def infCode (f : Fmt) : Nat := (2 ^ expBits f - 1) * 2 ^ fracBits f

/-- The canonical NaN (R74). -/
def nanCode (f : Fmt) : Nat := infCode f + 2 ^ (fracBits f - 1)

/-- The sign bit's weight. -/
def signCode (f : Fmt) : Nat := 2 ^ (expBits f + fracBits f)

/-- The format that a code of Table 03-1 names, where it is a floating-point one. -/
def fmtOf (code : Nat) : Option Fmt :=
  if code = 0 then some .h16 else if code = 1 then some .g16 else if code = 2 then some .f32 else none

/-- The value of an encoding (R71). -/
def decodeVal (f : Fmt) (c : Nat) : Val :=
  let neg := signCode f ≤ c % (2 * signCode f)
  let x := c % signCode f
  let fr := x % 2 ^ fracBits f
  let ex := x / 2 ^ fracBits f
  if infCode f < x then .nan
  else if x = infCode f then .inf neg
  else if ex = 0 then .fin neg fr (minExp f)
  else .fin neg (2 ^ fracBits f + fr) (minExp f + (ex : Int) - 1)

/-- A magnitude with its sign as an encoding. -/
def withSign (f : Fmt) (neg : Bool) (c : Nat) : Nat := if neg then c + signCode f else c

/-- Round a natural number divided by 2^k to the nearest, ties to even. -/
def rneShift (m k : Nat) : Nat :=
  let q := m >>> k
  let r := m - (q <<< k)
  let half := 2 ^ k
  if 2 * r < half then q else if half < 2 * r then q + 1 else if q % 2 = 0 then q else q + 1

/-- The exponent of the spacing of format `f` in the binade of m × 2^e, at least that of the smallest subnormal. -/
def spacingExp (f : Fmt) (m : Nat) (e : Int) : Int := max (e + (m.log2 : Int) - fracBits f) (minExp f)

/-- Round to nearest even (R77): the encoding of a value in format `f`. -/
def encodeRne (f : Fmt) : Val → Nat
  | .nan => nanCode f
  | .inf neg => withSign f neg (infCode f)
  | .fin neg m e =>
    if m = 0 then withSign f neg 0
    else
      let q := spacingExp f m e
      let k := q - e
      let m' := if k ≤ 0 then m <<< (-k).toNat else rneShift m k.toNat
      withSign f neg (min ((q - minExp f).toNat * 2 ^ fracBits f + m') (infCode f))

/-- A stochastic store of a value to H16 or G16 with the random integer `r` (R78). -/
def encodeStochastic (f : Fmt) (r : Nat) : Val → Nat
  | .nan => nanCode f
  | .inf neg => withSign f neg (infCode f)
  | .fin neg m e =>
    if m = 0 then withSign f neg 0
    else
      let q := spacingExp f m e
      let k := q - e
      if k ≤ 0 then withSign f neg (min ((q - minExp f).toNat * 2 ^ fracBits f + (m <<< (-k).toNat)) (infCode f))
      else
        let t := m >>> k.toNat
        let d := ((m - (t <<< k.toNat)) * 65536) >>> k.toNat
        let m' := if r < d then t + 1 else t
        withSign f neg (min ((q - minExp f).toNat * 2 ^ fracBits f + m') (infCode f))

/-- Negation. -/
def negVal : Val → Val
  | .nan => .nan
  | .inf neg => .inf (!neg)
  | .fin neg m e => .fin (!neg) m e

/-- The sign with its magnitude as an integer. -/
def signedMag (neg : Bool) (m : Nat) : Int := if neg then -(m : Int) else m

/-- The exact sum, with the IEEE 754 signs of zero under round-to-nearest-even (R73). -/
def addVal : Val → Val → Val
  | .nan, _ => .nan
  | _, .nan => .nan
  | .inf a, .inf b => if a = b then .inf a else .nan
  | .inf a, _ => .inf a
  | _, .inf b => .inf b
  | .fin a m e, .fin b n f =>
    if m = 0 ∧ n = 0 then .fin (a && b) 0 e
    else if m = 0 then .fin b n f
    else if n = 0 then .fin a m e
    else
      let g := min e f
      let x := signedMag a (m <<< (e - g).toNat) + signedMag b (n <<< (f - g).toNat)
      .fin (decide (x < 0)) x.natAbs g

/-- The exact product (R73). -/
def mulVal : Val → Val → Val
  | .nan, _ => .nan
  | _, .nan => .nan
  | .inf a, .inf b => .inf (a != b)
  | .inf a, .fin b n _ => if n = 0 then .nan else .inf (a != b)
  | .fin a m _, .inf b => if m = 0 then .nan else .inf (a != b)
  | .fin a m e, .fin b n f => .fin (a != b) (m * n) (e + f)

/-- The quotient to 64 bits beyond the precision of F32 with a sticky last bit: rounding it once gives the correctly
rounded quotient. -/
def divVal : Val → Val → Val
  | .nan, _ => .nan
  | _, .nan => .nan
  | .inf _, .inf _ => .nan
  | .inf a, .fin b _ _ => .inf (a != b)
  | .fin a _ e, .inf b => .fin (a != b) 0 e
  | .fin a m e, .fin b n f =>
    if n = 0 then (if m = 0 then .nan else .inf (a != b))
    else if m = 0 then .fin (a != b) 0 (e - f)
    else
      let k := n.log2 + 64
      let q := (m <<< k) / n
      let s := if (m <<< k) % n = 0 then 0 else 1
      .fin (a != b) (2 * q + s) (e - f - k - 1)

/-- The integer square root, one bit of the result a turn. -/
def isqrtBits : Nat → Nat → Nat → Nat
  | 0, _, r => r
  | k + 1, n, r => let t := r + 2 ^ k; if t * t ≤ n then isqrtBits k n t else isqrtBits k n r

/-- The integer square root. -/
def isqrt (n : Nat) : Nat := isqrtBits (n.log2 / 2 + 1) n 0

/-- The square root with a sticky last bit, as `divVal`. -/
def sqrtVal : Val → Val
  | .nan => .nan
  | .inf neg => if neg then .nan else .inf false
  | .fin neg m e =>
    if m = 0 then .fin neg 0 0
    else if neg then .nan
    else
      let k := if e % 2 = 0 then 128 else 129
      let n := m <<< k
      let r := isqrt n
      let s := if r * r = n then 0 else 1
      .fin false (2 * r + s) ((e - k) / 2 - 1)

/-- The magnitude. -/
def absVal : Val → Val
  | .nan => .nan
  | .inf _ => .inf false
  | .fin _ m e => .fin false m e

/-- Is the value a NaN or an infinity? -/
def nonFinite : Val → Bool
  | .fin _ _ _ => false
  | _ => true

/-- Is the value a NaN? -/
def isNan : Val → Bool
  | .nan => true
  | _ => false

/-- a < b on numbers; false where either is a NaN. -/
def ltVal : Val → Val → Bool
  | .nan, _ => false
  | _, .nan => false
  | .inf a, .inf b => a && !b
  | .inf a, .fin _ _ _ => a
  | .fin _ _ _, .inf b => !b
  | .fin a m e, .fin b n f =>
    let g := min e f
    decide (signedMag a (m <<< (e - g).toNat) < signedMag b (n <<< (f - g).toNat))

/-- a = b on numbers: −0 equals +0, and a NaN equals nothing. -/
def eqVal (a b : Val) : Bool := !isNan a && !isNan b && !ltVal a b && !ltVal b a

/-- An integer as a value. -/
def intVal (x : Int) : Val := .fin (decide (x < 0)) x.natAbs 0

/-- The value of an F32 word. -/
def val32 (x : Word) : Val := decodeVal .f32 x.toNat

/-- A value rounded to F32 by RNE. -/
def rne32 (v : Val) : Word := BitVec.ofNat 32 (encodeRne .f32 v)

/-- F32 addition (R87). -/
def add32 (a b : Word) : Word := rne32 (addVal (val32 a) (val32 b))

/-- F32 subtraction. -/
def sub32 (a b : Word) : Word := rne32 (addVal (val32 a) (negVal (val32 b)))

/-- F32 multiplication. -/
def mul32 (a b : Word) : Word := rne32 (mulVal (val32 a) (val32 b))

/-- F32 fused multiply-add: one rounding. -/
def fma32 (a b c : Word) : Word := rne32 (addVal (mulVal (val32 a) (val32 b)) (val32 c))

/-- F32 division. -/
def div32 (a b : Word) : Word := rne32 (divVal (val32 a) (val32 b))

/-- F32 square root. -/
def sqrt32 (a : Word) : Word := rne32 (sqrtVal (val32 a))

/-- Is an F32 word non-finite? -/
def nonFinite32 (x : Word) : Bool := nonFinite (val32 x)

/-- Conversion of an encoding to F32 (R76). -/
def toF32 (f : Fmt) (c : Nat) : Word := rne32 (decodeVal f c)

/-- The expansion of an AFFINE code (R84). -/
def expandAffine (q zero : Nat) (scale : Nat) : Nat :=
  encodeRne .h16 (mulVal (intVal ((q : Int) - zero)) (decodeVal .h16 scale))

/-- A product enters the accumulator. -/
def chunkAdd (c : ChunkSum) : Val → ChunkSum
  | .nan => { c with nan := true, entered := true, allNegZero := false }
  | .inf neg =>
    if neg then { c with negInf := true, entered := true, allNegZero := false }
    else { c with posInf := true, entered := true, allNegZero := false }
  | .fin neg m e =>
    { c with
      sum := c.sum + signedMag neg (m <<< (e + 298).toNat)
      entered := true
      allNegZero := c.allNegZero && neg && m == 0 }

/-- Two exact sums together. -/
def chunkJoin (a b : ChunkSum) : ChunkSum :=
  { sum := a.sum + b.sum, nan := a.nan || b.nan, posInf := a.posInf || b.posInf, negInf := a.negInf || b.negInf
    entered := a.entered || b.entered, allNegZero := a.allNegZero && b.allNegZero }

/-- chunk_round (R89). -/
def chunkRound (c : ChunkSum) : Word :=
  if c.nan || (c.posInf && c.negInf) then rne32 .nan
  else if c.posInf then rne32 (.inf false)
  else if c.negInf then rne32 (.inf true)
  else if c.sum = 0 then (if c.entered && c.allNegZero then 0x80000000 else 0)
  else rne32 (.fin (decide (c.sum < 0)) c.sum.natAbs (-298))

/-- One chunk: products of the positions, `none` where a position is masked. A masked position is absent: it adds +0 to
the sum and is no product of rule 3 of R89 (R90, and the worked case at the end of chapter 03). -/
def chunkOf (ps : List (Option (Val × Val))) : ChunkSum :=
  ps.foldl (fun c p => match p with
    | none => c
    | some (a, b) => chunkAdd c (mulVal a b)) {}

/-- The chunk length of a product pair (Table 03-5). -/
def chunkLen (a b : Fmt) : Nat := if a = .f32 ∧ b = .f32 then 16 else 128

/-- The reference order (R87): the positions of the dot product in increasing k, cut into chunks. -/
def reference (c : Nat) (init : Word) (ps : List (Option (Val × Val))) : Word :=
  (chunksOf c ps.length ps).foldl (fun acc chunk => add32 acc (chunkRound (chunkOf chunk))) init

end Sys2Proof.Machine
end

