-- ==== Sys2Proof/Machine/Lottery.lean ====
section
/-! DEFINITION. The lot generator as a function (R272, R79): a counter-based generator without state. -/

namespace Sys2Proof.Machine

/-- Round constants (Table 09-5). -/
def lotConst : List Word :=
  [0x9D2C5680, 0x1B873593, 0x7A3EC1D4, 0xE65B0F27, 0x4C9AB83E, 0xB3F16A05, 0x2E4D97C1, 0xD819E46B, 0x65A72CF8, 0xF03B8D16]

/-- One round (R272). -/
def lotRound (k0 k1 : Word) (x : Word × Word × Word × Word) (r : Nat) : Word × Word × Word × Word :=
  let (x0, x1, x2, x3) := x
  let (a, b, k) := if r % 2 = 0 then (16, 12, k0) else (8, 4, k1)
  let x0 := x0 + x1
  let x3 := (x3 ^^^ x0).rotateLeft a
  let x2 := x2 + x3
  let x1 := (x1 ^^^ x2).rotateLeft b
  (x0 ^^^ k, x1, x2 ^^^ lotConst.getD r 0, x3)

/-- The 128 bits of a call on raw counter words (R272, R278). -/
def lotWords (seed : BitVec 64) (x0 x1 x2 x3 : Word) : BitVec 128 :=
  let (y0, y1, y2, y3) := (List.range 10).foldl (lotRound (loHalf seed) (hiHalf seed)) (x0, x1, x2, x3)
  y3 ++ y2 ++ y1 ++ y0

/-- A call of the lot generator (R272). -/
def lotCall (seed : BitVec 64) (stream : BitVec 24) (march : BitVec 40) (element : BitVec 64) : BitVec 128 :=
  lotWords seed (loHalf element) (hiHalf element) (march.setWidth 32) (stream ++ march.extractLsb' 32 8)

/-- The 16-bit random integer of element `e` of a stochastic store (R79), also the draw of a dropout (R182). -/
def lotDraw (seed : BitVec 64) (stream : BitVec 24) (march : BitVec 40) (e : Nat) : Nat :=
  ((lotCall seed stream march (BitVec.ofNat 64 (e / 8))).extractLsb' (16 * (e % 8)) 16).toNat

end Sys2Proof.Machine
end

