-- ==== Sys2Proof/Machine/Charter.lean ====
section
/-! DEFINITION. A charter as the loader holds it after reading a slot (chapter 12): the sections of the body cut into
their records. Records keep the bits that the chapter's tables number; Machine/Operands.lean names their fields. -/

namespace Sys2Proof.Machine

/-- A schedule record with its dependency words (R349, Table 12-6). -/
structure Sched where
  leg : BitVec 8 := 0
  item : BitVec 32 := 0
  deps : List (BitVec 32) := []
  deriving DecidableEq, Repr, Inhabited

/-- An entry of a core's stream (R350): its descriptor, its schedule and the copy of its row mask that was captured at
load (R107). -/
structure StreamEntry where
  desc : BitVec 512 := 0
  sched : Sched := {}
  mask : List Bool := []
  deriving DecidableEq, Repr, Inhabited

/-- A copy engine's list (R350): batches name their first descriptor. -/
structure CopyList where
  entries : List Sched := []
  descs : List (BitVec 512) := []
  shapes : List (BitVec 640) := []   -- shape records captured at load, one per descriptor (R202)
  deriving DecidableEq, Repr, Inhabited

/-- A send or receive record (R351, Table 12-8) with its schedule. -/
structure RouteRec where
  raw : BitVec 256 := 0
  sched : Sched := {}
  deriving DecidableEq, Repr, Inhabited

/-- A ledger entry (Table 08-2), its peer record (R225) and its schedule. -/
structure LedgerRec where
  raw : BitVec 128 := 0
  peer : BitVec 128 := 0
  sched : Sched := {}
  deriving DecidableEq, Repr, Inhabited

/-- A settlement entry (Table 09-3) with its schedule. -/
structure SettleRec where
  raw : BitVec 512 := 0
  sched : Sched := {}
  deriving DecidableEq, Repr, Inhabited

/-- A FUNCTION item (R350, R174): the core, the table slot and the table's bytes. -/
structure FunctionRec where
  core : BitVec 5 := 0
  slot : BitVec 4 := 0
  table : List Byte := []
  deriving DecidableEq, Repr, Inhabited

/-- A DIRECTORY record (R350, R352). -/
structure DirectoryRec where
  tensor : BitVec 16 := 0
  turned : Bool := false
  tiles : List (BitVec 128) := []
  deriving DecidableEq, Repr, Inhabited

/-- A charter (R340 to R352). -/
structure Charter where
  slot : Bool := false              -- false A, true B
  seq : BitVec 64 := 0
  isSigned : Bool := false
  resource : BitVec 512 := 0        -- Table 12-3 header
  regions : List (BitVec 256) := []
  caravan : BitVec 1024 := 0        -- Table 12-4 header
  legs : List (BitVec 64) := []
  trees : List (List (BitVec 32)) := []
  wiring : List (BitVec 128) := []
  fed : List (BitVec 128) := []
  tensors : List (BitVec 512) := []
  exts : List (BitVec 512) := []
  streams : List (List StreamEntry) := []
  copies : List CopyList := []
  sends : List RouteRec := []
  recvs : List RouteRec := []
  tariffBase : BitVec 48 := 0
  buckets : List (BitVec 256) := []
  ledger : List LedgerRec := []
  settleHead : BitVec 512 := 0      -- Table 09-1
  groups : List (BitVec 512) := []  -- Table 09-2
  settle : List SettleRec := []
  functions : List FunctionRec := []
  lots : List (BitVec 64) := []
  dirInit : Bool := false
  dirs : List DirectoryRec := []
  order : List (BitVec 8) := []     -- section TYPEs in directory order (R355)
  deriving DecidableEq, Repr, Inhabited

end Sys2Proof.Machine
end

