-- ==== Sys2Proof/Config.lean ====
section
/-! DEFINITION. What one module fixes for its whole life (fuses, identity), the external functions the spec names by a
standard (ML-DSA-44, ML-KEM-768), and the FREE VALUES: constants without a body that stand for what the spec leaves open.
Nothing can be proved about a value of any of them. -/

namespace Sys2Proof.Config

/-- A free value of a 32-bit register or counter (log entry 1): applied to the state's counter `free`. -/
opaque freeWord : Nat → BitVec 32

/-- A free 64-bit value (log entry 1). -/
opaque freeLong : Nat → BitVec 64

/-- A free byte (log entry 1): what a read of corrupted raw bits finds (R286) or what a power loss leaves (R423). -/
opaque freeByte : Nat → Nat → BitVec 8

/-- The raw bits that a read of an uncorrectable location returns for one byte (R286): of its address and the byte
written there last (log entry 1). -/
opaque rawByte : Nat → BitVec 8 → BitVec 8

/-- The time by which the retired links between dies lengthen a leg of a charter, in nanoseconds: R24 and R56 let their
reduced bandwidth fail the fit proof, and no rule gives a term of the proof that holds it (log entry 132). -/
opaque linkDelay : BitVec 12 → Machine.Charter → Nat → Nat

/-- The ML-DSA-44 (FIPS 204) public key that key generation yields from a seed (R402). -/
opaque mldsaPublic : List (BitVec 8) → List (BitVec 8)

/-- ML-DSA-44 verification with an empty context string (R342, R399, R408): public key, message, signature. -/
opaque mldsaVerify : List (BitVec 8) → List (BitVec 8) → List (BitVec 8) → Bool

/-- The ML-DSA-44 signature of a message by the key pair of a seed (R402, R405, R406); the number is the draw of a
signature that is randomised. -/
opaque mldsaSign : List (BitVec 8) → List (BitVec 8) → Nat → List (BitVec 8)

/-- ML-KEM-768 (FIPS 203) encapsulation: a key and a draw give the ciphertext and the shared secret (R405). -/
opaque mlkemEncaps : List (BitVec 8) → Nat → List (BitVec 8) × BitVec 256

/-- The IDENTITY_SEED fuses (R397). -/
opaque identitySeed : BitVec 256

/-- The VENDOR_KEY fuses (R397). -/
opaque vendorKey : Fin 4 → BitVec 256

/-- The REVOKE fuses (R397). -/
opaque revoke : BitVec 4

/-- The blown bits of SVN_MIN at the start of the model (R397). -/
opaque svnMin : BitVec 6

/-- The image banks as the module leaves the factory (R398): a bank of the state without bytes holds these. -/
opaque factoryImage : Fin 2 → List (BitVec 8)

/-- The digest of the FUSES entry of a waybill (R406): the spec names what it covers and not how it is laid out. -/
opaque fuseDigest : List (BitVec 256) → BitVec 4 → BitVec 6 → BitVec 256

/-- The digest of the KEY_STORE entry of a waybill (R406), whose layout the spec does not give. -/
opaque keyStoreDigest : List (List (BitVec 8)) → BitVec 32 → BitVec 256

/-- The digest of the COMPOSITION entry of a waybill (R406), whose layout on flash the spec does not give. -/
opaque compositionDigest : List (BitVec 8) → BitVec 256

/-- The 31 bits of the TAP's IDCODE above its fixed bit 0 (R418): no rule gives a value. -/
opaque idcode : BitVec 31

/-- What the TAP's instruction register captures above its two fixed bits; its length fixes the register's (R418). -/
opaque tapCapture : List Bool

/-- The instruction that a code selects at the TAP (R418): 0 BYPASS, 1 IDCODE, 2 boundary scan, 3 any other. No rule
gives a code. -/
opaque tapInstruction : List Bool → Fin 4

/-- What the boundary-scan register captures (R418): a free value, applied to the state's counter `free`. -/
opaque boundary : Nat → List Bool

end Sys2Proof.Config
end

