-- ==== Sys2Proof/Machine/State.lean ====
section
/-! DEFINITION. The state of the module as plain data, chapter by chapter, the reasons a step can stop, and the state
after reset: the instant at which AUX3V3 and 48 V have risen on a new module and bring-up has not begun (R422). Every
default below is the reset value of its field; values the spec does not give are named in log entries 2 and 3. -/

namespace Sys2Proof.Machine

/-- Why the block stops with a fault. -/
inductive Fault where
  /-- Raised by CHANNEL_SAMPLE on stress beyond Table 17-7, where R486 says that the behaviour is not defined. Safe: the
  model stops where the hardware has no described behaviour. -/
  | beyondRatings
  deriving DecidableEq, Repr

/-- Why the block gives a command no meaning. -/
inductive Refusal where
  /-- A command not modelled: raised by an arm of `exec` alone. Safe. -/
  | notModelled (mnemonic : String)
  /-- Raised by an access to the DEBUG block while a debug path is open: R418 opens the path and no rule gives a
  register of it. Safe: the model stops. -/
  | debugRegisters
  deriving DecidableEq, Repr

/-- The march states of Table 02-5. -/
inductive MarchState where
  | empty | ready | armed | legs | verdict | settle | held | waitRepeat
  deriving DecidableEq, Repr, Inhabited

/-- A work item that is finished, with the time at which it finished (R57). -/
structure Done where
  entry : EntryRef
  time : BitVec 64
  deriving DecidableEq, Repr

/-- The march of one stall (chapter 02, R69). -/
structure March where
  state : MarchState := .empty
  cmdIgnored : Bool := false
  synced : Bool := false
  lead : Bool := false
  deputy : Bool := false
  member : Member := 0
  num : BitVec 40 := 0
  origin : BitVec 64 := 0
  leg : BitVec 8 := 0
  kind : BitVec 3 := 0
  sinceStart : BitVec 8 := 0
  repeats : BitVec 8 := 0
  verdict : CaravanVerdict := ⟨0, 0, 0, 0, 0, 0, 0⟩   -- MRC_VERDICT, MRC_CAUSES and what was broadcast with them
  hostDecision : BitVec 2 := 0
  repeatLimit : BitVec 8 := 4
  guardOvr : Word := 0
  guardMax : Word := 0
  fitValid : Bool := false
  fitEngine : BitVec 8 := 0
  fitLeg : BitVec 8 := 0
  fitExcess : Word := 0
  deriving DecidableEq, Repr

/-- Time synchronisation of one stall (R41 to R45). -/
structure Sync where
  outOfStep : Bool := false
  holdover : Bool := false
  hops : BitVec 8 := 0
  offset : BitVec 16 := 0
  last : BitVec 64 := 0             -- time of the last sync flit received or sent
  deriving DecidableEq, Repr

/-- What the sequencer of one stall holds beside the registers (R57 to R65). -/
structure Sequencer where
  continuous : Bool := false        -- START, not STOP, is in force (R68)
  ran : List EntryRef := []         -- entries of this march that have been run by their engine
  done : List Done := []            -- entries of this march that have completed
  causes : BitVec 13 := 0           -- causes recorded by this member for the current march
  reasons : List (BitVec 4 × Reason) := []   -- their reasons
  nextCauses : BitVec 13 := 0       -- causes recorded against the next march number (R65)
  nextReasons : List (BitVec 4 × Reason) := []
  haltKnown : Bool := false         -- the member knows of a halt (R61)
  stopped : Bool := false           -- the member issues no new work (R44, R61)
  verdictTick : BitVec 64 := 0      -- the tick at which the verdict exchange runs
  sentVerdict : Bool := false       -- lead: the caravan verdict is broadcast
  settles : Bool := false           -- the current march settles (R62, R66)
  noSettle : Bool := false          -- remaining legs pass as IDLE legs (R67)
  runAll : Bool := false            -- every SETTLE-leg entry runs at once (R249)
  ended : Bool := false             -- the march boundary has passed
  finished : Bool := false          -- the march's work is over and its boundary effects are done
  hold : Reason := 0                -- why the stall is in HELD without a holding verdict: DECISION_LOST, NO_TAKEOVER, SETTLE_UNCONFIRMED
  boundary : BitVec 64 := 0         -- the scheduled march boundary
  late : BitVec 64 := 0             -- latest completion of late SETTLE or IDLE work (R59)
  overrunLegs : List (BitVec 8) := []   -- legs after the verdict tick counted as guard overruns (R59)
  words : List VerdictWord := []    -- lead: the members' verdict words
  fedWords : List FederationWord := []   -- federation lead (R243)
  waiting : List Member := []       -- lead: members whose report of readiness a repeat waits for (R64, R458)
  repeatAt : Option (BitVec 64) := none  -- the announced next or repeat origin
  lastNum : Option (BitVec 40) := none   -- number of the march before
  missing : List (Member × Reason) := []   -- peers known to be missing
  left : Bool := false              -- the module has left the march: OSC156 has stopped (R33)
  deriving DecidableEq, Repr

/-- A dense array (chapter 04, R126). -/
structure DenseArray where
  op : BitVec 16 := 0
  pass : BitVec 6 := 0
  braced : Bool := false
  bank : Bool := false
  state : BitVec 4 := 0
  ops : Word := 0
  floor : Word := 0
  ballast : Word := 0
  wakes : Word := 0
  bracedCount : Word := 0
  busy : BitVec 64 := 0
  level : BitVec 7 := 0
  target : BitVec 7 := 0
  hold : Bool := false
  idleSince : BitVec 64 := 0
  deriving DecidableEq, Repr, Inhabited

/-- A gather-merge engine (chapter 05, R163). -/
structure Gme where
  op : BitVec 16 := 0
  tile : BitVec 10 := 0
  state : BitVec 4 := 0
  ops : Word := 0
  heavy : Word := 0
  segs : Word := 0
  qwait : Word := 0
  malformed : Word := 0
  busy : BitVec 64 := 0
  deriving DecidableEq, Repr, Inhabited

/-- The vector unit of a core (chapter 06, R189), its table slots and the held updates of R176. -/
structure VectorUnit where
  op : BitVec 16 := 0
  opcode : BitVec 8 := 0
  recompute : Bool := false
  state : BitVec 4 := 0
  ops : Word := 0
  recomputes : Word := 0
  dropped : Word := 0
  busy : BitVec 64 := 0
  tables : Vector (List Byte) 16 := Vector.replicate 16 []     -- [] is an empty slot
  heldTables : Vector (List Byte) 16 := Vector.replicate 16 []
  deriving DecidableEq, Repr, Inhabited

/-- A logical core. -/
structure Core where
  clock : BitVec 6 := 36            -- units of 50 MHz (R32)
  thrClock : BitVec 6 := 36         -- what the throttle decisions allow (R436)
  capClock : BitVec 6 := 36         -- what the power cap allows (R436)
  stepAt : BitVec 64 := 0           -- time of the last throttle step
  da : Vector DenseArray 2 := Vector.replicate 2 {}
  gme : Vector Gme 2 := Vector.replicate 2 {}
  vu : VectorUnit := {}
  brace : Bool := false             -- CORE_GOV.BRACE
  chooser : BitVec 10 := 350        -- threshold in force (R137)
  chooserWritten : BitVec 10 := 350 -- CORE_CHOOSER.THRESHOLD
  chooserPending : Bool := false
  toDense : Word := 0
  toGme : Word := 0
  refused : Word := 0
  deferred : Word := 0
  assay : Word := 0
  deriving DecidableEq, Repr, Inhabited

/-- One write of a batch that has been moved: its descriptor, the address its bytes were read from, the address they were
written to, and the bytes that stood there before. -/
structure MovedWrite where
  desc : Nat
  src : Option Nat
  dst : Nat
  old : List Byte
  deriving DecidableEq, Repr

/-- A batch that a copy engine has taken from its host queue. -/
structure Batch where
  first : BitVec 17                 -- QHEAD at its first slot
  cbase : BitVec 48                 -- CPY_CBASE at the take, whose slots customs has granted (R199)
  counts : List (BitVec 64)         -- COUNT of each descriptor (Table 07-4)
  moved : List MovedWrite           -- its writes in order, for a run-time denial (R214)
  recorded : Bool                   -- its completion records are written and may wait for the host (R300)
  tags : List Word
  verdict : BitVec 2
  reason : Reason
  notify : Bool
  deriving DecidableEq, Repr

/-- A copy engine (chapter 07, R219). -/
structure CopyEngine where
  index : BitVec 16 := 0
  source : Bool := false
  state : BitVec 4 := 0
  qen : Bool := false
  vector : BitVec 6 := 0
  qbase : BitVec 48 := 0
  cbase : BitVec 48 := 0
  log2 : BitVec 5 := 4
  qtail : BitVec 17 := 0
  qhead : BitVec 17 := 0
  done : Word := 0
  refused : Word := 0
  deferred : Word := 0
  bytes : BitVec 64 := 0
  lastReason : Reason := 0
  lastIndex : BitVec 16 := 0
  batch : Option Batch := none
  accepted : Nat := 0               -- descriptors accepted, completed, pending: the audit of R200
  completed : Nat := 0
  retired : Bool := false
  deriving DecidableEq, Repr, Inhabited

/-- What a child has sent of one bucket (R231): its header and the segments received. -/
structure Partial where
  member : Member
  caravan : BitVec 6
  header : SegmentHeader
  elems : List (Option (List (BitVec 48)))    -- per segment
  waiting : Nat := 0                          -- segments that wait in a buffer for the own values (R246)
  deriving DecidableEq, Repr

/-- The work of one bucket in the current march (R227 to R239). -/
structure BucketRun where
  bucket : BitVec 20
  own : Option (List (BitVec 48)) := none     -- this member's quantised elements
  tariff : BitVec 8 := 0
  maxexp : BitVec 8 := 0
  width : BitVec 6 := 0
  nonfinite : Bool := false
  saturated : Bool := false
  survey : Bool := false
  partials : List Partial := []
  sent : Bool := false                        -- the partial sum (or, at the root, the total) has been sent
  total : List (Option (List (BitVec 48))) := []   -- segments of the total received from the parent
  complete : Bool := false                    -- the complete total is at DST_ADDR
  short : Bool := false
  overflow : Bool := false                    -- NONFINITE came from DEQUANT_OVERFLOW (R232)
  known : Bool := true                        -- the tariff of this march is known (R237, R238)
  scanned : Option (BitVec 8) := none         -- survey: the own MAXEXP
  surveys : List (Member × BitVec 6 × BitVec 8) := []   -- survey: the children's MAXEXP
  surveySent : Bool := false
  index : Nat := 0                            -- the ledger entry of the bucket
  deriving DecidableEq, Repr

/-- The ledger tokens of one tree neighbour, as the receiver counts them (R246): spent on segments that arrived, returned,
and held by segments that wait in a buffer. -/
structure TokenCount where
  member : Member
  caravan : BitVec 6
  granted : Nat := 0
  returned : Nat := 0
  buffered : Nat := 0
  deriving DecidableEq, Repr

/-- The ledger of one stall (chapter 08, R248). -/
structure Ledger where
  forgetPending : Bool := false
  headroom : BitVec 4 := 2          -- LDG_CTRL.HEADROOM
  headroomPending : Bool := false
  headroomUsed : BitVec 4 := 2      -- captured at the origin (R235)
  buckets : BitVec 21 := 0
  done : Word := 0
  saturated : Word := 0
  nonfinite : Word := 0
  short : Word := 0
  surveys : Word := 0
  discarded : Word := 0
  firstBad : Word := 0
  shortMembers : Vector Byte 4 := Vector.replicate 4 0x7F
  fences : BitVec 68 := 0
  lifts : BitVec 68 := 0            -- bits whose lifting waits for the next origin (R242)
  fallback : Word := 0
  norm2 : Word := 0
  auditFail : Bool := false
  free : BitVec 10 := 512
  lastReason : Reason := 0
  lastBucket : BitVec 16 := 0
  runs : List BucketRun := []
  norm : BitVec 704 := 0            -- norm partial (R234)
  tokens : List TokenCount := []    -- per neighbour (R246)
  shortBefore : List (BitVec 6 × Member) := []   -- short members of the previous attempt (R241)
  subst : List (Member × Member) := []   -- fenced members and the standbys that took their index (R241, R460)
  retired : Bool := false
  deriving DecidableEq, Repr

/-- The verdict record that lead and deputy keep (R262). -/
structure VerdictRecord where
  march : BitVec 40
  verdict : CaravanVerdict
  hostDecision : BitVec 2
  step : BitVec 40
  deriving DecidableEq, Repr

/-- A coefficient update that is held (R254, R361): its first group, its records, and its TAU and NSCALE if it has them. -/
structure HeldCoef where
  first : Nat
  records : List (BitVec 512)
  clip : Option (Word × Word)
  deriving DecidableEq, Repr

/-- Settlement of one stall (chapter 09, R277). -/
structure Settlement where
  entry : BitVec 16 := 0
  compat : Bool := false
  state : BitVec 4 := 0
  step : BitVec 40 := 1
  clip : Word := 0
  elems : BitVec 64 := 0
  frozen : Word := 0
  late : Word := 0
  last : Word := 0
  coef : List (BitVec 512) := []    -- coefficient records in force (R252)
  tau : Word := 0
  nscale : Word := 0
  heldCoef : List HeldCoef := []    -- held updates, oldest first (R254)
  record : Option VerdictRecord := none
  settledWords : List Member := []  -- lead: SETTLED words received (R262)
  asked : Option Nat := none        -- record requests sent while in DECISION_LOST (R263)
  requests : List Member := []      -- lead: members that have asked
  started : Bool := false           -- this march's settlement has begun
  settled : Bool := false           -- this member's SETTLED word is sent
  deriving DecidableEq, Repr

/-- The tally counters of one stall (chapter 09, R264 to R271, R277). -/
structure Tally where
  holdEn : BitVec 4 := 0
  irqEn : BitVec 4 := 0
  vector : BitVec 6 := 0
  warm : BitVec 8 := 32
  a : BitVec 4 := 6
  used : BitVec 32 := 0x00002006    -- TLY_CTRL as captured at the origin (R270)
  k : Word := 0x40C00000
  skipLimit : BitVec 8 := 3
  alarm : BitVec 4 := 0
  loss : Word := 0
  mean : Word := 0
  var : Word := 0
  samples : Word := 0
  skipSat : Word := 0
  skipNf : Word := 0
  repeats : Word := 0
  nfLoss : Word := 0
  skipRun : Word := 0
  groupNf : List Word := []         -- TLY_GROUP_NF_g; missing entries are 0
  deriving DecidableEq, Repr

/-- The lot generator of one stall (R272 to R278). -/
structure Lot where
  seed : BitVec 64 := 0             -- in force
  written : BitVec 64 := 0          -- LOT_SEED as written
  pending : Bool := false
  busy : Bool := false
  testKey : BitVec 64 := 0
  ctr : Vector Word 4 := Vector.replicate 4 0
  result : Vector Word 4 := Vector.replicate 4 0
  deriving DecidableEq, Repr

/-- The charter page of one stall (chapter 12, R363). -/
structure CharterPage where
  autoload : Bool := true
  cmdIgnored : Bool := false
  loader : BitVec 4 := 0
  pendingSlot : Bool := false
  activeSlot : Bool := false
  refusalReason : Reason := 0
  refusalDetail : Reason := 0
  refusalAt : Word := 0
  slotAStatus : Word := 0
  slotBStatus : Word := 0
  keyIndex : BitVec 4 := 0
  signedOnly : Bool := false
  portSlot : Bool := false
  portWord : BitVec 28 := 0
  loads : Word := 0
  refusals : Word := 0
  lockedWrites : Word := 0
  active : Option Charter := none
  pending : Option Charter := none
  checking : Option Charter := none  -- the winner of R344 while the loader is in CHECK
  oddFields : List (Nat × Nat) := []  -- its reserved fields outside the records a Charter keeps: section, item
  epochs : List (Member × Word × BitVec 64) := []  -- lead: latest ACCEPTED word of each member (R357)
  assembled : Bool := false          -- lead: START has held every member's word since the load in EMPTY (R358)
  scheduled : Bool := false
  swapAt : Option (BitVec 64) := none
  deriving DecidableEq, Repr

/-- One entry of the composition table (Table 13-4). -/
structure Composition where
  owner : Option (Option LinkId) := none   -- none: absent; some none: RELAY; some (some l): link l
  alt : Option LinkId := none
  watchers : BitVec 4 := 0
  groups : BitVec 8 := 0
  engines : BitVec 8 := 0
  ports : BitVec 8 := 0
  nearFirst : BitVec 10 := 0
  nearCount : BitVec 10 := 0
  seraiFirst : BitVec 10 := 0
  seraiCount : BitVec 10 := 0
  nearShares : BitVec 6 := 0
  seraiShares : BitVec 6 := 0
  cxlShares : BitVec 5 := 0
  ledger : Bool := false
  test : Bool := false
  policy : BitVec 8 := 0             -- CHT_POLICY as composed
  deriving DecidableEq, Repr, Inhabited

/-- The STALL page of one stall (chapter 13, R391). -/
structure StallPage where
  state : BitVec 4 := 0              -- 0 ABSENT, 1 RESETTING, 2 COMPOSED, 3 STRANDED
  comp : Composition := {}           -- composition in force
  swapped : Bool := false            -- ownership has passed to the alternate (R376)
  armed : Bool := false
  hbTimeout : BitVec 8 := 0
  hbLast : BitVec 64 := 0
  resetAt : Option (BitVec 64) := none   -- start of the stall reset in progress (R372)
  vec : Word := 0
  vecEn : BitVec 4 := 0
  deferred : Word := 0
  refused : Word := 0
  wait : Word := 0
  last : Word := 0
  resets : Word := 0
  deriving DecidableEq, Repr

/-- A post (R383, R392). -/
structure Post where
  buf : Vector Byte 256 := Vector.replicate 256 0
  len : BitVec 9 := 0
  replyLen : BitVec 9 := 0
  tag : BitVec 8 := 0
  claim : Option LinkId := none
  relayClaim : Bool := false
  full : Bool := false
  sender : Option LinkId := none     -- the link whose SEND is being served
  ackDone : Bool := false
  ackTag : BitVec 8 := 0
  ackCode : Reason := 0
  reject : Word := 0
  sent : Nat := 0                    -- messages sent and acknowledged: the audit of R451
  acked : Nat := 0
  deriving DecidableEq, Repr, Inhabited

/-- A region of a stall's customs table (R412, R421). -/
structure Region where
  valid : Bool := false
  tier : BitVec 3 := 0
  kind : BitVec 3 := 0
  guarded : Bool := false
  perm : BitVec 4 := 0
  core : BitVec 5 := 0
  system : Bool := false
  va : BitVec 48 := 0
  size : BitVec 48 := 0
  place : BitVec 64 := 0
  deriving DecidableEq, Repr, Inhabited

/-- Customs of one stall (chapter 14, R421). -/
structure Customs where
  regions : List (BitVec 11 × Region) := []   -- valid entries, by index, rising
  locked : Bool := false
  pass : Bool := false
  denied : Word := 0
  lastCause : BitVec 4 := 0
  lastRegion : BitVec 11 := 0x7FF
  lastUnit : BitVec 8 := 0
  lastVa : BitVec 48 := 0
  digest : BitVec 256 := 0
  debugOpen : Bool := false           -- debug state STALL (R418)
  deriving DecidableEq, Repr

/-- Checkpoints, mirror and takeover of one stall (chapter 16, R472). -/
structure Service where
  period : BitVec 16 := 0
  ckptState : BitVec 4 := 0
  twoGen : Bool := false
  ckptMarch : BitVec 40 := 0
  ckptCommon : BitVec 40 := 0
  gen : Bool := false                 -- the generation the job in progress writes (R462)
  mirrorMember : Member := 0x7F
  mirrorCurrent : Bool := false       -- a mirror of that member is kept, as of mirrorMarch (R459)
  mirrorMarch : BitVec 40 := 0
  wait : BitVec 16 := 10
  lost : Member := 0
  standby : Member := 0
  kind : BitVec 2 := 0
  deriving DecidableEq, Repr

/-- An exchange buffer of the Tollgate (R403): input, output and its length. -/
structure Exchange where
  input : List Byte := []
  output : List Byte := []
  deriving DecidableEq, Repr, Inhabited

/-- A stall. -/
structure StallState where
  march : March := {}
  sync : Sync := {}
  seq : Sequencer := {}
  ledger : Ledger := {}
  settle : Settlement := {}
  tally : Tally := {}
  lot : Lot := {}
  charter : CharterPage := {}
  page : StallPage := {}
  posts : Vector Post 24 := Vector.replicate 24 {}      -- non-secure
  secure : Vector Post 8 := Vector.replicate 8 {}       -- secure
  customs : Customs := {}
  service : Service := {}
  xchg : List (BitVec 8 × Exchange) := []               -- exchange buffers by link and post
  deriving DecidableEq, Repr

/-- Where a byte lies after translation (R413). -/
inductive Place where
  | near (bay off : Nat)
  | serai (bay off : Nat) (guarded : Bool)
  | staging (core off : Nat)
  | host (link addr : Nat)
  deriving DecidableEq, Repr

/-- A byte that an engine writes to a host-visible line and that waits for the host's response (R300). -/
structure HeldByte where
  writer : Writer
  stall : Stall
  va : Nat
  byte : Byte
  deriving DecidableEq, Repr

/-- A unit whose permanent fault is found and whose retirement is not complete (R290, steps 1 to 3): FAILING. -/
structure FailingUnit where
  unit : MemUnit
  bay : BitVec 10
  row : BitVec 18
  reason : Reason
  deriving DecidableEq, Repr

/-- A near-memory stack (R304). -/
structure NearStack where
  scrubbing : Bool := false
  state : BitVec 4 := 0
  pcs : Vector (BitVec 2) 32 := Vector.replicate 32 0
  ce : Word := 0
  ue : Word := 0
  transient : Word := 0
  err : BitVec 64 := 0
  passes : BitVec 16 := 0
  scrubBay : BitVec 10 := 0
  ceLimit : BitVec 16 := 4096
  bytes : BitVec 64 := 0
  recent : Vector (List (BitVec 64 × Nat)) 32 := Vector.replicate 32 []   -- corrected symbols and their times (R285)
  scrubs : Vector Nat 32 := Vector.replicate 32 0           -- blocks that the scrub has read of each unit (R287)
  deriving DecidableEq, Repr, Inhabited

/-- A Serai channel (R304). -/
structure SeraiChannel where
  scrubbing : Bool := false
  braceHold : Bool := false
  state : BitVec 4 := 0
  ce : Word := 0
  ue : Word := 0
  transient : Word := 0
  err : BitVec 64 := 0
  dropped : Word := 0
  held : Word := 0
  passes : BitVec 16 := 0
  scrubBay : BitVec 10 := 0
  ceLimit : BitVec 16 := 4096
  bytes : BitVec 64 := 0
  recent : List (BitVec 64 × Nat) := []
  scrubs : Nat := 0
  buffer : List (Place × Byte) := []   -- brace write buffer, oldest first (R301)
  waiting : List (Place × Byte) := []  -- writes that wait for room
  deriving DecidableEq, Repr, Inhabited

/-- The rebuild of a parity group (R291, R304): its cursor, the lost unit whose data the parity slots of the rows before
the cursor hold, and whether every row is done. -/
structure Rebuild where
  active : Bool := false
  member : Option MemUnit := none
  whole : Bool := false
  bay : BitVec 10 := 0
  row : BitVec 18 := 0
  deriving DecidableEq, Repr, Inhabited

/-- The memory tiers. -/
structure Tiers where
  near : Vector NearStack 8 := Vector.replicate 8 {}
  nearGroups : Vector (BitVec 2) 16 := Vector.replicate 16 0
  nearRebuilds : Vector Rebuild 16 := Vector.replicate 16 {}   -- one for each stripe group
  nearTurn : Fin 16 := 0                                       -- the group whose row is rebuilt next (R302)
  serai : Vector SeraiChannel 24 := Vector.replicate 24 {}
  seraiGroup : BitVec 2 := 0
  seraiRebuild : Rebuild := {}
  repeatReads : List (MemUnit × BitVec 10 × BitVec 18) := []   -- locations whose repeat read is scheduled (R285)
  failing : List FailingUnit := []                             -- units in steps 1 to 3 of R290
  snoops : List HeldByte := []                                 -- writes that wait for a host, oldest first (R300)
  deriving DecidableEq, Repr

/-- A flit that waits: in a replay window or held by a bandit delay. -/
structure SentFlit where
  seq : BitVec 12
  flit : Flit
  time : BitVec 64
  deriving DecidableEq, Repr

/-- A flit that waits to leave on a port: this module's own, or one in a receive buffer of the port it arrived on
(R313). -/
structure QueuedFlit where
  flit : Flit
  buffer : Option PortId := none
  deriving DecidableEq, Repr

/-- A route port (chapter 11, R338). -/
structure Port where
  recalSkipped : BitVec 8 := 0
  banditDenied : Bool := false
  detour : Bool := false
  sideDir : Bool := false
  state : BitVec 4 := 0
  auto : Bool := true
  recalDir : Bool := false
  recalLane : BitVec 5 := 0
  txLanes : Vector (BitVec 2) 18 := Vector.ofFn fun i => if i.val < 16 then 0 else 1
  rxLanes : Vector (BitVec 2) 18 := Vector.ofFn fun i => if i.val < 16 then 0 else 1
  neighbour : Option IdentMessage := none
  delay : Word := 0
  fecCe : Word := 0
  fecUe : Word := 0
  replays : Word := 0
  auditFail : Bool := false
  audits : BitVec 8 := 0
  lastReason : Reason := 0
  lastDir : Bool := false
  lastLane : BitVec 5 := 0
  tx : BitVec 64 := 0
  rx : BitVec 64 := 0
  deriving DecidableEq, Repr, Inhabited

/-- The optical side of a route port: interlock, mating, light, and the three laser sources (R27 to R32, R329 to
R332). -/
structure Optics where
  interlock : Bool := false
  mated : Bool := false
  lightIn : Bool := false
  sources : Vector (BitVec 2) 3 := Vector.replicate 3 0   -- A, B, standby
  onStandby : Option (Fin 2) := none                      -- the source whose lanes the standby lights
  deriving DecidableEq, Repr, Inhabited

/-- The link layer and fault injection of a route port (R309 to R314, R333 to R335). -/
structure LinkLayer where
  txSeq : BitVec 12 := 0
  rxSeq : BitVec 12 := 0
  nakPending : Bool := false
  window : List SentFlit := []                  -- unacknowledged flits, oldest first
  credits : Vector Nat 5 := Vector.replicate 5 0     -- held at the transmitter
  used : Vector Nat 5 := Vector.replicate 5 0        -- spent in all by this transmitter
  granted : Vector Nat 5 := Vector.replicate 5 0     -- granted in all, as a receiver
  spent : Vector Nat 5 := Vector.replicate 5 0       -- spent in all by the neighbour
  occupied : Vector Nat 5 := Vector.replicate 5 0    -- receive buffers in use
  banditEn : Bool := false
  banditAction : BitVec 2 := 0
  banditMask : BitVec 5 := 0
  banditDelay : BitVec 8 := 0
  banditRate : Word := 0
  banditSeed : BitVec 64 := 0
  offered : Nat := 0                            -- flits offered to the bandit
  injected : Word := 0
  heldFlits : List Flit := []
  heldUntil : BitVec 64 := 0
  laneUe : Vector Nat 18 := Vector.replicate 18 0
  laneUeAt : Vector (BitVec 64) 18 := Vector.replicate 18 0
  recal : Vector (Option (Fin 18)) 2 := Vector.replicate 2 none   -- lane in recalibration: transmit, receive
  recalNext : Fin 36 := 0                       -- the next lane in turn: transmit lanes, then receive lanes (R326)
  switches : List (BitVec 12 × Fin 18) := []    -- announced switches: sequence number and failing lane (R324)
  queue : List QueuedFlit := []                 -- flits that wait for a credit, for the window or for a bandit hold
  reordered : Option Flit := none               -- a flit that follows the next one (R334)
  stuck : Nat := 0                              -- replays without progress in ACK (R327)
  injectAt : Vector (Option (BitVec 64)) 4 := Vector.replicate 4 none   -- last INJECTED record of each action (R335)
  injectCount : Vector Nat 4 := Vector.replicate 4 0                    -- injections since that record
  returning : Bool := false                     -- usable again from the next march origin (R327)
  deriving DecidableEq, Repr, Inhabited

/-- The relay registers of RP0 (R322, R323, R339). -/
structure Relay where
  vector : BitVec 6 := 0
  len : BitVec 9 := 0
  member : Member := 0x7F
  op : BitVec 2 := 0
  target : BitVec 24 := 0
  data : Word := 0
  busy : Bool := false
  statusMember : Member := 0
  lost : BitVec 8 := 0
  result : BitVec 3 := 0
  events : List (Member × BitVec 6) := []
  buf : Vector Byte 256 := Vector.replicate 256 0
  issuedAt : BitVec 64 := 0
  stall : Option Stall := none
  deriving DecidableEq, Repr

/-- The route ports and the caravan fabric. -/
structure Fabric where
  ports : Vector Port 8 := Vector.replicate 8 {}
  optics : Vector Optics 8 := Vector.replicate 8 {}
  links : Vector LinkLayer 8 := Vector.replicate 8 {}
  relay : Relay := {}
  delivered : List (Stall × BitVec 54) := []     -- identities delivered in the attempt (R310)
  got : List ((Stall × Nat) × Nat) := []
  inbound : List ((Stall × BitVec 32) × List (Nat × Bool × List Byte)) := []   -- LEDGER messages that are not yet whole:
                                                 -- by source, class and MSG, the flits received by INDEX with LAST
  sentMsgs : Vector (Vector Nat 5) 8 := Vector.replicate 8 (Vector.replicate 5 0)   -- per stall, messages of a class in
                                                 -- the attempt (R310)
  deriving DecidableEq, Repr

/-- A host link (chapter 13, R391). -/
structure HostLink where
  ideCm : Bool := false
  ideIo : Bool := false
  mem : Bool := false
  cxl3 : Bool := false
  flit256 : Bool := false
  rate : BitVec 2 := 0
  width : BitVec 3 := 0
  foreign : Word := 0
  foreignLast : Word := 0
  ca : Word := 0
  advisory : Bool := false           -- AER Advisory Non-Fatal Error Status and Completer Abort Status (R384)
  notSecureAt : Option (BitVec 64) := none   -- time of the last NOT_SECURE record of this link (R386)
  secret : Option (BitVec 256) := none       -- IDE secret held between KEX and COMMIT (R405)
  keys : Option (BitVec 1024) := none        -- the four IDE keys in force (R405)
  l2 : Bool := false                 -- taken to L2 for STANDBY and held (R444)
  deriving DecidableEq, Repr, Inhabited

/-- A die: its Quartermaster's core map and core states (R37) and its D2D links are in `Anatomy`. -/
structure Die where
  map : Vector (BitVec 4) 8 := Vector.ofFn fun i => BitVec.ofNat 4 i.val
  states : Vector (BitVec 2) 9 := Vector.ofFn fun i => if i.val = 8 then 1 else 0
  deriving DecidableEq, Repr, Inhabited

/-- A record of the retired list (Table 16-8); `rejected` where a test or training of a bring-up found the unit, not a
fault at run time (R17, R288). -/
structure Retired where
  kind : BitVec 8
  index : BitVec 16
  reason : Reason
  time : BitVec 64
  rejected : Bool := false
  deriving DecidableEq, Repr

/-- Dies, links between dies, clocks (chapter 01). -/
structure Anatomy where
  dies : Vector Die 4 := Vector.replicate 4 {}
  d2d : Vector Bool 12 := Vector.replicate 12 false      -- true: retired
  unlocked : List (Fin 100) := []                        -- clock domains whose lock is lost
  osc156 : Bool := true
  heldFaults : List (DieId × Fin 9 × Reason) := []       -- core faults held while the die's Quartermaster restarts (R466)
  deriving DecidableEq, Repr

/-- A component of an image that runs, as the waybill measures it (R400, R406). -/
structure Measure where
  bank : Bool := false
  digest : BitVec 256 := 0
  svn : BitVec 8 := 0
  seq : BitVec 64 := 0
  deriving DecidableEq, Repr, Inhabited

/-- The composition of a module as it leaves the factory: stall 0 owns everything on link 0 (log entry 13). -/
def factoryStall : Composition :=
  { owner := some (some 0), groups := 0xFF, engines := 0xFF, ports := 0xFF, nearFirst := 0, nearCount := 640
    seraiFirst := 0, seraiCount := 992, nearShares := 32, seraiShares := 32, cxlShares := 16, ledger := true }

/-- The Tollgate's fuses, flash and state (chapter 14). -/
structure Tollgate where
  bank : Bool := false                -- running image bank
  svn : BitVec 8 := 0                 -- SVN of the running image
  otherValid : Bool := false
  revoked : BitVec 4 := 0             -- REVOKE bits burned in this model's life, over those of Config
  svnRaise : BitVec 7 := 0            -- SVN_MIN raised to this value (R409)
  banks : Vector (List Byte) 2 := Vector.replicate 2 []    -- image banks on flash
  keys : Vector (List Byte) 16 := Vector.replicate 16 []   -- owner key store: public keys; [] is an empty slot
  counter : Word := 0                 -- service counter
  identityErased : Bool := false
  debugFull : Bool := false
  mode : BitVec 2 := 0                -- bifurcation mode in force
  nextMode : BitVec 2 := 0            -- bifurcation mode of the table on flash
  table : Vector Composition 8 := Vector.ofFn fun i => if i.val = 0 then factoryStall else {}   -- on flash
  thresholds : Option (Byte × Byte × Byte) := none  -- THROTTLE_C, HALT_C, COOL_MAX_C stored on flash (R410)
  restart : List (BitVec 4) := []     -- components that remain to be restarted from a new image (R466)
  restarting : Option (BitVec 4) := none
  restartAt : BitVec 64 := 0
  stranded : Bool := false
  comps : Vector Measure 6 := Vector.replicate 6 {}   -- what runs: Waystation, QM0 to QM3, Tollgate (R400, R406)
  deriving DecidableEq, Repr

/-- The IDENT registers of starts and straps (R447). -/
structure Starts where
  scope : BitVec 4 := 0
  channel : BitVec 8 := 0
  cause : BitVec 4 := 1
  why : BitVec 2 := 0
  waitImage : Bool := false
  step : BitVec 4 := 0
  lastFail : BitVec 8 := 0
  fails : BitVec 2 := 0
  seatCode : BitVec 8 := 0
  seat : BitVec 4 := 0
  seatMarginal : Bool := false
  bootsrc : BitVec 2 := 0
  clkmode : Bool := false
  t0 : BitVec 64 := 0
  installed : Bool := false           -- an image was accepted by INSTALL (R401)
  deriving DecidableEq, Repr

/-- A measured channel of the Waystation (R435). -/
structure Channel where
  y : BitVec 16 := 0
  samples : List (BitVec 16) := []
  seen : Bool := false
  deriving DecidableEq, Repr, Inhabited

/-- What the Waystation's retention memory holds of one stall in STANDBY (R444). -/
structure Retained where
  march : March := {}
  ledger : Ledger := {}
  tally : Tally := {}
  step : BitVec 40 := 1
  seed : BitVec 64 := 0
  deriving DecidableEq, Repr, Inhabited

/-- Power and the Waystation (chapter 15, R448). -/
structure Power where
  state : BitVec 4 := 1
  bringup : BitVec 4 := 0
  brace : Bool := false
  thermalHalt : Bool := false
  pumpReq : Bool := true
  interlock : Bool := false
  tripLatch : Bool := false
  alarm : BitVec 9 := 0
  braces : Word := 0
  braceLast : Word := 0
  halts : Word := 0
  coolMax : BitVec 8 := 45
  haltC : BitVec 8 := 110
  throttleC : BitVec 8 := 103
  channels : Vector Channel 64 := Vector.replicate 64 {}
  wake : Vector (BitVec 16) 8 := Vector.replicate 8 0
  vote : Vector (BitVec 2) 8 := Vector.replicate 8 0
  braceAt : BitVec 64 := 0
  capSince : Option (BitVec 64) := none
  capped : Bool := false
  limited : Bool := false             -- the power limit has acted and has not ended (R436)
  hotFlags : Vector Bool 64 := Vector.replicate 64 false   -- channels whose throttle is in force (R436)
  slowSince : Vector (Option (BitVec 64)) 36 := Vector.replicate 36 none  -- since when a core at 0.9 GHz reads 105 °C (R436)
  coolSince : Option (BitVec 64) := none   -- since when every temperature channel reads below 95 °C (R437)
  means : List Nat := []              -- input power of the last 10 ms, one value each 20 µs, newest first
  retained : Option (Vector Retained 8 × Vector (BitVec 10) 32) := none   -- saved state in STANDBY, with the choosers (R444)
  waking : Bool := false              -- the bring-up in progress follows a wake event (R444)
  supplyDone : Bool := false          -- the brace in force has passed its 2 ms (R441)
  standbyAt : BitVec 64 := 0          -- time at which STANDBY was entered
  aux : Bool := true                  -- AUX3V3 is within its range
  coolBad : Bool := false             -- COOL_T reads open or shorted (R481)
  deriving DecidableEq, Repr

/-- The levels of the pins the module drives or samples (R433, R473 to R481). -/
structure Pins where
  faultN : Bool := true
  alertN : Bool := true
  thermtripN : Bool := true
  perstN : Bool := true
  pwrok : Bool := false
  lasers : Bool := false              -- the laser rail is enabled
  deriving DecidableEq, Repr

/-- The controller states of IEEE 1149.1 (R418). -/
inductive TapState where
  | reset | idle
  | selectDr | captureDr | shiftDr | exit1Dr | pauseDr | exit2Dr | updateDr
  | selectIr | captureIr | shiftIr | exit1Ir | pauseIr | exit2Ir | updateIr
  deriving DecidableEq, Repr, Inhabited

/-- The JTAG TAP (R418, R476). -/
structure Tap where
  state : TapState := .reset
  tck : Bool := false
  instr : Fin 4 := 1                  -- 0 BYPASS, 1 IDCODE, 2 the boundary-scan instructions, 3 any other
  irShift : List Bool := []
  shift : List Bool := []
  tdo : Option Bool := none           -- none: not driven
  deriving DecidableEq, Repr

/-- The fault log (chapter 16, R468, R472). -/
structure FaultLog where
  ring : List (BitVec 256) := []      -- newest first, at most 1,024
  newest : Word := 0
  injected : Word := 0
  retired : List Retired := []        -- the retired list, non-volatile
  auditFails : List (BitVec 16 × BitVec 64) := []   -- unit codes and times of audit failures (R451)
  deriving DecidableEq, Repr

/-- What the block sends: a word to a member, a flit on a port, an interrupt, an answer. The model's own record. -/
inductive Out where
  | verdictWord (s : Stall) (w : VerdictWord)
  | caravanVerdict (s : Stall) (v : CaravanVerdict)
  | federationWord (s : Stall) (w : FederationWord)
  | halt (s : Stall) (code : BitVec 4) (reason : Reason)
  | haltBroadcast (s : Stall)
  | relayed (s : Stall) (c : RelayedCommand)
  | sync (s : Stall) (p : PortId) (child : Member) (caravan : BitVec 6) (stamp : BitVec 64) (hops : BitVec 8)
  | settled (s : Stall) (march step : BitVec 40)
  | late (s : Stall) (time : BitVec 64)
  | ready (s : Stall)
  | recordRequest (s : Stall)
  | recordAnswer (s : Stall) (m : Member) (r : VerdictRecord)
  | accepted (s : Stall) (epoch : Word) (seq : BitVec 64)
  | withdraw (s : Stall)
  | resendWords (s : Stall)
  | token (s : Stall) (dst : Member) (caravan : BitVec 6) (n : Nat)
  | totals (s : Stall) (standby : Member) (bucket : BitVec 20)
  | flit (p : PortId) (f : Flit)
  | nak (p : PortId) (ack : BitVec 12)
  | credit (p : PortId) (cls : Fin 5) (n : Nat)
  | audit (p : PortId) (cls : Fin 5) (granted spent held : Nat)
  | retire (p : PortId) (lane : Fin 18) (seq : BitVec 12)
  | ident (p : PortId) (m : IdentMessage)
  | probe (p : PortId)
  | relayRequest (m : Member) (op : RelayOp)
  | relayResponse (s : Stall) (m : Member) (result : BitVec 3) (data : Word)
  | relayEvent (s : Stall) (vector : BitVec 6)
  | checkpoint (s : Stall) (march : BitVec 40)
  | mirror (s : Stall) (march : BitVec 40)
  | msix (l : LinkId) (entry : Nat)
  | errCor (l : LinkId)
  | configRetry (l : LinkId)
  | configDone (l : LinkId)
  | memData (l : LinkId) (data : List Byte)
  | snoop (l : LinkId) (address : BitVec 48)
  | mctp (data : Word)
  | busError (r : Requester)
  deriving DecidableEq, Repr

/-- The state of the module. -/
structure State where
  pending : List Instr := []
  out : List Out := []                 -- newest last
  free : Nat := 0
  time : BitVec 64 := 0                -- the timebase (R39)
  data : Word := 0                     -- data of the last control-window read
  held : List (Nat × Word) := []       -- written low halves by requester and pair (R9), sorted by key
  caught : List (Nat × Word) := []     -- captured high halves by requester and pair (R10), sorted by key
  mem : List Host.Cell := []           -- every byte of every tier (Machine/Ops.lean), canonical
  anatomy : Anatomy := {}
  stalls : Vector StallState 8 := Vector.replicate 8 {}
  cores : Vector Core 32 := Vector.replicate 32 {}
  engines : Vector CopyEngine 8 := Vector.replicate 8 {}
  tiers : Tiers := {}
  fabric : Fabric := {}
  hosts : Vector HostLink 4 := Vector.replicate 4 {}
  arbiter : Vector Stall 6 := Vector.replicate 6 7   -- per resource, the stall last served with borrowed capacity (R379)
  tollgate : Tollgate := {}
  starts : Starts := {}
  power : Power := {}
  pins : Pins := {}
  tap : Tap := {}
  log : FaultLog := {}
  deriving DecidableEq, Repr

/-- The module right after reset: power has come up on a new module (R422) and no command has been served. -/
def State.reset : State := {}

end Sys2Proof.Machine
end

