-- ==== Sys2Proof/Machine/Ops.lean ====
section
/-! DEFINITION. The named operations on the state that every family uses: updating one stall, core, engine, port or
link; memory and its placement (R281, R282); customs (R412 to R414); the fault log (R468); interrupts (R388, R389);
free values (log entry 1). -/

namespace Sys2Proof.Machine

/-! ### One part of the state -/

def State.stall (s : State) (i : Stall) : StallState := s.stalls[i]

def State.modStall (s : State) (i : Stall) (f : StallState → StallState) : State :=
  { s with stalls := s.stalls.set i (f s.stalls[i]) }

def State.core (s : State) (i : CoreId) : Core := s.cores[i]

def State.modCore (s : State) (i : CoreId) (f : Core → Core) : State :=
  { s with cores := s.cores.set i (f s.cores[i]) }

def State.engine (s : State) (i : EngineId) : CopyEngine := s.engines[i]

def State.modEngine (s : State) (i : EngineId) (f : CopyEngine → CopyEngine) : State :=
  { s with engines := s.engines.set i (f s.engines[i]) }

def State.host (s : State) (i : LinkId) : HostLink := s.hosts[i]

def State.modHost (s : State) (i : LinkId) (f : HostLink → HostLink) : State :=
  { s with hosts := s.hosts.set i (f s.hosts[i]) }

def State.port (s : State) (i : PortId) : Port := s.fabric.ports[i]

def State.modPort (s : State) (i : PortId) (f : Port → Port) : State :=
  { s with fabric := { s.fabric with ports := s.fabric.ports.set i (f s.fabric.ports[i]) } }

def State.optic (s : State) (i : PortId) : Optics := s.fabric.optics[i]

def State.modOptic (s : State) (i : PortId) (f : Optics → Optics) : State :=
  { s with fabric := { s.fabric with optics := s.fabric.optics.set i (f s.fabric.optics[i]) } }

def State.lnk (s : State) (i : PortId) : LinkLayer := s.fabric.links[i]

def State.modLnk (s : State) (i : PortId) (f : LinkLayer → LinkLayer) : State :=
  { s with fabric := { s.fabric with links := s.fabric.links.set i (f s.fabric.links[i]) } }

def State.modMarch (s : State) (i : Stall) (f : March → March) : State :=
  s.modStall i fun t => { t with march := f t.march }

def State.modSeq (s : State) (i : Stall) (f : Sequencer → Sequencer) : State :=
  s.modStall i fun t => { t with seq := f t.seq }

def State.modSync (s : State) (i : Stall) (f : Sync → Sync) : State :=
  s.modStall i fun t => { t with sync := f t.sync }

def State.modLedger (s : State) (i : Stall) (f : Ledger → Ledger) : State :=
  s.modStall i fun t => { t with ledger := f t.ledger }

def State.modSettle (s : State) (i : Stall) (f : Settlement → Settlement) : State :=
  s.modStall i fun t => { t with settle := f t.settle }

def State.modTally (s : State) (i : Stall) (f : Tally → Tally) : State :=
  s.modStall i fun t => { t with tally := f t.tally }

def State.modLot (s : State) (i : Stall) (f : Lot → Lot) : State :=
  s.modStall i fun t => { t with lot := f t.lot }

def State.modCharter (s : State) (i : Stall) (f : CharterPage → CharterPage) : State :=
  s.modStall i fun t => { t with charter := f t.charter }

def State.modPage (s : State) (i : Stall) (f : StallPage → StallPage) : State :=
  s.modStall i fun t => { t with page := f t.page }

def State.modCustoms (s : State) (i : Stall) (f : Customs → Customs) : State :=
  s.modStall i fun t => { t with customs := f t.customs }

def State.modService (s : State) (i : Stall) (f : Service → Service) : State :=
  s.modStall i fun t => { t with service := f t.service }

def State.modStack (s : State) (i : Fin 8) (f : NearStack → NearStack) : State :=
  { s with tiers := { s.tiers with near := s.tiers.near.set i (f s.tiers.near[i]) } }

def State.modChannel (s : State) (i : Fin 24) (f : SeraiChannel → SeraiChannel) : State :=
  { s with tiers := { s.tiers with serai := s.tiers.serai.set i (f s.tiers.serai[i]) } }

/-- A post of a stall, secure or not; secure posts are 0 to 7. -/
def State.post (s : State) (i : Stall) (secure : Bool) (n : Fin 24) : Post :=
  if secure then (s.stall i).secure.getD n.val {} else (s.stall i).posts[n]

def State.modPost (s : State) (i : Stall) (secure : Bool) (n : Fin 24) (f : Post → Post) : State :=
  s.modStall i fun t =>
    if secure then
      (if h : n.val < 8 then { t with secure := t.secure.set n.val (f t.secure[n.val]) } else t)
    else { t with posts := t.posts.set n (f t.posts[n]) }

/-- Append what the block sends. -/
def State.send (s : State) (o : Out) : State := { s with out := s.out ++ [o] }

/-- Draw a free word (log entry 1). -/
def State.drawWord (s : State) : Word × State := (Config.freeWord s.free, { s with free := s.free + 1 })

/-- What returns the module from IDLE to ACTIVE (R443): a START, SINGLE or LOAD, or an arriving route transfer, ledger segment
or relay request. -/
def State.rouse (s : State) : State :=
  if s.power.state = 3 then { s with power := { s.power with state := 2 } } else s

/-- Move the timebase to an instant, never back (R39). -/
def State.atTime (s : State) (t : BitVec 64) : State := { s with time := maxU s.time t }

/-- UNIT of a physical core (Table 16-8). -/
def coreUnit (d : DieId) (pc : Fin 9) : BitVec 16 := BitVec.ofNat 16 (16 * d.val + pc.val)

/-- UNIT of the physical core behind a logical core (R15, R37, Table 16-8). -/
def State.unitOfCore (s : State) (k : CoreId) : BitVec 16 :=
  let d : DieId := ⟨k.val / 8, by omega⟩
  BitVec.ofNat 16 (16 * d.val + ((s.anatomy.dies.get d).map.get ⟨k.val % 8, Nat.mod_lt _ (by decide)⟩).toNat)

/-- The stalls. -/
def allStalls : List Stall := List.finRange 8

/-- Apply an update for every item of a list in order. -/
def forEach {α : Type} (l : List α) (s : State) (f : State → α → State) : State := l.foldl f s

/-! ### Memory -/

/-- Read a cell; an unlisted address reads as zero (log entry 6). -/
def memGet (a : Nat) : List Host.Cell → Byte
  | [] => 0
  | (b, v) :: l => if a = b then v else memGet a l

/-- Write a cell and keep the list sorted, without entries of value zero. -/
def memPut (a : Nat) (v : Byte) : List Host.Cell → List Host.Cell
  | [] => if v = 0 then [] else [(a, v)]
  | (b, w) :: l =>
    if a < b then (if v = 0 then (b, w) :: l else (a, v) :: (b, w) :: l)
    else if a = b then (if v = 0 then l else (a, v) :: l)
    else (b, w) :: memPut a v l

/-- The canonical form: addresses strictly rising and no byte zero. -/
def memWf : List Host.Cell → Bool
  | [] => true
  | [(_, v)] => v != 0
  | (a, v) :: (b, w) :: l => v != 0 && decide (a < b) && memWf ((b, w) :: l)

/-- Usable bytes of a near bay (Table 10-1). -/
def nearBayBytes : Nat := 960 * 2 ^ 20

/-- Usable bytes of a Serai bay by class (Table 10-1). -/
def seraiBayBytes (guarded : Bool) : Nat := if guarded then 1472 * 2 ^ 20 else 1536 * 2 ^ 20

/-- near_place (R281): pseudo-channel, address in it, row and group. -/
def nearPlace (b o : Nat) : Nat × Nat × Nat × Nat :=
  let i := o / 3840
  let d := (o % 3840) / 256
  let j := i % 16
  let par := (i / 16) % 16
  let m := if par ≤ d then d + 1 else d
  (32 * (m / 2) + j + 16 * (m % 2), b * 2 ^ 22 + (i / 16) * 256 + o % 256, i, j)

/-- serai_place (R282): channel, usable address in it, row. -/
def seraiPlace (b o : Nat) (guarded : Bool) : Nat × Nat × Nat :=
  if guarded then
    let i := o / 5888
    let d := (o % 5888) / 256
    let par := i % 24
    (if par ≤ d then d + 1 else d, b * 2 ^ 26 + i * 256 + o % 256, i)
  else
    let i := o / 6144
    ((o % 6144) / 256, b * 2 ^ 26 + i * 256 + o % 256, i)

/-! ### Units, cells and parity stripes (R281 to R294) -/

/-- A byte of a memory unit: the unit, the address in it, and whether a parity stripe covers it. -/
structure Cell where
  unit : MemUnit
  addr : Nat
  striped : Bool
  deriving DecidableEq, Repr

/-- The cell of a place (R281, R282); staging and host memory have none. -/
def cellOf : Place → Option Cell
  | .near b o =>
    let p := nearPlace b o
    some ⟨.near (Fin.ofNat 256 p.1), p.2.1, true⟩
  | .serai b o g =>
    let p := seraiPlace b (o % seraiBayBytes g) g
    some ⟨.serai (Fin.ofNat 24 p.1), p.2.1, g⟩
  | _ => none

/-- The address of a unit's byte in the one memory of the state. -/
def unitKey (u : MemUnit) (a : Nat) : Nat :=
  match u with
  | .near pc => 4 * (256 * a + pc.val)
  | .serai ch => 4 * (32 * a + ch.val) + 1

/-- The address of a cell. -/
def cellKey (c : Cell) : Nat := unitKey c.unit c.addr

/-- The address of staging memory and of host memory. -/
def stagingKey (core off : Nat) : Nat := 4 * (32 * off + core) + 2
def hostKey (link addr : Nat) : Nat := 4 * (4 * (addr % 2 ^ 64) + link) + 3

/-- The address of a place in the one memory of the state. -/
def placeKey (p : Place) : Nat :=
  match cellOf p, p with
  | some c, _ => cellKey c
  | none, .host l a => hostKey l a
  | none, .staging c o => stagingKey c o
  | none, _ => 0

/-- The units of the parity group of a unit: 16 pseudo-channels (R281), or all 24 channels (R282). -/
def groupUnits : MemUnit → List MemUnit
  | .near pc => ((List.finRange 256).filter fun p => p.val % 16 == pc.val % 16).map .near
  | .serai _ => (List.finRange 24).map .serai

/-- Bay and row of an address of a unit (R281, R282). -/
def rowOf (u : MemUnit) (a : Nat) : Nat × Nat :=
  match u with
  | .near pc => (a / 2 ^ 22, a % 2 ^ 22 / 256 * 16 + pc.val % 16)
  | .serai _ => (a / 2 ^ 26, a % 2 ^ 26 / 256)

/-- The unit that holds the parity of an address's row. -/
def parityUnit (u : MemUnit) (a : Nat) : MemUnit :=
  match u with
  | .near pc =>
    let m := a / 256 % 16
    .near (Fin.ofNat 256 (32 * (m / 2) + pc.val % 16 + 16 * (m % 2)))
  | .serai _ => .serai (Fin.ofNat 24 (a % 2 ^ 26 / 256 % 24))

/-- The state of a pseudo-channel 0 to 255 (Table 10-8). -/
def pcState (t : Tiers) (pc : Nat) : BitVec 2 := (t.near.getD (pc / 32) {}).pcs.getD (pc % 32) 0

/-- The state of a Serai channel (Table 10-12). -/
def chState (t : Tiers) (ch : Nat) : BitVec 4 := (t.serai.getD ch {}).state

/-- Is a Serai channel out of service, retired or rejected? -/
def chLost (t : Tiers) (ch : Nat) : Bool := chState t ch == 4 || chState t ch == 5

/-- Does a unit serve its requests: neither failing, retired nor rejected? -/
def serves (t : Tiers) : MemUnit → Bool
  | .near pc => pcState t pc.val == 0
  | .serai ch => !chLost t ch.val && !t.failing.any fun f => f.unit == .serai ch

/-- The state of the parity group of a unit (Table 10-8): 0 PROTECTED, 1 DEGRADED, 2 UNPROTECTED, 3 FAILED. -/
def groupState (t : Tiers) : MemUnit → BitVec 2
  | .near pc => t.nearGroups.getD (pc.val % 16) 0
  | .serai _ => t.seraiGroup

/-- The rebuild of a unit's group. -/
def rebuildOf (t : Tiers) : MemUnit → Rebuild
  | .near pc => t.nearRebuilds.getD (pc.val % 16) {}
  | .serai _ => t.seraiRebuild

/-- Has the rebuild passed a row (R291): does its parity slot hold the data of the retired member? -/
def rowMoved (t : Tiers) (u : MemUnit) (a : Nat) : Bool :=
  let r := rebuildOf t u
  let b := (rowOf u a).1
  r.member.isSome && (r.whole || decide (b < r.bay.toNat) || (b == r.bay.toNat && decide ((rowOf u a).2 < r.row.toNat)))

/-- The exclusive-or of bytes. -/
def xorBytes (l : List Byte) : Byte := l.foldr (· ^^^ ·) 0

/-- The reconstruction of a unit's byte: the exclusive-or of the other members' (R290). -/
def reconstruct (m : List Host.Cell) (u : MemUnit) (a : Nat) : Byte :=
  xorBytes (((groupUnits u).filter fun v => v != u).map fun v => memGet (unitKey v a) m)

/-- Does every other unit of a unit's group serve? -/
def othersServe (t : Tiers) (u : MemUnit) : Bool := ((groupUnits u).filter fun v => v != u).all (serves t)

/-- The byte that stands for a cell whose unit does not serve: reconstructed, or read from the parity slot once its row is
rebuilt (R290, R291); zero on a PLAIN unit (R294) and where a second unit is lost with it (R292). -/
def lostByte (m : List Host.Cell) (t : Tiers) (c : Cell) : Byte :=
  let par := parityUnit c.unit c.addr
  if !c.striped then 0
  else if rowMoved t c.unit c.addr then
    (if (rebuildOf t c.unit).member == some c.unit && serves t par then memGet (unitKey par c.addr) m else 0)
  else if groupState t c.unit == 3 || !othersServe t c.unit then 0
  else reconstruct m c.unit c.addr

/-- The byte of a cell. -/
def cellByte (m : List Host.Cell) (t : Tiers) (c : Cell) : Byte :=
  if serves t c.unit then memGet (cellKey c) m else lostByte m t c

/-- The new parity byte of a write (R289): from the written data alone where the write covers every data unit of its row,
and otherwise from the old data and the old parity. -/
def newParity (m : List Host.Cell) (t : Tiers) (c : Cell) (v : Byte) (whole : Bool) : Byte :=
  let par := parityUnit c.unit c.addr
  if whole && (groupUnits c.unit).all (serves t) then
    v ^^^ xorBytes (((groupUnits c.unit).filter fun u => u != c.unit && u != par).map fun u => memGet (unitKey u c.addr) m)
  else memGet (unitKey par c.addr) m ^^^ cellByte m t c ^^^ v

/-- Is the parity of a cell's row kept: the cell has a stripe, its group has not failed, its row is not rebuilt, and the
parity unit serves (R289, R291, R292)? -/
def parityKept (t : Tiers) (c : Cell) : Bool :=
  c.striped && !rowMoved t c.unit c.addr && groupState t c.unit != 3 && serves t (parityUnit c.unit c.addr)

/-- Is a cell's data kept in the parity slot of its row (R291)? -/
def inSlot (t : Tiers) (c : Cell) : Bool :=
  c.striped && rowMoved t c.unit c.addr && (rebuildOf t c.unit).member == some c.unit && serves t (parityUnit c.unit c.addr)

/-- Does a written byte of a cell last: its unit serves, or the parity of its row, or its parity slot, keeps it? -/
def keepsByte (t : Tiers) (c : Cell) : Bool :=
  serves t c.unit || inSlot t c || (parityKept t c && othersServe t c.unit)

/-- Write a cell (R289 to R292, R294): the parity of its row follows, and a unit that does not serve is not written; its
data is then in the parity alone, or in the row's parity slot once that is rebuilt. -/
def storeCell (m : List Host.Cell) (t : Tiers) (c : Cell) (v : Byte) (whole : Bool) : List Host.Cell :=
  let par := unitKey (parityUnit c.unit c.addr) c.addr
  let m1 := if parityKept t c then memPut par (newParity m t c v whole) m else m
  if serves t c.unit then memPut (cellKey c) v m1
  else if inSlot t c then memPut par v m1
  else m1

/-- Do the raw bits of a cell reach the reader: its location is uncorrectable, and no parity corrects it (R286)? -/
def rawCell (t : Tiers) (c : Cell) : Bool :=
  serves t c.unit && (!c.striped || groupState t c.unit != 0)
    && t.repeatReads.any fun e => decide (e.1 = c.unit ∧ (e.2.1.toNat, e.2.2.toNat) = rowOf c.unit c.addr)

/-- A byte held in a brace buffer (R301), newest write first. -/
def heldByte (buf : List (Place × Byte)) (k : Nat) : Option Byte :=
  buf.foldl (fun acc e => if placeKey e.1 = k then some e.2 else acc) none

/-- A byte that a unit's brace buffer holds. -/
def heldAt (t : Tiers) (u : MemUnit) (k : Nat) : Option Byte :=
  match u with
  | .serai ch => heldByte (t.serai.get ch).buffer k
  | .near _ => none

/-- The Serai channel that takes a write of a cell: its own, or that of its row's parity where its own does not serve. -/
def takingChannel (t : Tiers) (c : Cell) : Option (Fin 24) :=
  match (if serves t c.unit then c.unit else parityUnit c.unit c.addr) with
  | .serai ch => some ch
  | .near _ => none

/-- The byte that a read of a place returns. -/
def State.readPlace (s : State) (p : Place) : Byte :=
  match cellOf p with
  | none => memGet (placeKey p) s.mem
  | some c =>
    let v := cellByte s.mem s.tiers c
    match (heldAt s.tiers (parityUnit c.unit c.addr) (placeKey p)).or (heldAt s.tiers c.unit (placeKey p)) with
    | some w => w
    | none => if rawCell s.tiers c then Config.rawByte (cellKey c) v else v

/-- Store a byte at a place, in memory. -/
def State.storePlace (s : State) (p : Place) (v : Byte) (whole : Bool := false) : State :=
  { s with mem := match cellOf p with
    | some c => storeCell s.mem s.tiers c v whole
    | none => memPut (placeKey p) v s.mem }

/-- The size of a Serai channel's brace buffer (R301). -/
def braceBufferBytes : Nat := 262144

/-- Is a place on a PLAIN unit that serves no more, so that its data is lost (R294)? -/
def plainLost (t : Tiers) (p : Place) : Bool :=
  match cellOf p with
  | some c => !c.striped && !serves t c.unit
  | none => false

/-- Write one byte to a place: dropped on a lost PLAIN unit (R294), held while the Serai channel holds its writes and has
room (R301), stored otherwise. `whole` tells whether the write covers every data unit of its row (R289). -/
def State.writePlace (s : State) (p : Place) (v : Byte) (whole : Bool := false) : State :=
  if plainLost s.tiers p then s
  else match (cellOf p).bind (takingChannel s.tiers) with
    | some ch =>
      let c := s.tiers.serai[ch]
      if c.braceHold && c.waiting.isEmpty && decide (c.buffer.length < braceBufferBytes) then
        s.modChannel ch fun c => { c with buffer := c.buffer ++ [(p, v)], held := satAdd c.held 1 }
      else if c.braceHold || !c.waiting.isEmpty then
        s.modChannel ch fun c => { c with waiting := c.waiting ++ [(p, v)] }
      else s.storePlace p v whole
    | none => s.storePlace p v whole

/-! ### Customs -/

/-- Who makes an access (R413). -/
inductive Reach where
  | core (c : Nat) | copy | ledger | route | settle | cxl | tollgate
  deriving DecidableEq, Repr

/-- Permission bits of a region (Table 12-3). -/
def permRead : BitVec 4 := 1
def permWrite : BitVec 4 := 2
def permLedger : BitVec 4 := 4
def permHost : BitVec 4 := 8

/-- May the requester reach the region's tier and core (R413)? -/
def reaches (r : Reach) (g : Region) : Bool :=
  if g.tier = 0 then
    match r with
    | .core c => g.core.toNat == c
    | .copy | .ledger | .route => true
    | _ => false
  else if g.tier = 3 then r == .copy
  else true

/-- The valid region that contains an address. -/
def regionAt (c : Customs) (va : Nat) : Option (BitVec 11 × Region) :=
  c.regions.find? fun e => e.2.valid && decide (e.2.va.toNat ≤ va) && decide (va < e.2.va.toNat + e.2.size.toNat)

/-- The region nearest below an address, 0x7FF for none (Table 14-12). -/
def regionBelow (c : Customs) (va : Nat) : BitVec 11 :=
  (c.regions.foldl (fun (acc : BitVec 11 × Nat) e =>
    if e.2.valid && decide (e.2.va.toNat ≤ va) && (acc.1 == 0x7FF || decide (acc.2 ≤ e.2.va.toNat))
    then (e.1, e.2.va.toNat) else acc) (0x7FF, 0)).1

/-- The cause of a refused access (R412, R414); none where it is granted. -/
def denyCause (c : Customs) (r : Reach) (need : BitVec 4) (va len : Nat) : Option (BitVec 4) :=
  match regionAt c va with
  | none => some 0
  | some (_, g) =>
    if g.va.toNat + g.size.toNat < va + len then some 1
    else if need &&& permRead ≠ 0 ∧ g.perm &&& permRead = 0 then some 2
    else if need &&& permWrite ≠ 0 ∧ g.perm &&& permWrite = 0 then some 3
    else if need &&& permLedger ≠ 0 ∧ g.perm &&& permLedger = 0 then some 4
    else if need &&& permHost ≠ 0 ∧ g.perm &&& permHost = 0 then some 5
    else if reaches r g then none else some 6

/-- Translation of an address within a region (R413). -/
def translate (owner : Nat) (g : Region) (va : Nat) : Place :=
  let o := va - g.va.toNat
  if g.tier = 1 then .near (g.place.toNat + o / nearBayBytes) (o % nearBayBytes)
  else if g.tier = 2 then .serai (g.place.toNat + o / seraiBayBytes g.guarded) (o % seraiBayBytes g.guarded) g.guarded
  else if g.tier = 0 then .staging g.core.toNat (g.place.toNat + o)
  else .host owner (g.place.toNat + o)

/-- The link that owns a stall now (R376); none where it is absent or the relay owns it. -/
def ownerLink (p : StallPage) : Option LinkId :=
  match p.comp.owner with
  | some (some l) => if p.swapped then p.comp.alt else some l
  | _ => none

/-- The alternate link now (R376). -/
def altLink (p : StallPage) : Option LinkId :=
  match p.comp.owner with
  | some (some l) => if p.swapped then some l else p.comp.alt
  | _ => none

/-- Where an address of a stall lies. -/
def State.placeOf (s : State) (i : Stall) (va : Nat) : Option Place :=
  match regionAt (s.stall i).customs va with
  | some (_, g) => some (translate (((ownerLink (s.stall i).page).getD 0).val) g va)
  | none => none

/-- The byte at a stall virtual address; zero where nothing is mapped. -/
def State.readVa (s : State) (i : Stall) (va : Nat) : Byte :=
  match s.placeOf i va with
  | some p => s.readPlace p
  | none => 0

/-- `n` bytes from a stall virtual address. -/
def State.readBytes (s : State) (i : Stall) (va n : Nat) : List Byte := (List.range n).map fun k => s.readVa i (va + k)

/-- `n` bytes as a number, lowest first. -/
def State.readNat (s : State) (i : Stall) (va n : Nat) : Nat := ofLe (s.readBytes i va n)

/-- Write one byte at a stall virtual address. -/
def State.writeVa (s : State) (i : Stall) (va : Nat) (v : Byte) (whole : Bool := false) : State :=
  match s.placeOf i va with
  | some p => s.writePlace p v whole
  | none => s

/-- Data bytes of a row, and the offset in it of a byte (R281, R282); none where no stripe covers the place. -/
def rowPart : Place → Option (Nat × Nat)
  | .near _ o => some (3840, o % 3840)
  | .serai _ o true => some (5888, o % 5888)
  | _ => none

/-- Does a write of the addresses from `lo` to `hi` cover every data unit of the row of one of them (R289)? A region is
contiguous in its bays (R413), and a bay holds whole rows. -/
def State.wholeRow (s : State) (i : Stall) (lo hi va : Nat) : Bool :=
  match (s.placeOf i va).bind rowPart with
  | some (n, o) => decide (lo + o ≤ va) && decide (va + n ≤ hi + o)
  | none => false

/-- Write bytes from a stall virtual address up, as part of a write of the addresses from `lo` to `hi`. -/
def State.writeRun (s : State) (i : Stall) (lo hi va : Nat) : List Byte → State
  | [] => s
  | b :: bs => (s.writeVa i va b (s.wholeRow i lo hi va)).writeRun i lo hi (va + 1) bs

/-- Write bytes from a stall virtual address up. -/
def State.writeBytes (s : State) (i : Stall) (va : Nat) (bs : List Byte) : State :=
  s.writeRun i va (va + bs.length) va bs

/-! ### Writes of engines to host-visible lines (R300) -/

/-- Is an address in a host-visible region of tier memory, so that a host may hold its line? -/
def hostVisible (s : State) (i : Stall) (va : Nat) : Bool :=
  match regionAt (s.stall i).customs va with
  | some (_, g) => (g.tier == 1 || g.tier == 2) && (g.perm &&& permHost != 0) && (ownerLink (s.stall i).page).isSome
  | none => false

/-- Does a writer wait for a host? -/
def State.waits (s : State) (w : Writer) : Bool := s.tiers.snoops.any fun h => h.writer == w

/-- Hold a byte behind a back-invalidate snoop of its line; one snoop is sent for the bytes a writer holds of a line. -/
def State.holdByte (s : State) (w : Writer) (i : Stall) (va : Nat) (b : Byte) : State :=
  let asked := s.tiers.snoops.any fun h => h.writer == w && h.stall == i && h.va / 64 == va / 64
  let s1 := { s with tiers := { s.tiers with snoops := s.tiers.snoops ++ [⟨w, i, va, b⟩] } }
  if asked then s1
  else match ownerLink (s.stall i).page with
    | some l => s1.send (.snoop l (BitVec.ofNat 48 (64 * (va / 64))))
    | none => s1

/-- An engine's write of the bytes from `va` up, as part of a write from `lo` to `hi`: held where the line is host-visible
(R300), done at once elsewhere. -/
def State.storeRun (s : State) (w : Writer) (i : Stall) (lo hi va : Nat) : List Byte → State
  | [] => s
  | b :: bs =>
    (if hostVisible s i va then s.holdByte w i va b else s.writeVa i va b (s.wholeRow i lo hi va)).storeRun w i lo hi (va + 1) bs

/-- An engine's write of bytes. -/
def State.store (s : State) (w : Writer) (i : Stall) (va : Nat) (bs : List Byte) : State :=
  s.storeRun w i va (va + bs.length) va bs

/-- Memory as a writer sees it: with its own held bytes written, in order. -/
def State.seen (s : State) (w : Writer) : State :=
  forEach (s.tiers.snoops.filter fun h => h.writer == w) s fun s h => s.writeVa h.stall h.va h.byte

/-- BACK_INVALIDATE_RESPONSE (R300): the bytes that a writer holds of its oldest snooped line are written, in order. -/
def execBackInvalidateResponse (w : Writer) (s : State) : Host.Outcome State Fault Refusal :=
  match s.tiers.snoops.find? fun h => h.writer == w with
  | none => .next s
  | some h =>
    let mine (x : HeldByte) : Bool := x.writer == w && x.stall == h.stall && x.va / 64 == h.va / 64
    let s1 := { s with tiers := { s.tiers with snoops := s.tiers.snoops.filter fun x => !mine x } }
    .next (forEach (s.tiers.snoops.filter mine) s1 fun s x => s.writeVa x.stall x.va x.byte)

/-- The places that `n` bytes at an address touch, one for each 256-byte unit, with the bytes in it. -/
def State.unitsOf (s : State) (i : Stall) (va n : Nat) : List (Place × Nat) :=
  (List.range (n / 256 + 2)).filterMap fun k =>
    let lo := if k = 0 then va else va - va % 256 + 256 * k
    let hi := min (va - va % 256 + 256 * (k + 1)) (va + n)
    if lo < hi then (s.placeOf i lo).map fun p => (p, hi - lo) else none

/-- Count bytes moved at a place in its unit's BYTES counter (Tables 10-6, 10-11). -/
def State.countPlace (s : State) (p : Place) (n : Nat) : State :=
  match cellOf p with
  | some ⟨.near pc, _, _⟩ => s.modStack ⟨pc.val / 32, by omega⟩ fun t => { t with bytes := satAdd t.bytes n }
  | some ⟨.serai ch, _, _⟩ => s.modChannel ch fun t => { t with bytes := satAdd t.bytes n }
  | none => s

/-- Count bytes written at a place; on a PLAIN unit of a retired channel, the dropped write (R294). -/
def State.countWrite (s : State) (p : Place) (n : Nat) : State :=
  match cellOf p with
  | some ⟨.serai ch, _, false⟩ =>
    if serves s.tiers (.serai ch) then s.countPlace p n
    else s.modChannel ch fun t => { t with dropped := satAdd t.dropped 1 }
  | _ => s.countPlace p n

/-- Count the bytes of a write, unit by unit. -/
def State.countBytes (s : State) (i : Stall) (va n : Nat) : State :=
  forEach (s.unitsOf i va n) s fun s e => s.countWrite e.1 e.2

/-- Count the bytes of a read, unit by unit. -/
def State.countRead (s : State) (i : Stall) (va n : Nat) : State :=
  forEach (s.unitsOf i va n) s fun s e => s.countPlace e.1 e.2

/-! ### The fault log and interrupts -/

/-- The number of stalls below `i` for which the link is owner or alternate (R388). -/
def stallRank (s : State) (l : LinkId) (i : Stall) : Nat :=
  (allStalls.filter fun j =>
    decide (j.val < i.val) && (ownerLink (s.stall j).page == some l || altLink (s.stall j).page == some l)).length

/-- Raise a vector of a stall: a message of the owner link's table (R388), or an event relayed to the lead of a hostless
member's caravan (R323). -/
def State.raise (s : State) (i : Stall) (v : BitVec 6) : State :=
  match (s.stall i).page.comp.owner with
  | none => s
  | some none => s.send (.relayEvent i v)
  | some (some _) =>
    match ownerLink (s.stall i).page with
    | some l => s.send (.msix l (64 * stallRank s l i + v.toNat))
    | none => s

/-- Raise one of the four events of STALL_VEC (R389, Table 13-11): 0 VERDICT, 1 HELD, 2 FAULT, 3 LOAD. -/
def State.raiseEvent (s : State) (i : Stall) (k : Nat) : State :=
  let p := (s.stall i).page
  if bit p.vecEn k then s.raise i (fld p.vec (8 * k) 6) else s

/-- Fault classes (Table 16-7). -/
def clsTransient : BitVec 3 := 0
def clsRetired : BitVec 3 := 1
def clsRepeat : BitVec 3 := 2
def clsModule : BitVec 3 := 3
def clsAudit : BitVec 3 := 4
def clsInfo : BitVec 3 := 5

/-- What a fault record says beside its sequence number, march and time (Table 16-7). -/
structure Rec where
  reason : Reason
  cls : BitVec 3 := 5
  injected : Bool := false
  stall : Option Stall := none
  kind : BitVec 8 := 0
  unit : BitVec 16 := 0
  pause : Word := 0xFFFFFFFF
  detail : Word := 0

/-- The 256 bits of a record (Table 16-7). -/
def recBits (s : State) (r : Rec) : BitVec 256 :=
  let m : BitVec 40 := match r.stall with | some i => (s.stall i).march.num | none => 0
  let a : BitVec 8 := match r.stall with | some i => (s.stall i).march.repeats | none => 0
  let st : BitVec 4 := match r.stall with | some i => BitVec.ofNat 4 i.val | none => 0xF
  r.detail ++ r.pause ++ s.time ++ a ++ m ++ r.unit ++ r.kind ++ st ++ BitVec.ofBool r.injected ++ r.cls ++ r.reason
    ++ (s.log.newest + 1)

/-- Write a record to the ring (R468): the newest first, 1,024 kept; a record of a stall raises its FAULT vector
(R389). -/
def State.record (s : State) (r : Rec) : State :=
  let s1 := { s with log := { s.log with
    ring := (recBits s r :: s.log.ring).take 1024
    newest := s.log.newest + 1
    injected := if r.injected then satAdd s.log.injected 1 else s.log.injected } }
  match r.stall with
  | some i => s1.raiseEvent i 2
  | none => s1

/-- A record whose PAUSE is the measured interval of R452: at most 30,000 ns, and otherwise a free value. -/
def State.recordPause (s : State) (r : Rec) : State :=
  let (w, s1) := s.drawWord
  s1.record { r with pause := BitVec.ofNat 32 (w.toNat % 30001) }

/-- Enter a unit into the retired list (R18, R290, R325). -/
def State.retire (s : State) (kind : BitVec 8) (index : BitVec 16) (reason : Reason) (rejected : Bool := false) : State :=
  if s.log.retired.any fun e => e.kind == kind && e.index == index then s
  else { s with log := { s.log with retired := s.log.retired ++ [⟨kind, index, reason, s.time, rejected⟩] } }

/-- Is a unit in the retired list? -/
def isRetired (s : State) (kind : BitVec 8) (index : Nat) : Bool :=
  s.log.retired.any fun e => e.kind == kind && e.index.toNat == index

/-- Record a denial in CUS_LAST and CUS_DENIED (R414, R421). -/
def State.denied (s : State) (i : Stall) (unit : Nat) (cause : BitVec 4) (va : Nat) : State :=
  s.modCustoms i fun c => { c with
    denied := satAdd c.denied 1, lastCause := cause, lastRegion := regionBelow c va
    lastUnit := BitVec.ofNat 8 unit, lastVa := BitVec.ofNat 48 va }

end Sys2Proof.Machine
end

