-- ==== Sys2Proof/Machine/Operands.lean ====
section
/-! DEFINITION. Operand forms: the fields of a charter's records (chapter 12), the layouts of tensors (R190 to R197),
and reading and writing their elements. Positions are counted in half-bytes, for an I4 element takes half a byte
(R195). -/

namespace Sys2Proof.Machine

/-! ### Fields of the charter's headers (Tables 12-3, 12-4) -/

def Charter.cores (c : Charter) : BitVec 32 := fld c.resource 0 32
def Charter.usesPorts (c : Charter) : BitVec 8 := fld c.resource 32 8
def Charter.engines (c : Charter) : BitVec 8 := fld c.resource 40 8
def Charter.hostQueues (c : Charter) : BitVec 8 := fld c.resource 48 8
def Charter.fitClock (c : Charter) : Nat := fldN c.resource 56 6
def Charter.nearShares (c : Charter) : Nat := fldN c.resource 64 6
def Charter.seraiShares (c : Charter) : Nat := fldN c.resource 72 6
def Charter.timeDomain (c : Charter) : Word := fld c.caravan 0 32
def Charter.epoch (c : Charter) : Word := fld c.caravan 32 32
def Charter.caravanIx (c : Charter) : BitVec 6 := fld c.caravan 64 6
def Charter.federated (c : Charter) : Bool := bit c.caravan 70
def Charter.relay (c : Charter) : Bool := bit c.caravan 71
def Charter.member (c : Charter) : Member := fld c.caravan 72 7
def Charter.lead (c : Charter) : Member := fld c.caravan 80 7
def Charter.deputy (c : Charter) : Member := fld c.caravan 88 7
def Charter.lx (c : Charter) : Nat := 2 ^ fldN c.caravan 96 2
def Charter.ly (c : Charter) : Nat := 2 ^ fldN c.caravan 98 2
def Charter.lz (c : Charter) : Nat := 2 ^ fldN c.caravan 100 2
def Charter.virtualStages (c : Charter) : Nat := fldN c.caravan 104 4
def Charter.rp6Mode (c : Charter) : BitVec 2 := fld c.caravan 108 2
def Charter.rp7Mode (c : Charter) : BitVec 2 := fld c.caravan 110 2
def Charter.standbys (c : Charter) : BitVec 4 := fld c.caravan 136 4

/-- The active members and the standbys of the caravan (R315, R357). -/
def Charter.members (c : Charter) : List Member :=
  ((List.range (c.lx * c.ly * c.lz)).map fun i => BitVec.ofNat 7 i)
    ++ ((List.range 4).filter fun j => bit c.standbys j).map fun j => BitVec.ofNat 7 (64 + j)

/-- The active members only. -/
def Charter.activeMembers (c : Charter) : List Member := (List.range (c.lx * c.ly * c.lz)).map fun i => BitVec.ofNat 7 i

/-- Leg entry fields (R347), in microseconds. -/
def legLength (l : BitVec 64) : Nat := fldN l 0 20
def legKind (l : BitVec 64) : Nat := fldN l 20 3
def legGuard (l : BitVec 64) : Nat := fldN l 24 20

/-- The last REDUCE leg: its ending tick is the verdict tick (R48). -/
def Charter.lastReduce (c : Charter) : Nat :=
  maxOf ((List.range c.legs.length).filter fun i => legKind (c.legs.getD i 0) == 3) 0

/-- The first SETTLE leg. -/
def Charter.firstSettle (c : Charter) : Nat :=
  minOf ((List.range c.legs.length).filter fun i => legKind (c.legs.getD i 0) == 4) c.legs.length

/-- Nanoseconds from the origin to the start of leg `i` (R47). -/
def Charter.legOffset (c : Charter) (i : Nat) : Nat := 1000 * ((c.legs.take i).map legLength).sum

/-- Nanoseconds from the origin to the march boundary (R47). -/
def Charter.marchLength (c : Charter) : Nat := c.legOffset c.legs.length

/-- A tree node (R347). -/
def nodeMember (n : BitVec 32) : Member := fld n 0 7
def nodeCaravan (n : BitVec 32) : BitVec 6 := fld n 7 6
def nodeParent (n : BitVec 32) : Member := fld n 13 7
def nodeParentCaravan (n : BitVec 32) : BitVec 6 := fld n 20 6
def nodeHops (n : BitVec 32) : Nat := fldN n 26 6

/-- The node of a member in tree `k`. -/
def Charter.treeNode (c : Charter) (k : Nat) (m : Member) : Option (BitVec 32) :=
  (c.trees.getD k []).find? fun n => nodeMember n == m && nodeCaravan n == c.caravanIx

/-- A member's children in tree `k`. -/
def Charter.children (c : Charter) (k : Nat) (m : Member) : List (Member × BitVec 6) :=
  ((c.trees.getD k []).filter fun n => nodeParent n == m && nodeParentCaravan n == c.caravanIx).map
    fun n => (nodeMember n, nodeCaravan n)

/-- A member's parent in tree `k`; 0x7F at the root. -/
def Charter.parent (c : Charter) (k : Nat) (m : Member) : Member × BitVec 6 :=
  match c.treeNode k m with
  | some n => (nodeParent n, nodeParentCaravan n)
  | none => (0x7F, 0)

/-! ### Tensors (Table 12-5) -/

def Charter.tensor (c : Charter) (i : Nat) : BitVec 512 := c.tensors.getD i 0
def tFormat (t : BitVec 512) : Nat := fldN t 0 3
def tLayout (t : BitVec 512) : Nat := fldN t 3 3
def tExpand (t : BitVec 512) : BitVec 8 := fld t 6 8
def tDims (t : BitVec 512) : Nat := fldN t 14 3
def tSparse (t : BitVec 512) : Bool := bit t 17
def tPad (t : BitVec 512) : Bool := bit t 18
def tTurned (t : BitVec 512) : Bool := bit t 19
def tBase (t : BitVec 512) : Nat := fldN t 32 48
def tExtIndex (t : BitVec 512) : Nat := fldN t 80 16
def tN (t : BitVec 512) (d : Nat) : Nat := fldN t (96 + 24 * d) 24
def tS (t : BitVec 512) (d : Nat) : Nat := fldN t (240 + 32 * d) 32
def tAux (t : BitVec 512) : Nat := fldN t 432 48

/-- Element size in half-bytes by format code (Table 03-1, R195). -/
def halfBytes (fmt : Nat) : Nat :=
  if fmt = 0 then 4 else if fmt = 1 then 4 else if fmt = 2 then 8 else if fmt = 3 then 1 else if fmt = 4 then 2 else 12

/-- Element size of a tensor in half-bytes. -/
def tSize (t : BitVec 512) : Nat := halfBytes (tFormat t)

/-- The sparse record of a tensor. -/
def Charter.sparseExt (c : Charter) (t : BitVec 512) : BitVec 512 := c.exts.getD (tExtIndex t) 0

/-- The pad record of a tensor (after the sparse record if both are present). -/
def Charter.padExt (c : Charter) (t : BitVec 512) : BitVec 512 :=
  c.exts.getD (tExtIndex t + (if tSparse t then 1 else 0)) 0

def padOff (e : BitVec 512) (d : Nat) : Nat := fldN e (24 * d) 24
def padLen (e : BitVec 512) (d : Nat) : Nat := fldN e (144 + 24 * d) 24
def padValue (e : BitVec 512) : Nat := fldN e 288 32

/-- The offset of an element in the weave rule (R193), in half-bytes: `p` along the 128-element side, `q` along the
16-element side, group stride `g` in bytes. -/
def weaveOffset (size g p q : Nat) : Nat :=
  p / 128 * (2 * g) + q / 16 * (2048 * size) + ((p % 128) * 16 + q % 16) * size

/-- Element position in half-bytes (R191, R192, R193, R195). -/
def elemPos (t : BitVec 512) (x : List Nat) : Nat :=
  let g (d : Nat) := x.getD d 0
  let outer := (List.range 4).map fun d => g (d + 2) * (2 * tS t (d + 2))
  if tLayout t = 1 then 2 * tBase t + weaveOffset (tSize t) (tS t 1) (g 1) (g 0) + outer.sum
  else if tLayout t = 2 then 2 * tBase t + weaveOffset (tSize t) (tS t 1) (g 0) (g 1) + outer.sum
  else if tFormat t = 3 then                  -- packed canonical order (R195)
    2 * tBase t + (g 0 + tN t 0 * (g 1 + tN t 1 * (g 2 + tN t 2 * (g 3 + tN t 3 * (g 4 + tN t 4 * g 5)))))
  else 2 * tBase t + ((List.range 6).map fun d => g d * (2 * tS t d)).sum

/-- The canonical index (R190). -/
def canonIndex (t : BitVec 512) (x : List Nat) : Nat :=
  let g (d : Nat) := x.getD d 0
  g 0 + tN t 0 * (g 1 + tN t 1 * (g 2 + tN t 2 * (g 3 + tN t 3 * (g 4 + tN t 4 * g 5))))

/-- The coordinates of a canonical index (R190). -/
def canonCoords (t : BitVec 512) (e : Nat) : List Nat :=
  let d0 := tN t 0
  let d1 := tN t 1
  let d2 := tN t 2
  let d3 := tN t 3
  let d4 := tN t 4
  [e % d0, e / d0 % d1, e / (d0 * d1) % d2, e / (d0 * d1 * d2) % d3, e / (d0 * d1 * d2 * d3) % d4,
    e / (d0 * d1 * d2 * d3 * d4)]

/-- The number of elements of a tensor. -/
def tElems (t : BitVec 512) : Nat := tN t 0 * tN t 1 * tN t 2 * tN t 3 * tN t 4 * tN t 5

/-- Solve Σ x_d × stride_d = rem with x_d below the extents, dimensions given with strides falling; the largest
coordinates first. -/
def solveStrides : List (Nat × Nat × Nat) → Nat → Option (List (Nat × Nat))
  | [], rem => if rem = 0 then some [] else none
  | (d, n, st) :: rest, rem =>
    if st = 0 then (solveStrides rest rem).map fun l => (d, 0) :: l
    else
      let cap := (rest.map fun e => (e.2.1 - 1) * e.2.2).sum
      let hi := min (n - 1) (rem / st)
      let lo := ceilDiv (rem - cap) st
      (List.range (hi + 1 - lo)).findSome? fun k =>
        (solveStrides rest (rem - (hi - k) * st)).map fun l => (d, hi - k) :: l

/-- Insert a dimension into a list whose strides fall. -/
def insertStride (e : Nat × Nat × Nat) : List (Nat × Nat × Nat) → List (Nat × Nat × Nat)
  | [] => [e]
  | f :: l => if f.2.2 ≤ e.2.2 then e :: f :: l else f :: insertStride e l

/-- The dimensions of an element position as independent strides in half-bytes: (tag, extent, stride). In a weave the
two block sides split into group, block and position parts, tagged 10 and up. -/
def strideDims (t : BitVec 512) : List (Nat × Nat × Nat) :=
  let sz := tSize t
  let outer := (List.range 4).map fun d => (d + 2, tN t (d + 2), 2 * tS t (d + 2))
  if tLayout t = 1 ∨ tLayout t = 2 then
    let np := if tLayout t = 1 then tN t 1 else tN t 0
    let nq := if tLayout t = 1 then tN t 0 else tN t 1
    outer ++ [(10, ceilDiv np 128, 2 * tS t 1), (11, ceilDiv nq 16, 2048 * sz), (12, 128, 16 * sz), (13, 16, sz)]
  else if tFormat t = 3 then
    [(0, tN t 0, 1), (1, tN t 1, tN t 0), (2, tN t 2, tN t 0 * tN t 1), (3, tN t 3, tN t 0 * tN t 1 * tN t 2),
      (4, tN t 4, tN t 0 * tN t 1 * tN t 2 * tN t 3), (5, tN t 5, tN t 0 * tN t 1 * tN t 2 * tN t 3 * tN t 4)]
  else (List.range 6).map fun d => (d, tN t d, 2 * tS t d)

/-- The element whose position is a given half-byte address, where there is one within the extents (R190). -/
def coordsOf (t : BitVec 512) (pos : Nat) : Option (List Nat) :=
  if pos < 2 * tBase t then none
  else
    match solveStrides ((strideDims t).foldr insertStride []) (pos - 2 * tBase t) with
    | none => none
    | some sol =>
      let v (tag : Nat) := (lookupKey tag (sol.map fun e => (e.1, e.2))).getD 0
      let x :=
        if tLayout t = 1 ∨ tLayout t = 2 then
          let p := v 10 * 128 + v 12
          let q := v 11 * 16 + v 13
          (if tLayout t = 1 then [q, p] else [p, q]) ++ [v 2, v 3, v 4, v 5]
        else [v 0, v 1, v 2, v 3, v 4, v 5]
      if (List.range 6).all fun d => decide (x.getD d 0 < max 1 (tN t d)) then some x else none

/-- Is an element at a pad position of virtual padding (R197)? -/
def atPad (c : Charter) (t : BitVec 512) (x : List Nat) : Bool :=
  tPad t && (List.range 6).any fun d =>
    let o := padOff (c.padExt t) d
    decide (x.getD d 0 < o) || decide (o + padLen (c.padExt t) d ≤ x.getD d 0)

/-- Read the code of `size` half-bytes at a half-byte position. -/
def readCode (s : State) (i : Stall) (pos size : Nat) : Nat :=
  if size = 1 then
    let b := (s.readVa i (pos / 2)).toNat
    if pos % 2 = 0 then b % 16 else b / 16
  else s.readNat i (pos / 2) (size / 2)

/-- The stored code of an element, or PAD_VALUE at a pad position (R197). -/
def elemCode (s : State) (i : Stall) (c : Charter) (t : BitVec 512) (x : List Nat) : Nat :=
  if atPad c t x then padValue (c.padExt t) % 2 ^ (4 * tSize t) else readCode s i (elemPos t x) (tSize t)

/-- The AFFINE record address of an element (R84). -/
def affineAddr (t : BitVec 512) (x : List Nat) : Nat :=
  let kd := if tLayout t = 2 then 1 else 0
  let g := 32 * 2 ^ fldN (tExpand t) 3 2
  let nc := tN t (1 - kd)
  let gc := ceilDiv (tN t kd) g
  let m := x.getD 2 0 + tN t 2 * (x.getD 3 0 + tN t 3 * (x.getD 4 0 + tN t 4 * x.getD 5 0))
  tAux t + 4 * ((m * nc + x.getD (1 - kd) 0) * gc + x.getD kd 0 / g)

/-- Expand a stored code to the code of its arithmetic format (R82 to R84): I4 and I8 become H16. -/
def expandCode (s : State) (i : Stall) (t : BitVec 512) (x : List Nat) (q : Nat) : Nat :=
  if tFormat t = 3 ∨ tFormat t = 4 then
    if fldN (tExpand t) 0 2 = 1 then s.readNat i (tAux t + 2 * q) 2
    else
      let r := s.readNat i (affineAddr t x) 4
      let z := if tFormat t = 3 then r / 2 ^ 16 % 16 else r / 2 ^ 16 % 256
      expandAffine q z (r % 2 ^ 16)
  else q

/-- The arithmetic format of a tensor's elements. -/
def tArith (t : BitVec 512) : Fmt := if tFormat t = 1 then .g16 else if tFormat t = 2 then .f32 else .h16

/-- The value of an element as an operand. -/
def elemVal (s : State) (i : Stall) (c : Charter) (t : BitVec 512) (x : List Nat) : Val :=
  decodeVal (tArith t) (expandCode s i t x (elemCode s i c t x))

/-- The code at an address of a tensor, or PAD_VALUE where the element there is a pad position (R197). -/
def codeAt (s : State) (i : Stall) (c : Charter) (t : BitVec 512) (addr : Nat) : Nat :=
  if tPad t && (match coordsOf t (2 * addr) with | some x => atPad c t x | none => false) then
    padValue (c.padExt t) % 2 ^ (4 * tSize t)
  else readCode s i (2 * addr) (tSize t)

/-- An engine's store of a code of `n` bytes at an address. -/
def State.writeCode (s : State) (w : Writer) (i : Stall) (addr n code : Nat) : State :=
  s.store w i addr (leBytes n (BitVec.ofNat (8 * n) code))

/-- Store the code of an element at an address, where it is no pad position of its tensor (R197). -/
def State.storeElem (s : State) (w : Writer) (i : Stall) (c : Charter) (t : BitVec 512) (addr : Nat) (f : Fmt) (code : Nat) :
    State :=
  let padded := tPad t && (match coordsOf t (2 * addr) with | some x => atPad c t x | none => false)
  if padded then s else s.writeCode w i addr (fmtBytes f) code

/-- The canonical index of the element at an address (R190), 0 where there is none. -/
def elemIndexAt (t : BitVec 512) (addr : Nat) : Nat :=
  match coordsOf t (2 * addr) with | some x => canonIndex t x | none => 0

end Sys2Proof.Machine
end

