-- ==== Sys2Proof/Machine/Entries.lean ====
section
/-! DEFINITION. The entries of the active charter and when the sequencer lets an engine run one (R49, R54, R57, R349). -/

namespace Sys2Proof.Machine

/-- The stall that owns a core (R369): the core groups of a present stall. -/
def coreStall (s : State) (c : CoreId) : Option Stall :=
  allStalls.find? fun i => (s.stall i).page.comp.owner.isSome && bit (s.stall i).page.comp.groups (c.val / 4)

/-- The stall that owns a copy engine. -/
def engineStall (s : State) (e : EngineId) : Option Stall :=
  allStalls.find? fun i => (s.stall i).page.comp.owner.isSome && bit (s.stall i).page.comp.engines e.val

/-- The stall that owns a route port. -/
def portStall (s : State) (p : PortId) : Option Stall :=
  allStalls.find? fun i => (s.stall i).page.comp.owner.isSome && bit (s.stall i).page.comp.ports p.val

/-- The opcode of a descriptor: byte 0 (Tables 04-4, 05-4, 06-3, R350). -/
def opcodeOf (d : BitVec 512) : Nat := fldN d 0 8

/-- A block entry (R350): it counts as an index and runs nothing. -/
def isBlock (d : BitVec 512) : Bool := opcodeOf d == 0x70

/-- The units of the core that a stream entry occupies (R54, R145, Table 02-13): 0 DA0, 1 DA1, 2 GME0, 3 GME1, 4 VU.
ASSAY, which names no GME, is taken in the order of GME0 (log entry 7). -/
def unitsOfEntry (d : BitVec 512) : List Nat :=
  let op := opcodeOf d
  if op = 0x10 then [fldN d 8 1]
  else if op = 0x20 then [2 + fldN d 8 1, fldN d 9 1]
  else if op = 0x24 then [2]
  else if 0x21 ≤ op ∧ op ≤ 0x23 then [2 + fldN d 8 1]
  else if 0x30 ≤ op ∧ op ≤ 0x34 then [4]
  else []

/-- The list of a core's stream. -/
def Charter.stream (c : Charter) (k : CoreId) : List StreamEntry := c.streams.getD k.val []

/-- A list item that a dependency word names (Table 12-6). -/
def depRef (w : BitVec 32) : Option EntryRef :=
  let i := fldN w 0 20
  let q := fldN w 20 5
  match fldN w 28 4 with
  | 0 => if h : q < 32 then some (.stream ⟨q, h⟩ i) else none
  | 1 => if h : q < 8 then some (.copy ⟨q, h⟩ i) else none
  | 2 => some (.recv i)
  | 3 => some (.ledger i)
  | 4 => some (.settle i)
  | _ => none

/-- The schedule record of an entry. -/
def Charter.sched (c : Charter) : EntryRef → Option Sched
  | .stream k i => ((c.stream k)[i]?).map fun e => e.sched
  | .copy e i => ((c.copies.getD e.val {}).entries)[i]?
  | .recv i => (c.recvs[i]?).map fun e => e.sched
  | .ledger i => (c.ledger[i]?).map fun e => e.sched
  | .settle i => (c.settle[i]?).map fun e => e.sched
  | .send i => (c.sends[i]?).map fun e => e.sched

/-- Is a reference to a block entry, which is never run and never waited for? -/
def Charter.isBlockRef (c : Charter) : EntryRef → Bool
  | .stream k i => match (c.stream k)[i]? with | some e => isBlock e.desc | none => false
  | _ => false

/-- The entries before an entry in charter order on its engine (R54): those of an earlier leg, and those that stand
earlier in its list and name the same leg. Sends wait for the earlier sends, and ledger entries for the ledger's stages;
both are checked where they run. -/
def Charter.before (c : Charter) (r : EntryRef) : List EntryRef :=
  let leg := match c.sched r with | some x => x.leg.toNat | none => 0
  let first (j i l : Nat) : Bool := decide (l < leg) || (decide (l = leg) && decide (j < i))
  match r with
  | .stream k i =>
    let us := match (c.stream k)[i]? with | some e => unitsOfEntry e.desc | none => []
    (List.range (c.stream k).length).filterMap fun j =>
      match (c.stream k)[j]? with
      | some e => if first j i e.sched.leg.toNat && (unitsOfEntry e.desc).any (us.contains ·) then some (.stream k j) else none
      | none => none
  | .copy e i =>
    (List.range (c.copies.getD e.val {}).entries.length).filterMap fun j =>
      match (c.copies.getD e.val {}).entries[j]? with
      | some x => if first j i x.leg.toNat then some (.copy e j) else none
      | none => none
  | .settle i =>
    (List.range c.settle.length).filterMap fun j =>
      match c.settle[j]? with | some x => if first j i x.sched.leg.toNat then some (.settle j) else none | none => none
  | _ => []

/-- Has an entry completed in this march? -/
def isDone (t : StallState) (r : EntryRef) : Bool := t.seq.done.any fun d => d.entry == r

/-- Has an engine run an entry in this march? -/
def hasRun (t : StallState) (r : EntryRef) : Bool := t.seq.ran.contains r

/-- Are the predecessors of an entry, named and implied, complete (R54, R349)? -/
def depsDone (t : StallState) (c : Charter) (r : EntryRef) : Bool :=
  match c.sched r with
  | none => false
  | some x =>
    (x.deps.all fun w => match depRef w with
      | some p => c.isBlockRef p || isDone t p
      | none => false)
    && (c.before r).all fun p => isDone t p

/-- Is this module a standby that stands in for no member? Until a takeover it runs its settlement entries alone, as the
mirrored member's forwards arrive (R459). -/
def idleStandby (t : StallState) : Bool :=
  decide (64 ≤ t.march.member.toNat) && t.march.member != 0x7F && !t.ledger.subst.any fun e => e.2 == t.march.member

/-- Does the stall issue work: in LEGS, in SETTLE, and in a hold whose march ends without settlement while its legs pass
(R58, R59, R67)? A module that has left the march issues none (R33), and a standby none before a takeover (R459). -/
def issuing (t : StallState) : Bool :=
  !t.seq.left && !t.seq.finished && !idleStandby t && match t.march.state with
  | .legs => !t.seq.stopped
  | .settle => true
  | .held => t.seq.noSettle
  | _ => false

/-- May an entry of this list run? The legs after a verdict without settlement are IDLE legs, in which copy engines and
route ports alone may work (R49, R67). -/
def mayRun (t : StallState) : EntryRef → Bool
  | .copy _ _ | .recv _ | .send _ => true
  | _ => !t.seq.noSettle

/-- May an engine take an entry now? Its leg is the current one (or, for work that outlives its leg under R58 and R59,
an earlier one), it has not run in this march, and its predecessors are complete. -/
def due (t : StallState) (c : Charter) (r : EntryRef) : Bool :=
  match c.sched r with
  | none => false
  | some x =>
    let outlives := match r with | .ledger _ => true | _ => t.march.state != .legs
    issuing t && mayRun t r && (x.leg == t.march.leg || (outlives && (t.seq.runAll || decide (x.leg.toNat < t.march.leg.toNat))))
      && !hasRun t r && depsDone t c r

/-- A copy engine's charter entry is over (R198): a host batch that it suspended resumes, and otherwise it is idle. -/
def State.copyIdle (s : State) (e : EngineId) : State :=
  s.modEngine e fun k =>
    match k.batch with
    | some b => { k with state := 3, source := true, index := BitVec.ofNat 16 (b.first.toNat % 2 ^ k.log2.toNat) }
    | none => { k with state := 1 }

/-- Mark an entry as run. -/
def State.markRan (s : State) (i : Stall) (r : EntryRef) : State :=
  s.modSeq i fun q => { q with ran := q.ran ++ [r] }

/-- The stall, the charter and the entry of a core's stream, where the entry is due and carries an opcode of a list.
Tile-ops do not run in the power state IDLE (R125). -/
def dueStream (s : State) (k : CoreId) (i : Nat) (ops : List Nat) : Option (Stall × Charter × StreamEntry) :=
  match coreStall s k with
  | none => none
  | some st =>
    match (s.stall st).charter.active with
    | none => none
    | some c =>
      match (c.stream k)[i]? with
      | none => none
      | some e =>
        if ops.contains (opcodeOf e.desc) && (s.power.state != 3 || decide (0x30 ≤ opcodeOf e.desc))
            && due (s.stall st) c (.stream k i) then some (st, c, e) else none

/-- The index of an entry within the core's stream for its leg (Tables 04-7, 05-10, 06-8). -/
def opIndex (c : Charter) (k : CoreId) (i : Nat) : BitVec 16 :=
  let leg := match (c.stream k)[i]? with | some e => e.sched.leg | none => 0
  BitVec.ofNat 16 (((c.stream k).take i).filter fun e => e.sched.leg == leg).length

/-- The block record of a block entry (R177): bytes 16 to 31 of the entry. -/
def blockRecord (d : BitVec 512) : BitVec 128 := fld d 128 128

/-- Is an entry of a core's stream a recompute entry of a KEEP_INPUT block (R177, R179)? -/
def isRecompute (c : Charter) (k : CoreId) (i : Nat) : Bool :=
  (c.stream k).any fun e =>
    isBlock e.desc && fldN (blockRecord e.desc) 0 2 == 1
      && decide (fldN (blockRecord e.desc) 48 16 ≤ i) && decide (i ≤ fldN (blockRecord e.desc) 64 16)

/-- The entry that a recompute entry copies (R179); any other entry is its own original. -/
def originalOf (c : Charter) (k : CoreId) (i : Nat) : Nat :=
  match (c.stream k).find? fun e =>
      isBlock e.desc && fldN (blockRecord e.desc) 0 2 == 1
        && decide (fldN (blockRecord e.desc) 48 16 ≤ i) && decide (i ≤ fldN (blockRecord e.desc) 64 16) with
  | some e => fldN (blockRecord e.desc) 16 16 + (i - fldN (blockRecord e.desc) 48 16)
  | none => i

/-- The descriptor whose destination names the element indices that an entry draws with: its original's (R180). -/
def drawDesc (c : Charter) (k : CoreId) (i : Nat) (d : BitVec 512) : BitVec 512 :=
  match (c.stream k)[originalOf c k i]? with
  | some e => e.desc
  | none => d

/-- An entry of a core's stream has run: marked, and counted where it is a recompute entry (R189). -/
def State.ranStream (s : State) (i : Stall) (c : Charter) (k : CoreId) (index : Nat) : State :=
  let s1 := s.markRan i (.stream k index)
  if isRecompute c k index then s1.modCore k fun x => { x with vu := { x.vu with recomputes := satAdd x.vu.recomputes 1 } }
  else s1

/-- The seed in force and the march number of a stall's draws (R79). -/
def drawFor (t : StallState) (stream : BitVec 24) (e : Nat) : Nat := lotDraw t.lot.seed stream t.march.num e

/-- The code that a store writes: RNE, or STOCHASTIC with the draw of the element's canonical index in the destination
tensor (R77 to R79, R111, R170). -/
def storeCode (t : StallState) (ten : BitVec 512) (f : Fmt) (stochastic : Bool) (stream : BitVec 24) (addr : Nat)
    (v : Word) : Nat :=
  if stochastic then encodeStochastic f (drawFor t stream (elemIndexAt ten addr)) (val32 v)
  else encodeRne f (val32 v)

end Sys2Proof.Machine
end

