-- ==== Sys2Proof/Machine/Window.lean ====
section
/-! DEFINITION. The control window (BAR0): its block map (Table 00-4), who may read and write each block (R370, R371,
R381, R386, Table 13-7, Table 13-8), foreign writes, and the halves of 64-bit pairs (R9, R10). -/

namespace Sys2Proof.Machine

/-- A register of the window: its block, the page or unit and the offset within it (Table 00-4). -/
inductive Reg where
  | ident (o : Nat)
  | march (i : Stall) (o : Nat)
  | charter (i : Stall) (o : Nat)
  | ledger (i : Stall) (o : Nat)
  | settle (i : Stall) (o : Nat)
  | tally (i : Stall) (o : Nat)
  | lot (i : Stall) (o : Nat)
  | copy (e : EngineId) (o : Nat)
  | core (c : CoreId) (o : Nat)
  | die (d : DieId) (o : Nat)
  | route (p : PortId) (o : Nat)
  | near (k : Fin 8) (o : Nat)
  | serai (k : Fin 24) (o : Nat)
  | stall (i : Stall) (o : Nat)
  | link (o : Nat)
  | post (i : Stall) (secure : Bool) (n : Fin 24) (o : Nat)
  | customs (i : Stall) (o : Nat)
  | power (o : Nat)
  | vote (i : Stall) (o : Nat)
  | fault (o : Nat)
  | faultPage (i : Stall) (o : Nat)
  | debug (o : Nat)
  | hole
  deriving DecidableEq, Repr

/-- A page of 8 KiB per stall. -/
def pageOf (base o : Nat) (f : Stall → Nat → Reg) : Reg :=
  let i := (o - base) / 0x2000
  if h : i < 8 then f ⟨i, h⟩ ((o - base) % 0x2000) else .hole

/-- A block of 64 KiB per unit of `n`. -/
def unitBlock (n base o : Nat) (f : Fin n → Nat → Reg) : Reg :=
  let i := (o - base) / 0x10000
  if h : i < n then f ⟨i, h⟩ ((o - base) % 0x10000) else .hole

/-- A post page (R392). -/
def postReg (secure : Bool) (i : Stall) (o : Nat) : Reg :=
  let n := o / 0x400
  if h : n < 24 then (if secure && 8 ≤ n then .hole else .post i secure ⟨n, h⟩ (o % 0x400)) else .hole

/-- The block map (Table 00-4). -/
def regOf (off : BitVec 26) : Reg :=
  let o := off.toNat
  if o < 0x10000 then .ident o
  else if o < 0x20000 then pageOf 0x10000 o .march
  else if o < 0x30000 then pageOf 0x20000 o .charter
  else if o < 0x40000 then pageOf 0x30000 o .ledger
  else if o < 0x50000 then pageOf 0x40000 o .settle
  else if o < 0x60000 then pageOf 0x50000 o .tally
  else if o < 0x70000 then pageOf 0x60000 o .lot
  else if o < 0x80000 then .hole
  else if o < 0x100000 then unitBlock 8 0x80000 o .copy
  else if o < 0x300000 then unitBlock 32 0x100000 o .core
  else if o < 0x340000 then unitBlock 4 0x300000 o .die
  else if o < 0x400000 then .hole
  else if o < 0x480000 then unitBlock 8 0x400000 o .route
  else if o < 0x500000 then .hole
  else if o < 0x580000 then unitBlock 8 0x500000 o .near
  else if o < 0x600000 then .hole
  else if o < 0x660000 then
    (if h : (o - 0x600000) / 0x4000 < 24 then .serai ⟨(o - 0x600000) / 0x4000, h⟩ ((o - 0x600000) % 0x4000) else .hole)
  else if o < 0x700000 then .hole
  else if o < 0x710000 then pageOf 0x700000 o .stall
  else if o < 0x720000 then .link (o - 0x710000)
  else if o < 0x800000 then .hole
  else if o < 0x880000 then unitBlock 8 0x800000 o (postReg false)
  else if o < 0x900000 then .hole
  else if o < 0x980000 then unitBlock 8 0x900000 o (postReg true)
  else if o < 0xA00000 then .hole
  else if o < 0xA80000 then unitBlock 8 0xA00000 o .customs
  else if o < 0xB00000 then .hole
  else if o < 0xB01000 then .power (o - 0xB00000)
  else if o < 0xB01800 then
    (if h : (o - 0xB01000) / 0x100 < 8 then .vote ⟨(o - 0xB01000) / 0x100, h⟩ ((o - 0xB01000) % 0x100) else .hole)
  else if o < 0xC00000 then .hole
  else if o < 0xC09000 then .fault (o - 0xC00000)
  else if o < 0xC09800 then
    (if h : (o - 0xC09000) / 0x100 < 8 then .faultPage ⟨(o - 0xC09000) / 0x100, h⟩ ((o - 0xC09000) % 0x100) else .hole)
  else if o < 0xF00000 then .hole
  else if o < 0xF10000 then .debug (o - 0xF00000)
  else .hole

/-- The role of a link for a stall (R370): 0 OWNER, 1 ALTERNATE, 2 WATCHER. -/
def roleOf (s : State) (l : LinkId) (i : Stall) : Option Nat :=
  let p := (s.stall i).page
  if p.comp.owner.isNone then none
  else if ownerLink p = some l then some 0
  else if altLink p = some l then some 1
  else if bit p.comp.watchers l.val then some 2
  else none

/-- Does the relay own a stall (R371)? -/
def relayOwns (s : State) (i : Stall) : Bool := (s.stall i).page.comp.owner == some none

/-- The stall whose roles decide on a register (R370, Table 13-7), where a stall does. -/
def ownerStall (s : State) : Reg → Option (Option Stall)
  | .march i _ | .charter i _ | .ledger i _ | .settle i _ | .tally i _ | .lot i _ | .stall i _ | .post i _ _ _
  | .vote i _ | .faultPage i _ | .customs i _ => some (some i)
  | .copy e _ => some (engineStall s e)
  | .core c _ => some (coreStall s c)
  | .route p _ => some (portStall s p)
  | _ => none

/-- Is a secure post page reached through an IDE stream bound to the stall (R366, R386)? -/
def secureReach (s : State) (l : LinkId) : Bool := (s.host l).ideIo

/-- In stranded mode only non-secure post 3 of stall page 0 is live (R382). -/
def strandedPost : Reg → Bool
  | .post i secure n _ => decide (i = 0) && !secure && decide (n = 3)
  | _ => false

/-- May a requester read a register (R370, R371, R381, R386)? A read that is not allowed returns zero. The on-module
processors, whose reads no rule limits, read every register (log entry 10). -/
def mayRead (s : State) (r : Requester) (g : Reg) : Bool :=
  match r with
  | .link l =>
    if s.tollgate.stranded && (match g with | .post .. => true | _ => false) then strandedPost g
    else match ownerStall s g with
      | some (some i) =>
        (roleOf s l i).isSome && (match g with | .post _ true _ _ => secureReach s l | _ => true)
      | some none => false
      | none => true
  | .relay st =>
    match ownerStall s g with
    | some (some i) => decide (i = st) && relayOwns s st
    | some none => false
    | none => true
  | _ => true

/-- Is a register, or its field, writable by Tollgate boot code only (R11: TW)? -/
def isTw : Reg → Bool
  | .charter _ o => o == 0x2C
  | .near _ o => o == 0x2C
  | .serai _ o => o == 0x2C
  | .power o => o == 0x20
  | _ => false

/-- The roles that may write an inbound or outbound post (Table 13-8): bit 0 owner, bit 1 alternate, bit 2 watchers. -/
def postWriters (secure : Bool) (n : Nat) : Nat :=
  if secure then (if n = 1 then 7 else if n = 2 then 3 else 1)
  else if n = 1 ∨ n = 2 then 7 else 1

/-- Whether a write is allowed. -/
inductive WriteAccess where
  | allow
  /-- dropped and counted as a foreign write of a cause of Table 13-13 -/
  | foreign (cause : BitVec 4)
  /-- dropped without a count -/
  | drop
  deriving DecidableEq, Repr

/-- The foreign-write cause of a page for a link (R370, R381). -/
def pageWrite (s : State) (l : LinkId) (i : Stall) : WriteAccess :=
  match roleOf s l i with
  | some 0 => .allow
  | some _ => .foreign 2
  | none => .foreign 0

/-- May a link write a post (R382, R386)? -/
def postWrite (s : State) (l : LinkId) (i : Stall) (secure : Bool) (n : Nat) : WriteAccess :=
  if s.tollgate.stranded then (if i.val = 0 && !secure && n = 3 then .allow else .foreign 0)
  else match roleOf s l i with
    | none => .foreign (if secure then 3 else 0)
    | some role =>
      if secure && !secureReach s l then .foreign 3
      else if (postWriters secure n / 2 ^ role) % 2 = 1 then .allow else .foreign 2

/-- May a requester write a register (R370, R371, R381, R382, R386, R448, R472)? A write that the relay or an on-module
processor may not make, of a TW register among them (R11), is dropped and counted nowhere, since LINK_FOREIGN is a link's
(DESIGN CHOICE, log entry 107). -/
def writeAccess (s : State) (r : Requester) (g : Reg) : WriteAccess :=
  match r with
  | .tollgate => .allow
  | .link l =>
    if isTw g then .foreign 1
    else match g with
      | .post i secure n _ => postWrite s l i secure n.val
      | .ident _ | .die _ _ | .near _ _ | .serai _ _ | .customs _ _ => .foreign 0
      | .power o =>
        if o = 4 && (allStalls.any fun i => roleOf s l i == some 0) then .allow else .foreign 0
      | .link _ | .fault _ | .hole => .allow
      | .debug _ => .drop
      | _ =>
        match ownerStall s g with
        | some (some i) => pageWrite s l i
        | some none => .foreign 0
        | none => .allow
  | .relay st =>
    if isTw g then .drop
    else match ownerStall s g with
      | some (some i) => if i = st && relayOwns s st then .allow else .drop
      | _ => .drop
  | _ => if isTw g then .drop else .allow

/-- Count a foreign write of a link (R381, Table 13-13); NOT_SECURE is recorded once per link per second (R386). -/
def State.foreignWrite (s : State) (l : LinkId) (off : BitVec 26) (cause : BitVec 4) : State :=
  let s1 := s.modHost l fun h => { h with
    foreign := satAdd h.foreign 1
    foreignLast := put cause 28 ||| put (fld off 2 24) 2 }
  if cause = 3 then
    let again := match (s.host l).notSecureAt with
      | some t => decide (s.time.toNat < t.toNat + 1000000000)
      | none => false
    if again then s1
    else (s1.modHost l fun h => { h with notSecureAt := some s.time }).record
      { reason := 0x0C07, cls := clsInfo, detail := off.setWidth 32 }
  else s1

/-- Perform a write where it is allowed; count a foreign write. -/
def State.guardWrite (s : State) (r : Requester) (off : BitVec 26) (f : State → State) : State :=
  match writeAccess s r (regOf off) with
  | .allow => f s
  | .drop => s
  | .foreign cause => match r with | .link l => s.foreignWrite l off cause | _ => s

/-! ### Offsets of the registers that have commands of their own -/

def marchOff (i : Stall) (o : Nat) : BitVec 26 := BitVec.ofNat 26 (0x10000 + 0x2000 * i.val + o)
def charterOff (i : Stall) (o : Nat) : BitVec 26 := BitVec.ofNat 26 (0x20000 + 0x2000 * i.val + o)
def ledgerOff (i : Stall) (o : Nat) : BitVec 26 := BitVec.ofNat 26 (0x30000 + 0x2000 * i.val + o)
def settleOff (i : Stall) (o : Nat) : BitVec 26 := BitVec.ofNat 26 (0x40000 + 0x2000 * i.val + o)
def tallyOff (i : Stall) (o : Nat) : BitVec 26 := BitVec.ofNat 26 (0x50000 + 0x2000 * i.val + o)
def lotOff (i : Stall) (o : Nat) : BitVec 26 := BitVec.ofNat 26 (0x60000 + 0x2000 * i.val + o)
def copyOff (e : EngineId) (o : Nat) : BitVec 26 := BitVec.ofNat 26 (0x80000 + 0x10000 * e.val + o)
def coreOff (c : CoreId) (o : Nat) : BitVec 26 := BitVec.ofNat 26 (0x100000 + 0x10000 * c.val + o)
def routeOff (p : PortId) (o : Nat) : BitVec 26 := BitVec.ofNat 26 (0x400000 + 0x10000 * p.val + o)
def stallOff (i : Stall) (o : Nat) : BitVec 26 := BitVec.ofNat 26 (0x700000 + 0x2000 * i.val + o)
def postOff (i : Stall) (secure : Bool) (n : Fin 24) (o : Nat) : BitVec 26 :=
  BitVec.ofNat 26 ((if secure then 0x900000 else 0x800000) + 0x10000 * i.val + 0x400 * n.val + o)
def voteOff (i : Stall) : BitVec 26 := BitVec.ofNat 26 (0xB01000 + 0x100 * i.val)
def faultOff (i : Stall) (o : Nat) : BitVec 26 := BitVec.ofNat 26 (0xC09000 + 0x100 * i.val + o)

/-! ### Halves of 64-bit pairs -/

/-- A number for each requester. -/
def requesterIx : Requester → Nat
  | .link l => l.val
  | .tollgate => 4
  | .quartermaster d => 5 + d.val
  | .waystation => 9
  | .relay s => 10 + s.val

/-- The key of a requester's half of the pair at an offset (log entry 11). -/
def halfKey (r : Requester) (off : BitVec 26) : Nat := requesterIx r * 2 ^ 26 + off.toNat

/-- Hold a written low half (R9). -/
def State.holdLow (s : State) (r : Requester) (off : BitVec 26) (v : Word) : State :=
  { s with held := insertKey (halfKey r off) v s.held }

/-- The low half that a write of the high half commits: the one the requester last wrote, or zero (R9). -/
def State.heldLow (s : State) (r : Requester) (off : BitVec 26) : Word := (lookupKey (halfKey r off) s.held).getD 0

/-- Capture a high half (R10). -/
def State.capture (s : State) (r : Requester) (off : BitVec 26) (v : Word) : State :=
  { s with caught := insertKey (halfKey r off) v s.caught }

end Sys2Proof.Machine
end

