-- ==== Sys2Proof/Machine/Copies.lean ====
section
/-! DEFINITION. The copy engines (chapter 07): COPY_ENTRY, the host queue's batches, its registers, the checks of R212 and
R213, the cost of R217, and the responses of R300. -/

namespace Sys2Proof.Machine

/-! ### The descriptor and the shape record (Tables 07-2, 07-3) -/

def cpDims (d : BitVec 512) : Nat := fldN d 8 3
def cpFmt (d : BitVec 512) : Nat := fldN d 11 3
def cpSrcLayout (d : BitVec 512) : Nat := fldN d 14 2
def cpDstLayout (d : BitVec 512) : Nat := fldN d 16 2
def cpPad (d : BitVec 512) : Nat := fldN d 18 2
def cpGather (d : BitVec 512) : Bool := bit d 20
def cpScatter (d : BitVec 512) : Bool := bit d 21
def cpChain (d : BitVec 512) : Bool := bit d 22
def cpNotify (d : BitVec 512) : Bool := bit d 23
def cpPerm (d : BitVec 512) (k : Nat) : Nat := fldN d (32 + 3 * k) 3
def cpSrc (d : BitVec 512) : Nat := fldN d 64 48
def cpSrcTensor (d : BitVec 512) : Nat := fldN d 112 16
def cpDst (d : BitVec 512) : Nat := fldN d 128 48
def cpDstTensor (d : BitVec 512) : Nat := fldN d 176 16
def cpExtRaw (d : BitVec 512) (k : Nat) : Nat := fldN d (192 + 16 * k) 16
def cpShape (d : BitVec 512) : Nat := fldN d 288 48
def cpList (d : BitVec 512) : Nat := fldN d 352 48
def cpBlocks (d : BitVec 512) : Nat := fldN d 416 32
def cpTag (d : BitVec 512) : Word := fld d 448 32

def shSrcS (h : BitVec 640) (k : Nat) : Nat := fldN h (32 * k) 32
def shDstS (h : BitVec 640) (k : Nat) : Nat := fldN h (192 + 32 * k) 32
def shDstExt (h : BitVec 640) (k : Nat) : Nat := fldN h (384 + 16 * k) 16
def shOff (h : BitVec 640) (k : Nat) : Nat := fldN h (480 + 16 * k) 16
def shPadValue (h : BitVec 640) : Nat := fldN h 576 32

/-- A copy descriptor with its shape record. -/
structure CopyOp where
  d : BitVec 512
  h : BitVec 640

/-- Empty under R14 (Table 07-6): DIMS, an extent in use or BLOCKS is zero. -/
def cpEmpty (d : BitVec 512) : Bool :=
  cpDims d == 0 || cpBlocks d == 0 || (List.range (min 6 (cpDims d))).any fun k => cpExtRaw d k == 0

/-- Element size in bytes of FMT (an I4 tensor moves as I8). -/
def cpSize (d : BitVec 512) : Nat := if cpFmt d = 2 then 4 else if cpFmt d = 4 then 1 else 2

/-- Source box extent (R204). -/
def cpExt (d : BitVec 512) (k : Nat) : Nat := if k < cpDims d then cpExtRaw d k else 1

/-- The offset of the data in the destination box (R204). -/
def cpOff (o : CopyOp) (k : Nat) : Nat := if cpPad o.d = 0 then 0 else shOff o.h k

/-- Destination box extent (R204). -/
def cpBox (o : CopyOp) (k : Nat) : Nat := if cpPad o.d = 0 then cpExt o.d (cpPerm o.d k) else shDstExt o.h k

/-- Bytes of a list entry (R203). -/
def cpEntryBytes (d : BitVec 512) : Nat := if cpGather d && cpScatter d then 32 else 16

/-- Six coordinates of a list entry (R203). -/
def listCoords (s : State) (i : Stall) (a : Nat) : List Nat := (List.range 6).map fun k => s.readNat i (a + 2 * k) 2

/-- Block coordinates of box `j` without a list (R205). -/
def plainCoords (d : BitVec 512) (j : Nat) : List Nat := (List.range 6).map fun k => if k + 1 = cpDims d then j else 0

/-- Source block coordinates of box `j`. -/
def srcCoords (s : State) (i : Stall) (d : BitVec 512) (j : Nat) : List Nat :=
  if cpGather d then listCoords s i (cpList d + j * cpEntryBytes d) else plainCoords d j

/-- Destination block coordinates of box `j`. -/
def dstCoords (s : State) (i : Stall) (d : BitVec 512) (j : Nat) : List Nat :=
  if cpScatter d then listCoords s i (cpList d + j * cpEntryBytes d + (if cpGather d then 16 else 0)) else plainCoords d j

/-- Source origin element of box `j` (R205). -/
def srcOrigin (s : State) (i : Stall) (d : BitVec 512) (j : Nat) : List Nat :=
  (List.range 6).map fun k => (srcCoords s i d j).getD k 0 * cpExt d k

/-- Destination origin element of box `j`. -/
def dstOrigin (s : State) (i : Stall) (o : CopyOp) (j : Nat) : List Nat :=
  (List.range 6).map fun k => (dstCoords s i o.d j).getD k 0 * cpBox o k

/-- Is a tensor I4, which a copy moves as I8 elements of two codes each (R195)? -/
def isPair (t : BitVec 512) : Bool := tFormat t == 3

/-- Bytes of a block of a weave side, and its elements along the 16-element side (R193, R195): in an I4 weave a copy's
coordinate counts the bytes along that side. -/
def blockBytes (pair : Bool) (size : Nat) : Nat := if pair then 1024 else 2048 * size
def blockSide (pair : Bool) : Nat := if pair then 8 else 16

/-- The byte address of element `x` of a side (R192, R193, R195). -/
def sideAddr (pair : Bool) (layout base size : Nat) (st : Nat → Nat) (x : List Nat) : Nat :=
  let g (k : Nat) := x.getD k 0
  let outer := ((List.range 4).map fun k => g (k + 2) * st (k + 2)).sum
  let off (p q : Nat) := if pair then weaveOffset 1 (st 1) p (2 * q) / 2 else weaveOffset (2 * size) (st 1) p q / 2
  if layout = 1 then base + off (g 1) (g 0) + outer
  else if layout = 2 then base + off (g 0) (g 1) + outer
  else base + g 0 * st 0 + g 1 * st 1 + outer

/-- The first element of the block that holds element `x` of a weave side. -/
def blockCorner (pair : Bool) (layout : Nat) (x : List Nat) : List Nat :=
  (List.range 6).map fun k =>
    let v := x.getD k 0
    if (layout = 1 ∧ k = 1) ∨ (layout = 2 ∧ k = 0) then v / 128 * 128
    else if (layout = 1 ∧ k = 0) ∨ (layout = 2 ∧ k = 1) then v / blockSide pair * blockSide pair
    else v

def srcAddr (c : Charter) (o : CopyOp) (x : List Nat) : Nat :=
  sideAddr (isPair (c.tensor (cpSrcTensor o.d))) (cpSrcLayout o.d) (cpSrc o.d) (cpSize o.d) (shSrcS o.h) x
def dstAddr (c : Charter) (o : CopyOp) (x : List Nat) : Nat :=
  sideAddr (isPair (c.tensor (cpDstTensor o.d))) (cpDstLayout o.d) (cpDst o.d) (cpSize o.d) (shDstS o.h) x

/-- Coordinate sums. -/
def addCoords (a b : List Nat) : List Nat := (List.range 6).map fun k => a.getD k 0 + b.getD k 0

/-- Every coordinate of a box, coordinate 0 fastest (R206). -/
def boxCoords (ext : Nat → Nat) : List (List Nat) :=
  (List.range 6).foldr (fun k acc =>
    acc.flatMap fun tail => (List.range (ext k)).map fun v => v :: tail) [[]] |>.map id

/-- Is destination coordinate `y` of the box inside the data (R206)? -/
def cpInside (o : CopyOp) (y : List Nat) : Bool :=
  (List.range 6).all fun k =>
    decide (cpOff o k ≤ y.getD k 0) && decide (y.getD k 0 < cpOff o k + cpExt o.d (cpPerm o.d k))

/-- The source coordinate that feeds destination coordinate `y` (R206). -/
def cpFeed (o : CopyOp) (y : List Nat) : List Nat :=
  (List.range 6).map fun m =>
    match (List.range 6).find? fun k => cpPerm o.d k == m with
    | some k => y.getD k 0 - cpOff o k
    | none => 0

/-- Is the code at a half-byte position of a tensor at a pad position (R197)? -/
def padAt (c : Charter) (t : BitVec 512) (pos : Nat) : Bool :=
  tPad t && (match coordsOf t pos with | some x => atPad c t x | none => false)

/-- The bits a copy reads from a source element: PAD_VALUE at a pad position of the source tensor, code by code in an I4
tensor (R195, R197). -/
def cpRead (s : State) (i : Stall) (c : Charter) (o : CopyOp) (a : Nat) : List Byte :=
  let t := c.tensor (cpSrcTensor o.d)
  if isPair t then
    let code (pos : Nat) : Nat := if padAt c t pos then padValue (c.padExt t) % 16 else readCode s i pos 1
    [BitVec.ofNat 8 (code (2 * a) + 16 * code (2 * a + 1))]
  else if padAt c t (2 * a) then leBytes (cpSize o.d) (BitVec.ofNat 32 (padValue (c.padExt t)))
  else s.readBytes i a (cpSize o.d)

/-- Is a destination element a pad position that no unit writes (R197): of an I4 tensor, are both its codes? -/
def cpProtected (c : Charter) (o : CopyOp) (a : Nat) : Bool :=
  let t := c.tensor (cpDstTensor o.d)
  padAt c t (2 * a) && (!isPair t || padAt c t (2 * a + 1))

/-- What a copy writes to a destination element: a code of an I4 tensor at a pad position keeps its bits (R197). -/
def cpMerge (s : State) (i : Stall) (c : Charter) (o : CopyOp) (a : Nat) (bs : List Byte) : List Byte :=
  let t := c.tensor (cpDstTensor o.d)
  if isPair t && (padAt c t (2 * a) || padAt c t (2 * a + 1)) then
    let new := (bs.getD 0 0).toNat
    let code (k : Nat) : Nat :=
      if padAt c t (2 * a + k) then readCode s i (2 * a + k) 1 else (if k = 0 then new % 16 else new / 16)
    [BitVec.ofNat 8 (code 0 + 16 * code 1)]
  else bs

/-- One write of a copy: the source element's address where it has one, the destination's, and the bytes. -/
structure CopyWrite where
  src : Option Nat
  dst : Nat
  bytes : List Byte

/-- Source and destination origin of every box of a descriptor: what the scan of R213 reads. -/
def scanBoxes (s : State) (i : Stall) (o : CopyOp) : List (List Nat × List Nat) :=
  (List.range (cpBlocks o.d)).map fun j => (srcOrigin s i o.d j, dstOrigin s i o j)

/-- The writes of a descriptor in the order of R206, with the boxes that its scan gave; every source value is read on the
state before the descriptor (R207: a plain copy's reads precede its writes, and the extents of any other copy are
disjoint). -/
def copyWrites (s : State) (i : Stall) (c : Charter) (o : CopyOp) (boxes : List (List Nat × List Nat)) : List CopyWrite :=
  if cpEmpty o.d then []
  else boxes.flatMap fun (so, dn) =>
    (boxCoords (cpBox o)).filterMap fun y =>
      let a := dstAddr c o (addCoords dn y)
      if cpProtected c o a then none
      else if cpInside o y then
        let b := srcAddr c o (addCoords so (cpFeed o y))
        some ⟨some b, a, cpMerge s i c o a (cpRead s i c o b)⟩
      else if cpPad o.d = 1 then
        some ⟨none, a, cpMerge s i c o a (leBytes (cpSize o.d) (BitVec.ofNat 32 (shPadValue o.h)))⟩
      else none

/-- Perform one write of a copy: its bytes are read, written and counted (R300, R304). -/
def State.copyWrite (s : State) (i : Stall) (e : EngineId) (w : CopyWrite) : State :=
  let s1 := match w.src with | some a => s.countRead i a w.bytes.length | none => s
  (s1.store (.copy e) i w.dst w.bytes).countBytes i w.dst w.bytes.length

/-- Perform the writes of descriptor `n` of a batch on an engine, and note what they replace. -/
def State.copyRun (s : State) (i : Stall) (e : EngineId) (n : Nat) (ws : List CopyWrite) : State × List MovedWrite :=
  let (s1, ms) := ws.foldl (fun (acc : State × List MovedWrite) w =>
    (acc.1.copyWrite i e w,
      acc.2 ++ [⟨n, w.src, w.dst, (acc.1.seen (.copy e)).readBytes i w.dst w.bytes.length⟩])) (s, [])
  (s1.modEngine e fun x => { x with bytes := x.bytes + BitVec.ofNat 64 (ws.map fun w => w.bytes.length).sum }, ms)

/-! ### Checks (R212, R213) -/

/-- Does the copy reorder elements (R207)? -/
def cpReorders (d : BitVec 512) : Bool :=
  cpSrcLayout d != cpDstLayout d || (List.range 6).any fun k => cpPerm d k != k

/-- PERM under R204. -/
def cpPermOk (d : BitVec 512) : Bool :=
  (List.range 6).all fun k => if k < cpDims d then decide (cpPerm d k < cpDims d)
      && (List.range k).all (fun j => cpPerm d j != cpPerm d k) else cpPerm d k == k

/-- Reserved opcode, encodings and fields (R212). -/
def cpReservedOk (d : BitVec 512) : Bool :=
  opcodeOf d == 0x40 && decide (cpDims d ≤ 6) && cpSrcLayout d != 3 && cpDstLayout d != 3 && cpPad d != 3
    && fldN d 24 8 == 0 && fldN d 50 14 == 0 && fldN d 336 16 == 0 && fldN d 400 16 == 0 && fldN d 480 32 == 0

/-- FMT against a tensor (R212): equal size, I8 for I4 and for SPARSE. -/
def cpFmtOk (d : BitVec 512) (t : BitVec 512) : Bool :=
  (cpFmt d == 0 || cpFmt d == 1 || cpFmt d == 2 || cpFmt d == 4)
    && (if tLayout t = 3 ∨ tFormat t = 3 then cpFmt d == 4 else tSize t == 2 * cpSize d)

/-- The layout of a side against its tensor (R212). -/
def sideLayoutOk (layout : Nat) (st : Nat → Nat) (t : BitVec 512) : Bool :=
  if tLayout t = 3 then layout == 0
  else layout == tLayout t
    && (layout == 0 || (st 1 == tS t 1 && (List.range 4).all fun k => st (k + 2) == tS t (k + 2)))

/-- Alignment of a weave side (R205, R212): at least two dimensions, an address at a block start, origins at block
corners. -/
def weaveSideOk (layout dims addr : Nat) (t : BitVec 512) (origins : List (List Nat)) : Bool :=
  layout == 0 ||
    (decide (2 ≤ dims)
      && (match coordsOf t (2 * addr) with | some x => blockCorner false layout x == x | none => false)
      && origins.all fun o => blockCorner (isPair t) layout o == o)

/-- Strides of a STRIDED side are multiples of the element size (R192), those of a weave side obey R193 and R194. -/
def stridesOk (layout size : Nat) (st : Nat → Nat) (t : BitVec 512) : Bool :=
  if layout = 0 then (List.range 6).all fun k => st k % size == 0
  else
    let blk := blockBytes (isPair t) size
    st 0 == 0 && st 1 % blk == 0 && decide (ceilDiv (if layout = 1 then tN t 0 else tN t 1) 16 * blk ≤ st 1)
      && (List.range 4).all fun k => st (k + 2) % 256 == 0

/-- Does an element position lie within a tensor: for a SPARSE tensor, within the slots or directory of a form? -/
def positionIn (c : Charter) (t : BitVec 512) (a : Nat) : Bool :=
  if tLayout t = 3 then
    let e := c.sparseExt t
    let inForm (tk slot dir rows kd : Nat) : Bool :=
      let kt := ceilDiv kd tk
      let n := ceilDiv rows 128 * kt
      let sz := 128 * tk * (tSize t / 2) + 16 * tk
      (decide (slot ≤ a) && decide (a < slot + n * sz)) || (decide (dir ≤ a) && decide (a < dir + 16 * n))
    inForm (fldN e 0 16) (fldN e 32 48) (fldN e 80 48) (tN t 1) (tN t 0)
      || (tTurned t && inForm (fldN e 128 16) (fldN e 160 48) (fldN e 208 48) (tN t 0) (tN t 1))
  else (coordsOf t (2 * a)).isSome

/-- The element addresses of the source side of box `j`. -/
def srcBoxAddrs (s : State) (i : Stall) (c : Charter) (o : CopyOp) (j : Nat) : List Nat :=
  (boxCoords (cpExt o.d)).map fun x => srcAddr c o (addCoords (srcOrigin s i o.d j) x)

/-- The element addresses of the destination side of box `j`, with whether each is inside the data. -/
def dstBoxAddrs (s : State) (i : Stall) (c : Charter) (o : CopyOp) (j : Nat) : List (Nat × Bool) :=
  (boxCoords (cpBox o)).map fun y => (dstAddr c o (addCoords (dstOrigin s i o j) y), cpInside o y)

/-- Does a box of extents `ext` whose first element lies at address `a` stay within the extents of its tensor (R212)? A
STRIDED side with strides of its own, a SPARSE tensor and an I4 tensor are judged by the element positions alone. -/
def boxIn (layout : Nat) (st : Nat → Nat) (t : BitVec 512) (ext : Nat → Nat) (a : Nat) : Bool :=
  tLayout t == 3 || tFormat t == 3 || (layout == 0 && (List.range 6).any fun k => decide (1 < ext k) && st k != tS t k)
    || (match coordsOf t (2 * a) with
      | some x => (List.range 6).all fun k => decide (x.getD k 0 + ext k ≤ max 1 (tN t k))
      | none => false)

/-- Does box `j` stay within its source tensor, in its corner and in every element? -/
def srcBoxOk (s : State) (i : Stall) (c : Charter) (o : CopyOp) (j : Nat) : Bool :=
  let t := c.tensor (cpSrcTensor o.d)
  boxIn (cpSrcLayout o.d) (shSrcS o.h) t (cpExt o.d) (srcAddr c o (srcOrigin s i o.d j))
    && (srcBoxAddrs s i c o j).all (positionIn c t)

/-- Does box `j` stay within its destination tensor? -/
def dstBoxOk (s : State) (i : Stall) (c : Charter) (o : CopyOp) (j : Nat) : Bool :=
  let t := c.tensor (cpDstTensor o.d)
  boxIn (cpDstLayout o.d) (shDstS o.h) t (cpBox o) (dstAddr c o (dstOrigin s i o j))
    && (dstBoxAddrs s i c o j).all fun p => positionIn c t p.1

/-- The byte range from the lowest to the highest byte of elements at addresses. -/
def hull (size : Nat) (l : List Nat) : Option (Nat × Nat) :=
  match l with
  | [] => none
  | a :: l => some (minOf l a, maxOf l a + size)

/-- Do two byte ranges overlap? -/
def rangesMeet : Option (Nat × Nat) → Option (Nat × Nat) → Bool
  | some (a, b), some (c, d) => decide (a < d) && decide (c < b)
  | _, _ => false

/-- The smallest range that holds two. -/
def joinRanges : Option (Nat × Nat) → Option (Nat × Nat) → Option (Nat × Nat)
  | some (a, b), some (c, d) => some (min a c, max b d)
  | none, r => r
  | r, none => r

/-- The extent of a tensor in bytes (R208): over whole blocks for a weave, over slots and directory of both forms for a
SPARSE tensor. -/
def tensorExtent (c : Charter) (t : BitVec 512) : Option (Nat × Nat) :=
  if tLayout t = 3 then
    let e := c.sparseExt t
    let form (tk slot dir rows kd : Nat) : Option (Nat × Nat) :=
      let n := ceilDiv rows 128 * ceilDiv kd tk
      some (min dir slot, max (dir + 16 * n) (slot + n * (128 * tk * (tSize t / 2) + 16 * tk)))
    joinRanges (form (fldN e 0 16) (fldN e 32 48) (fldN e 80 48) (tN t 1) (tN t 0))
      (if tTurned t then form (fldN e 128 16) (fldN e 160 48) (fldN e 208 48) (tN t 0) (tN t 1) else none)
  else
    let top := (List.range 6).map fun k => tN t k - 1
    if tLayout t = 0 then some (tBase t, (elemPos t top + tSize t + 1) / 2)
    else
      let np := if tLayout t = 1 then tN t 1 else tN t 0
      let nq := if tLayout t = 1 then tN t 0 else tN t 1
      some (tBase t, tBase t + (np - 1) / 128 * tS t 1 + ceilDiv nq 16 * 1024 * tSize t
        + ((List.range 4).map fun k => (tN t (k + 2) - 1) * tS t (k + 2)).sum)

/-- The range of a side's elements: over whole blocks on a weave side (R194). -/
def sideRange (pair : Bool) (layout base size : Nat) (st : Nat → Nat) (xs : List (List Nat)) : Option (Nat × Nat) :=
  if layout = 0 then hull size (xs.map (sideAddr pair layout base size st))
  else hull (blockBytes pair size) (xs.map fun x => sideAddr pair layout base size st (blockCorner pair layout x))

/-- Source extent of a descriptor (R208). -/
def srcExtent (s : State) (i : Stall) (c : Charter) (o : CopyOp) : Option (Nat × Nat) :=
  let t := c.tensor (cpSrcTensor o.d)
  if cpGather o.d then tensorExtent c t
  else sideRange (isPair t) (cpSrcLayout o.d) (cpSrc o.d) (cpSize o.d) (shSrcS o.h)
    ((scanBoxes s i o).flatMap fun b => (boxCoords (cpExt o.d)).map (addCoords b.1))

/-- May a copy write the destination element at coordinate `y` of a box: data or WRITE pad, and no pad position of the
tensor (R197, R206)? -/
def cpWritten (c : Charter) (o : CopyOp) (dn y : List Nat) : Bool :=
  (cpInside o y || cpPad o.d == 1) && !cpProtected c o (dstAddr c o (addCoords dn y))

/-- Destination addresses that a descriptor writes: those of data, and those of WRITE pad (R209). -/
def dstAddrs (s : State) (i : Stall) (c : Charter) (o : CopyOp) (inside : Bool) : List Nat :=
  (scanBoxes s i o).flatMap fun b =>
    ((boxCoords (cpBox o)).filter fun y => cpInside o y == inside && cpWritten c o b.2 y).map fun y =>
      dstAddr c o (addCoords b.2 y)

/-- Destination extent of a descriptor (R208). -/
def dstExtent (s : State) (i : Stall) (c : Charter) (o : CopyOp) : Option (Nat × Nat) :=
  let t := c.tensor (cpDstTensor o.d)
  if cpScatter o.d then tensorExtent c t
  else sideRange (isPair t) (cpDstLayout o.d) (cpDst o.d) (cpSize o.d) (shDstS o.h)
    ((scanBoxes s i o).flatMap fun b => ((boxCoords (cpBox o)).filter (cpWritten c o b.2)).map (addCoords b.2))

/-- Virtual padding under R210. -/
def vpadOk (c : Charter) (o : CopyOp) : Bool :=
  let t := c.tensor (cpDstTensor o.d)
  let e := c.padExt t
  tPad t && cpBlocks o.d == 1 && padValue e == shPadValue o.h
    && (List.range 6).all fun k => padOff e k == shOff o.h k && padLen e k == cpExt o.d (cpPerm o.d k)

/-- The first refused access of a copy, as (cause, address): the shape record, the list, source and destination
elements; where a list is in use, the tensor's whole extent stands for its elements (R208, R211, R212). -/
def copyDenied (s : State) (i : Stall) (c : Charter) (o : CopyOp) (shapeToo : Bool) : Option (BitVec 4 × Nat) :=
  let cu := (s.stall i).customs
  let ask (need : BitVec 4) (n a : Nat) : Option (BitVec 4 × Nat) := (denyCause cu .copy need a n).map fun k => (k, a)
  let step (r : Option (Nat × Nat)) : List Nat := match r with
    | some (a, b) => (List.range ((b - a) / cpSize o.d)).map fun k => a + k * cpSize o.d
    | none => []
  let shape := if shapeToo then [(permRead, 80, cpShape o.d)] else []
  let lists := if cpGather o.d || cpScatter o.d then [(permRead, cpBlocks o.d * cpEntryBytes o.d, cpList o.d)] else []
  let srcs := if cpGather o.d || cpSrcLayout o.d != 0 then step (srcExtent s i c o)
    else (List.range (cpBlocks o.d)).flatMap (srcBoxAddrs s i c o)
  let dsts := if cpScatter o.d || cpDstLayout o.d != 0 then step (dstExtent s i c o)
    else dstAddrs s i c o true ++ dstAddrs s i c o false
  (shape ++ lists ++ srcs.map (fun a => (permRead, cpSize o.d, a)) ++ dsts.map (fun a => (permWrite, cpSize o.d, a))).findSome?
    fun q => ask q.1 q.2.1 q.2.2

/-- The checks of R212 on one descriptor, in their order; `none` where all pass. -/
def copyCheck (s : State) (i : Stall) (c : Charter) (o : CopyOp) (others : List CopyOp) (shapeToo : Bool) : Option Reason :=
  let d := o.d
  let ts := c.tensor (cpSrcTensor d)
  let td := c.tensor (cpDstTensor d)
  let boxes := List.range (cpBlocks d)
  let so := if cpGather d then [] else boxes.map (srcOrigin s i d)
  let dn := if cpScatter d then [] else boxes.map (dstOrigin s i o)
  let meets (p : CopyOp) : Bool :=
    !cpEmpty p.d && !cpScatter p.d && !cpScatter d &&
      (rangesMeet (hull (cpSize d) (dstAddrs s i c o false)) (hull (cpSize p.d) (dstAddrs s i c p true))
        || rangesMeet (hull (cpSize d) (dstAddrs s i c o true)) (hull (cpSize p.d) (dstAddrs s i c p false)))
  if !cpReservedOk d then some 0x0507
  else if cpEmpty d then none
  else if c.tensors.length ≤ cpSrcTensor d ∨ c.tensors.length ≤ cpDstTensor d then some 0x0507
  else if !cpFmtOk d ts || !cpFmtOk d td || fldN o.h 608 32 != 0 then some 0x0507
  else if !cpPermOk d then some 0x0506
  else if !weaveSideOk (cpSrcLayout d) (cpDims d) (cpSrc d) ts so
      || !weaveSideOk (cpDstLayout d) (cpDims d) (cpDst d) td dn then some 0x0504
  else if !sideLayoutOk (cpSrcLayout d) (shSrcS o.h) ts || !sideLayoutOk (cpDstLayout d) (shDstS o.h) td then some 0x0504
  else if !stridesOk (cpSrcLayout d) (cpSize d) (shSrcS o.h) ts || !stridesOk (cpDstLayout d) (cpSize d) (shDstS o.h) td
      || (cpPad d != 0 && (List.range 6).any fun k => decide (shDstExt o.h k < shOff o.h k + cpExt d (cpPerm d k)))
    then some 0x0505
  else if (!cpGather d && boxes.any fun j => !srcBoxOk s i c o j) || (!cpScatter d && boxes.any fun j => !dstBoxOk s i c o j)
    then some 0x0503
  else if cpReorders d && rangesMeet (srcExtent s i c o) (dstExtent s i c o) then some 0x0501
  else if others.any meets then some 0x0502
  else if cpPad d = 2 && !vpadOk c o then some 0x0508
  else if (copyDenied s i c o shapeToo).isSome then some 0x0701
  else none

/-- The others of a list at a position. -/
def othersOf {α : Type} (l : List α) (n : Nat) : List α := l.take n ++ l.drop (n + 1)

/-- The first check that a batch fails (R212). -/
def batchCheck (s : State) (i : Stall) (c : Charter) (ops : List CopyOp) (shapeToo : Bool) : Option Reason :=
  (List.range ops.length).findSome? fun n =>
    match ops[n]? with
    | some o => copyCheck s i c o (othersOf ops n) shapeToo
    | none => none

/-- The run-time scan of the block lists of a batch (R213, R209). -/
def listCheck (s : State) (i : Stall) (c : Charter) (ops : List CopyOp) : Option Reason :=
  let live := ops.filter fun o => !cpEmpty o.d
  let bad (o : CopyOp) : Bool := (List.range (cpBlocks o.d)).any fun j =>
    (cpGather o.d && (!srcBoxOk s i c o j
      || !weaveSideOk (cpSrcLayout o.d) (cpDims o.d) (cpSrc o.d) (c.tensor (cpSrcTensor o.d)) [srcOrigin s i o.d j]))
    || (cpScatter o.d && (!dstBoxOk s i c o j
      || !weaveSideOk (cpDstLayout o.d) (cpDims o.d) (cpDst o.d) (c.tensor (cpDstTensor o.d)) [dstOrigin s i o j]))
  let padMeets (o p : CopyOp) : Bool :=
    rangesMeet (hull (cpSize o.d) (dstAddrs s i c o false)) (hull (cpSize p.d) (dstAddrs s i c p true))
  if live.any bad then some 0x0503
  else if (List.range live.length).any fun n =>
      match live[n]? with
      | some o => (othersOf live n).any fun p => (cpScatter o.d || cpScatter p.d) && padMeets o p
      | none => false
    then some 0x0502
  else none

/-! ### Charter entries (R198, R206, R213) -/

/-- The descriptors of a batch of a charter list: from ITEM to the first without CHAIN, at most 256. -/
def batchFrom (l : CopyList) (item : Nat) : List CopyOp :=
  let ds := (List.range (min 256 (l.descs.length - item))).map fun n =>
    (⟨l.descs.getD (item + n) 0, l.shapes.getD (item + n) 0⟩ : CopyOp)
  let n := (ds.takeWhile fun o => cpChain o.d).length
  ds.take (n + 1)

/-- Run the descriptors of a batch in order (R207), each with the boxes that the scan before the first write gave (R213);
the bytes each writes, and the writes. A later descriptor reads what an earlier one wrote, held bytes too. -/
def runBatch (s : State) (i : Stall) (e : EngineId) (c : Charter) (n : Nat) :
    List (CopyOp × List (List Nat × List Nat)) → State × List Nat × List MovedWrite
  | [] => (s, [], [])
  | (o, boxes) :: l =>
    let ws := copyWrites (s.seen (.copy e)) i c o boxes
    let (s1, m1) := s.copyRun i e n ws
    let (s2, ns, m2) := runBatch s1 i e c (n + 1) l
    (s2, (ws.map fun w => w.bytes.length).sum :: ns, m1 ++ m2)

/-- The descriptors of a batch with the boxes of the scan. -/
def scanned (s : State) (i : Stall) (ops : List CopyOp) : List (CopyOp × List (List Nat × List Nat)) :=
  ops.map fun o => (o, if cpEmpty o.d then [] else scanBoxes s i o)

/-- COPY_ENTRY (R198, R206, R213): a due charter copy runs as one batch, and a host batch in progress is suspended until
it completes; a bad list entry refuses it, which is recorded and counted, and the march continues. -/
def execCopyEntry (e : EngineId) (index : Nat) (s : State) : Host.Outcome State Fault Refusal :=
  match engineStall s e with
  | none => .next s
  | some i =>
    match (s.stall i).charter.active with
    | none => .next s
    | some c =>
      match (c.copies.getD e.val {}).entries[index]? with
      | none => .next s
      | some x =>
        if !due (s.stall i) c (.copy e index) || (s.engine e).retired then .next s
        else
          let ran := s.markRan i (.copy e index)
          let v := s.seen (.copy e)
          let ops := batchFrom (c.copies.getD e.val {}) x.item.toNat
          let ix := BitVec.ofNat 16 index
          match listCheck v i c ops with
          | some reason =>
            .next (((ran.modEngine e fun k => { k with
              index := ix, source := false, refused := satAdd k.refused 1, lastReason := reason, lastIndex := ix }).copyIdle e).record
                { reason := reason, cls := clsInfo, stall := some i, kind := 8, unit := BitVec.ofNat 16 e.val
                  detail := BitVec.ofNat 32 index })
          | none =>
            .next ((runBatch ran i e c 0 (scanned v i ops)).1.modEngine e fun k => { k with
              index := ix, source := false, state := if k.batch.isSome then 4 else 3, done := satAdd k.done 1 })

/-! ### The host queue (R199, R212 to R215) -/

/-- Slots of the ring. -/
def ringSize (k : CopyEngine) : Nat := 2 ^ k.log2.toNat

/-- Descriptors between QHEAD and QTAIL (R221). -/
def queued (k : CopyEngine) : Nat := (k.qtail.toNat + 2 * ringSize k - k.qhead.toNat) % (2 * ringSize k)

/-- Address of the slot of an index counter in the descriptor ring and in the completion ring (R199). -/
def queueSlot (k : CopyEngine) (ctr : Nat) : Nat := k.qbase.toNat + 64 * (ctr % ringSize k)
def recordSlot (k : CopyEngine) (cbase : BitVec 48) (ctr : Nat) : Nat := cbase.toNat + 16 * (ctr % ringSize k)

/-- The descriptor at an index counter of the queue. -/
def queueDesc (s : State) (i : Stall) (k : CopyEngine) (ctr : Nat) : BitVec 512 :=
  BitVec.ofNat 512 (s.readNat i (queueSlot k ctr) 64)

/-- The batch at the head of a queue: how many descriptors, and whether it is refused for its length (R212). -/
def headBatch (s : State) (i : Stall) (k : CopyEngine) : Option (Nat × Bool) :=
  let n := queued k
  let chained := (List.range (min n 256)).map fun j => cpChain (queueDesc s i k (k.qhead.toNat + j))
  let run := (chained.takeWhile id).length
  if run < min n 256 then some (run + 1, false)
  else if 256 ≤ n then some (256, true)
  else if n = ringSize k ∧ 0 < n then some (n, true)
  else none

/-- Does a tier or link that a batch touches give the stall no share (R380, Table 13-6)? -/
def noShare (s : State) (i : Stall) (addrs : List Nat) : Bool :=
  let p := (s.stall i).page.comp
  addrs.any fun a =>
    match regionAt (s.stall i).customs a with
    | some (_, g) => (g.tier == 1 && p.nearShares == 0) || (g.tier == 2 && p.seraiShares == 0)
        || (g.tier == 3 && p.cxlShares == 0)
    | none => false

/-- Customs denies a completion-record slot (R199): no record is written, CPY_QHEAD stays, QEN clears, and CPY_LAST and the
fault log name the slot. -/
def State.recordDenied (s : State) (i : Stall) (e : EngineId) (cause : BitVec 4) (a : Nat) (slot : BitVec 16) : State :=
  ((s.modEngine e fun x => { x with qen := false, lastReason := 0x0701, lastIndex := slot }).denied i (160 + e.val) cause a).record
    { reason := 0x0701, cls := clsInfo, stall := some i, kind := 8, unit := BitVec.ofNat 16 e.val, detail := slot.setWidth 32 }

/-- The engine with a batch in progress. -/
def CopyEngine.taking (k : CopyEngine) (b : Batch) : CopyEngine :=
  { k with batch := some b, source := true, state := 3
           index := BitVec.ofNat 16 (b.first.toNat % ringSize k) }

/-- COPY_BATCH_TAKE (R199, R212 to R214): the engine takes the batch at the head of its queue once its end is queued,
checks it and moves it. `borrowed` tells whether part of its traffic ran on borrowed bandwidth (R379). -/
def execCopyBatchTake (e : EngineId) (borrowed : Bool) (s : State) : Host.Outcome State Fault Refusal :=
  let k := s.engine e
  match engineStall s e with
  | none => .next s
  | some i =>
    if !k.qen || k.retired || k.batch.isSome || k.state == 3 || (s.stall i).page.state != 2 then .next s
    else
      match headBatch s i k with
      | none => .next s
      | some (n, tooLong) =>
        let ctrs := (List.range n).map fun j => k.qhead.toNat + j
        let cu := (s.stall i).customs
        match ctrs.find? fun q => (denyCause cu .copy permWrite (recordSlot k k.cbase q) 16).isSome with
        | some q =>
          let a := recordSlot k k.cbase q
          .next (s.recordDenied i e ((denyCause cu .copy permWrite a 16).getD 0) a (BitVec.ofNat 16 (q % ringSize k)))
        | none =>
          let ds := ctrs.map (queueDesc s i k)
          let tags := ds.map cpTag
          let note := match ds.getLast? with | some d => cpNotify d | none => false
          let refuse (r : Reason) (s : State) : State := s.modEngine e fun x => x.taking
            { first := k.qhead, cbase := k.cbase, counts := ds.map fun _ => 0, moved := [], recorded := false, tags := tags
              verdict := 2, reason := r, notify := note }
          if tooLong then .next (refuse 0x0507 s)
          else match ctrs.find? fun q => (denyCause cu .copy permRead (queueSlot k q) 64).isSome with
          | some q =>
            .next (refuse 0x0701 (s.denied i (160 + e.val)
              ((denyCause cu .copy permRead (queueSlot k q) 64).getD 0) (queueSlot k q)))
          | none =>
            let ops := ds.map fun d => (⟨d, if cpEmpty d then 0 else BitVec.ofNat 640 (s.readNat i (cpShape d) 80)⟩ : CopyOp)
            match (s.stall i).charter.active with
            | none =>
              if ops.any fun o => !cpEmpty o.d || !cpReservedOk o.d then .next (refuse 0x0507 s)
              else .next (s.modEngine e fun x => x.taking
                { first := k.qhead, cbase := k.cbase, counts := ds.map fun _ => 0, moved := [], recorded := false, tags := tags
                  verdict := 0, reason := 0, notify := note })
            | some c =>
              match batchCheck s i c ops true with
              | some r =>
                if r = 0x0701 then
                  let den := (ops.findSome? fun o => copyDenied s i c o true).getD (0, 0)
                  .next (refuse r (s.denied i (160 + e.val) den.1 den.2))
                else .next (refuse r s)
              | none =>
                let touched := (ops.filter fun o => !cpEmpty o.d).flatMap fun o => [cpSrc o.d, cpDst o.d]
                if noShare s i touched then .next (refuse 0x0C02 s)
                else match listCheck s i c ops with
                | some r => .next (refuse r s)
                | none =>
                  let (s1, ns, ms) := runBatch s i e c 0 (scanned s i ops)
                  .next (s1.modEngine e fun x => x.taking
                    { first := k.qhead, cbase := k.cbase, counts := ns.map (BitVec.ofNat 64), moved := ms, recorded := false
                      tags := tags, verdict := if borrowed then 1 else 0, reason := 0, notify := note })

/-- A completion record (Table 07-4). -/
def completionRecord (k : CopyEngine) (b : Batch) (j : Nat) : BitVec 128 :=
  let ctr := b.first.toNat + j
  let phase := BitVec.ofBool (Nat.testBit ctr k.log2.toNat)
  b.counts.getD j 0 ++ b.tags.getD j 0 ++ (if b.verdict = 2 then b.reason else 0) ++ (0 : BitVec 13) ++ phase ++ b.verdict

/-- Count a stall request's verdict (R380): `last` names what was refused (Table 13-11). -/
def State.stallVerdict (s : State) (i : Stall) (verdict : BitVec 2) (reason : Reason) (last : BitVec 16) : State :=
  s.modPage i fun p =>
    if verdict = 1 then { p with deferred := satAdd p.deferred 1 }
    else if verdict = 2 then { p with refused := satAdd p.refused 1, last := reason ++ last }
    else p

/-- The end of a batch whose records are written (R199, R215): QHEAD advances, the counters count, and NOTIFY raises the
engine's vector. -/
def State.endBatch (s : State) (i : Stall) (e : EngineId) (b : Batch) : State :=
  let k := s.engine e
  let n := b.counts.length
  let moved := s.modEngine e fun x => { x with
    batch := none, state := 1
    qhead := BitVec.ofNat 17 ((b.first.toNat + n) % (2 * ringSize k))
    completed := x.completed + n
    done := if b.verdict = 2 then x.done else satAdd x.done 1
    deferred := if b.verdict = 1 then satAdd x.deferred 1 else x.deferred
    refused := if b.verdict = 2 then satAdd x.refused 1 else x.refused
    lastReason := if b.verdict = 2 then b.reason else x.lastReason
    lastIndex := if b.verdict = 2 then BitVec.ofNat 16 (b.first.toNat % ringSize k) else x.lastIndex }
  let counted :=
    if b.verdict = 1 then moved.stallVerdict i 1 0 0
    else if b.verdict = 2 && b.reason.toNat / 256 == 0x0C then moved.stallVerdict i 2 b.reason (BitVec.ofNat 16 e.val)
    else moved
  if b.notify then counted.raise i k.vector else counted

/-- COPY_BATCH_COMPLETE (R199, R215, R300): once every write has committed, the records are written at the CPY_CBASE of the
take; once they have committed, the batch ends. A suspended batch does not complete (R198). -/
def execCopyBatchComplete (e : EngineId) (s : State) : Host.Outcome State Fault Refusal :=
  let k := s.engine e
  match engineStall s e, k.batch with
  | some i, some b =>
    if s.waits (.copy e) || k.state == 4 then .next s
    else if b.recorded then .next (s.endBatch i e b)
    else
      let ctrs := (List.range b.counts.length).map fun j => b.first.toNat + j
      let denied (q : Nat) := denyCause (s.stall i).customs .copy permWrite (recordSlot k b.cbase q) 16
      match ctrs.find? fun q => (denied q).isSome with
      | some q =>
        .next ((s.recordDenied i e ((denied q).getD 0) (recordSlot k b.cbase q) (BitVec.ofNat 16 (q % ringSize k))).modEngine e
          fun x => { x with batch := none, state := 1 })
      | none =>
        let wrote := forEach (List.range b.counts.length) s fun s1 j =>
          let a := recordSlot k b.cbase (b.first.toNat + j)
          (s1.store (.copy e) i a (leBytes 16 (completionRecord k b j))).countBytes i a 16
        if wrote.waits (.copy e) then
          .next (wrote.modEngine e fun x => { x with batch := some { b with recorded := true } })
        else .next (wrote.endBatch i e b)
  | _, _ => .next s

/-- Does a write of a batch touch an address, at its source or its destination? -/
def MovedWrite.touches (m : MovedWrite) (va : Nat) : Bool :=
  let n := m.old.length
  (decide (m.dst ≤ va) && decide (va < m.dst + n))
    || (match m.src with | some a => decide (a ≤ va) && decide (va < a + n) | none => false)

/-- A run-time denial stops a host batch at an address (R214, R494): the bytes written before it stand and COUNT reports
them, those of the denied write and of the later ones keep what they held, and the batch is REFUSED with CUSTOMS_DENY. A
denial of no data address stops the batch before its first write. -/
def State.stopBatch (s : State) (i : Stall) (e : EngineId) (va : Nat) : State :=
  match (s.engine e).batch with
  | none => s
  | some b =>
    if b.recorded || b.verdict == 2 then s
    else
      let n := (b.moved.findIdx? fun m => m.touches va).getD 0
      let undone := b.moved.drop n
      let within (a : Nat) : Bool := undone.any fun m => decide (m.dst ≤ a) && decide (a < m.dst + m.old.length)
      let dropped := { s with tiers := { s.tiers with
        snoops := s.tiers.snoops.filter fun h => !(h.writer == .copy e && h.stall == i && within h.va) } }
      let restored := forEach undone.reverse dropped fun s m => s.writeBytes i m.dst m.old
      let count (d : Nat) : Nat := (((b.moved.take n).filter fun m => m.desc == d).map fun m => m.old.length).sum
      restored.modEngine e fun x => { x with
        bytes := x.bytes - BitVec.ofNat 64 (undone.map fun m => m.old.length).sum
        batch := some { b with
          verdict := 2, reason := 0x0701, moved := b.moved.take n
          counts := (List.range b.counts.length).map fun d => BitVec.ofNat 64 (count d) } }

/-! ### Queue registers (R219 to R221) -/

/-- A write of CPY_QTAIL: the doorbell (R221). -/
def writeQtail (e : EngineId) (v : Word) (s : State) : State :=
  let k := s.engine e
  let m := 2 * ringSize k
  let new := (v.toNat % 2 ^ 17) % m
  let pend := (new + m - k.qhead.toNat) % m
  match engineStall s e with
  | none => s
  | some i =>
    if (s.stall i).page.state = 1 then s.stallVerdict i 2 0x0C03 (BitVec.ofNat 16 e.val)
    else if ringSize k < pend then s.stallVerdict i 2 0x0C01 (BitVec.ofNat 16 e.val)
    else s.modEngine e fun x => { x with qtail := BitVec.ofNat 17 new, accepted := x.accepted + pend - queued x }

/-- A write of CPY_QSIZE (R220). -/
def writeQsize (e : EngineId) (v : Word) (s : State) : State :=
  s.modEngine e fun x =>
    if x.qen || (fld v 0 5).toNat < 4 || 16 < (fld v 0 5).toNat then x else { x with log2 := fld v 0 5 }

/-- A write of CPY_CTRL (Table 07-10): QRESET acts only if QEN read 0 before the write. -/
def writeCpyCtrl (e : EngineId) (v : Word) (s : State) : State :=
  s.modEngine e fun x =>
    let y := if bit v 1 && !x.qen then { x with qhead := 0, qtail := 0, accepted := x.completed } else x
    { y with qen := bit v 0, vector := fld v 8 6 }

/-- CPY_QTAIL_WRITE (R221). -/
def execCpyQtailWrite (r : Requester) (e : EngineId) (v : Word) (s : State) : Host.Outcome State Fault Refusal :=
  .next (s.guardWrite r (copyOff e 0x1C) (writeQtail e v))

/-- CPY_QSIZE_WRITE (R220). -/
def execCpyQsizeWrite (r : Requester) (e : EngineId) (v : Word) (s : State) : Host.Outcome State Fault Refusal :=
  .next (s.guardWrite r (copyOff e 0x18) (writeQsize e v))

/-- CPY_QRESET (R219): a write of CPY_CTRL. -/
def execCpyQreset (r : Requester) (e : EngineId) (v : Word) (s : State) : Host.Outcome State Fault Refusal :=
  .next (s.guardWrite r (copyOff e 0x04) (writeCpyCtrl e v))

/-- CPY_QEN (R199, R219): a write of CPY_CTRL. -/
def execCpyQen (r : Requester) (e : EngineId) (v : Word) (s : State) : Host.Outcome State Fault Refusal :=
  .next (s.guardWrite r (copyOff e 0x04) (writeCpyCtrl e v))

/-! ### Cost (R216, R217) -/

/-- 64-byte sectors of one box of a side (R217); a block of an I4 weave has 1,024 bytes (R195). -/
def sideSectors (pair : Bool) (layout size : Nat) (ext st : Nat → Nat) : Nat :=
  if layout = 0 then
    let elems := ((List.range 6).map ext).prod
    let run := if st 0 = size then ext 0 * size else size
    elems * size / run * (ceilDiv run 64 + 1)
  else
    let p := if layout = 1 then ext 1 else ext 0
    let q := if layout = 1 then ext 0 else ext 1
    blockBytes pair size / 64
      * (ceilDiv p 128 * ceilDiv q (blockSide pair) * ((List.range 4).map fun k => ext (k + 2)).prod)

/-- Bytes per CP cycle of a tier (Table 07-5), the host rate being given. -/
def tierRate (tier hostRate : Nat) : Nat := if tier = 0 then 512 else if tier = 1 then 256 else if tier = 2 then 64 else hostRate

/-- copy_cost of a batch (R217); `tierOf` gives the tier of an address, `scale` the rate in force of a tier. -/
def copyCost (c : Charter) (ops : List CopyOp) (tierOf : Nat → Nat) (rate : Nat → Nat) (hostQueue : Bool) : Nat :=
  (ops.map fun o =>
    let d := o.d
    if cpEmpty d then 0
    else
      let x := if cpReorders d then 256 else 512
      let full := ((List.range 6).map (cpBox o)).prod
      let data := ((List.range 6).map (cpExt d)).prod
      let boxBytes := cpSize d * (if cpPad d = 1 then full else data)
      let perBox := max (max (ceilDiv (64 * sideSectors (isPair (c.tensor (cpSrcTensor d))) (cpSrcLayout d) (cpSize d) (cpExt d) (shSrcS o.h)) (rate (tierOf (cpSrc d))))
          (ceilDiv (64 * sideSectors (isPair (c.tensor (cpDstTensor d))) (cpDstLayout d) (cpSize d)
            (if cpDstLayout d = 0 && cpPad d != 1 then fun k => cpExt d (cpPerm d k) else cpBox o) (shDstS o.h)) (rate (tierOf (cpDst d)))))
        (ceilDiv boxBytes x)
      40 + (if cpGather d || cpScatter d then 8 + ceilDiv (cpBlocks d * cpEntryBytes d) 64 else 0) + cpBlocks d * (perBox + 4)).sum
    + (if hostQueue then 64 else 0)

end Sys2Proof.Machine
end

