-- ==== Sys2Proof/Machine/Causes.lean ====
section
/-! DEFINITION. Verdict causes (R60, R61, R65), missing peers, fences and the place a standby takes (R241, R242, R458,
R460), shared by every family that can end a march. -/

namespace Sys2Proof.Machine

/-- Verdict codes (Table 02-2). -/
def vAllClear : BitVec 4 := 1
def vTally : BitVec 4 := 2
def vSaturated : BitVec 4 := 3
def vNonfinite : BitVec 4 := 4
def vShort : BitVec 4 := 5
def vFault : BitVec 4 := 6
def vOverrun : BitVec 4 := 7
def vSupply : BitVec 4 := 8
def vHost : BitVec 4 := 9
def vCounter : BitVec 4 := 10
def vNofit : BitVec 4 := 11
def vLimit : BitVec 4 := 12

/-- Codes that halt the march before the verdict tick (Table 02-2). -/
def halts (code : BitVec 4) : Bool := code == 6 || code == 7 || code == 8 || code == 9 || code == 11

/-- A cause with a reason; each pair is kept once. -/
def addReason (l : List (BitVec 4 × Reason)) (code : BitVec 4) (reason : Reason) : List (BitVec 4 × Reason) :=
  if l.contains (code, reason) then l else l ++ [(code, reason)]

/-- The reason under which a cause was first recorded. -/
def reasonOf (l : List (BitVec 4 × Reason)) (code : BitVec 4) : Reason :=
  match l.find? fun e => e.1 == code with | some e => e.2 | none => 0

/-- The member learns of a halt: at its next tick it stops issuing new work, and the verdict exchange runs there (R61). -/
def State.learnHalt (s : State) (i : Stall) : State :=
  s.modSeq i fun q => { q with haltKnown := true }

/-- A cause recorded for the march in progress; one that halts stops the member's work and is sent to the lead, which
broadcasts it (R61). -/
def State.causeNow (s : State) (i : Stall) (code : BitVec 4) (reason : Reason) : State :=
  let s1 := s.modSeq i fun q => { q with causes := setBit q.causes code.toNat, reasons := addReason q.reasons code reason }
  if halts code && (s.stall i).march.state == .legs then
    let s2 := ((s1.learnHalt i).modSeq i fun q => { q with stopped := true }).send (.halt i code reason)
    if (s.stall i).march.lead && !(s.stall i).seq.haltKnown then s2.send (.haltBroadcast i) else s2
  else s1

/-- A cause against the next march (R65). -/
def State.causeNext (s : State) (i : Stall) (code : BitVec 4) (reason : Reason) : State :=
  s.modSeq i fun q => { q with
    nextCauses := setBit q.nextCauses code.toNat, nextReasons := addReason q.nextReasons code reason }

/-- A cause that arises in a stall. In LEGS it counts for the march in progress; in VERDICT it still does at a lead that
has not broadcast its verdict; in SETTLE, ARMED and WAIT_REPEAT it counts for the next march; a stall in EMPTY, READY or
a hold without a march has none to end. The SETTLE and IDLE legs that pass in a HALT_TALLY, DECISION_LOST or
SETTLE_UNCONFIRMED hold are legs after the verdict: their causes count for the next march. -/
def State.cause (s : State) (i : Stall) (code : BitVec 4) (reason : Reason) : State :=
  let t := s.stall i
  match t.march.state with
  | .legs => s.causeNow i code reason
  | .verdict => if t.march.lead && !t.seq.sentVerdict then s.causeNow i code reason else s.causeNext i code reason
  | .settle | .armed | .waitRepeat => s.causeNext i code reason
  | .held =>
    if t.seq.hold == 0x0208 || t.seq.hold == 0x0402 || (t.seq.hold == 0 && t.march.verdict.code == vTally)
    then s.causeNext i code reason else s
  | _ => s

/-- Is a member fenced (R242)? -/
def isFenced (t : StallState) (m : Member) : Bool := bit t.ledger.fences m.toNat

/-- The index under which a member works: a standby that took a member's place stands for it. -/
def standsFor (t : StallState) (m : Member) : Member :=
  match t.ledger.subst.find? fun e => e.2 == m with | some e => e.1 | none => m

/-- The index this module works under. -/
def ownRole (t : StallState) : Member := standsFor t t.march.member

/-- The members that take part in the exchange of words: active members and standbys that are not fenced. -/
def liveMembers (t : StallState) (c : Charter) : List Member := c.members.filter fun m => !isFenced t m

/-- The members that settle a march: active members that are not fenced, and standbys that took a place. -/
def settlingMembers (t : StallState) (c : Charter) : List Member :=
  (c.activeMembers.filter fun m => !isFenced t m) ++ t.ledger.subst.map fun e => e.2

/-- The lowest-numbered standby whose verdict word reports a mirror of a member current to a march (R241, R458). -/
def standbyFor (t : StallState) (m : Member) : Option Member :=
  (t.seq.words.filter fun w => w.mirrorOf == m && w.mirrorMarch == t.march.num && !isFenced t w.member
      && !t.ledger.subst.any fun e => e.2 == w.member).foldl
    (fun acc w => match acc with
      | some a => if w.member.toNat < a.toNat then some w.member else acc
      | none => some w.member) none

/-- This module's caravan (R347). -/
def ownCaravan (t : StallState) : BitVec 6 := match t.charter.active with | some c => c.caravanIx | none => 0

/-- A member fenced and its index, trees and shard given to a standby, told to every member (R241, R242, R460). -/
def State.replaceMember (s : State) (i : Stall) (m sb : Member) : State :=
  (s.modLedger i fun l => { l with
    fences := setBit l.fences m.toNat
    subst := (l.subst.filter fun e => e.1 != m) ++ [(m, sb)] }).send (.relayed i (.fence (ownCaravan (s.stall i)) m sb))

/-- A peer counted missing at this member: REPEAT_FAULT with its reason (Table 02-2). -/
def State.missingPeer (s : State) (i : Stall) (m : Member) (reason : Reason) : State :=
  (s.modSeq i fun q => { q with missing := if q.missing.any fun e => e.1 == m then q.missing else q.missing ++ [(m, reason)] }).cause
    i vFault reason

/-- Does the stall hold the march: does its latest verdict say so, or one of the three holds without one? -/
def heldFor (t : StallState) (reason : Reason) : Bool := t.march.state == .held && t.seq.hold == reason

/-- Set the command-ignored flag of a stall's march (R68). -/
def State.ignored (s : State) (i : Stall) : State := s.modMarch i fun m => { m with cmdIgnored := true }

end Sys2Proof.Machine
end

