-- ==== Sys2Proof/Machine/RouteOps.lean ====
section
/-! DEFINITION. Route ports (chapter 11), shared operations: paths and detours, flits and their CRC, transmission with
credits and bandit mode, lanes, and ports that go down. -/

namespace Sys2Proof.Machine

/-! ### The torus, the side rings and the federation (R315 to R318, R328) -/

/-- Axis lengths. -/
def axisLen (c : Charter) (a : Nat) : Nat := if a = 0 then c.lx else if a = 1 then c.ly else c.lz

/-- The coordinate of a member on an axis (R315). -/
def axisPos (c : Charter) (m : Nat) (a : Nat) : Nat :=
  if a = 0 then m % c.lx else if a = 1 then m / c.lx % c.ly else m / (c.lx * c.ly)

/-- The ports of a move on an axis (R316): the shorter way round, ties to +. -/
def axisPorts (len a from_ to_ : Nat) : List Nat :=
  let d := (to_ + len - from_) % len
  if 2 * d ≤ len then List.replicate d (2 * a) else List.replicate (len - d) (2 * a + 1)

/-- The ports of a path between active members: x, then y, then z (R316). -/
def torusPath (c : Charter) (src dst : Nat) : List Nat :=
  (List.range 3).flatMap fun a => axisPorts (axisLen c a) a (axisPos c src a) (axisPos c dst a)

/-- The active members of side ring `j`. -/
def ringMembers (c : Charter) (j : Nat) : List Nat :=
  (List.range 16).filterMap fun k => if 16 * j + k < c.lx * c.ly * c.lz then some (16 * j + k) else none

/-- The place of a member in ring `j`: the standby is 0, the active members follow (R317). -/
def ringPlace (j m : Nat) : Nat := if 64 ≤ m then 0 else m - 16 * j + 1

/-- The hops and the direction (true: towards the next member) on a ring (R317); ties go on. -/
def ringMove (c : Charter) (j src dst : Nat) : Nat × Bool :=
  let n := (ringMembers c j).length + 1
  let d := (ringPlace j dst + n - ringPlace j src) % n
  if 2 * d ≤ n then (d, true) else (n - d, false)

/-- The port on which a member leaves along its ring: RP7 and RP6 of an active member, RP0 and RP1 of a standby. -/
def ringPort (m : Nat) (fwd : Bool) : Nat := if 64 ≤ m then (if fwd then 0 else 1) else if fwd then 7 else 6

/-- The hops within a caravan: the torus, or the torus to the standby's ring and along it. -/
def caravanHops (c : Charter) (src dst : Nat) : Nat :=
  if dst < 64 ∧ src < 64 then (torusPath c src dst).length
  else
    let j := if 64 ≤ dst then dst - 64 else src - 64
    if dst = src then 0
    else if src < 64 ∧ src / 16 ≠ j then (torusPath c src (16 * j)).length + (ringMove c j (16 * j) dst).1
    else if dst < 64 ∧ dst / 16 ≠ j then (ringMove c j src (16 * j)).1 + (torusPath c (16 * j) dst).length
    else (ringMove c j src dst).1

/-- Federation edge fields (R347). -/
def fedA (e : BitVec 128) : BitVec 6 := fld e 0 6
def fedB (e : BitVec 128) : BitVec 6 := fld e 6 6
/-- Gateway member and port of an edge at one end: `sec` chooses the secondary link, `atB` the end B. -/
def fedGate (e : BitVec 128) (sec atB : Bool) : Nat × Nat :=
  let o := (if sec then 32 else 0) + (if atB then 10 else 0)
  (fldN e (12 + o) 7, fldN e (19 + o) 3)

/-- Does a caravan reach another over the edges? `fuel` bounds the edges used. -/
def fedReach (es : List (BitVec 128)) : Nat → BitVec 6 → BitVec 6 → Bool
  | 0, a, b => a == b
  | n + 1, a, b => a == b || es.any fun e =>
      (fedA e == a && fedReach es n (fedB e) b) || (fedB e == a && fedReach es n (fedA e) b)

/-- The edge over which a caravan is left towards another, and whether the near end is B. -/
def fedEdge (c : Charter) (dst : BitVec 6) : Option (BitVec 128 × Bool) :=
  c.fed.findSome? fun e =>
    let others := c.fed.filter fun x => x != e
    if fedA e == c.caravanIx && fedReach others others.length (fedB e) dst then some (e, false)
    else if fedB e == c.caravanIx && fedReach others others.length (fedA e) dst then some (e, true)
    else none

/-- The port number as a port. -/
def portId (n : Nat) : PortId := ⟨n % 8, Nat.mod_lt _ (by decide)⟩

/-- Is a port carrying traffic? -/
def portUp (s : State) (p : PortId) : Bool := (s.port p).state == 3

/-- The port that a detour takes first (R328): the + port of the next axis longer than 1, or the other way round the
failed axis. -/
def detourPort (c : Charter) (p : Nat) : Nat :=
  let a := p / 2
  let b := (a + 1) % 3
  let d := (a + 2) % 3
  if 1 < axisLen c b then 2 * b else if 1 < axisLen c d then 2 * d else if p % 2 = 0 then p + 1 else p - 1

/-- The hops that a detour adds for a first hop of `len` axis (R328): out and back, or the long way round. -/
def detourHops (c : Charter) (p : Nat) : Nat :=
  let a := p / 2
  if 1 < axisLen c ((a + 1) % 3) ∨ 1 < axisLen c ((a + 2) % 3) then 2
  else if axisLen c a = 2 then 0 else axisLen c a - 2

/-- Do two ports of a member lead to the same neighbour on the torus (R315)? -/
def sameWay (c : Charter) (p q : Nat) : Bool :=
  decide (p < 6) && decide (q < 6) && (p == q || (p / 2 == q / 2 && axisLen c (p / 2) == 2))

/-- The torus port of a flit towards a member (R316). A flit that would go back to the member it came from is on a detour: it
crosses the failed axis first, or goes on the long way round (R328; log entry 154). -/
def torusOut (c : Charter) (self d : Nat) (came : Option PortId) : Option Nat :=
  let path := torusPath c self d
  match path.head?, came with
  | some p, some q =>
    if sameWay c p q.val then
      match path.find? fun r => r / 2 != p / 2 with
      | some r => some r
      | none => some (if axisLen c (p / 2) = 2 then p else if p % 2 = 0 then p + 1 else p - 1)
    else some p
  | h, _ => h

/-- The port of a flit along its ring (R317): a flit that is on the ring goes on in its direction, any other takes the
shorter one; either turns where the link is down. -/
def ringOut (s : State) (c : Charter) (j self target : Nat) (came : Option PortId) : Nat :=
  let shorter := (ringMove c j self target).2
  let fwd := match came with
    | some p => if p.val = ringPort self false then true else if p.val = ringPort self true then false else shorter
    | none => shorter
  if portUp s (portId (ringPort self fwd)) then ringPort self fwd else ringPort self (!fwd)

/-- Has a flit arrived over this member's side ring (R317)? -/
def cameByRing (c : Charter) (self : Nat) : Option PortId → Bool
  | some p => (64 ≤ self && p.val < 2) || (self < 64 && ((p.val == 6 && c.rp6Mode == 1) || (p.val == 7 && c.rp7Mode == 1)))
  | none => false

/-- The port of a flit within the caravan (R316, R317). Towards a replaced index it travels to the lost member's position,
and the last member on that path hands it to the side ring (R460); a last member off that ring leaves the path as for a
port that is down (log entry 154). -/
def portWithin (s : State) (c : Charter) (t : StallState) (d : Nat) (came : Option PortId) : Option Nat :=
  let self := t.march.member.toNat
  match t.ledger.subst.find? fun e => decide (e.1.toNat = d ∧ e.2 ≠ t.march.member) with
  | some e =>
    let j := e.2.toNat - 64
    if 64 ≤ self then some (ringOut s c (self - 64) self (16 * (self - 64)) came)
    else
      let last := decide ((torusPath c self d).length ≤ 1)
      if self / 16 = j ∧ (cameByRing c self came ∨ last) then some (ringOut s c j self e.2.toNat came)
      else (torusOut c self d came).map fun p => if last then detourPort c p else p
  | none =>
    let stands := t.ledger.subst.any fun e => e.2 == t.march.member
    if d = self ∨ (stands ∧ d = (ownRole t).toNat) then none
    else if d < 64 ∧ self < 64 then
      (if cameByRing c self came ∧ d / 16 = self / 16 ∧ !t.ledger.subst.any (fun e => decide (e.2.toNat = 64 + self / 16))
        then some (ringOut s c (self / 16) self d came) else torusOut c self d came)
    else
      let j := if 64 ≤ d then d - 64 else self - 64
      if self < 64 ∧ self / 16 ≠ j then torusOut c self (16 * j) came
      else some (ringOut s c j self (if stands ∨ (d < 64 ∧ d / 16 ≠ j) then 16 * j else d) came)

/-- The normal port of a flit at this member (R316 to R318); `came` is the port it arrived on, none for its own flits. A flit
for another caravan that comes from its primary gateway is on the way to the secondary one (log entry 154). -/
def normalPort (s : State) (c : Charter) (t : StallState) (dst : Member) (car : BitVec 6) (came : Option PortId) : Option Nat :=
  if car = c.caravanIx then portWithin s c t dst.toNat came
  else match fedEdge c car with
    | none => none
    | some (e, atB) =>
      let (g, q) := fedGate e false atB
      let (g2, q2) := fedGate e true atB
      let self := t.march.member.toNat
      let turned := decide (self < 64) && (match (torusPath c self g).head?, came with
        | some p, some r => sameWay c p r.val
        | _, _ => false)
      if g = self then (if portUp s (portId q) then some q else portWithin s c t g2 came)
      else if turned then (if g2 = self then some q2 else portWithin s c t g2 came)
      else portWithin s c t g came

/-- The port that a flit leaves on: the normal one, or its detour where that is down; none where the destination is
unreachable, with whether a detour is taken. -/
def exitPort (s : State) (c : Charter) (t : StallState) (dst : Member) (car : BitVec 6) (came : Option PortId) :
    Option (PortId × Bool) :=
  match normalPort s c t dst car came with
  | none => none
  | some p =>
    if portUp s (portId p) then some (portId p, false)
    else if p < 6 ∧ t.march.member.toNat < 64 then
      let d := detourPort c p
      if portUp s (portId d) then some (portId d, true) else none
    else none

/-! ### Route records (Table 12-8) -/

def rtMember (r : BitVec 256) : Member := fld r 0 7
def rtCaravan (r : BitVec 256) : BitVec 6 := fld r 7 6
def rtHops (r : BitVec 256) : Nat := fldN r 16 8
def rtMsg (r : BitVec 256) : Nat := fldN r 32 16
def rtBytes (r : BitVec 256) : Nat := fldN r 64 32
def rtAddr (r : BitVec 256) : Nat := fldN r 112 48
def rtAt (r : BitVec 256) : Nat := fldN r 160 32

/-! ### Transfer cost (R52) -/

/-- ceil(bytes ÷ (12.5 × A)) ns. -/
def transferNs (bytes lanes : Nat) : Nat := if lanes = 0 then 0 else ceilDiv (2 * bytes) (25 * lanes)

/-- The transfer cost over `hops` links. -/
def transferCost (bytes lanes hops : Nat) : Nat := transferNs bytes lanes + 1500 * hops

/-! ### Flits (R308) -/

def flClass (h : BitVec 128) : Nat := fldN h 0 3
def flSeq (h : BitVec 128) : BitVec 12 := fld h 3 12
def flAck (h : BitVec 128) : BitVec 12 := fld h 15 12
def flNak (h : BitVec 128) : Bool := bit h 27
def flCrClass (h : BitVec 128) : Nat := fldN h 28 3
def flCredits (h : BitVec 128) : Nat := fldN h 31 8
def flLen (h : BitVec 128) : Nat := fldN h 40 9
def flDst (h : BitVec 128) : Member := fld h 64 7
def flDstCaravan (h : BitVec 128) : BitVec 6 := fld h 71 6
def flSrc (h : BitVec 128) : Member := fld h 77 7
def flSrcCaravan (h : BitVec 128) : BitVec 6 := fld h 84 6
def flMsg (h : BitVec 128) : Nat := fldN h 90 16
def flIndex (h : BitVec 128) : Nat := fldN h 106 22

/-- One bit of the CRC-64 of ECMA-182, most significant bit first. -/
def crcBit (r : BitVec 64) (b : Bool) : BitVec 64 :=
  if r.msb == b then r <<< 1 else (r <<< 1) ^^^ 0x42F0E1EBA9EA3693

/-- One byte of the CRC-64. -/
def crcByte (r : BitVec 64) (b : Byte) : BitVec 64 :=
  (List.range 8).foldl (fun r k => crcBit r (b.getLsbD (7 - k))) r

/-- CRC-64 over header and payload: initial value all ones, final complement (R308). -/
def flitCrc (h : BitVec 128) (payload : List Byte) : BitVec 64 :=
  ~~~((leBytes 16 h ++ payload).foldl crcByte (BitVec.allOnes 64))

/-- The header of a flit before the link layer numbers it (Table 11-1). -/
def flitHeader (cls : Nat) (last : Bool) (len : Nat) (dst : Member) (dc : BitVec 6) (src : Member) (sc : BitVec 6)
    (msg index : Nat) : BitVec 128 :=
  BitVec.ofNat 22 index ++ BitVec.ofNat 16 msg ++ sc ++ src ++ dc ++ dst ++ (0 : BitVec 15) ++ BitVec.ofNat 9 len
    ++ BitVec.ofBool last ++ (0 : BitVec 36) ++ BitVec.ofNat 3 cls

/-- The header with SEQ, ACK and NAK of the link in place of any it carried. -/
def numbered (h : BitVec 128) (seq ack : BitVec 12) (nak : Bool) : BitVec 128 :=
  (h &&& ~~~((BitVec.allOnes 25).setWidth 128 <<< 3)) ||| (seq.setWidth 128 <<< 3) ||| (ack.setWidth 128 <<< 15) ||| ((BitVec.ofBool nak).setWidth 128 <<< 27)

/-- The flits of a message (R308, R310): 256 payload bytes each, the last partly filled. -/
def messageFlits (cls : Nat) (dst : Member × BitVec 6) (src : Member) (car : BitVec 6) (msg : Nat) (bs : List Byte) : List Flit :=
  let n := ceilDiv bs.length 256
  (List.range n).map fun k =>
    let part := (bs.drop (256 * k)).take 256
    { header := flitHeader cls (k + 1 == n) part.length dst.1 dst.2 src car msg k
      payload := part ++ List.replicate (256 - part.length) 0, crc := 0 }

/-- Receive buffers of a class per port (Table 11-2). -/
def classBuffers (k : Nat) : Nat := ([1024, 256, 64, 32, 512] : List Nat).getD k 0

/-- The classes in priority order (Table 11-2). -/
def classOrder : List Nat := [2, 1, 0, 3, 4]

/-- An IDLE flit with the link's ACK, NAK and returned credits. -/
def idleFlit (l : LinkLayer) (cr : Nat × Nat) : Flit :=
  let h : BitVec 128 := BitVec.ofNat 128 5 ||| ((l.rxSeq - 1).setWidth 128 <<< 15)
    ||| ((BitVec.ofBool l.nakPending).setWidth 128 <<< 27) ||| (BitVec.ofNat 128 cr.1 <<< 28) ||| (BitVec.ofNat 128 cr.2 <<< 31)
  let p := List.replicate 256 (0 : Byte)
  { header := h, payload := p, crc := flitCrc h p }

/-! ### Records of a port -/

/-- Set RTE_LAST (Table 11-7); lane 0x1F is the port. -/
def State.portEvent (s : State) (p : PortId) (reason : Reason) (dir : Bool) (lane : Nat) : State :=
  s.modPort p fun x => { x with lastReason := reason, lastDir := dir, lastLane := BitVec.ofNat 5 lane }

/-- The fault record of a port event, for the stall that owns the port. -/
def portRec (s : State) (p : PortId) (reason : Reason) (cls : BitVec 3) : Rec :=
  { reason := reason, cls := cls, stall := portStall s p, kind := 5, unit := BitVec.ofNat 16 p.val }

/-! ### Bandit mode (R334, R335) -/

/-- The lot call of an offered flit: x0 and x1. -/
def banditDraw (s : State) (p : PortId) (n : Nat) : Word × Word :=
  let num := match portStall s p with | some i => (s.stall i).march.num | none => 0
  let o := lotCall (s.lnk p).banditSeed (BitVec.ofNat 24 (0xFFFF00 + p.val)) num (BitVec.ofNat 64 n)
  (fld o 0 32, fld o 32 32)

/-- Count an injection and record it, at most once per action and port per 1 ms (R335). The action stands above the
count in DETAIL. -/
def State.countInjection (s : State) (p : PortId) (action : BitVec 2) : State :=
  let l := s.lnk p
  let a := action.toNat
  let n := l.injectCount.getD a 0 + 1
  let due := match l.injectAt.getD a none with | some t => decide (t.toNat + 1000000 ≤ s.time.toNat) | none => true
  let s1 := s.modLnk p fun l => { l with
    injected := satAdd l.injected 1
    injectCount := l.injectCount.setIfInBounds a (if due then 0 else n)
    injectAt := if due then l.injectAt.setIfInBounds a (some s.time) else l.injectAt }
  if due then s1.record { portRec s p 0x080B clsInfo with
    injected := true, detail := put action 30 ||| put (BitVec.ofNat 30 n) 0 }
  else s1

/-! ### Transmission (R309, R311, R313, R334) -/

/-- Put a flit on the lanes. -/
def State.emit (s : State) (p : PortId) (f : Flit) : State :=
  let s1 := s.send (.flit p f)
  match (s.lnk p).reordered with
  | some g => (s1.send (.flit p g)).modLnk p fun l => { l with reordered := none }
  | none => s1

/-- The transmit lanes after an announced switch whose sequence number the port has reached (R324). -/
def lanesFix (v : Vector (BitVec 2) 18) : Vector (BitVec 2) 18 :=
  let ok := (List.range 18).filter fun k => v.getD k 0 != 2 && v.getD k 0 != 3
  Vector.ofFn fun k => if v.get k == 2 || v.get k == 3 then v.get k else if (ok.take 16).contains k.val then 0 else 1

/-- Active lanes of a direction, and lanes that are not retired. -/
def activeLanes (v : Vector (BitVec 2) 18) : Nat := (v.toList.filter fun x => x == 0).length
def workingLanes (v : Vector (BitVec 2) 18) : Nat := (v.toList.filter fun x => x != 2).length

/-- Transmit lanes after switches. -/
def switchedLanes (v : Vector (BitVec 2) 18) (l : List (BitVec 12 × Fin 18)) : Vector (BitVec 2) 18 :=
  l.foldl (fun v e => lanesFix (v.set e.2 2)) v

/-- The transmit lanes of a port once every announced switch has taken place. -/
def txLanesSoon (s : State) (p : PortId) : Vector (BitVec 2) 18 := switchedLanes (s.port p).txLanes (s.lnk p).switches

/-- The transmit lanes whose switch is at a sequence number are retired. -/
def State.switchLanes (s : State) (p : PortId) (now : BitVec 12 × Fin 18 → Bool) : State :=
  (s.modPort p fun x => { x with txLanes := switchedLanes x.txLanes ((s.lnk p).switches.filter now) }).modLnk p fun l => { l with
    switches := l.switches.filter fun e => !now e }

/-- The transmit lanes retired at the port's sequence number (R324). -/
def State.checkSwitch (s : State) (p : PortId) : State := s.switchLanes p fun e => e.1 == (s.lnk p).txSeq

/-- The first transmission of a flit: numbered, entered in the replay window, offered to the bandit, sent. -/
def State.transmit (s : State) (p : PortId) (f : Flit) : State :=
  let l := s.lnk p
  let h := numbered f.header l.txSeq (l.rxSeq - 1) l.nakPending
  let g : Flit := { header := h, payload := f.payload, crc := flitCrc h f.payload }
  let k := flClass f.header
  let s1 := (s.modLnk p fun l => { l with
    txSeq := l.txSeq + 1, nakPending := false
    window := l.window ++ [⟨flSeq h, g, s.time⟩]
    credits := l.credits.setIfInBounds k (l.credits.getD k 0 - 1)
    used := l.used.setIfInBounds k (l.used.getD k 0 + 1) }).modPort p fun x => { x with
      tx := x.tx + BitVec.ofNat 64 (flLen h) }
  let offered := l.banditEn && bit l.banditMask k
  let s2 := if offered then s1.modLnk p fun l => { l with offered := l.offered + 1 } else s1
  let (x0, x1) := banditDraw s p l.offered
  let hit := offered && decide (x0.toNat < l.banditRate.toNat) && !(l.banditAction == 3 && l.banditDelay == 0)
  let s3 :=
    if !hit then s2.emit p g
    else
      let c := s2.countInjection p l.banditAction
      if l.banditAction = 0 then c
      else if l.banditAction = 1 then
        let b := (fldN x1 0 12) % 2048
        c.emit p { g with payload := g.payload.modify (b / 8) fun y => y ^^^ (1#8 <<< (b % 8)) }
      else if l.banditAction = 2 then c.modLnk p fun l => { l with reordered := some g }
      else c.modLnk p fun l => { l with heldFlits := l.heldFlits ++ [g], heldUntil := s.time + BitVec.ofNat 64 (1000 * l.banditDelay.toNat) }
  s3.checkSwitch p

/-- The next flit that may leave: by class priority, with a credit. -/
def nextFlit (l : LinkLayer) : Option QueuedFlit :=
  classOrder.findSome? fun k =>
    if l.credits.getD k 0 = 0 then none else l.queue.find? fun q => flClass q.flit.header == k

/-- A flit has left a receive buffer of a port: the buffer is free and its credit goes back (R313). -/
def State.freeBuffer (s : State) (p : PortId) (k : Nat) : State :=
  let s1 := s.modLnk p fun l => { l with
    occupied := l.occupied.setIfInBounds k (l.occupied.getD k 0 - 1)
    granted := l.granted.setIfInBounds k (l.granted.getD k 0 + 1) }
  s1.send (.flit p (idleFlit (s1.lnk p) (k, 1)))

/-- Free the buffer that a queued flit has left, if it came from one. -/
def State.leaveBuffer (s : State) (q : QueuedFlit) : State :=
  match q.buffer with
  | some p => s.freeBuffer p (flClass q.flit.header)
  | none => s

/-- Send what may be sent: the port is up, nothing is held by a delay, the window has room (R311). -/
def State.pump (s : State) (p : PortId) : Nat → State
  | 0 => s
  | n + 1 =>
    let l := s.lnk p
    if !portUp s p || !l.heldFlits.isEmpty || 2048 ≤ l.window.length then s
    else match nextFlit l with
      | none => s
      | some q => (((s.modLnk p fun l => { l with queue := l.queue.erase q }).transmit p q.flit).leaveBuffer q).pump p n

/-- Queue flits on a port and send what may be sent. -/
def State.queueFlits (s : State) (p : PortId) (fs : List QueuedFlit) : State :=
  let s1 := s.modLnk p fun l => { l with queue := l.queue ++ fs }
  s1.pump p (s1.lnk p).queue.length

/-- Send a message of this module (R309, R310): MSG counts the class's messages in the attempt. A destination without a
path is a missing peer (R328). -/
def State.sendMessage (s : State) (i : Stall) (cls : Nat) (dst : Member × BitVec 6) (bs : List Byte) : State :=
  let t := s.stall i
  match t.charter.active with
  | none => s
  | some c =>
    if bs.isEmpty then s
    else match exitPort s c t dst.1 dst.2 none with
      | none => s.missingPeer i dst.1 0x020D
      | some (p, _) =>
        let n := (s.fabric.sentMsgs.get i).getD cls 0
        let s1 := { s with fabric := { s.fabric with
          sentMsgs := s.fabric.sentMsgs.set i ((s.fabric.sentMsgs.get i).setIfInBounds cls (n + 1)) } }
        s1.queueFlits p ((messageFlits cls dst (ownRole t) c.caravanIx n bs).map fun f => { flit := f })

/-- A flit of an attempt that is over, as its port's replay window keeps it: SEQ stands, so that the link goes on, and
nothing of it can be delivered: LEN is 0 (R310, log entry 143). -/
def voidFlit (f : Flit) : Flit :=
  let h := f.header &&& ~~~((BitVec.allOnes 9).setWidth 128 <<< 40)
  let p := List.replicate 256 (0 : Byte)
  { header := h, payload := p, crc := flitCrc h p }

/-- Does a flit belong to one attempt of a march: a TRANSFER or a LEDGER flit (R310)? -/
def ofAttempt (f : Flit) : Bool := decide (flClass f.header < 2)

/-- A port discards the TRANSFER and LEDGER flits of an attempt that is over (R310). -/
def State.dropAttempt (s : State) (p : PortId) : State :=
  let gone := (s.lnk p).queue.filter fun q => ofAttempt q.flit
  let s1 := s.modLnk p fun l => { l with
    queue := l.queue.filter fun q => !ofAttempt q.flit
    heldFlits := l.heldFlits.map fun f => if ofAttempt f then voidFlit f else f
    reordered := l.reordered.map fun f => if ofAttempt f then voidFlit f else f
    window := l.window.map fun w => if ofAttempt w.flit then { w with flit := voidFlit w.flit } else w }
  forEach gone s1 fun s q => s.leaveBuffer q

/-! ### Ports that go down, lanes that retire (R324 to R328) -/

/-- The charter in force on a port. -/
def portCharter (s : State) (p : PortId) : Option (Stall × Charter) :=
  match portStall s p with
  | some i => (s.stall i).charter.active.map fun c => (i, c)
  | none => none

/-- The mode of a port under the charter in force (R317, Table 11-6): 0 TORUS or UNUSED, 1 SIDE, 2 LONG_HAUL. RP0 and RP1
of a standby lie on its side ring. -/
def portMode (s : State) (p : PortId) : BitVec 2 :=
  match portCharter s p with
  | some (i, c) =>
    if 64 ≤ (s.stall i).march.member.toNat then (if p.val < 2 then 1 else 0)
    else if p.val = 6 then c.rp6Mode else if p.val = 7 then c.rp7Mode else 0
  | none => 0

/-- The receive buffers of a port are lost with its link: the flits that wait on other ports hold none of them. -/
def State.forgetBuffers (s : State) (p : PortId) : State :=
  forEach (List.finRange 8) s fun s k => s.modLnk k fun l => { l with
    queue := l.queue.map fun q => if q.buffer = some p then { q with buffer := none } else q }

/-- A port's link ends in a state of RTE_STATUS: the far end is unknown, and nothing of the link is kept (R327, R331). -/
def State.cutLink (s : State) (p : PortId) (st : BitVec 4) : State :=
  ((s.modPort p fun x => { x with state := st, neighbour := none }).modLnk p fun l => { l with
    window := [], queue := [], heldFlits := [], reordered := none, recal := Vector.replicate 2 none, switches := []
    returning := false }).forgetBuffers p

/-- Flits that a port can carry no more leave on another way, or free their buffers where there is none (R317, R318,
R328). -/
def State.reroute (s : State) (i : Stall) (c : Charter) (qs : List QueuedFlit) : State :=
  forEach qs s fun s q =>
    match exitPort s c (s.stall i) (flDst q.flit.header) (flDstCaravan q.flit.header) q.buffer with
    | some (r, _) => s.queueFlits r [q]
    | none => s.leaveBuffer q

/-- A port is down (R327, R328): its flits move to the detour, round the ring the other way, or to the secondary link;
without a detour the destination is a missing peer. -/
def State.portDown (s : State) (p : PortId) (reason : Reason) : State :=
  if (s.port p).state == 4 then s
  else
    let flits := ((s.lnk p).window.map fun w => ({ flit := w.flit } : QueuedFlit)) ++ (s.lnk p).queue
    let s2 := ((s.cutLink p 4).portEvent p reason false 0x1F).recordPause (portRec s p reason clsRetired)
    match portCharter s p with
    | none => forEach flits s2 fun s q => s.leaveBuffer q
    | some (i, c) =>
      if !bit c.usesPorts p.val then s2.reroute i c flits
      else if 6 ≤ p.val ∨ 64 ≤ (s.stall i).march.member.toNat then
        let turned := s2.modPort p fun x => { x with sideDir := x.sideDir || (6 ≤ p.val && portMode s p == 1) }
        (if portMode s p = 1 then turned else turned.record (portRec s p 0x0806 clsInfo)).reroute i c flits
      else
        let d := portId (detourPort c p.val)
        if portUp s2 d then
          ((s2.modPort p fun x => { x with detour := true }).record (portRec s p 0x0806 clsInfo)).reroute i c flits
        else (forEach flits s2 fun s q => s.leaveBuffer q).cause i vFault 0x020D

/-- The lane of a direction in recalibration (R326). -/
def LinkLayer.recalOf (l : LinkLayer) (rx : Bool) : Option (Fin 18) := l.recal.get (if rx then 1 else 0)

/-- Set it. -/
def LinkLayer.setRecal (l : LinkLayer) (rx : Bool) (v : Option (Fin 18)) : LinkLayer :=
  if rx then { l with recal := l.recal.set 1 v } else { l with recal := l.recal.set 0 v }

/-- A lane of a direction is retired at the receiving end (R324 to R326): listed, recorded, told to the far end; a
recalibration that holds the spare is aborted. -/
def State.retireLane (s : State) (p : PortId) (rx : Bool) (lane : Fin 18) (reason : Reason) : State :=
  let v := if rx then (s.port p).rxLanes else (s.port p).txLanes
  if v.get lane == 2 then s
  else
    let aborted := match (s.lnk p).recalOf rx with
      | some k => if !(v.toList.contains 1) then some k else none
      | none => none
    let v1 := match aborted with | some k => v.set k 0 | none => v
    let v2 := lanesFix (v1.set lane 2)
    let s1 := match aborted with
      | some k => ((s.modLnk p fun l => l.setRecal rx none).portEvent p 0x080A rx k.val).record (portRec s p 0x080A clsInfo)
      | none => s
    let s2 := s1.modPort p fun x => if rx then { x with rxLanes := v2 } else { x with txLanes := v2 }
    let unit := BitVec.ofNat 16 (64 * p.val + (if rx then 32 else 0) + lane.val)
    let s3 := ((s2.retire 4 unit reason).portEvent p reason rx lane.val).recordPause
      { reason := reason, cls := clsRetired, stall := portStall s p, kind := 4, unit := unit }
    if workingLanes v2 < 12 then s3.portDown p 0x0802 else s3

/-- Resend the whole window (R311); 64 resendings without progress take the port down (R327). -/
def State.resend (s : State) (p : PortId) : State :=
  let l := s.lnk p
  if l.window.isEmpty then s
  else
    let s1 := forEach l.window s fun s w => s.send (.flit p w.flit)
    let s2 := (s1.modPort p fun x => { x with replays := satAdd x.replays l.window.length }).modLnk p fun l => { l with
      stuck := l.stuck + 1, window := l.window.map fun w => { w with time := s.time } }
    if 64 ≤ l.stuck + 1 then s2.portDown p 0x0802 else s2

/-- Acknowledge every flit up to ACK. -/
def State.acknowledge (s : State) (p : PortId) (ack : BitVec 12) : State :=
  s.modLnk p fun l =>
    match l.window.findIdx? fun w => w.seq == ack with
    | some n => { l with window := l.window.drop (n + 1), stuck := 0 }
    | none => l

/-- Reinitialise a link layer (R314): announced switches complete first (Table 11-3), the buffer counts are set from what the
receive buffers hold, the transmitter's credits as at training (log entry 144), and the window is resent. -/
def State.reinitLink (s : State) (p : PortId) : State :=
  ((s.switchLanes p fun _ => true).modLnk p fun l => { l with
    credits := Vector.ofFn fun k => classBuffers k.val
    used := Vector.replicate 5 0
    granted := Vector.ofFn fun k => classBuffers k.val
    spent := l.occupied }).resend p

/-- The link layer of a port that has trained. -/
def freshLink (l : LinkLayer) : LinkLayer :=
  { l with
    txSeq := 0, rxSeq := 0, nakPending := false, window := [], stuck := 0
    credits := Vector.ofFn fun k => classBuffers k.val
    used := Vector.replicate 5 0
    granted := Vector.ofFn fun k => classBuffers k.val
    spent := Vector.replicate 5 0, occupied := Vector.replicate 5 0 }

/-- The credit counts of a class that a transmitter's AUDIT flit carries (R314): granted so far, spent, and held. -/
def State.sendAudits (s : State) (p : PortId) : State :=
  if portUp s p then
    forEach (List.finRange 5) s fun s k =>
      let l := s.lnk p
      s.send (.audit p k (l.used.get k + l.credits.get k) (l.used.get k) (l.credits.get k))
  else s

/-- May a port's engine emit light (R329, R330)? -/
def mayEmit (s : State) (p : PortId) : Bool :=
  let o := s.optic p
  let unused := match portCharter s p with
    | some (i, c) => !bit c.usesPorts p.val
        || (decide (p.val < 6) && decide ((s.stall i).march.member.toNat < 64) && axisLen c (p.val / 2) == 1)
    | none => false
  o.interlock && o.mated && !unused

/-- Set both working sources of an engine, leaving failed ones. -/
def setSources (o : Optics) (v : BitVec 2) : Optics :=
  { o with sources := Vector.ofFn fun k =>
      if o.sources.get k == 3 then 3
      else if k.val < 2 then v
      else if o.onStandby.isSome then v else 0 }

/-- An engine goes dark. -/
def State.darken (s : State) (p : PortId) : State :=
  s.modOptic p fun o => { setSources o 0 with lightIn := false }

/-- The ports of a stall that its charter marks unused, or whose axis has length 1, go dark (R330). -/
def State.darkenUnused (s : State) (i : Stall) : State :=
  forEach ((List.finRange 8).filter fun p => portStall s p == some i && (s.optic p).interlock && (s.optic p).mated
    && !mayEmit s p) s fun s p => (s.darken p).cutLink p 0

end Sys2Proof.Machine
end

