-- ==== Sys2Proof/Machine/Ledger.lean ====
section
/-! DEFINITION. The ledger (chapter 08): buckets, quantisation under a tariff, exact sums over a tree, surveys, deadlines,
the tariff history, and the registers with rules of their own. -/

namespace Sys2Proof.Machine

/-! ### The bucket table, ledger entries and tariff records (Tables 08-1, 08-2, 08-4) -/

def bkElems (b : BitVec 256) : Nat := fldN b 0 21
def bkN (b : BitVec 256) : Nat := fldN b 32 13
def bkDeadline (b : BitVec 256) : Nat := fldN b 48 8
def bkTree (b : BitVec 256) : Nat := fldN b 56 8
def bkSrc (b : BitVec 256) : Nat := fldN b 64 48
def bkSrcTensor (b : BitVec 256) : Nat := fldN b 112 16
def bkDst (b : BitVec 256) : Nat := fldN b 128 48
def bkDstTensor (b : BitVec 256) : Nat := fldN b 176 16
def bkNorm (b : BitVec 256) : Bool := bit b 192

def leBucket (e : BitVec 128) : Nat := fldN e 8 20

/-- The bucket table entry of a bucket id. -/
def Charter.bucket (c : Charter) (b : Nat) : BitVec 256 := c.buckets.getD b 0

/-- The address of a bucket's tariff record (R236). -/
def tariffAddr (c : Charter) (b : Nat) : Nat := c.tariffBase.toNat + 16 * b

/-- A bucket's tariff record. -/
def tariffRecord (s : State) (i : Stall) (c : Charter) (b : Nat) : BitVec 128 :=
  BitVec.ofNat 128 ((s.seen (.ledger i)).readNat i (tariffAddr c b) 16)

/-- Write a bucket's tariff record. -/
def State.setTariff (s : State) (w : Writer) (i : Stall) (c : Charter) (b : Nat) (r : BitVec 128) : State :=
  (s.store w i (tariffAddr c b) (leBytes 16 r)).countBytes i (tariffAddr c b) 16

def trTariff (r : BitVec 128) : BitVec 8 := fld r 0 8
def trValid (r : BitVec 128) : Bool := bit r 8
def trMarch (r : BitVec 128) : BitVec 40 := fld r 16 40
def trFilled (r : BitVec 128) : BitVec 8 := fld r 56 8
def trX (r : BitVec 128) (k : Nat) : BitVec 8 := fld r (64 + 8 * k) 8

/-- May the history be used in a march (R237)? -/
def trUsable (r : BitVec 128) (num : BitVec 40) : Bool := trValid r && trMarch r + 1 == num

/-! ### Quantisation (R227, R228) -/

/-- Contribution width W (R227). -/
def contributionWidth (n : Nat) : Nat := 47 - (if n ≤ 1 then 0 else (n - 1).log2 + 1)

/-- m × 2^e rounded to an integer, ties to even. -/
def rneInteger (m : Nat) (e : Int) : Nat := if 0 ≤ e then m <<< e.toNat else rneShift m (-e).toNat

/-- What quantising one element gives: q, and whether it is non-finite or saturated. -/
structure Quantised where
  q : BitVec 48 := 0
  nonfinite : Bool := false
  saturated : Bool := false
  deriving DecidableEq, Repr

/-- quantise (R227). -/
def quantise (x : Val) (e : Int) (w : Nat) : Quantised :=
  match x with
  | .fin neg m k =>
    if m ≠ 0 ∧ e < k + (m.log2 : Int) + 1 then { saturated := true }
    else { q := BitVec.ofInt 48 (signedMag neg (rneInteger m (k + (w : Int) - 1 - e))) }
  | _ => { nonfinite := true }

/-- Observed exponent X(x) of a finite value (R228); none of a non-finite one. -/
def observedExp : Val → Option (BitVec 8)
  | .fin _ m k => some (if m = 0 then BitVec.ofInt 8 (-128) else BitVec.ofInt 8 (max (-128) (min 127 (k + (m.log2 : Int) + 1))))
  | _ => none

/-- The larger of two signed exponents. -/
def maxExp (a b : BitVec 8) : BitVec 8 := if a.toInt < b.toInt then b else a

/-- MAXEXP of values (R228). -/
def maxExpOf (l : List Val) : BitVec 8 := (l.filterMap observedExp).foldl maxExp (BitVec.ofInt 8 (-128))

/-- The F32 element at an address of a tensor: PAD_VALUE at a pad position (R197). -/
def elemAt (s : State) (i : Stall) (c : Charter) (t : BitVec 512) (a : Nat) : Word :=
  let padded := tPad t && (match coordsOf t (2 * a) with | some x => atPad c t x | none => false)
  if padded then BitVec.ofNat 32 (padValue (c.padExt t)) else BitVec.ofNat 32 (s.readNat i a 4)

/-- This member's contribution to a bucket. -/
def contribution (s : State) (i : Stall) (c : Charter) (b : Nat) : List Val :=
  let k := c.bucket b
  (List.range (bkElems k)).map fun n => val32 (elemAt s i c (c.tensor (bkSrcTensor k)) (bkSrc k + 4 * n))

/-- A tariff set by a survey (R238). -/
def surveyTariff (maxexp : BitVec 8) (headroom : BitVec 4) : BitVec 8 :=
  BitVec.ofInt 8 (min 127 (maxexp.toInt + headroom.toNat))

/-- The run of a bucket with its own contribution quantised under its tariff. -/
def BucketRun.quantised (r : BucketRun) (xs : List Val) : BucketRun :=
  let qs := xs.map fun x => quantise x r.tariff.toInt r.width.toNat
  { r with
    own := some (qs.map fun q => q.q), maxexp := maxExpOf xs
    nonfinite := qs.any fun q => q.nonfinite, saturated := qs.any fun q => q.saturated, known := true }

/-! ### Runs of the current march -/

/-- The run of a bucket. -/
def runOf (t : StallState) (b : Nat) : Option BucketRun := t.ledger.runs.find? fun r => r.bucket.toNat == b

def State.modRun (s : State) (i : Stall) (b : Nat) (f : BucketRun → BucketRun) : State :=
  s.modLedger i fun l => { l with runs := l.runs.map fun r => if r.bucket.toNat == b then f r else r }

/-- The run of a bucket at a march's origin (R235, R237). -/
def startRun (s : State) (i : Stall) (c : Charter) (b : Nat) : BucketRun :=
  let r := tariffRecord s i c b
  let usable := trUsable r (s.stall i).march.num
  { bucket := BitVec.ofNat 20 b
    tariff := if usable then trTariff r else 0
    width := BitVec.ofNat 6 (contributionWidth (bkN (c.bucket b)))
    survey := !usable, known := usable
    index := (c.ledger.findIdx? fun e => leBucket e.raw == b).getD 0 }

/-- Every tariff record made invalid (R237: FORGET). -/
def State.forgetTariffs (s : State) (i : Stall) (c : Charter) : State :=
  forEach (List.range c.buckets.length) s fun s b =>
    let r := tariffRecord s i c b
    s.setTariff (.ledger i) i c b (clearBit r 8)

/-- Every token goes back before a march's origin, and the segment buffers are empty (R246). -/
def State.tokensHome (s : State) (i : Stall) : State :=
  let held := (s.stall i).ledger.tokens.filter fun t => t.buffered != 0
  let s1 := forEach held s fun s t => s.send (.token i t.member t.caravan t.buffered)
  s1.modLedger i fun l => { l with
    tokens := l.tokens.map fun t => { t with returned := t.returned + t.buffered, buffered := 0 }, free := 512 }

/-- The ledger at a march's origin; `new` tells that the march number differs from the march before (R235, R237,
R242). A standby takes no part in the buckets before a takeover (R459). -/
def State.ledgerOrigin (s : State) (i : Stall) (c : Charter) (new : Bool) : State :=
  let s1 :=
    if new then
      let forget := (s.stall i).ledger.forgetPending
      let s0 := s.modLedger i fun l => { l with
        headroomUsed := l.headroom, headroomPending := false, forgetPending := false, shortBefore := [] }
      if forget then s0.forgetTariffs i c else s0
    else s
  let s2 := (s1.tokensHome i).modLedger i fun l => { l with
    fences := l.fences &&& ~~~l.lifts
    subst := l.subst.filter fun e => !bit l.lifts e.1.toNat
    lifts := 0 }
  let runs := if idleStandby (s2.stall i) then []
    else ((List.range c.buckets.length).filter fun b => bkElems (c.bucket b) != 0).map (startRun s2 i c)
  s2.modLedger i fun l => { l with
    runs := runs, norm := 0
    surveys := satAdd l.surveys (runs.filter fun r => r.survey).length }

/-! ### Segments -/

/-- The header of what this member sends for a bucket (Table 08-3). -/
def segmentHeader (t : StallState) (c : Charter) (r : BucketRun) : SegmentHeader :=
  { march := t.march.num, attempt := t.march.repeats, bucket := r.bucket, tariff := r.tariff, maxexp := r.maxexp
    width := r.width, nonfinite := r.nonfinite, saturated := r.saturated, short := false, survey := r.survey
    down := false, count := 1, source := t.march.member, sourceCaravan := c.caravanIx, step := t.settle.step
    segment := 0, segElems := 0 }

/-- The elements of a bucket as segments of at most 2,048 (R230). -/
def segmentsOf (h : SegmentHeader) (elems : List (BitVec 48)) : List Segment :=
  let parts := chunksOf 2048 elems.length elems
  (List.range parts.length).map fun k =>
    let p := parts.getD k []
    { header := { h with segment := BitVec.ofNat 9 k, segElems := BitVec.ofNat 12 p.length }, elems := p }

/-- The 32 bytes of a segment header (Table 08-3). -/
def headerBits (h : SegmentHeader) : BitVec 256 :=
  (0 : BitVec 52) ++ h.segElems ++ (0 : BitVec 7) ++ h.segment ++ (0 : BitVec 8) ++ h.step
    ++ (0 : BitVec 2) ++ h.sourceCaravan ++ (0 : BitVec 1) ++ h.source ++ (0 : BitVec 3) ++ h.count
    ++ (0 : BitVec 1) ++ BitVec.ofBool h.down ++ BitVec.ofBool h.survey ++ BitVec.ofBool h.short
    ++ BitVec.ofBool h.saturated ++ BitVec.ofBool h.nonfinite ++ h.width ++ h.maxexp ++ h.tariff ++ h.bucket ++ h.attempt
    ++ h.march

/-- The header that 32 bytes spell (Table 08-3). -/
def headerOf (w : BitVec 256) : SegmentHeader :=
  { march := fld w 0 40, attempt := fld w 40 8, bucket := fld w 48 20, tariff := fld w 68 8, maxexp := fld w 76 8
    width := fld w 84 6, nonfinite := bit w 90, saturated := bit w 91, short := bit w 92, survey := bit w 93
    down := bit w 94, count := fld w 96 13, source := fld w 112 7, sourceCaravan := fld w 120 6, step := fld w 128 40
    segment := fld w 176 9, segElems := fld w 192 12 }

/-- A segment as it travels (R230): the header, and element i as a 6-byte little-endian L48 value at byte 32 + 6i. -/
def segmentBytes (g : Segment) : List Byte :=
  leBytes 32 (headerBits g.header) ++ g.elems.flatMap fun q => leBytes 6 q

/-- The segments that the bytes of a message spell, packed one after the other (R230, Table 11-2); `fuel` bounds their
number. Bytes too few for a header, or for the elements it announces, spell none. -/
def segmentsIn : Nat → List Byte → List Segment
  | 0, _ => []
  | fuel + 1, bs =>
    if bs.length < 32 then []
    else
      let h := headerOf (BitVec.ofNat 256 (ofLe (bs.take 32)))
      let n := h.segElems.toNat
      let rest := bs.drop 32
      if rest.length < 6 * n then []
      else { header := h, elems := (List.range n).map fun k => BitVec.ofNat 48 (ofLe ((rest.drop (6 * k)).take 6)) }
        :: segmentsIn fuel (rest.drop (6 * n))

/-- Send segments to a tree neighbour as one message of class LEDGER (R230, R310, Table 11-2). -/
def State.sendSegments (s : State) (i : Stall) (dst : Member × BitVec 6) (gs : List Segment) : State :=
  s.sendMessage i 1 dst (gs.flatMap segmentBytes)

/-- Send segments to every child of this member in the bucket's tree. -/
def State.sendDown (s : State) (i : Stall) (c : Charter) (b : Nat) (gs : List Segment) : State :=
  forEach (c.children (bkTree (c.bucket b)) (ownRole (s.stall i))) s fun s ch => s.sendSegments i ch gs

/-- This member's parent in the bucket's tree; none at the root. -/
def parentOf (t : StallState) (c : Charter) (b : Nat) : Option (Member × BitVec 6) :=
  let p := c.parent (bkTree (c.bucket b)) (ownRole t)
  if p.1 = 0x7F then none else some p

/-- The partial of a child, where it is complete. -/
def partialOf (r : BucketRun) (ch : Member × BitVec 6) : Option Partial :=
  r.partials.find? fun p => p.member == ch.1 && p.caravan == ch.2 && p.elems.all Option.isSome

/-- The sum of element lists, element by element. -/
def addElems (a b : List (BitVec 48)) : List (BitVec 48) := List.zipWith (· + ·) a b

/-- The elements of a complete partial. -/
def Partial.all (p : Partial) : List (BitVec 48) := p.elems.flatMap fun e => e.getD []

/-- The partial sum of a member (R229): own q plus every child's partial, with the combined header values. -/
def partialSum (h : SegmentHeader) (own : List (BitVec 48)) (ps : List Partial) : SegmentHeader × List (BitVec 48) :=
  ps.foldl (fun acc p =>
    ({ acc.1 with
        count := acc.1.count + p.header.count
        maxexp := maxExp acc.1.maxexp p.header.maxexp
        nonfinite := acc.1.nonfinite || p.header.nonfinite
        saturated := acc.1.saturated || p.header.saturated }, addElems acc.2 p.all)) (h, own)

/-- rne_f32(Q × 2^(E−W+1)) (R232). -/
def dequantise (q : BitVec 48) (e : Int) (w : Nat) : Word :=
  if q = 0 then 0 else rne32 (.fin (decide (q.toInt < 0)) q.toInt.natAbs (e - w + 1))

/-- SQ × 2^(2(E−W+1)) in units of 2^−348 (R234). -/
def normTerm (qs : List (BitVec 48)) (e : Int) (w : Nat) : Nat :=
  (qs.map fun q => q.toInt.natAbs ^ 2).sum <<< (2 * (e - w + 1) + 348).toNat

/-- A complete total at this member (R232 to R234): written to DST_ADDR, entered in the norm, counted. -/
def State.takeTotal (s : State) (i : Stall) (c : Charter) (b : Nat) (h : SegmentHeader) (qs : List (BitVec 48)) : State :=
  let k := c.bucket b
  let e := h.tariff.toInt
  let w := h.width.toNat
  let vs := qs.map fun q => dequantise q e w
  let inf := vs.any nonFinite32
  let wrote := forEach (List.range vs.length) s fun s n =>
    s.storeElem (.ledger i) i c (c.tensor (bkDstTensor k)) (bkDst k + 4 * n) .f32 (vs.getD n 0).toNat
  let marked := wrote.modRun i b fun r => { r with
    complete := true, maxexp := h.maxexp
    nonfinite := h.nonfinite || inf, saturated := h.saturated, overflow := inf && !h.nonfinite }
  marked.modLedger i fun l => { l with
    done := satAdd l.done 1
    saturated := if h.saturated then satAdd l.saturated 1 else l.saturated
    nonfinite := if h.nonfinite || inf then satAdd l.nonfinite 1 else l.nonfinite
    norm := if bkNorm k then l.norm + BitVec.ofNat 704 (normTerm qs e w) else l.norm }

/-- The counts of a neighbour's tokens. -/
def tokensOf (l : Ledger) (src : Member × BitVec 6) : TokenCount :=
  (l.tokens.find? fun t => t.member == src.1 && t.caravan == src.2).getD { member := src.1, caravan := src.2 }

/-- The counts with one neighbour's replaced. -/
def Ledger.setTokens (l : Ledger) (t : TokenCount) : Ledger :=
  { l with tokens := l.tokens.filter (fun x => !(x.member == t.member && x.caravan == t.caravan)) ++ [t] }

/-- A segment of a neighbour has arrived with its token (R246): it waits in a buffer, or its token goes back at once. -/
def State.tokenIn (s : State) (i : Stall) (src : Member × BitVec 6) (waits : Bool) : State :=
  let t := tokensOf (s.stall i).ledger src
  if waits then s.modLedger i fun l => { l.setTokens { t with
      granted := t.granted + 1, buffered := t.buffered + 1 } with free := l.free - 1 }
  else (s.modLedger i fun l => l.setTokens { t with granted := t.granted + 1, returned := t.returned + 1 }).send
    (.token i src.1 src.2 1)

/-- Buffered segments of a neighbour have been added or dropped: their tokens go back (R246). -/
def State.tokensBack (s : State) (i : Stall) (src : Member × BitVec 6) (n : Nat) : State :=
  let t := tokensOf (s.stall i).ledger src
  if n = 0 then s
  else (s.modLedger i fun l => { l.setTokens { t with
      returned := t.returned + n, buffered := t.buffered - n } with free := l.free + BitVec.ofNat 10 n }).send
    (.token i src.1 src.2 n)

/-- The own values of a bucket are there: the segments of its children's partials that waited for them are added
(R229, R246). -/
def State.addBuffered (s : State) (i : Stall) (b : Nat) : State :=
  match runOf (s.stall i) b with
  | none => s
  | some r =>
    if r.own.isSome then
      (forEach r.partials s fun s p => s.tokensBack i (p.member, p.caravan) p.waiting).modRun i b fun r => { r with
        partials := r.partials.map fun q => { q with waiting := 0 } }
    else s

/-- Is a bucket still open at this member: before its deadline tick (R239, R247)? -/
def bucketOpen (t : StallState) (c : Charter) (b : Nat) : Bool :=
  t.march.state == .legs && decide (t.march.leg.toNat ≤ bkDeadline (c.bucket b))

/-- A survey result reaches this member (R238): the tariff is set, the contribution quantised, the message handed on. -/
def State.takeSurvey (s : State) (i : Stall) (c : Charter) (b : Nat) (maxexp : BitVec 8) : State :=
  let t := s.stall i
  let xs := contribution s i c b
  let s1 := s.modRun i b fun r =>
    let r1 := { r with tariff := surveyTariff maxexp t.ledger.headroomUsed, known := true }
    if r.scanned.isSome then r1.quantised xs else r1
  let s2 := s1.addBuffered i b
  match runOf t b with
  | none => s2
  | some r =>
    s2.sendDown i c b [{ header := { segmentHeader t c r with tariff := 0, maxexp := maxexp, down := true }, elems := [] }]

/-- Does an earlier entry, in charter order, still wait for the quantise stage (R244)? -/
def quantiseBlocked (t : StallState) (c : Charter) (index : Nat) : Bool :=
  let leg := match c.ledger[index]? with | some e => e.sched.leg | none => 0
  (List.range index).any fun j => match c.ledger[j]? with
    | some e => decide (e.sched.leg.toNat ≤ leg.toNat) && !hasRun t (.ledger j)
    | none => false

/-- Is this module itself fenced (R242)? -/
def selfFenced (t : StallState) : Bool := isFenced t t.march.member

/-- CONTRIBUTE (R227, R238, R244): a due ledger entry, in charter order, quantises the contribution under the bucket's tariff, or scans it where
the bucket surveys. The entry of an empty bucket completes at once. -/
def execContribute (i : Stall) (index : Nat) (s : State) : Host.Outcome State Fault Refusal :=
  let t := s.stall i
  match t.charter.active with
  | none => .next s
  | some c =>
    match c.ledger[index]? with
    | none => .next s
    | some e =>
      let b := leBucket e.raw
      if !due t c (.ledger index) || t.ledger.retired || selfFenced t || quantiseBlocked t c index then .next s
      else
        let ran := s.markRan i (.ledger index)
        match runOf t b with
        | none => .next (ran.modSeq i fun q => { q with done := q.done ++ [⟨.ledger index, s.time⟩] })
        | some r =>
          if !bucketOpen t c b then .next ran
          else
            let xs := contribution s i c b
            if r.known then
              .next ((ran.modRun i b fun r => { r.quantised xs with scanned := some (maxExpOf xs) }).addBuffered i b)
            else .next (ran.modRun i b fun r => { r with scanned := some (maxExpOf xs) })

/-- Has a bucket's run all that its partial sum needs, and not yet sent it (R229)? -/
def addReady (t : StallState) (c : Charter) (r : BucketRun) : Bool :=
  r.known && r.own.isSome && !r.sent && !r.complete && bucketOpen t c r.bucket.toNat
    && ((c.children (bkTree (c.bucket r.bucket.toNat)) (ownRole t)).all fun ch => (partialOf r ch).isSome)

/-- Is an entry that comes earlier in charter order ready for the add stage (R244)? An entry that still waits for its
peers holds no stage (log entry 140). -/
def addBlocked (t : StallState) (c : Charter) (r : BucketRun) : Bool :=
  t.ledger.runs.any fun q => decide (q.index < r.index) && addReady t c q

/-- LEDGER_SEND_UP (R229, R238, R244): once the own values and every child's are there, the partial sum goes to the parent, or
the root takes the total and sends it down. In a survey the MAXEXP goes up first in the same way. -/
def execLedgerSendUp (i : Stall) (bucket : BitVec 20) (s : State) : Host.Outcome State Fault Refusal :=
  let t := s.stall i
  let b := bucket.toNat
  match t.charter.active, runOf t b with
  | some c, some r =>
    let kids := c.children (bkTree (c.bucket b)) (ownRole t)
    if !bucketOpen t c b || r.sent || r.complete || selfFenced t then .next s
    else if !r.known then
      match r.scanned with
      | none => .next s
      | some own =>
        let got := kids.filterMap fun ch => (r.surveys.find? fun e => e.1 == ch.1 && e.2.1 == ch.2).map fun e => e.2.2
        if got.length < kids.length || r.surveySent then .next s
        else
          let m := got.foldl maxExp own
          match parentOf t c b with
          | some p =>
            .next ((s.sendSegments i p [{ header := { segmentHeader t c r with tariff := 0, maxexp := m }, elems := [] }]).modRun
              i b fun r => { r with surveySent := true })
          | none => .next ((s.takeSurvey i c b m).modRun i b fun r => { r with surveySent := true })
    else
      match r.own with
      | none => .next s
      | some own =>
        let ps := kids.filterMap (partialOf r)
        if ps.length < kids.length || addBlocked t c r then .next s
        else
          let (h, qs) := partialSum (segmentHeader t c r) own ps
          match parentOf t c b with
          | some p => .next ((s.sendSegments i p (segmentsOf h qs)).modRun i b fun r => { r with sent := true })
          | none =>
            let whole := if h.count.toNat = bkN (c.bucket b) then s.takeTotal i c b h qs else s
            let taken := whole.modRun i b fun r => { r with sent := true }
            .next (taken.sendDown i c b (segmentsOf { h with down := true } qs))
  | _, _ => .next s

/-! ### Receiving (R231) -/

/-- Discard a segment (R231). -/
def State.discardSegment (s : State) (i : Stall) (reason : Reason) (b : BitVec 20) : State :=
  s.modLedger i fun l => { l with
    discarded := satAdd l.discarded 1, lastReason := reason, lastBucket := b.setWidth 16 }

/-- The neighbour that a header names as its sender. -/
def senderOf (t : StallState) (c : Charter) (h : SegmentHeader) : Member × BitVec 6 :=
  (if h.sourceCaravan == c.caravanIx then standsFor t h.source else h.source, h.sourceCaravan)

/-- Is a sender this member's child (upwards) or parent (downwards) in the bucket's tree? -/
def isNeighbour (t : StallState) (c : Charter) (h : SegmentHeader) : Bool :=
  let b := h.bucket.toNat
  let src := senderOf t c h
  if h.down then (match parentOf t c b with | some p => p == src | none => false)
  else (c.children (bkTree (c.bucket b)) (ownRole t)).contains src

/-- Do SEGMENT and SEG_ELEMS fit the bucket's ELEMS? Header-only survey messages and SHORT notices carry none. -/
def segmentFits (c : Charter) (h : SegmentHeader) : Bool :=
  let n := bkElems (c.bucket h.bucket.toNat)
  let k := 2048 * h.segment.toNat
  if h.segElems = 0 then (h.survey || h.short) && h.segment == 0
  else decide (k < n) && h.segElems.toNat == min 2048 (n - k)

/-- Is a message a survey message, which carries no tariff? -/
def headerOnlySurvey (h : SegmentHeader) : Bool := h.survey && h.segElems == 0

/-- The first check of R231 that an arriving header fails. -/
def segmentRefusal (t : StallState) (c : Charter) (h : SegmentHeader) : Option Reason :=
  if h.march != t.march.num || h.attempt != t.march.repeats then some 0x0308
  else if h.sourceCaravan == c.caravanIx && isFenced t h.source then some 0x0309
  else
    match runOf t h.bucket.toNat with
    | none => some 0x030C
    | some r =>
      if !isNeighbour t c h || !segmentFits c h then some 0x030C
      else if !bucketOpen t c h.bucket.toNat && !h.short then some 0x0307
      else if h.width != r.width || h.survey != r.survey
          || (!headerOnlySurvey h && (!r.known || h.tariff != r.tariff)) then some 0x0306
      else none

/-- A segment of a child's partial is added to what the child has sent; it waits in a buffer until the own values are
there (R229, R246). -/
def addPartial (c : Charter) (r : BucketRun) (src : Member × BitVec 6) (g : Segment) : BucketRun :=
  let n := ceilDiv (bkElems (c.bucket r.bucket.toNat)) 2048
  let k := g.header.segment.toNat
  let old := match r.partials.find? fun p => p.member == src.1 && p.caravan == src.2 with
    | some p => p
    | none => { member := src.1, caravan := src.2, header := g.header, elems := List.replicate n none }
  { r with partials := (r.partials.filter fun p => !(p.member == src.1 && p.caravan == src.2))
      ++ [{ old with
            elems := old.elems.set k (some g.elems)
            waiting := if r.own.isSome then old.waiting else old.waiting + 1 }] }

/-- A SHORT notice at this member (R239): the bucket is SHORT, and the notice goes on to the children. -/
def State.takeShort (s : State) (i : Stall) (c : Charter) (h : SegmentHeader) : State :=
  let t := s.stall i
  let b := h.bucket.toNat
  let was := match runOf t b with | some r => r.short || r.complete | none => true
  let s1 := s.modRun i b fun r => { r with short := r.short || !r.complete }
  let s2 := if was then s1 else s1.modLedger i fun l => { l with short := satAdd l.short 1 }
  s2.sendDown i c b [{ header := { h with source := t.march.member, sourceCaravan := c.caravanIx, step := t.settle.step }, elems := [] }]

/-- A segment that no check refuses is used (R229, R232, R238). -/
def State.useSegment (s : State) (i : Stall) (c : Charter) (g : Segment) : State :=
  let t := s.stall i
  let h := g.header
  let b := h.bucket.toNat
  let src := senderOf t c h
  if h.short then s.takeShort i c h
  else if headerOnlySurvey h then
    if h.down then s.takeSurvey i c b h.maxexp
    else s.modRun i b fun r => { r with
      surveys := (r.surveys.filter fun e => !(e.1 == src.1 && e.2.1 == src.2)) ++ [(src.1, src.2, h.maxexp)] }
  else if h.down then
    let n := ceilDiv (bkElems (c.bucket b)) 2048
    let s1 := (s.modRun i b fun r => { r with
      total := if h.count.toNat = bkN (c.bucket b)
        then (if r.total.isEmpty then List.replicate n none else r.total).set h.segment.toNat (some g.elems) else r.total }).sendDown i c b
        [{ g with header := { h with source := t.march.member, sourceCaravan := c.caravanIx, step := t.settle.step } }]
    match runOf (s1.stall i) b with
    | none => s1
    | some r =>
      if !r.complete && !r.total.isEmpty && r.total.all Option.isSome then
        s1.takeTotal i c b h (r.total.flatMap fun e => e.getD [])
      else s1
  else s.modRun i b fun r => addPartial c r src g

/-- Does a segment wait in a buffer: one of a child's partial that comes before the own values (R229, R246)? -/
def segmentWaits (t : StallState) (h : SegmentHeader) : Bool :=
  !h.short && !headerOnlySurvey h && !h.down
    && (match runOf t h.bucket.toNat with | some r => r.own.isNone | none => false)

/-- A segment, survey message or SHORT notice arrives (R231, R246): the checks in their order, then the use; its token
goes back when the segment has been added or discarded. -/
def State.receiveSegment (s : State) (i : Stall) (g : Segment) : State :=
  let t := s.stall i
  let h := g.header
  match t.charter.active with
  | none => (s.discardSegment i 0x030C h.bucket).tokenIn i (h.source, h.sourceCaravan) false
  | some c =>
    let src := senderOf t c h
    match segmentRefusal t c h with
    | some r =>
      let s1 := (s.discardSegment i r h.bucket).tokenIn i src false
      if r = 0x0306 then s1.cause i vCounter 0x0306 else s1
    | none =>
      let s1 := (s.useSegment i c g).tokenIn i src (segmentWaits t h)
      if h.step != t.settle.step then s1.cause i vCounter 0x0401 else s1

/-- LEDGER_SEGMENT (R231). -/
def execLedgerSegment (i : Stall) (g : Segment) (s : State) : Host.Outcome State Fault Refusal :=
  .next (s.rouse.receiveSegment i g)

/-- SHORT_NOTICE (R231, R239): a header-only message, used and forwarded whenever it arrives. -/
def execShortNotice (i : Stall) (h : SegmentHeader) (s : State) : Host.Outcome State Fault Refusal :=
  .next (s.rouse.receiveSegment i { header := { h with short := true, segElems := 0, segment := 0 }, elems := [] })

/-! ### Deadlines and the verdict (R233, R239) -/

/-- The children whose partial sum of a bucket is not there. -/
def missingKids (t : StallState) (c : Charter) (r : BucketRun) : List (Member × BitVec 6) :=
  (c.children (bkTree (c.bucket r.bucket.toNat)) (ownRole t)).filter fun ch => (partialOf r ch).isNone

/-- The buckets whose deadline tick ends a leg (R239): each without its complete total becomes SHORT, a root that lacks a
child's partial sends the notice down, and the ledger entry ends. -/
def State.ledgerDeadline (s : State) (i : Stall) (c : Charter) (leg : Nat) : State :=
  forEach ((s.stall i).ledger.runs.filter fun r => bkDeadline (c.bucket r.bucket.toNat) == leg) s fun s r =>
    let t := s.stall i
    let b := r.bucket.toNat
    let ends := s.modSeq i fun q => { q with
      done := if q.done.any fun d => d.entry == .ledger r.index then q.done else q.done ++ [⟨.ledger r.index, s.time⟩]
      ran := if q.ran.contains (.ledger r.index) then q.ran else q.ran ++ [.ledger r.index] }
    if r.complete then ends
    else
      let s1 := (ends.modRun i b fun r => { r with short := true }).modLedger i fun l =>
        if r.short then l else { l with short := satAdd l.short 1 }
      if (parentOf t c b).isNone && !(missingKids t c r).isEmpty then
        s1.sendDown i c b [{ header := { segmentHeader t c r with short := true, down := true }, elems := [] }]
      else s1

/-- The causes that a member's buckets give (R233), with their reasons. -/
def ledgerCauses (t : StallState) : List (BitVec 4 × Reason) :=
  let rs := t.ledger.runs
  (if rs.any fun r => r.saturated && r.complete then [(vSaturated, (0x0301 : Reason))] else [])
    ++ (match rs.find? fun r => r.nonfinite && r.complete with
        | some r => [(vNonfinite, if r.overflow then (0x030A : Reason) else 0x0302)]
        | none => [])
    ++ (if rs.any fun r => r.short then [(vShort, (0x0303 : Reason))] else [])

/-- The children to report missing with the verdict word (R239): up to four, each with the first bucket that lacks its
partial sum (log entry 48). -/
def missingReport (t : StallState) (c : Charter) : List MissingChild :=
  let all := (t.ledger.runs.filter fun r => r.short).flatMap fun r =>
    (missingKids t c r).map fun ch => (⟨r.bucket, ch.1, ch.2⟩ : MissingChild)
  (all.foldl (fun acc e => if acc.any fun x => x.member == e.member && x.caravan == e.caravan then acc else acc ++ [e]) []).take 4

/-- LDG_FIRST_BAD of the march whose exchange begins (Table 08-10). -/
def firstBad (t : StallState) : Word :=
  let sv := putB (t.ledger.runs.any fun r => r.survey) 30
  match t.ledger.runs.find? fun r => r.short || (r.complete && (r.saturated || r.nonfinite)) with
  | some r => putB true 31 ||| sv ||| putB r.short 29 ||| putB (r.complete && r.saturated) 28
      ||| putB (r.complete && r.nonfinite) 27 ||| put r.bucket 0
  | none => sv

/-! ### Tariff history (R235, R236) -/

/-- The window of a record after a march: X_0 to X_7 with their FILLED bits. -/
def nextWindow (r : BitVec 128) (survey : Bool) (maxexp : BitVec 8) : List (Bool × BitVec 8) :=
  if survey then (true, maxexp) :: List.replicate 7 (false, 0x80)
  else (true, maxexp) :: (List.range 7).map fun k => (bit (trFilled r) k, trX r k)

/-- E_next (R235). -/
def nextTariff (e : Int) (saturated : Bool) (window : List (Bool × BitVec 8)) (headroom : BitVec 4) : BitVec 8 :=
  let t := ((window.filter fun p => p.1).map fun p => p.2).foldl maxExp (BitVec.ofInt 8 (-128))
  let top : Int := t.toInt + headroom.toNat
  BitVec.ofInt 8 (min 127 (if saturated then max (e + 4) top else max top (e - 1)))

/-- A tariff record (Table 08-4). -/
def makeRecord (tariff : BitVec 8) (num : BitVec 40) (w : List (Bool × BitVec 8)) : BitVec 128 :=
  let g (k : Nat) : Bool × BitVec 8 := w.getD k (false, 0x80)
  let filled : BitVec 8 := (List.range 8).foldl (fun acc k => if (g k).1 then setBit acc k else acc) 0
  (g 7).2 ++ (g 6).2 ++ (g 5).2 ++ (g 4).2 ++ (g 3).2 ++ (g 2).2 ++ (g 1).2 ++ (g 0).2 ++ filled ++ num ++ (0 : BitVec 7)
    ++ (1 : BitVec 1) ++ tariff

/-- The tariff update at a march boundary at which the number advances (R235): every bucket with a complete total. -/
def State.ledgerBoundary (s : State) (i : Stall) (c : Charter) : State :=
  let t := s.stall i
  forEach (t.ledger.runs.filter fun r => r.complete) s fun s r =>
    let b := r.bucket.toNat
    let old := tariffRecord s i c b
    let w := nextWindow old r.survey r.maxexp
    s.setTariff (.ledger i) i c b
      (makeRecord (nextTariff r.tariff.toInt r.saturated w t.ledger.headroomUsed) t.march.num w)

/-! ### Registers -/

/-- The 32 fences of a register LDG_FENCE0 to LDG_FENCE2 as bits of the fence set. -/
def fenceMask (reg : Fin 3) (v : Word) : BitVec 68 := (v.setWidth 68) <<< (32 * reg.val)

/-- A write of LDG_FENCE (R242, R248): the lead lifts set bits at the next origin and relays it; others ignore it. -/
def writeFence (i : Stall) (reg : Fin 3) (v : Word) (s : State) : State :=
  if (s.stall i).march.lead then
    let m := fenceMask reg v &&& (s.stall i).ledger.fences
    if m = 0 then s else (s.modLedger i fun l => { l with lifts := l.lifts ||| m }).send (.relayed i (.lift m))
  else s.ignored i

/-- A write of LDG_CTRL (Table 08-8). -/
def writeLdgCtrl (i : Stall) (v : Word) (s : State) : State :=
  s.modLedger i fun l => { l with
    headroom := fld v 0 4
    headroomPending := true
    forgetPending := l.forgetPending || bit v 8 }

/-- FORGET (R237): VALID = 0 in every tariff record at the origin of the next new march number. -/
def writeForget (i : Stall) (s : State) : State := s.modLedger i fun l => { l with forgetPending := true }

/-- LDG_FENCE_WRITE (R242). -/
def execLdgFenceWrite (r : Requester) (i : Stall) (reg : Fin 3) (v : Word) (s : State) : Host.Outcome State Fault Refusal :=
  .next (s.guardWrite r (ledgerOff i (0x2C + 4 * reg.val)) (writeFence i reg v))

/-- FORGET (R237). -/
def execForget (r : Requester) (i : Stall) (s : State) : Host.Outcome State Fault Refusal :=
  .next (s.guardWrite r (ledgerOff i 0) (writeForget i))

/-- LDG_HEADROOM_WRITE (R235). -/
def execLdgHeadroomWrite (r : Requester) (i : Stall) (v : Word) (s : State) : Host.Outcome State Fault Refusal :=
  .next (s.guardWrite r (ledgerOff i 0) (writeLdgCtrl i v))

end Sys2Proof.Machine
end

