-- ==== Sys2Proof/Machine/Settle.lean ====
section
/-! DEFINITION. Settlement, tally counters and the lot generator's registers (chapter 09): the update of a settlement
entry, its prologue, the statistics and alarms, and the writes with rules of their own. -/

namespace Sys2Proof.Machine

/-! ### Fields (Tables 09-1 to 09-3) -/

def Charter.tau (c : Charter) : Word := fld c.settleHead 0 32
def Charter.nscale (c : Charter) : Word := fld c.settleHead 32 32
def Charter.lossAddr (c : Charter) : Nat := fldN c.settleHead 64 48
def Charter.lossEn (c : Charter) : Bool := bit c.settleHead 112

def seCompat (e : BitVec 512) : Bool := bit e 8
def seFreeze (e : BitVec 512) : Nat := fldN e 9 2
def seGroup (e : BitVec 512) : Nat := fldN e 11 8
def seCount (e : BitVec 512) : Nat := fldN e 32 32
def seW (e : BitVec 512) : Nat := fldN e 64 48
def seWTensor (e : BitVec 512) : Nat := fldN e 112 16
def seS (e : BitVec 512) : Nat := fldN e 128 48
def seSTensor (e : BitVec 512) : Nat := fldN e 176 16
def seG (e : BitVec 512) : Nat := fldN e 192 48
def seGTensor (e : BitVec 512) : Nat := fldN e 240 16
def seH (e : BitVec 512) : Nat := fldN e 256 48
def seHTensor (e : BitVec 512) : Nat := fldN e 304 16
def sePlane (e : BitVec 512) : Nat := fldN e 320 48
def seLotW (e : BitVec 512) : BitVec 24 := fld e 384 24
def seLotS (e : BitVec 512) : BitVec 24 := fld e 408 24

/-- A coefficient of a record, by its place in Table 09-2: 0 α, 1 β, 2 γ, 3 δ, 4 ε, 5 η, 6 λ, 7 μ, 8 σ. -/
def coefWord (g : BitVec 512) (k : Nat) : Word := fld g (32 * k) 32
def coefPhi (g : BitVec 512) : Nat := fldN g 288 2
def coefP (g : BitVec 512) : Nat := fldN g 290 2
def coefBias (g : BitVec 512) : Bool := bit g 292

/-! ### The update (R257, R258) -/

/-- One, as F32. -/
def one32 : Word := 0x3F800000

/-- pow (R257): 40 squarings, most significant bit of t first. -/
def powT (alpha : Word) (t : BitVec 40) : Word :=
  (List.range 40).foldl (fun r k =>
    let r := mul32 r r
    if bit t (39 - k) then mul32 r alpha else r) one32

/-- The constants of a group (R257). -/
structure Prologue where
  gr : Word
  hr : Word
  om : Word
  mc : Word
  deriving DecidableEq, Repr

/-- clip (R257). -/
def clipFactor (tau nscale norm2 : Word) : Word :=
  if tau = 0 then one32
  else
    let nu := mul32 nscale (sqrt32 norm2)
    if ltVal (val32 nu) (val32 tau) || eqVal (val32 nu) (val32 tau) then one32 else div32 tau nu

/-- prologue (R257). -/
def prologue (g : BitVec 512) (t : BitVec 40) (c : Word) : Prologue :=
  let rho := if coefBias g then div32 one32 (sub32 one32 (powT (coefWord g 0) t)) else one32
  { gr := mul32 (coefWord g 2) rho
    hr := mul32 (coefWord g 5) rho
    om := sub32 one32 (coefWord g 6)
    mc := mul32 (coefWord g 7) c }

/-- a × b + c × d, exact, one rounding. -/
def dot32 (a b c d : Word) : Word := rne32 (addVal (mulVal (val32 a) (val32 b)) (mulVal (val32 c) (val32 d)))

/-- settle (R258): the new parameter and the new average. -/
def settleElem (g : BitVec 512) (p : Prologue) (w s gt : Word) : Word × Word :=
  let k (n : Nat) := coefWord g n
  let gr := mul32 (k 8) gt
  let f := if coefPhi g = 1 then mul32 gr gr else if coefPhi g = 2 then rne32 (absVal (val32 gr)) else gr
  let s1 := dot32 (k 0) s (k 1) f
  let num := dot32 p.gr s1 (k 3) gr
  let den :=
    if coefP g = 0 then add32 (k 4) one32
    else if coefP g = 1 then add32 (k 4) (sqrt32 (mul32 p.hr s1))
    else add32 (k 4) (mul32 p.hr s1)
  let d := div32 num den
  let w1 := rne32 (addVal (mulVal (val32 p.om) (val32 w)) (negVal (mulVal (val32 p.mc) (val32 d))))
  (w1, s1)

/-- Element `n` of a contiguous region of a tensor, as F32 (R197, R255, R259). -/
def regionElem (s : State) (i : Stall) (c : Charter) (t : BitVec 512) (base n : Nat) (f : Fmt) : Word :=
  let a := base + n * fmtBytes f
  let padded := tPad t && (match coordsOf t (2 * a) with | some x => atPad c t x | none => false)
  toF32 f (if padded then padValue (c.padExt t) % 2 ^ (8 * fmtBytes f) else s.readNat i a (fmtBytes f))

/-- Is an element frozen (R260)? -/
def frozenElem (s : State) (i : Stall) (e : BitVec 512) (n : Nat) : Bool :=
  seFreeze e == 1 || (seFreeze e == 2 && bit (s.readVa i (sePlane e + n / 8)) (n % 8))

/-- The canonical index of element `n` of a settlement region (R255). -/
def settleIndex (t : BitVec 512) (base n : Nat) (f : Fmt) : Nat := (base - tBase t) / fmtBytes f + n

/-- One element of a settlement entry, in the march `num` (R258 to R260); whether it was written, and whether what was
stored is non-finite. -/
def settleAt (s : State) (i : Stall) (c : Charter) (e g : BitVec 512) (p : Prologue) (num : BitVec 40) (n : Nat) :
    State × Bool × Bool :=
  let tw := c.tensor (seWTensor e)
  let ts := c.tensor (seSTensor e)
  let tg := c.tensor (seGTensor e)
  let fw : Fmt := if seCompat e then .f32 else .h16
  let fs : Fmt := if seCompat e then .f32 else .g16
  let aw := seW e + n * fmtBytes fw
  let as := seS e + n * fmtBytes fs
  let v := s.seen (.settle i)
  if frozenElem v i e n then (s, false, false)
  else
    let (w1, s1) := settleElem g p (regionElem v i c tw (seW e) n fw) (regionElem v i c ts (seS e) n fs)
      (regionElem v i c tg (seG e) n .f32)
    if seCompat e then
      let cw := encodeRne .f32 (val32 w1)
      let out := ((s.storeElem (.settle i) i c tw aw .f32 cw).storeElem (.settle i) i c ts as .f32
        (encodeRne .f32 (val32 s1))).storeElem (.settle i) i c (c.tensor (seHTensor e)) (seH e + 2 * n) .h16 (encodeRne .h16 (val32 w1))
      (out, true, nonFinite32 w1 || nonFinite32 s1)
    else
      let seed := (s.stall i).lot.seed
      let cw := encodeStochastic .h16 (lotDraw seed (seLotW e) num (settleIndex tw (seW e) n fw)) (val32 w1)
      let cs := encodeStochastic .g16 (lotDraw seed (seLotS e) num (settleIndex ts (seS e) n fs)) (val32 s1)
      ((s.storeElem (.settle i) i c tw aw .h16 cw).storeElem (.settle i) i c ts as .g16 cs, true,
        nonFinite (decodeVal .h16 cw) || nonFinite (decodeVal .g16 cs))

/-! ### Tallies (R264 to R271) -/

/-- TLY_CTRL as a register (Table 09-12). -/
def tlyCtrl (t : Tally) : Word := put t.holdEn 28 ||| put t.irqEn 24 ||| put t.vector 16 ||| put t.warm 8 ||| put t.a 0

/-- STL_LAST: the last settlement reason code with the march number's low bits (Table 09-9). -/
def State.stlLast (s : State) (i : Stall) (reason : Reason) : State :=
  s.modSettle i fun x => { x with last := put reason 16 ||| put (fld (s.stall i).march.num 0 16) 0 }

/-- The reason code of an alarm that holds the march (Table 09-8). -/
def alarmReason (j : Nat) : Reason := 0x0405 + BitVec.ofNat 16 j

/-- An alarm of Table 09-4: latched, and raised under the captured IRQ_EN (R270). -/
def State.alarm (s : State) (i : Stall) (j : Nat) : State :=
  let y := (s.stall i).tally
  let s1 := s.modTally i fun y => { y with alarm := setBit y.alarm j }
  if bit y.used (24 + j) then s1.raise i (fld y.used 16 6) else s1

/-- An alarm found on a member that holds the next march by its local verdict (R270, R65). -/
def State.memberAlarm (s : State) (i : Stall) (j : Nat) : State :=
  let s1 := s.alarm i j
  if bit (s.stall i).tally.used (28 + j) then (s1.causeNext i vTally (alarmReason j)).stlLast i (alarmReason j) else s1

/-- Count an unfrozen element of a group stored non-finite (R271, Table 09-4). -/
def State.countNonFinite (s : State) (i : Stall) (g : Nat) : State :=
  (s.modTally i fun y => { y with
    groupNf := (List.range 256).map fun k => satAdd (y.groupNf.getD k 0) (if k = g then 1 else 0) }).memberAlarm i 2

/-- Run a settlement entry's elements (R258 to R261) with the constants of a march. -/
def State.settleEntry (s : State) (i : Stall) (c : Charter) (e : BitVec 512) (clip : Word) (num step : BitVec 40) : State :=
  let g := (s.stall i).settle.coef.getD (seGroup e) 0
  let p := prologue g step clip
  forEach (List.range (seCount e)) s fun s n =>
    let (s1, wrote, bad) := settleAt s i c e g p num n
    let s2 := s1.modSettle i fun x => { x with
      elems := if wrote then x.elems + 1 else x.elems
      frozen := if wrote then x.frozen else satAdd x.frozen 1 }
    if bad then s2.countNonFinite i (seGroup e) else s2

/-- The prologue of the march's first entry (R257): the clip factor, CLIP_ZERO where it becomes +0. -/
def State.settlePrologue (s : State) (i : Stall) : State :=
  let t := s.stall i
  if t.settle.started then s
  else
    let c := clipFactor t.settle.tau t.settle.nscale t.march.verdict.norm2
    let s1 := s.modSettle i fun x => { x with started := true, state := 1, clip := c }
    if c = 0 ∧ val32 (mul32 t.settle.nscale (sqrt32 t.march.verdict.norm2)) = .inf false then
      (s1.stlLast i 0x0404).record
        { reason := 0x0404, cls := clsInfo, stall := some i, kind := 0, unit := 0 }
    else s1

/-- SETTLE (R257 to R261): a due settlement entry updates its elements. -/
def execSettle (i : Stall) (index : Nat) (s : State) : Host.Outcome State Fault Refusal :=
  let t := s.stall i
  match t.charter.active with
  | none => .next s
  | some c =>
    match c.settle[index]? with
    | none => .next s
    | some e =>
      if !due t c (.settle index) || t.march.state != .settle || !t.seq.settles then .next s
      else
        let s1 := (s.markRan i (.settle index)).settlePrologue i
        let x := (s1.stall i).settle
        let s2 := s1.modSettle i fun y => { y with state := 2, entry := BitVec.ofNat 16 index }
        .next (s2.settleEntry i c e.raw x.clip t.march.num x.step)

/-- The F32 loss word of this member at the verdict tick (R267); a standby computes no loss before a takeover. -/
def lossWord (s : State) (i : Stall) (c : Charter) : Word :=
  if c.lossEn && !idleStandby (s.stall i) then BitVec.ofNat 32 (s.readNat i c.lossAddr 4) else 0

/-- The loss words summed exactly, with the rules of R89 for infinities and NaNs (R267). -/
def lossAcc (l : List Word) : ChunkSum := l.foldl (fun k w => chunkAdd k (val32 w)) {}

/-- LOSS: the exact sum rounded once (R267). -/
def lossSum (l : List Word) : Word := chunkRound (lossAcc l)

/-- NORM2: the norm partials summed exactly and rounded once (R234). -/
def normSum (l : List (BitVec 704)) : Word :=
  let n := (l.map BitVec.toNat).sum
  if n = 0 then 0 else rne32 (.fin false n (-348))

/-- The spike test (R269), exact. -/
def spike (y : Tally) (loss : Word) : Bool :=
  let d := addVal (val32 loss) (negVal (val32 y.mean))
  let k := val32 y.k
  !nonFinite32 loss && decide ((fldN y.used 8 8) ≤ y.samples.toNat) && ltVal (val32 y.mean) (val32 loss)
    && ltVal (mulVal (mulVal k k) (val32 y.var)) (mulVal d d)

/-- The alarms that the lead finds: bit 0 SPIKE, bit 1 NF_LOSS (R269, R270). -/
def leadAlarms (y : Tally) (lossEn : Bool) (loss : Word) : BitVec 4 :=
  if !lossEn then 0
  else (if spike y loss then 1 else 0) ||| (if nonFinite32 loss then 2 else 0)

/-- The statistics after a settled march (R268). -/
def statStep (y : Tally) (loss : Word) : Tally :=
  let a : Val := .fin false 1 (-((fldN y.used 0 4 : Nat) : Int))
  let b := addVal (.fin false 1 0) (negVal a)
  let d := addVal (val32 loss) (negVal (val32 y.mean))
  if y.samples = 0 then { y with mean := loss, var := 0, samples := 1 }
  else { y with
    var := rne32 (addVal (mulVal b (val32 y.var)) (mulVal (mulVal a b) (mulVal d d)))
    mean := rne32 (addVal (mulVal b (val32 y.mean)) (mulVal a (val32 loss)))
    samples := satAdd y.samples 1 }

/-- What a caravan verdict does to the tallies of a member (R270, R271). -/
def State.tallyVerdict (s : State) (i : Stall) (v : CaravanVerdict) : State :=
  let lossEn := match (s.stall i).charter.active with | some c => c.lossEn | none => false
  let s1 := s.modTally i fun y => { y with
    loss := v.loss
    nfLoss := if lossEn && nonFinite32 v.loss then satAdd y.nfLoss 1 else y.nfLoss
    skipSat := if v.code = vSaturated then satAdd y.skipSat 1 else y.skipSat
    skipNf := if v.code = vNonfinite then satAdd y.skipNf 1 else y.skipNf
    skipRun := if v.code = vSaturated ∨ v.code = vNonfinite then satAdd y.skipRun 1 else y.skipRun }
  let s2 := if bit v.alarms 0 then s1.alarm i 0 else s1
  let s3 := if bit v.alarms 1 then s2.alarm i 1 else s2
  let s4 := if v.code = vTally ∧ (v.reason = alarmReason 0 ∨ v.reason = alarmReason 1) then s3.stlLast i v.reason else s3
  let y := (s4.stall i).tally
  if (v.code = vSaturated ∨ v.code = vNonfinite) ∧ y.skipRun.toNat = y.skipLimit.toNat then s4.memberAlarm i 3 else s4

/-- The boundary of a settled march (R250, R268, R271): t advances, a finite LOSS is sampled, the skip run ends. -/
def State.settleBoundary (s : State) (i : Stall) (c : Charter) : State :=
  let loss := (s.stall i).march.verdict.loss
  (s.modSettle i fun x => { x with step := x.step + 1 }).modTally i fun y =>
    let z := { y with skipRun := 0 }
    if c.lossEn && !nonFinite32 loss then statStep z loss else z

/-- A held coefficient update takes effect (R254). -/
def applyCoef (x : Settlement) (h : HeldCoef) : Settlement :=
  { x with
    coef := x.coef.mapIdx fun g old => if h.first ≤ g then (h.records[g - h.first]?).getD old else old
    tau := match h.clip with | some p => p.1 | none => x.tau
    nscale := match h.clip with | some p => p.2 | none => x.nscale }

/-- Settlement state at a march's origin: the held coefficients, TAU, NSCALE and seed of a new march number (R254, R273),
TLY_CTRL captured at every origin (R270). -/
def State.settleOrigin (s : State) (i : Stall) (new : Bool) : State :=
  let s1 := s.modTally i fun y => { y with used := tlyCtrl y }
  let s2 := s1.modSettle i fun x => { x with
    started := false, settled := false, state := 0, settledWords := [], requests := [] }
  if new then
    (s2.modSettle i fun x => { x.heldCoef.foldl applyCoef x with heldCoef := [] }).modLot i fun l =>
        if l.pending then { l with seed := l.written, pending := false } else l
  else s2

/-! ### Registers (R251, R269, R273, R277, R278) -/

/-- A committed write of STL_STEP (R251). -/
def writeStep (i : Stall) (v : BitVec 64) (s : State) : State :=
  let m := (s.stall i).march
  if m.state = .ready ∨ (m.state = .held ∧ m.verdict.code = vCounter) then
    s.modSettle i fun x => { x with step := v.setWidth 40 }
  else s.ignored i

/-- A write of TLY_MEAN, TLY_VAR or TLY_SAMPLES (R269). -/
def writeStats (i : Stall) (which : Fin 3) (v : Word) (s : State) : State :=
  if (s.stall i).march.state = .ready then
    s.modTally i fun y =>
      if which.val = 0 then { y with mean := v } else if which.val = 1 then { y with var := v } else { y with samples := v }
  else s

/-- A write of TLY_K (Table 09-11). -/
def writeK (i : Stall) (v : Word) (s : State) : State :=
  if !nonFinite32 v && ltVal (.fin false 0 0) (val32 v) then s.modTally i fun y => { y with k := v } else s

/-- A committed write of LOT_SEED (R273). -/
def writeSeed (i : Stall) (v : BitVec 64) (s : State) : State :=
  s.modLot i fun l => { l with written := v, pending := true }

/-- A write of LOT_TEST_CTRn (R278): CTR3 starts a call; writes during TEST_BUSY are ignored. -/
def writeTestCtr (i : Stall) (n : Fin 4) (v : Word) (s : State) : State :=
  s.modLot i fun l =>
    if l.busy then l
    else
      let c := l.ctr.set n v
      if n.val = 3 then
        let o := lotWords l.testKey (c.get 0) (c.get 1) (c.get 2) (c.get 3)
        { l with ctr := c, busy := true
                 result := #v[fld o 0 32, fld o 32 32, fld o 64 32, fld o 96 32] }
      else { l with ctr := c }

/-- A committed write of LOT_TEST_KEY. -/
def writeTestKey (i : Stall) (v : BitVec 64) (s : State) : State :=
  s.modLot i fun l => if l.busy then l else { l with testKey := v }

/-- STL_STEP_WRITE (R251): both halves of the pair. The low half that the requester holds for single writes stays as it was
(DESIGN CHOICE, log entry 147). -/
def execStlStepWrite (r : Requester) (i : Stall) (v : BitVec 64) (s : State) : Host.Outcome State Fault Refusal :=
  .next (s.guardWrite r (settleOff i 8) (writeStep i v))

/-- TLY_STATS_WRITE (R269). -/
def execTlyStatsWrite (r : Requester) (i : Stall) (which : Fin 3) (v : Word) (s : State) : Host.Outcome State Fault Refusal :=
  .next (s.guardWrite r (tallyOff i (0x14 + 4 * which.val)) (writeStats i which v))

/-- TLY_K_WRITE (R277). -/
def execTlyKWrite (r : Requester) (i : Stall) (v : Word) (s : State) : Host.Outcome State Fault Refusal :=
  .next (s.guardWrite r (tallyOff i 4) (writeK i v))

/-- LOT_SEED_WRITE (R273): both halves of the pair, and no held half changes (DESIGN CHOICE, log entry 147). -/
def execLotSeedWrite (r : Requester) (i : Stall) (v : BitVec 64) (s : State) : Host.Outcome State Fault Refusal :=
  .next (s.guardWrite r (lotOff i 4) (writeSeed i v))

/-- LOT_TEST_CALL (R278): a write of LOT_TEST_CTR3. -/
def execLotTestCall (r : Requester) (i : Stall) (v : Word) (s : State) : Host.Outcome State Fault Refusal :=
  .next (s.guardWrite r (lotOff i 0x24) (writeTestCtr i 3 v))

/-- LOT_TEST_DONE (R278, Table 09-15): 16 XF cycles, 8 ns at 2.0 GHz, have passed. -/
def execLotTestDone (i : Stall) (s : State) : Host.Outcome State Fault Refusal :=
  if (s.stall i).lot.busy then
    .next ({ s with time := s.time + 8 }.modLot i fun l => { l with busy := false })
  else .next s

/-! ### Cost (R266) -/

/-- settle_cost in XF cycles, the bytes moved in each tier being given. -/
def settleCost (count near serai : Nat) : Nat :=
  if count = 0 then 0 else 32 + max (ceilDiv count 64) (max (ceilDiv near 512) (ceilDiv serai 128))

end Sys2Proof.Machine
end

