-- ==== Sys2Proof/Machine/Dense.lean ====
section
/-! DEFINITION. The dense arrays and the governor (chapter 04): MATMUL, GOVERNOR_STEP, GOVERNOR_HOLD_EXPIRE and the
worst-case costs of R115. -/

namespace Sys2Proof.Machine

/-! ### The descriptor (Table 04-4) -/

def mmEngine (d : BitVec 512) : Fin 2 := if bit d 8 then 1 else 0
def mmPreserve (d : BitVec 512) : Bool := bit d 9
def mmStochastic (d : BitVec 512) : Bool := bit d 10
def mmRowMask (d : BitVec 512) : Bool := bit d 11
def mmFmtA (d : BitVec 512) : Nat := fldN d 12 3
def mmFmtB (d : BitVec 512) : Nat := fldN d 15 3
def mmFmtC (d : BitVec 512) : Nat := fldN d 18 3
def mmWeaveA (d : BitVec 512) : Bool := bit d 21
def mmTurnA (d : BitVec 512) : Bool := bit d 22
def mmWeaveB (d : BitVec 512) : Bool := bit d 23
def mmTurnB (d : BitVec 512) : Bool := bit d 24
def mmMaskPort (d : BitVec 512) : Nat := fldN d 25 2
def mmAweaveC (d : BitVec 512) : Bool := bit d 27
def mmRows (d : BitVec 512) : Nat := fldN d 32 11
def mmCols (d : BitVec 512) : Nat := fldN d 48 11
def mmKLen (d : BitVec 512) : Nat := fldN d 64 20
def mmKOffset (d : BitVec 512) : Nat := fldN d 84 20
def mmStream (d : BitVec 512) : BitVec 24 := fld d 104 24
def mmA (d : BitVec 512) : Nat := fldN d 128 48
def mmB (d : BitVec 512) : Nat := fldN d 192 48
def mmC (d : BitVec 512) : Nat := fldN d 256 48
def mmStrideA (d : BitVec 512) : Nat := fldN d 320 32
def mmStrideB (d : BitVec 512) : Nat := fldN d 352 32
def mmStrideC (d : BitVec 512) : Nat := fldN d 384 32
def mmMask (d : BitVec 512) : Nat := fldN d 416 48
def mmTensorA (d : BitVec 512) : Nat := fldN d 464 16
def mmTensorB (d : BitVec 512) : Nat := fldN d 480 16
def mmTensorC (d : BitVec 512) : Nat := fldN d 496 16

/-- The format code after expansion: I4 and I8 count as H16 (R86). -/
def arithFmt (code : Nat) : Fmt := if code = 1 then .g16 else if code = 2 then .f32 else .h16

/-- Empty under R14: K_LEN, M_ROWS or N_COLS is zero (Table 04-5). -/
def mmEmpty (d : BitVec 512) : Bool := mmRows d == 0 || mmCols d == 0 || mmKLen d == 0

/-! ### Feeders -/

/-- A weave operand as a tile-op names it: where its block lies, and how it is turned (R101, R102). -/
structure WeaveOperand where
  tensor : BitVec 512
  addr : Nat
  stride : Nat
  bweave : Bool
  /-- the port's outer index selects stored columns and K selects stored rows -/
  kOnRows : Bool

/-- The stored row and column of outer index `o` and K position `k` (R101). -/
def woRC (w : WeaveOperand) (o k : Nat) : Nat × Nat := if w.kOnRows then (k, o) else (o, k)

/-- The coordinates along the 128- and the 16-element side (R193). -/
def woPQ (w : WeaveOperand) (o k : Nat) : Nat × Nat :=
  let (r, c) := woRC w o k
  if w.bweave then (c, r) else (r, c)

/-- The half-byte position of an operand element. -/
def woPos (w : WeaveOperand) (o k : Nat) : Nat :=
  let (p, q) := woPQ w o k
  2 * w.addr + weaveOffset (tSize w.tensor) w.stride p q

/-- The tensor coordinates of an operand element: those of the block's first element, advanced (R84, R190). -/
def woCoords (w : WeaveOperand) (o k : Nat) : List Nat :=
  let (r, c) := woRC w o k
  match coordsOf w.tensor (2 * w.addr) with
  | some x => (x.getD 0 0 + c) :: (x.getD 1 0 + r) :: x.drop 2
  | none => [c, r, 0, 0, 0, 0]

/-- The operand value that the feeder delivers (R104, R197). -/
def woVal (s : State) (i : Stall) (ch : Charter) (w : WeaveOperand) (o k : Nat) : Val :=
  let x := woCoords w o k
  let q := if atPad ch w.tensor x then padValue (ch.padExt w.tensor) % 2 ^ (4 * tSize w.tensor)
           else readCode s i (woPos w o k) (tSize w.tensor)
  decodeVal (tArith w.tensor) (expandCode s i w.tensor x q)

/-- A bit of the position mask plane at `plane` (R105, R196): 1 is present. -/
def maskBit (s : State) (i : Stall) (w : WeaveOperand) (plane o k : Nat) : Bool :=
  let (p, q) := woPQ w o k
  let off := (p % 128) * 16 + q % 16
  let a := plane + p / 128 * (w.stride / (4 * tSize w.tensor)) + q / 16 * 256 + off / 8
  (s.readVa i a).getLsbD (off % 8)

def mmOperandA (c : Charter) (d : BitVec 512) : WeaveOperand :=
  ⟨c.tensor (mmTensorA d), mmA d, mmStrideA d, mmWeaveA d, mmTurnA d⟩

def mmOperandB (c : Charter) (d : BitVec 512) : WeaveOperand :=
  ⟨c.tensor (mmTensorB d), mmB d, mmStrideB d, mmWeaveB d, !mmTurnB d⟩

/-- The products of output element (m, n), `none` where the position is masked (R87, R105). -/
def mmProducts (s : State) (i : Stall) (c : Charter) (d : BitVec 512) (m n : Nat) : List (Option (Val × Val)) :=
  (List.range (mmKLen d)).map fun k =>
    let masked :=
      if mmMaskPort d = 1 then !maskBit s i (mmOperandA c d) (mmMask d + 128) m k
      else if mmMaskPort d = 2 then !maskBit s i (mmOperandB c d) (mmMask d + 128) n k
      else false
    if masked then none else some (woVal s i c (mmOperandA c d) m k, woVal s i c (mmOperandB c d) n k)

/-! ### Destination -/

/-- The address of row `r`, column `n` of the destination (R111). -/
def mmDest (d : BitVec 512) (f : Fmt) (r n : Nat) : Nat :=
  if mmAweaveC d then mmC d + weaveOffset (2 * fmtBytes f) (mmStrideC d) r n / 2
  else mmC d + r * mmStrideC d + n * fmtBytes f

/-- Is source row `r` present (R107)? -/
def mmPresent (e : StreamEntry) (r : Nat) : Bool := !mmRowMask e.desc || e.mask.getD r false

/-- The present rows (R108). -/
def mmPresentRows (e : StreamEntry) : Nat := ((List.range (mmRows e.desc)).filter (mmPresent e)).length

/-- The initial value of an element (R91, R112). -/
def mmInit (s : State) (i : Stall) (d : BitVec 512) (f : Fmt) (r n : Nat) : Word :=
  if mmKOffset d = 0 then 0 else BitVec.ofNat 32 (s.readNat i (mmDest d f r n) 4)

/-- One output element: the reference order and the store's rounding, or what the drain does to a masked row (R109).
A STOCHASTIC store draws with the index of the element that the descriptor `o` stores (R180). -/
def mmElement (k : CoreId) (s0 : State) (i : Stall) (c : Charter) (e : StreamEntry) (o : BitVec 512) (s : State) (rn : Nat × Nat) :
    State :=
  let d := e.desc
  let f := arithFmt (mmFmtC d)
  let ten := c.tensor (mmTensorC d)
  let a := mmDest d f rn.1 rn.2
  if mmPresent e rn.1 then
    let v := reference (chunkLen (arithFmt (mmFmtA d)) (arithFmt (mmFmtB d))) (mmInit s0 i d f rn.1 rn.2)
      (mmProducts s0 i c d rn.1 rn.2)
    s.storeElem (.core k) i c ten a f (storeCode (s0.stall i) ten f (mmStochastic d) (mmStream d) (mmDest o f rn.1 rn.2) v)
  else if mmPreserve d then s
  else s.storeElem (.core k) i c ten a f 0

/-- Every element of the window, row by row. -/
def mmElements (d : BitVec 512) : List (Nat × Nat) :=
  (List.range (mmRows d)).flatMap fun r => (List.range (mmCols d)).map fun n => (r, n)

/-! ### Cycles and the governor -/

/-- Stream length of a pass (R114). -/
def mmStreamLen (d : BitVec 512) : Nat :=
  (if arithFmt (mmFmtA d) = .f32 then 64 else 16) * ceilDiv (mmKLen d) 16

/-- Passes of a tile-op (R108). -/
def mmPasses (e : StreamEntry) : Nat := ceilDiv (mmCols e.desc) 128 * ceilDiv (mmPresentRows e) 128

/-- The level of a tile-op of `rows` present rows and `cols` columns (R123). -/
def denseLevel (rows cols : Nat) : Nat := ceilDiv (64 * min rows 128 * min cols 128) 16384

def mmLevel (e : StreamEntry) : Nat := denseLevel (mmPresentRows e) (mmCols e.desc)

/-- Worst-case cycles from the shape (R115). -/
def denseCycles (rows present cols s : Nat) (preserve cont wake : Bool) : Nat :=
  let passes := ceilDiv cols 128 * ceilDiv present 128
  let z := if preserve then 0 else ceilDiv cols 128 * (rows - present)
  if passes = 0 then 8 + ceilDiv z 8
  else 8 + 128 + 4 + 32 + ceilDiv z 8 + (if cont then 32 else 0) + (if wake then 2944 else 0) + passes * max s 68

/-- dense_cost (R115). -/
def denseCost (e : StreamEntry) (wake : Bool) : Nat :=
  if mmEmpty e.desc then 0
  else denseCycles (mmRows e.desc) (mmPresentRows e) (mmCols e.desc) (mmStreamLen e.desc) (mmPreserve e.desc)
    (decide (0 < mmKOffset e.desc)) wake

/-- The cap that a brace puts on a level (R125). -/
def braceCap : Nat := 19

/-- Core cycles in a time at a clock of `clk` × 50 MHz (R51). -/
def cyclesIn (clk : BitVec 6) (ns : Nat) : Nat := ns * clk.toNat / 20

/-- The cycles for which an array ran ballast since it became idle, if it is held (R124). -/
def heldCycles (k : Core) (a : DenseArray) (now : BitVec 64) : Nat :=
  if a.hold then min 3600 (cyclesIn k.clock (now.toNat - a.idleSince.toNat)) else 0

/-- The level at which an array begins a tile-op: its own or the tile-op's, whichever is higher, the latter under the
brace cap (R123 to R125). -/
def workLevel (k : Core) (a : DenseArray) (level : Nat) : Nat :=
  max a.level.toNat (if k.brace then min level braceCap else level)

/-- One governor step of a level towards a target (R121). -/
def stepLevel (l t : Nat) : Nat := if l < t then l + 1 else if t < l then l - 1 else l

/-- The stream of a tile-op of level `level` while the array moves from level `l` towards `t`, one step every 46 cycles
(R121, R125). `work` is the number of positions times the level: a cycle at level ℓ does min(ℓ, level) of it. The answer
is the cycles and the level at the end; `fuel` bounds the steps. -/
def rampStream : Nat → Nat → Nat → Nat → Nat → Nat × Nat
  | 0, work, level, l, _ => (ceilDiv work (min l level), l)
  | fuel + 1, work, level, l, t =>
    if l = t ∨ work ≤ 46 * min l level then (ceilDiv work (min l level), l)
    else
      let (n, l') := rampStream fuel (work - 46 * min l level) level (stepLevel l t) t
      (46 + n, l')

/-- Stream cycles of `n` positions for a tile-op of level `level` that begins at array level `l`, and the level it leaves:
in a brace the array falls to the cap while it streams (R125). -/
def streamCycles (brace : Bool) (n l level : Nat) : Nat × Nat :=
  if brace then rampStream 64 (n * level) level l (min l braceCap) else (n, l)

/-- Nanoseconds of a number of core cycles (R51). -/
def cyclesNs (clk : BitVec 6) (n : Nat) : Nat := ceilDiv (20 * n) clk.toNat

/-- The array after it has streamed `passes` passes of `s` cycles for a tile-op of level `level`; `floorWait` is what it
waited at the bank floor and `rest` the cycles of its other stages (Table 04-3). It is held from the tile-op's last cycle
at the level it then has (R124). The bank changes with every pass, and the first pass after reset receives in bank 1
(log entry 135). -/
def DenseArray.afterOp (a : DenseArray) (k : Core) (now : BitVec 64) (op : BitVec 16)
    (level passes s floorWait rest : Nat) : DenseArray :=
  let l := workLevel k a level
  let (cyc, l') := streamCycles k.brace (passes * s) l level
  let ends := maxU now a.idleSince
    + BitVec.ofNat 64 (cyclesNs k.clock (46 * (l - a.level.toNat) + cyc + floorWait + rest))
  { a with
    op := op
    pass := BitVec.ofNat 6 (passes - 1)
    bank := a.bank != (passes % 2 == 1)
    braced := k.brace
    ballast := satAdd a.ballast (heldCycles k a now)
    wakes := if a.level.toNat < l then satAdd a.wakes 1 else a.wakes
    floor := satAdd a.floor floorWait
    busy := a.busy + BitVec.ofNat 64 cyc
    bracedCount := if k.brace then satAdd a.bracedCount cyc else a.bracedCount
    level := BitVec.ofNat 7 l'
    target := BitVec.ofNat 7 (max a.target.toNat (max l level))
    hold := true
    idleSince := ends
    state := 2 }

/-- The bank-floor wait: 68 − S cycles a pass (Table 04-3), in a continuation always; elsewhere fewer where the floor finds
no prefill to wait for (R116): how many is not stated, so it is a free value under that bound. -/
def floorWait (s : State) (cont : Bool) (passes len : Nat) : Nat :=
  if 68 ≤ len then 0
  else if cont then passes * (68 - len)
  else (Config.freeWord s.free).toNat % (passes * (68 - len) + 1)

/-- The cycles of the stages of a tile-op beside wake, stream and bank floor (Table 04-3). -/
def restCycles (rows present cols : Nat) (preserve cont : Bool) : Nat :=
  denseCycles rows present cols 0 preserve cont false - ceilDiv cols 128 * ceilDiv present 128 * 68

/-- MATMUL (R95 to R118): a due dense tile-op runs on its array from issue to its last written result. -/
def execMatmul (k : CoreId) (index : Nat) (s : State) : Host.Outcome State Fault Refusal :=
  match dueStream s k index [0x10] with
  | none => .next s
  | some (i, c, e) =>
    let a := mmEngine e.desc
    let ran := s.ranStream i c k index
    if mmEmpty e.desc then
      .next (ran.modCore k fun x => { x with da := x.da.set a { x.da[a] with op := opIndex c k index, ops := satAdd x.da[a].ops 1 } })
    else
      let written := forEach (mmElements e.desc) ran (mmElement k s i c e (drawDesc c k index e.desc))
      let passes := mmPasses e
      let len := mmStreamLen e.desc
      let op := opIndex c k index
      let counted := { written with free := written.free + 1 }
      .next (counted.modCore k fun x => { x with
        da := x.da.set a (if passes = 0 then { x.da[a] with op := op, ops := satAdd x.da[a].ops 1 }
          else { x.da[a].afterOp x s.time op (mmLevel e) passes len (floorWait s (decide (0 < mmKOffset e.desc)) passes len)
                   (restCycles (mmRows e.desc) (mmPresentRows e) (mmCols e.desc) (mmPreserve e.desc)
                     (decide (0 < mmKOffset e.desc))) with
                 ops := satAdd x.da[a].ops 1 }) })

/-- The level towards which the governor moves an array now (R121, R124, R125). -/
def governorTarget (k : Core) (a : DenseArray) : Nat := if k.brace then min a.target.toNat braceCap else a.target.toNat

/-- One governor step of an array (R121): one level towards its target. Ballast fills a ramp without work (R122); while
the array is held, its ballast is counted where the hold ends. -/
def DenseArray.govern (a : DenseArray) (k : Core) : DenseArray :=
  let t := governorTarget k a
  let l := a.level.toNat
  let l' := stepLevel l t
  if l = t then a
  else
    { a with
      level := BitVec.ofNat 7 l'
      ballast := if l < t || a.hold then a.ballast else satAdd a.ballast 46
      state := if l' = 0 then 1 else if a.hold then a.state else 3 }

/-- GOVERNOR_STEP (R121): 46 core cycles have passed, and the governor moves one array by at most one level. -/
def execGovernorStep (k : CoreId) (a : Fin 2) (s : State) : Host.Outcome State Fault Refusal :=
  .next (s.modCore k fun x => { x with da := x.da.set a (x.da[a].govern x) })

/-- An array whose hold has ended after `cycles` of ballast (R124, R125): it ramps down to level 0. -/
def DenseArray.endHold (a : DenseArray) (cycles : Nat) : DenseArray :=
  if a.hold then
    { a with hold := false, target := 0, ballast := satAdd a.ballast cycles, state := if a.level = 0 then 1 else 3 }
  else a

/-- An array whose hold has expired (R124). -/
def DenseArray.expireHold (a : DenseArray) : DenseArray := a.endHold 3600

/-- GOVERNOR_HOLD_EXPIRE (R124): an array without work for 3,600 cycles leaves its ballast hold. -/
def execGovernorHoldExpire (k : CoreId) (a : Fin 2) (s : State) : Host.Outcome State Fault Refusal :=
  .next (s.modCore k fun x => { x with da := x.da.set a x.da[a].expireHold })

end Sys2Proof.Machine
end

