-- ==== Sys2Proof/Machine/Sparse.lean ====
section
/-! DEFINITION. The gather-merge engines and the Assay unit (chapter 05): SPMM, RAGGED, DISPATCH, COMBINE, ASSAY. -/

namespace Sys2Proof.Machine

/-! ### The SPMM and RAGGED descriptor (Table 05-4) -/

def gmEngine (d : BitVec 512) : Fin 2 := if bit d 8 then 1 else 0
def gmPartner (d : BitVec 512) : Fin 2 := if bit d 9 then 1 else 0
def gmStochastic (d : BitVec 512) : Bool := bit d 10
def gmFmtA (d : BitVec 512) : Nat := fldN d 11 3
def gmFmtB (d : BitVec 512) : Nat := fldN d 14 3
def gmFmtC (d : BitVec 512) : Nat := fldN d 17 3
def gmWeaveB (d : BitVec 512) : Bool := bit d 20
def gmTurnB (d : BitVec 512) : Bool := bit d 21
def gmTurnA (d : BitVec 512) : Bool := bit d 22
def gmCols (d : BitVec 512) : Nat := fldN d 32 11
def gmRows (d : BitVec 512) : Nat := fldN d 48 16
def gmKLen (d : BitVec 512) : Nat := fldN d 64 20
def gmKOffset (d : BitVec 512) : Nat := fldN d 84 20
def gmStream (d : BitVec 512) : BitVec 24 := fld d 104 24
def gmA (d : BitVec 512) : Nat := fldN d 128 48
def gmFirstTile (d : BitVec 512) : Nat := fldN d 176 16
def gmB (d : BitVec 512) : Nat := fldN d 192 48
def gmC (d : BitVec 512) : Nat := fldN d 256 48
def gmStrideA (d : BitVec 512) : Nat := fldN d 320 32
def gmStrideB (d : BitVec 512) : Nat := fldN d 352 32
def gmStrideC (d : BitVec 512) : Nat := fldN d 384 32
def gmLens (d : BitVec 512) : Nat := fldN d 416 48
def gmTensorA (d : BitVec 512) : Nat := fldN d 464 16
def gmTensorB (d : BitVec 512) : Nat := fldN d 480 16
def gmTensorC (d : BitVec 512) : Nat := fldN d 496 16

/-- The chunk length of the pair of a GME tile-op. -/
def gmChunk (d : BitVec 512) : Nat := chunkLen (arithFmt (gmFmtA d)) (arithFmt (gmFmtB d))

def gmOperandB (c : Charter) (d : BitVec 512) : WeaveOperand :=
  ⟨c.tensor (gmTensorB d), gmB d, gmStrideB d, gmWeaveB d, !gmTurnB d⟩

/-! ### Sparse tensors (R130 to R136) -/

/-- One form of a sparse tensor: its rows, K width, TK, CAP16, slot base and directory base, and the byte width of the
tensor's format (R130, R131). -/
structure SparseForm where
  rows : Nat
  kdim : Nat
  tk : Nat
  cap16 : Nat
  slotBase : Nat
  dirBase : Nat
  size : Nat
  deriving DecidableEq, Repr

/-- The row form or the turned form of a sparse tensor (R130, Table 12-5). -/
def sparseForm (c : Charter) (t : BitVec 512) (turned : Bool) : SparseForm :=
  let e := c.sparseExt t
  let size := tSize t / 2
  if turned then ⟨tN t 0, tN t 1, fldN e 128 16, fldN e 144 5, fldN e 160 48, fldN e 208 48, size⟩
  else ⟨tN t 1, tN t 0, fldN e 0 16, fldN e 16 5, fldN e 32 48, fldN e 80 48, size⟩

/-- Round up to 64 (R132). -/
def roundUp64 (n : Nat) : Nat := 64 * ceilDiv n 64

/-- Slot size (R131). -/
def SparseForm.slot (f : SparseForm) : Nat := 128 * f.tk * f.size + 16 * f.tk

/-- K blocks of the form (R131). -/
def SparseForm.kt (f : SparseForm) : Nat := ceilDiv f.kdim f.tk

/-- Row count of the tiles of row block `rt` (R130). -/
def SparseForm.tileRows (f : SparseForm) (rt : Nat) : Nat := min 128 (f.rows - 128 * rt)

/-- K width of the tiles of K block `kb` (R130). -/
def SparseForm.tileK (f : SparseForm) (kb : Nat) : Nat := min f.tk (f.kdim - f.tk * kb)

/-- The bound on stored positions (R130). -/
def SparseForm.cap (f : SparseForm) (rows klen : Nat) : Nat := ceilDiv (rows * klen * f.cap16) 16

def SparseForm.slotAddr (f : SparseForm) (ix : Nat) : Nat := f.slotBase + ix * f.slot
def SparseForm.dirAddr (f : SparseForm) (ix : Nat) : Nat := f.dirBase + 16 * ix

/-- The directory entry of a tile (R134). -/
def dirEntry (s : State) (i : Stall) (f : SparseForm) (ix : Nat) : BitVec 128 :=
  BitVec.ofNat 128 (s.readNat i (f.dirAddr ix) 16)

def dirForm (e : BitVec 128) : Nat := fldN e 0 2
def dirHeavyCount (e : BitVec 128) : Nat := fldN e 2 3
def dirNnz (e : BitVec 128) : Nat := fldN e 8 22
def dirHeavy (e : BitVec 128) (k : Nat) : Nat := fldN e (32 + 8 * k) 7

/-- A tile as it is read: for each of 128 rows its stored positions, as (K index in the tile, code). -/
abbrev TileRows := List (List (Nat × Nat))

/-- The rows of a CSR tile (R132). -/
def csrRows (s : State) (i : Stall) (f : SparseForm) (slot nnz : Nat) : TileRows :=
  (List.range 128).map fun r =>
    let a := s.readNat i (slot + 4 * r) 4
    let b := s.readNat i (slot + 4 * (r + 1)) 4
    (List.range (min (b - a) nnz)).map fun j =>
      (s.readNat i (slot + 576 + 2 * (a + j)) 2, s.readNat i (slot + 576 + roundUp64 (2 * nnz) + f.size * (a + j)) f.size)

/-- The rows of a DENSE tile (R131): an A-weave and its position mask plane. -/
def denseRows (s : State) (i : Stall) (f : SparseForm) (slot : Nat) : TileRows :=
  (List.range 128).map fun r =>
    (List.range f.tk).filterMap fun k =>
      let off := r * 16 + k % 16
      let m := slot + 128 * f.tk * f.size + k / 16 * 256 + off / 8
      if (s.readVa i m).getLsbD (off % 8) then
        some (k, s.readNat i (slot + weaveOffset (2 * f.size) 0 r k / 2) f.size)
      else none

/-- The tile's rows by its form. -/
def tileRows (s : State) (i : Stall) (f : SparseForm) (ix : Nat) : TileRows :=
  let e := dirEntry s i f ix
  if dirForm e = 1 then denseRows s i f (f.slotAddr ix)
  else if dirForm e = 2 then csrRows s i f (f.slotAddr ix) (dirNnz e)
  else List.replicate 128 []

/-- The form that R133 gives a tile of `nnz` stored positions: 0 EMPTY, 1 DENSE, 2 CSR. -/
def formFor (f : SparseForm) (nnz : Nat) : Nat :=
  if nnz = 0 then 0
  else if 576 + roundUp64 (2 * nnz) + roundUp64 (f.size * nnz) < f.slot then 2 else 1

/-- The heavy rows of a tile from its row counts (R135). -/
def heavyRows (counts : List Nat) : List Nat :=
  let n := counts.sum
  (List.range counts.length).filter fun r => decide (n < 8 * counts.getD r 0)

/-- Do the indices increase strictly? -/
def increasing : List Nat → Bool
  | a :: b :: l => decide (a < b) && increasing (b :: l)
  | _ => true

/-- Is a tile malformed (R136)? -/
def malformed (s : State) (i : Stall) (f : SparseForm) (ix rows klen : Nat) : Bool :=
  let e := dirEntry s i f ix
  let t := tileRows s i f ix
  let slot := f.slotAddr ix
  let counts := t.map List.length
  let ptr (r : Nat) := s.readNat i (slot + 4 * r) 4
  dirForm e == 3 || dirForm e != formFor f (dirNnz e) || decide (f.cap rows klen < dirNnz e)
    || (dirForm e == 2 && (!(List.range 128).all (fun r => decide (ptr r ≤ ptr (r + 1))) || ptr 0 != 0
          || ptr 128 != dirNnz e))
    || (dirForm e == 1 && counts.sum != dirNnz e)
    || (dirForm e != 0 && ((t.drop rows).any (fun l => !l.isEmpty)
          || t.any fun l => !increasing (l.map Prod.fst) || l.any fun p => decide (klen ≤ p.1)))
    || heavyRows counts != (List.range (dirHeavyCount e)).map (dirHeavy e)

/-! ### Segments (R143) -/

/-- The number of segments of a heavy row from the stored counts of its chunks. -/
def segCount (limit : Nat) : List Nat → Option Nat → Nat
  | [], none => 0
  | [], some _ => 1
  | n :: l, none => if n = 0 then segCount limit l none else segCount limit l (some n)
  | n :: l, some m => if m + n ≤ limit then segCount limit l (some (m + n))
      else if n = 0 then 1 + segCount limit l none else 1 + segCount limit l (some n)

/-- Stored positions per chunk of a row. -/
def chunkCounts (c klen : Nat) (row : List (Nat × Nat)) : List Nat :=
  (List.range (ceilDiv klen c)).map fun j => (row.filter fun p => p.1 / c == j).length

/-- Segments that a tile's heavy rows are split into. -/
def tileSegments (c klen : Nat) (t : TileRows) : Nat :=
  let n := (t.map List.length).sum
  ((heavyRows (t.map List.length)).map fun r => segCount (ceilDiv n 32) (chunkCounts c klen (t.getD r [])) none).sum

/-! ### SPMM (R137 to R144) -/

/-- Where the chooser sends a tile (R137): 0 no engine, 1 the partner array, 2 the GME. -/
def chooseTile (threshold : Nat) (e : BitVec 128) (rows klen : Nat) : Nat :=
  if dirForm e = 1 then 1
  else if dirForm e = 2 then (if threshold * rows * klen ≤ dirNnz e * 1000 then 1 else 2)
  else 0

/-- The value of a stored code of operand A at row `r` and K position `k` of the form that the tile-op reads: codes expand
to H16 (R84, R86). -/
def sparseVal (s : State) (i : Stall) (t : BitVec 512) (turned : Bool) (r k code : Nat) : Val :=
  decodeVal (tArith t) (expandCode s i t (if turned then [r, k, 0, 0, 0, 0] else [k, r, 0, 0, 0, 0]) code)

/-- The products of one row of a tile with column `n`: stored positions only (R90). -/
def rowProducts (s : State) (i : Stall) (c : Charter) (b : WeaveOperand) (value : Nat → Nat → Val) (row : List (Nat × Nat))
    (klen base n : Nat) : List (Option (Val × Val)) :=
  (List.range klen).map fun k =>
    match lookupKey k row with
    | some code => some (value k code, woVal s i c b n (base + k))
    | none => none

/-- The value of an element after the tiles of K blocks `kbs` (R139): a malformed tile gives NaN (R136). -/
def spmmValue (s : State) (i : Stall) (c : Charter) (d : BitVec 512) (f : SparseForm) (rt r n : Nat) (init : Word)
    (kbs : List Nat) : Word :=
  kbs.foldl (fun acc kb =>
    let ix := rt * f.kt + kb
    let klen := f.tileK kb
    if malformed s i f ix (f.tileRows rt) klen then rne32 .nan
    else reference (gmChunk d) acc
      (rowProducts s i c (gmOperandB c d)
        (fun k => sparseVal s i (c.tensor (gmTensorA d)) (gmTurnA d) (128 * rt + r) (kb * f.tk + k))
        ((tileRows s i f ix).getD r []) klen (kb * f.tk - gmKOffset d) n)) init

/-- The address of a destination element in the ROWS layout (R111). -/
def gmDest (d : BitVec 512) (f : Fmt) (r n : Nat) : Nat := gmC d + r * gmStrideC d + n * fmtBytes f

/-- Store one result of a GME tile-op; it draws with the index of the element that the descriptor `o` stores (R180). -/
def gmStore (k : CoreId) (s0 : State) (i : Stall) (c : Charter) (d o : BitVec 512) (s : State) (r n : Nat) (v : Word) : State :=
  let f := arithFmt (gmFmtC d)
  let ten := c.tensor (gmTensorC d)
  let a := gmDest d f r n
  s.storeElem (.core k) i c ten a f (storeCode (s0.stall i) ten f (gmStochastic d) (gmStream d) (gmDest o f r n) v)

/-- The initial value of an element (R91). -/
def gmInit (s : State) (i : Stall) (d : BitVec 512) (r n : Nat) : Word :=
  if gmKOffset d = 0 then 0 else BitVec.ofNat 32 (s.readNat i (gmDest d (arithFmt (gmFmtC d)) r n) 4)

/-- The K blocks of an SPMM (R139). -/
def spmmBlocks (d : BitVec 512) (f : SparseForm) : List Nat :=
  (List.range (ceilDiv (gmKLen d) f.tk)).map fun j => gmKOffset d / f.tk + j

/-- The tiles of an SPMM, row block by row block, in increasing K. -/
def spmmTiles (d : BitVec 512) (f : SparseForm) : List (Nat × Nat) :=
  (List.range (gmRows d)).flatMap fun j => (spmmBlocks d f).map fun kb => (gmFirstTile d + j, kb)

/-- Every element of an SPMM. -/
def spmmElements (d : BitVec 512) (f : SparseForm) : List (Nat × Nat × Nat) :=
  (List.range (gmRows d)).flatMap fun j =>
    (List.range (f.tileRows (gmFirstTile d + j))).flatMap fun r => (List.range (gmCols d)).map fun n => (j, r, n)

/-- What a tile does to the counters of its core: the chooser's count, heavy rows and segments on the GME, malformed
tiles, and the partner array's stream (Tables 04-6, 05-9). -/
def spmmCount (s : State) (i : Stall) (d : BitVec 512) (f : SparseForm) (op : BitVec 16) (k : Core) (t : Nat × Nat) :
    Core :=
  let ix := t.1 * f.kt + t.2
  let rows := f.tileRows t.1
  let klen := f.tileK t.2
  let e := dirEntry s i f ix
  let bad := malformed s i f ix rows klen
  let way := chooseTile k.chooser.toNat e rows klen
  let g := gmEngine d
  let tr := tileRows s i f ix
  let k1 := { k with
    toDense := if way = 1 then satAdd k.toDense 1 else k.toDense
    toGme := if way = 2 then satAdd k.toGme 1 else k.toGme
    gme := k.gme.set g { k.gme[g] with
      tile := BitVec.ofNat 10 ix
      heavy := if way = 2 && !bad then satAdd k.gme[g].heavy (heavyRows (tr.map List.length)).length else k.gme[g].heavy
      segs := if way = 2 && !bad then satAdd k.gme[g].segs (tileSegments (gmChunk d) klen tr) else k.gme[g].segs
      malformed := if bad then satAdd k.gme[g].malformed 1 else k.gme[g].malformed } }
  if way = 1 && !bad then
    let p := gmPartner d
    let len := (if arithFmt (gmFmtA d) = .f32 then 64 else 16) * ceilDiv klen 16
    let passes := ceilDiv (gmCols d) 128
    { k1 with da := k1.da.set p (k1.da[p].afterOp k1 s.time op (denseLevel rows (gmCols d)) passes len
        (floorWait s false passes len) (restCycles rows rows (gmCols d) true false)) }
  else k1

/-- A GME after a tile-op: completed, and idle until the next. Where its lanes worked, the cycles in which a lane
multiplied and those spent waiting on a queue are not determined by the spec (R141, Table 05-9) and advance by free
values. -/
def Gme.afterOp (g : Gme) (s : State) (op : BitVec 16) (lanes : Bool) : Gme :=
  { g with
    op := op, state := 1, ops := satAdd g.ops 1
    busy := if lanes then g.busy + Config.freeLong s.free else g.busy
    qwait := if lanes then satAdd g.qwait (Config.freeWord (s.free + 1)).toNat else g.qwait }

/-- A fault record of a GME (Table 05-8), with the physical core as its unit: no march stops. -/
def State.sparseRecord (s : State) (i : Stall) (k : CoreId) (reason : Reason) (detail : Nat) : State :=
  s.record { reason := reason, cls := clsInfo, stall := some i, kind := 1
             unit := s.unitOfCore k, detail := BitVec.ofNat 32 detail }

/-- SPMM (R137 to R146). -/
def execSpmm (k : CoreId) (index : Nat) (s : State) : Host.Outcome State Fault Refusal :=
  match dueStream s k index [0x20] with
  | none => .next s
  | some (i, c, e) =>
    let d := e.desc
    let ran := s.ranStream i c k index
    let op := opIndex c k index
    let g := gmEngine d
    if gmRows d = 0 || gmCols d = 0 || gmKLen d = 0 then
      .next (ran.modCore k fun x => { x with gme := x.gme.set g { x.gme[g] with op := op, ops := satAdd x.gme[g].ops 1 } })
    else
      let f := sparseForm c (c.tensor (gmTensorA d)) (gmTurnA d)
      let written := forEach (spmmElements d f) ran fun s1 (j, r, n) =>
        gmStore k s i c d (drawDesc c k index d) s1 (128 * j + r) n
          (spmmValue s i c d f (gmFirstTile d + j) r n (gmInit s i d (128 * j + r) n) (spmmBlocks d f))
      let counted := written.modCore k fun x => (spmmTiles d f).foldl (spmmCount s i d f op) x
      let bad := (spmmTiles d f).filter fun t => malformed s i f (t.1 * f.kt + t.2) (f.tileRows t.1) (f.tileK t.2)
      let noted := forEach bad counted fun s1 t => s1.sparseRecord i k 0x0B06 (t.1 * f.kt + t.2)
      let lanes := (spmmTiles d f).any fun t => !bad.contains t && chooseTile (s.core k).chooser.toNat
        (dirEntry s i f (t.1 * f.kt + t.2)) (f.tileRows t.1) (f.tileK t.2) == 2
      .next ({ noted with free := noted.free + 2 }.modCore k fun x =>
        { x with gme := x.gme.set g (x.gme[g].afterOp s op lanes) })

/-! ### RAGGED (R147) -/

/-- The present positions of row `r` (R147). -/
def raggedLen (s : State) (i : Stall) (d : BitVec 512) (r : Nat) : Nat :=
  min (s.readNat i (gmLens d + 4 * r) 4) (gmKOffset d + gmKLen d) - gmKOffset d

/-- The products of row `r` with column `n`. -/
def raggedProducts (s : State) (i : Stall) (c : Charter) (d : BitVec 512) (r n : Nat) : List (Option (Val × Val)) :=
  let ta := c.tensor (gmTensorA d)
  let len := raggedLen s i d r
  (List.range (gmKLen d)).map fun k =>
    if k < len then
      let pos := 2 * (gmA d + r * gmStrideA d) + k * tSize ta
      let x := (coordsOf ta pos).getD [k, r, 0, 0, 0, 0]
      let code := if atPad c ta x then padValue (c.padExt ta) % 2 ^ (4 * tSize ta) else readCode s i pos (tSize ta)
      some (decodeVal (tArith ta) (expandCode s i ta x code), woVal s i c (gmOperandB c d) n k)
    else none

/-- The rows of a block of 128 as a tile of present positions, for heaviness and segments. -/
def raggedTile (s : State) (i : Stall) (d : BitVec 512) (blk : Nat) : TileRows :=
  (List.range (min 128 (gmRows d - 128 * blk))).map fun r =>
    (List.range (raggedLen s i d (128 * blk + r))).map fun k => (k, 0)

/-- RAGGED (R147): rows of unequal length, always on the GME. -/
def execRagged (k : CoreId) (index : Nat) (s : State) : Host.Outcome State Fault Refusal :=
  match dueStream s k index [0x21] with
  | none => .next s
  | some (i, c, e) =>
    let d := e.desc
    let ran := s.ranStream i c k index
    let op := opIndex c k index
    let g := gmEngine d
    if gmRows d = 0 || gmCols d = 0 || gmKLen d = 0 then
      .next (ran.modCore k fun x => { x with gme := x.gme.set g { x.gme[g] with op := op, ops := satAdd x.gme[g].ops 1 } })
    else
      let elems := (List.range (gmRows d)).flatMap fun r => (List.range (gmCols d)).map fun n => (r, n)
      let written := forEach elems ran fun s1 (r, n) =>
        gmStore k s i c d (drawDesc c k index d) s1 r n (reference (gmChunk d) (gmInit s i d r n) (raggedProducts s i c d r n))
      let blks := List.range (ceilDiv (gmRows d) 128)
      let heavy := (blks.map fun b => (heavyRows ((raggedTile s i d b).map List.length)).length).sum
      let segs := (blks.map fun b => tileSegments (gmChunk d) (gmKLen d) (raggedTile s i d b)).sum
      .next ({ written with free := written.free + 2 }.modCore k fun x =>
        { x with gme := x.gme.set g { x.gme[g].afterOp s op ((List.range (gmRows d)).any fun r => 0 < raggedLen s i d r) with
            heavy := satAdd x.gme[g].heavy heavy, segs := satAdd x.gme[g].segs segs
            tile := BitVec.ofNat 10 (blks.length - 1) } })

/-! ### DISPATCH and COMBINE (R149 to R153, Table 05-5) -/

def dpSpill (d : BitVec 512) : Bool := bit d 9
def dpFmt (d : BitVec 512) : Nat := fldN d 10 3
def dpTopk (d : BitVec 512) : Nat := fldN d 16 4
def dpTokens (d : BitVec 512) : Nat := fldN d 32 20
def dpDests (d : BitVec 512) : Nat := fldN d 64 16
def dpSlots (d : BitVec 512) : Nat := fldN d 80 16
def dpMain (d : BitVec 512) : Nat := fldN d 96 16
def dpRowLen (d : BitVec 512) : Nat := fldN d 112 16
def dpRoute (d : BitVec 512) : Nat := fldN d 128 48
def dpSrc (d : BitVec 512) : Nat := fldN d 192 48
def dpDst (d : BitVec 512) : Nat := fldN d 256 48
def dpVerdict (d : BitVec 512) : Nat := fldN d 320 48
def dpWeight (d : BitVec 512) : Nat := fldN d 384 48
def dpLink (d : BitVec 512) : Nat := fldN d 448 16
def dpTensorSrc (d : BitVec 512) : Nat := fldN d 464 16
def dpTensorDst (d : BitVec 512) : Nat := fldN d 480 16

/-- Empty under R14 (Table 05-7). -/
def dpEmpty (d : BitVec 512) : Bool :=
  dpTokens d == 0 || dpTopk d == 0 || dpSlots d == 0 || dpDests d == 0 || dpRowLen d == 0

/-- Entries of the router list. -/
def dpCount (d : BitVec 512) : Nat := dpTokens d * dpTopk d

/-- A router entry: SCORE and DEST (R149). -/
structure RouterEntry where
  score : Val
  dest : Nat

/-- The router list. -/
def routerList (s : State) (i : Stall) (d : BitVec 512) : List RouterEntry :=
  (List.range (dpCount d)).map fun n =>
    ⟨decodeVal .f32 (s.readNat i (dpRoute d + 8 * n) 4), s.readNat i (dpRoute d + 8 * n + 4) 2⟩

/-- Does an entry of lower k of the same token name the same destination (R150)? -/
def duplicated (l : List RouterEntry) (topk n : Nat) : Bool :=
  (List.range (n % topk)).any fun k =>
    match l[n / topk * topk + k]?, l[n]? with
    | some a, some b => a.dest == b.dest
    | _, _ => false

/-- Is an entry ranked, that is, not refused by rules 1 to 3 of R150? -/
def ranked (l : List RouterEntry) (dests topk n : Nat) : Bool :=
  match l[n]? with
  | some e => decide (e.dest < dests) && !isNan e.score && !duplicated l topk n
  | none => false

/-- The rank of an entry within its destination: descending score, ties to the lower index (R150). -/
def rankOf (l : List RouterEntry) (dests topk n : Nat) : Nat :=
  match l[n]? with
  | none => 0
  | some e => ((List.range l.length).filter fun m =>
      match l[m]? with
      | some f => ranked l dests topk m && f.dest == e.dest
          && (ltVal e.score f.score || (!ltVal f.score e.score && decide (m < n)))
      | none => false).length

/-- The verdict of an entry: (verdict, reason, slot) (R150, Table 05-3). -/
def dispatchVerdict (l : List RouterEntry) (dests topk slots main n : Nat) : Nat × Reason × Nat :=
  match l[n]? with
  | none => (2, 0x0B03, 0xFFFF)
  | some e =>
    if dests ≤ e.dest then (2, 0x0B03, 0xFFFF)
    else if isNan e.score then (2, 0x0B04, 0xFFFF)
    else if duplicated l topk n then (2, 0x0B05, 0xFFFF)
    else
      let j := rankOf l dests topk n
      if j < main then (0, 0, j)
      else if j < slots then (1, 0, j)
      else (2, if main = slots then 0x0B01 else 0x0B02, 0xFFFF)

/-- The verdict list entry (Table 05-3). -/
def verdictEntry (v : Nat × Reason × Nat) (dest : Nat) : BitVec 64 :=
  BitVec.ofNat 16 dest ++ BitVec.ofNat 16 v.2.2 ++ v.2.1 ++ BitVec.ofNat 16 v.1

/-- Bytes of one slot row. -/
def dpRowBytes (d : BitVec 512) : Nat := dpRowLen d * fmtBytes (arithFmt (dpFmt d))

/-- The address of a slot (R151). -/
def slotAddr (d : BitVec 512) (base dest slot : Nat) : Nat := base + (dest * dpSlots d + slot) * dpRowBytes d

/-- Store the row of a slot, element by element, at the positions that are no pad position (R197). -/
def slotRow (k : CoreId) (i : Stall) (c : Charter) (d : BitVec 512) (s : State) (dest slot : Nat) (value : Nat → Nat) : State :=
  let f := arithFmt (dpFmt d)
  forEach (List.range (dpRowLen d)) s fun s x =>
    s.storeElem (.core k) i c (c.tensor (dpTensorDst d)) (slotAddr d (dpDst d) dest slot + x * fmtBytes f) f (value x)

/-- Copy the row of token `t` into a slot, code for code; a pad position of the source gives PAD_VALUE (R197). -/
def copyRow (k : CoreId) (s0 : State) (i : Stall) (c : Charter) (d : BitVec 512) (s : State) (t dest slot : Nat) : State :=
  slotRow k i c d s dest slot fun x =>
    codeAt s0 i c (c.tensor (dpTensorSrc d)) (dpSrc d + t * dpRowBytes d + x * fmtBytes (arithFmt (dpFmt d)))

/-- DISPATCH, main pass (R150, R151, R152). -/
def execDispatchMain (k : CoreId) (index : Nat) (s : State) : Host.Outcome State Fault Refusal :=
  match dueStream s k index [0x22] with
  | none => .next s
  | some (i, c, e) =>
    let d := e.desc
    if dpSpill d then .next s else
    let ran := s.ranStream i c k index
    let op := opIndex c k index
    let g := gmEngine d
    if dpEmpty d then
      .next (ran.modCore k fun x => { x with gme := x.gme.set g { x.gme[g] with op := op, ops := satAdd x.gme[g].ops 1 } })
    else
      let l := routerList s i d
      let vs := (List.range (dpCount d)).map (dispatchVerdict l (dpDests d) (dpTopk d) (dpSlots d) (dpMain d))
      let destOf (n : Nat) := match l[n]? with | some e => e.dest | none => 0
      let took (dest slot : Nat) : Bool := (List.range vs.length).any fun n =>
        destOf n == dest && (match vs[n]? with | some v => decide (v.1 < 2) && v.2.2 == slot | none => false)
      let served := forEach (List.range vs.length) ran fun s1 n =>
        match vs[n]? with
        | some v => if v.1 = 0 then copyRow k s i c d s1 (n / dpTopk d) (destOf n) v.2.2 else s1
        | none => s1
      let slots := (List.range (dpDests d)).flatMap fun a => (List.range (dpSlots d)).map fun b => (a, b)
      let zeroed := forEach slots served fun s1 (a, b) =>
        if took a b then s1 else slotRow k i c d s1 a b fun _ => 0
      let listed := forEach (List.range vs.length) zeroed fun s1 n =>
        s1.store (.core k) i (dpVerdict d + 8 * n) (leBytes 8 (verdictEntry (vs.getD n (2, 0, 0)) (destOf n)))
      let filled := forEach (List.range (dpDests d)) listed fun s1 a =>
        let n := ((List.range vs.length).filter fun m => ranked l (dpDests d) (dpTopk d) m && destOf m == a).length
        let mf := min n (dpMain d)
        let sf := min n (dpSlots d) - mf
        s1.store (.core k) i (dpVerdict d + 8 * dpCount d + 4 * a) (leBytes 4 (BitVec.ofNat 16 sf ++ BitVec.ofNat 16 mf))
      let nr := (vs.filter fun v => v.1 == 2).length
      let nd := (vs.filter fun v => v.1 == 1).length
      .next ({ filled with free := filled.free + 2 }.modCore k fun x =>
        { x with gme := x.gme.set g { x.gme[g].afterOp s op false with tile := BitVec.ofNat 10 (dpDests d - 1) }
                 refused := satAdd x.refused nr, deferred := satAdd x.deferred nd })

/-- An entry of a verdict list as it is read: (verdict, slot, dest). -/
def readVerdict (s : State) (i : Stall) (addr n : Nat) : Nat × Nat × Nat :=
  let b := BitVec.ofNat 64 (s.readNat i (addr + 8 * n) 8)
  (fldN b 0 2, fldN b 32 16, fldN b 48 16)

/-- The address of the verdict list of the linked main pass (R151, R153). -/
def linkVerdict (c : Charter) (k : CoreId) (d : BitVec 512) : Nat :=
  match (c.stream k)[dpLink d]? with
  | some e => dpVerdict e.desc
  | none => 0

/-- The first index of a list whose item satisfies a test. -/
def firstIndex (n : Nat) (p : Nat → Bool) : Option Nat := (List.range n).find? p

/-- DISPATCH, spill pass (R151): each DEFERRED entry in range is copied into its slot; a DEFERRED entry out of range, one
that names a slot again, and one of verdict 3 are counted and BAD_DEST is recorded once (log entry 8). -/
def execDispatchSpill (k : CoreId) (index : Nat) (s : State) : Host.Outcome State Fault Refusal :=
  match dueStream s k index [0x22] with
  | none => .next s
  | some (i, c, e) =>
    let d := e.desc
    if !dpSpill d then .next s else
    let ran := s.ranStream i c k index
    let op := opIndex c k index
    let g := gmEngine d
    if dpEmpty d then
      .next (ran.modCore k fun x => { x with gme := x.gme.set g { x.gme[g] with op := op, ops := satAdd x.gme[g].ops 1 } })
    else
      let va := linkVerdict c k d
      let l := (List.range (dpCount d)).map (readVerdict s i va)
      let inRange (v : Nat × Nat × Nat) : Bool :=
        v.1 == 1 && decide (v.2.2 < dpDests d) && decide (dpMain d ≤ v.2.1) && decide (v.2.1 < dpSlots d)
      let firstOf (n : Nat) : Bool := match l[n]? with
        | some v => inRange v && firstIndex l.length (fun m => (l.getD m (2, 0, 0)) == v) == some n
        | none => false
      let copied := forEach (List.range l.length) ran fun s1 n =>
        if firstOf n then copyRow k s i c d s1 (n / dpTopk d) (l.getD n (0, 0, 0)).2.2 (l.getD n (0, 0, 0)).2.1 else s1
      let bad := ((List.range l.length).filter fun n =>
        match l[n]? with | some v => (v.1 == 1 && !firstOf n) || v.1 == 3 | none => false).length
      let noted := if bad = 0 then copied else copied.sparseRecord i k 0x0B03 bad
      .next ({ noted with free := noted.free + 2 }.modCore k fun x =>
        { x with gme := x.gme.set g { x.gme[g].afterOp s op false with
            malformed := satAdd x.gme[g].malformed bad, tile := BitVec.ofNat 10 (dpDests d - 1) } })

/-- COMBINE (R153). -/
def execCombine (k : CoreId) (index : Nat) (s : State) : Host.Outcome State Fault Refusal :=
  match dueStream s k index [0x23] with
  | none => .next s
  | some (i, c, e) =>
    let d := e.desc
    let ran := s.ranStream i c k index
    let op := opIndex c k index
    let g := gmEngine d
    if dpEmpty d then
      .next (ran.modCore k fun x => { x with gme := x.gme.set g { x.gme[g] with op := op, ops := satAdd x.gme[g].ops 1 } })
    else
      let va := linkVerdict c k d
      let f := arithFmt (dpFmt d)
      let l := (List.range (dpCount d)).map (readVerdict s i va)
      let inRange (v : Nat × Nat × Nat) : Bool :=
        decide (v.1 < 2) && decide (v.2.2 < dpDests d) && decide (v.2.1 < dpSlots d)
      let holder (a b : Nat) : Option Nat := firstIndex l.length fun n =>
        let v := l.getD n (2, 0, 0)
        inRange v && v.2.2 == a && v.2.1 == b
      let slots := (List.range (dpDests d)).flatMap fun a => (List.range (dpSlots d)).map fun b => (a, b)
      let added := forEach slots ran fun s1 (a, b) =>
        match holder a b with
        | none => s1
        | some n =>
          let w := BitVec.ofNat 32 (s.readNat i (dpWeight d + 4 * n) 4)
          forEach (List.range (dpRowLen d)) s1 fun s2 x =>
            let y := toF32 f (codeAt s i c (c.tensor (dpTensorSrc d)) (slotAddr d (dpSrc d) a b + x * fmtBytes f))
            let o := dpDst d + (n / dpTopk d) * dpRowLen d * 4 + 4 * x
            let td := c.tensor (dpTensorDst d)
            s2.storeElem (.core k) i c td o .f32 (fma32 w y (BitVec.ofNat 32 (codeAt (s2.seen (.core k)) i c td o))).toNat
      let bad := ((List.range l.length).filter fun n =>
        let v := l.getD n (2, 0, 0)
        v.1 == 3 || (decide (v.1 < 2) && (!inRange v || holder v.2.2 v.2.1 != some n))).length
      let noted := if bad = 0 then added else added.sparseRecord i k 0x0B03 bad
      .next ({ noted with free := noted.free + 2 }.modCore k fun x =>
        { x with gme := x.gme.set g { x.gme[g].afterOp s op true with
            malformed := satAdd x.gme[g].malformed bad, tile := BitVec.ofNat 10 (dpDests d - 1) } })

/-! ### ASSAY (R155 to R157, Table 05-6) -/

def asG (d : BitVec 512) : Nat := 4 * 2 ^ fldN d 9 2
def asKeep (d : BitVec 512) : Nat := fldN d 11 4
def asTurned (d : BitVec 512) : Bool := bit d 15
def asPeriod (d : BitVec 512) : Nat := fldN d 32 16
def asPhase (d : BitVec 512) : Nat := fldN d 48 16
def asFirstRow (d : BitVec 512) : Nat := fldN d 64 16
def asRowTiles (d : BitVec 512) : Nat := fldN d 80 16
def asFirstK (d : BitVec 512) : Nat := fldN d 96 16
def asKTiles (d : BitVec 512) : Nat := fldN d 112 16
def asTensorW (d : BitVec 512) : Nat := fldN d 464 16
def asTensorS (d : BitVec 512) : Nat := fldN d 480 16

/-- a ranks above b in the order of R156: a NaN above every number, larger magnitude first. -/
def assayAbove (a b : Val) : Bool :=
  if isNan a then !isNan b else if isNan b then false else ltVal (absVal b) (absVal a)

/-- The kept positions of a row of weights in an assay march (R156): in each group the KEEP positions that fewer than
KEEP others precede. -/
def assayKept (g keep : Nat) (row : List Val) (k : Nat) : Bool :=
  let lo := k / g * g
  let v := row.getD k .nan
  decide (((List.range (min g (row.length - lo))).filter fun j =>
    let w := row.getD (lo + j) .nan
    assayAbove w v || (!assayAbove v w && decide (lo + j < k))).length < keep)

/-- The bytes of a CSR tile (R132), as (address offset, byte list) pieces. -/
def csrBytes (f : SparseForm) (rows : TileRows) : List (Nat × List Byte) :=
  let nnz := (rows.map List.length).sum
  let ptrs := (List.range 129).map fun r => ((rows.take r).map List.length).sum
  let all := rows.flatMap id
  [(0, ptrs.flatMap fun p => leBytes 4 (BitVec.ofNat 32 p)),
   (576, all.flatMap fun e => leBytes 2 (BitVec.ofNat 16 e.1)),
   (576 + roundUp64 (2 * nnz), all.flatMap fun e => leBytes f.size (BitVec.ofNat (8 * f.size) e.2))]

/-- The bytes of a DENSE tile: the A-weave values of every position and the mask plane. -/
def denseBytes (f : SparseForm) (rows : TileRows) (value : Nat → Nat → Nat) : List (Nat × List Byte) :=
  let vals := (List.range f.tk).flatMap fun k => (List.range 128).map fun r =>
    (weaveOffset (2 * f.size) 0 r k / 2, leBytes f.size (BitVec.ofNat (8 * f.size) (value r k)))
  let plane := (List.range (f.tk / 16)).flatMap fun q => (List.range 256).map fun b =>
    let bits := (List.range 8).map fun j =>
      let off := 8 * b + j
      if (lookupKey (16 * q + off % 16) (rows.getD (off / 16) [])).isSome then 2 ^ j else 0
    (128 * f.tk * f.size + 256 * q + b, [BitVec.ofNat 8 bits.sum])
  vals ++ plane

/-- The directory entry that a writer of a tile must write (R133 to R135, R157). -/
def dirFor (f : SparseForm) (rows : TileRows) (stamp : Nat) : BitVec 128 :=
  let counts := rows.map List.length
  let nnz := counts.sum
  let hv := heavyRows counts
  let heavyBits := ((List.range hv.length).map fun j => hv.getD j 0 * 2 ^ (32 + 8 * j)).sum
  BitVec.ofNat 128 (formFor f nnz + 4 * hv.length + nnz * 2 ^ 8 + heavyBits + stamp * 2 ^ 96)

/-- Write a tile in its form with its directory entry. -/
def State.writeTile (s : State) (k : CoreId) (i : Stall) (f : SparseForm) (ix : Nat) (rows : TileRows) (value : Nat → Nat → Nat)
    (stamp : Nat) : State :=
  let nnz := (rows.map List.length).sum
  let pieces := if formFor f nnz = 2 then csrBytes f rows else if formFor f nnz = 1 then denseBytes f rows value else []
  let s1 := forEach pieces s fun s p => s.store (.core k) i (f.slotAddr ix + p.1) p.2
  s1.store (.core k) i (f.dirAddr ix) (leBytes 16 (dirFor f rows stamp))

/-- The code of a dense weight at row `r` and K position `k` of the row form. -/
def assayCode (s : State) (i : Stall) (c : Charter) (w : BitVec 512) (r k : Nat) : Nat :=
  elemCode s i c w [k, r, 0, 0, 0, 0]

/-- Is a position stored in the new tile: the mask of R156 in an assay march, else the existing mask? -/
def assayMask (s : State) (i : Stall) (c : Charter) (d : BitVec 512) (newMask : Bool) (r k : Nat) : Bool :=
  let w := c.tensor (asTensorW d)
  let f := sparseForm c (c.tensor (asTensorS d)) false
  if newMask then
    assayKept (asG d) (asKeep d) ((List.range f.kdim).map fun j => elemVal s i c w [j, r, 0, 0, 0, 0]) k
  else (lookupKey (k % f.tk) ((tileRows s i f (r / 128 * f.kt + k / f.tk)).getD (r % 128) [])).isSome

/-- ASSAY (R155): a new mask in an assay march, refreshed values in any other; the tiles of the range and their directory
entries are rewritten, and the tiles of the turned form that the range covers. -/
def execAssay (k : CoreId) (index : Nat) (s : State) : Host.Outcome State Fault Refusal :=
  match dueStream s k index [0x24] with
  | none => .next s
  | some (i, c, e) =>
    let d := e.desc
    let ran := s.ranStream i c k index
    if asRowTiles d = 0 || asKTiles d = 0 then .next ran
    else
      let m := (s.stall i).march.num
      let newMask := m.toNat % asPeriod d == asPhase d
      let w := c.tensor (asTensorW d)
      let ts := c.tensor (asTensorS d)
      let f := sparseForm c ts false
      let ft := sparseForm c ts true
      let stamp := m.toNat % 2 ^ 32
      let rowLo := 128 * asFirstRow d
      let rowHi := min f.rows (rowLo + 128 * asRowTiles d)
      let kLo := f.tk * asFirstK d
      let kHi := min f.kdim (kLo + f.tk * asKTiles d)
      let kept (r q : Nat) : Bool :=
        if rowLo ≤ r ∧ r < rowHi ∧ kLo ≤ q ∧ q < kHi then assayMask s i c d newMask r q
        else assayMask s i c d false r q
      let tile (rt kb : Nat) : TileRows := (List.range 128).map fun r =>
        if r < f.tileRows rt then (List.range (f.tileK kb)).filterMap fun q =>
          if kept (128 * rt + r) (f.tk * kb + q) then some (q, assayCode s i c w (128 * rt + r) (f.tk * kb + q)) else none
        else []
      let tiles := (List.range (asRowTiles d)).flatMap fun a => (List.range (asKTiles d)).map fun b =>
        (asFirstRow d + a, asFirstK d + b)
      let written := forEach tiles ran fun s1 (rt, kb) =>
        s1.writeTile k i f (rt * f.kt + kb) (tile rt kb)
          (fun r q => if r < f.tileRows rt ∧ q < f.tileK kb then assayCode s i c w (128 * rt + r) (f.tk * kb + q) else 0) stamp
      let tturn (rt kb : Nat) : TileRows := (List.range 128).map fun r =>
        if r < ft.tileRows rt then (List.range (ft.tileK kb)).filterMap fun q =>
          if kept (ft.tk * kb + q) (128 * rt + r) then some (q, assayCode s i c w (ft.tk * kb + q) (128 * rt + r)) else none
        else []
      let turnTiles := (List.range (ceilDiv ft.rows 128)).flatMap fun a => (List.range ft.kt).map fun b => (a, b)
      let covered := turnTiles.filter fun t =>
        decide (128 * t.1 < kHi) && decide (kLo < 128 * (t.1 + 1)) && decide (ft.tk * t.2 < rowHi) && decide (rowLo < ft.tk * (t.2 + 1))
      let turned := if asTurned d then forEach covered written fun s1 (rt, kb) =>
          s1.writeTile k i ft (rt * ft.kt + kb) (tturn rt kb)
            (fun r q => if r < ft.tileRows rt ∧ q < ft.tileK kb then assayCode s i c w (ft.tk * kb + q) (128 * rt + r) else 0) stamp
        else written
      .next (if newMask then turned.modCore k fun x => { x with assay := m.setWidth 32 } else turned)

end Sys2Proof.Machine
end

