-- ==== Sys2Proof/Machine/VectorOps.lean ====
section
/-! DEFINITION. The vector unit (chapter 06): VMAP, VFUNC, VDERIV, VDROP and VSUM, and function tables (R174, R175). -/

namespace Sys2Proof.Machine

/-! ### The descriptor (Table 06-3) -/

def vuFunc (d : BitVec 512) : Nat := fldN d 8 4
def vuStochastic (d : BitVec 512) : Bool := bit d 12
def vuFmtA (d : BitVec 512) : Nat := fldN d 13 3
def vuFmtB (d : BitVec 512) : Nat := fldN d 16 3
def vuFmtD (d : BitVec 512) : Nat := fldN d 19 3
def vuBits (d : BitVec 512) : Nat := fldN d 22 2
def vuCount (d : BitVec 512) : Nat := fldN d 32 32
def vuScalar0 (d : BitVec 512) : Word := fld d 64 32
def vuScalar1 (d : BitVec 512) : Word := fld d 96 32
def vuA (d : BitVec 512) : Nat := fldN d 128 48
def vuAux (d : BitVec 512) : Nat := fldN d 176 16
def vuB (d : BitVec 512) : Nat := fldN d 192 48
def vuC (d : BitVec 512) : Nat := fldN d 256 48
def vuStream (d : BitVec 512) : BitVec 24 := fld d 304 24
def vuD (d : BitVec 512) : Nat := fldN d 336 48
def vuTensorA (d : BitVec 512) : Nat := fldN d 384 16
def vuTensorB (d : BitVec 512) : Nat := fldN d 400 16
def vuTensorD (d : BitVec 512) : Nat := fldN d 416 16
def vuLink (d : BitVec 512) : Nat := fldN d 432 16

def fmtCode (code : Nat) : Fmt := if code = 1 then .g16 else if code = 2 then .f32 else .h16

/-- Operand a of element `n`, converted to F32 (R170). -/
def vuReadA (s : State) (i : Stall) (d : BitVec 512) (n : Nat) : Word :=
  let f := fmtCode (vuFmtA d)
  toF32 f (s.readNat i (vuA d + n * fmtBytes f) (fmtBytes f))

/-- Operand b of element `n`. -/
def vuReadB (s : State) (i : Stall) (d : BitVec 512) (n : Nat) : Word :=
  let f := fmtCode (vuFmtB d)
  toF32 f (s.readNat i (vuB d + n * fmtBytes f) (fmtBytes f))

/-- Operand c of an FMA, in FMT_B (Table 06-2). -/
def vuReadC (s : State) (i : Stall) (d : BitVec 512) (n : Nat) : Word :=
  let f := fmtCode (vuFmtB d)
  toF32 f (s.readNat i (vuC d + n * fmtBytes f) (fmtBytes f))

/-- The larger of two F32 values (Table 06-2): NaN if either is a NaN; +0 above −0. -/
def max32 (a b : Word) : Word :=
  if isNan (val32 a) || isNan (val32 b) then rne32 .nan
  else if ltVal (val32 a) (val32 b) then b
  else if ltVal (val32 b) (val32 a) then a
  else a &&& b

/-- The smaller of two F32 values. -/
def min32 (a b : Word) : Word :=
  if isNan (val32 a) || isNan (val32 b) then rne32 .nan
  else if ltVal (val32 a) (val32 b) then a
  else if ltVal (val32 b) (val32 a) then b
  else a ||| b

/-- The F32 result of a VMAP element (Table 06-2). -/
def vmapValue (func : Nat) (a b c scalar : Word) : Word :=
  match func with
  | 0 => rne32 (val32 a)
  | 1 => add32 a b
  | 2 => mul32 a b
  | 3 => fma32 a b c
  | 4 => max32 a b
  | 5 => min32 a b
  | _ => mul32 a scalar

/-! ### Tables (R174, R175) -/

/-- A word of a table. -/
def tblWord (t : List Byte) (o : Nat) : Word := BitVec.ofNat 32 (ofLe (slice t o 4))

/-- The segment width exponent. -/
def tblWexp (t : List Byte) : Int := (BitVec.ofNat 8 (ofLe (slice t 4 1))).toInt

/-- floor(v / 2^e) of an exact value. -/
def floorDiv (v : Val) (e : Int) : Int :=
  match v with
  | .fin neg m x =>
    let k := x - e
    if 0 ≤ k then signedMag neg (m <<< k.toNat) else (signedMag neg m).fdiv (2 ^ (-k).toNat)
  | _ => 0

/-- table_eval (R175). -/
def tableEval (t : List Byte) (x : Word) : Word :=
  let v := val32 x
  match v with
  | .nan => rne32 .nan
  | .inf neg =>
    let slope := if neg then tblWord t 8 else tblWord t 16
    let offset := if neg then tblWord t 12 else tblWord t 20
    match val32 slope with
    | .fin sn m _ => if m = 0 then offset else rne32 (.inf (neg != sn))
    | _ => offset
  | .fin _ _ _ =>
    let lo := val32 (tblWord t 0)
    let i := floorDiv (addVal v (negVal lo)) (tblWexp t)
    if i < 0 then fma32 x (tblWord t 8) (tblWord t 12)
    else if 255 < i then fma32 x (tblWord t 16) (tblWord t 20)
    else
      let start := addVal lo (.fin false i.toNat (tblWexp t))
      let u := rne32 (addVal v (negVal start))
      let o := 64 + 12 * i.toNat
      let p := fma32 (tblWord t (o + 8)) u (tblWord t (o + 4))
      fma32 p u (tblWord t o)

/-! ### Running an op -/

/-- Store element `n` of a vector op: the F32 result rounded to FMT_D (R170); a STOCHASTIC one draws with the
index of the element that the descriptor `o` stores (R180). -/
def vuStore (k : CoreId) (s0 : State) (i : Stall) (c : Charter) (d o : BitVec 512) (s : State) (n : Nat) (v : Word) : State :=
  let f := fmtCode (vuFmtD d)
  let ten := c.tensor (vuTensorD d)
  let a := vuD d + n * fmtBytes f
  s.storeElem (.core k) i c ten a f (storeCode (s0.stall i) ten f (vuStochastic d) (vuStream d) (vuD o + n * fmtBytes f) v)

/-- The bit of a plane that belongs to element `n` of an op: that of the element's canonical index in TENSOR_D (R171, R190,
R196). The plane's byte at C_ADDR holds the op's first element (log entry 9). -/
def planeBit (c : Charter) (d : BitVec 512) (n : Nat) : Nat × Nat :=
  let t := c.tensor (vuTensorD d)
  let e := elemIndexAt t (vuD d + n * fmtBytes (fmtCode (vuFmtD d)))
  (vuC d + e / 8 - elemIndexAt t (vuD d) / 8, e % 8)

/-- vector_cost (R173). -/
def vectorCost (d : BitVec 512) : Nat :=
  if vuCount d = 0 then 0
  else
    let op := opcodeOf d
    let readsB := (op = 0x30 && (1 ≤ vuFunc d && vuFunc d ≤ 5)) || op = 0x32
    let l := if fmtCode (vuFmtA d) = .f32 || fmtCode (vuFmtD d) = .f32 || (readsB && fmtCode (vuFmtB d) = .f32)
      || op = 0x33 then 512 else 1024
    let w := if op = 0x31 then 2 else if op = 0x32 && vuBits d = 0 then 3 else 1
    24 + w * ceilDiv (vuCount d) l + (if op = 0x34 then vuCount d / vuAux d else 0)

/-- The vector unit after an op (R189). The busy cycles are at most the cost of R173 and otherwise free. -/
def VectorUnit.afterOp (v : VectorUnit) (s : State) (op : BitVec 16) (d : BitVec 512) (rc : Bool) (dropped : Nat) :
    VectorUnit :=
  { v with
    op := op, opcode := BitVec.ofNat 8 (opcodeOf d), recompute := rc, state := 1, ops := satAdd v.ops 1
    busy := v.busy + BitVec.ofNat 64 ((Config.freeLong s.free).toNat % (vectorCost d + 1))
    dropped := satAdd v.dropped dropped }

/-- Finish a vector op on the state that holds its results. -/
def vuFinish (s0 s1 : State) (c : Charter) (k : CoreId) (index : Nat) (d : BitVec 512) (dropped : Nat) : State :=
  let rc := isRecompute c k index
  { s1 with free := s1.free + 1 }.modCore k fun x =>
    { x with vu := x.vu.afterOp s0 (opIndex c k index) d rc dropped }

/-- An elementwise op: each element's F32 result is a function of its index on the state before the op. -/
def vuElementwise (s : State) (i : Stall) (c : Charter) (k : CoreId) (index : Nat) (d : BitVec 512)
    (value : Nat → Word) : State :=
  forEach (List.range (vuCount d)) (s.ranStream i c k index) fun s1 n => vuStore k s i c d (drawDesc c k index d) s1 n (value n)

/-- A due vector op of an opcode that satisfies a test runs as `run` gives; an empty one completes at once (R14). -/
def runVector (s : State) (k : CoreId) (index op : Nat) (sel : BitVec 512 → Bool)
    (run : Stall → Charter → BitVec 512 → State) : Host.Outcome State Fault Refusal :=
  match dueStream s k index [op] with
  | none => .next s
  | some (i, c, e) =>
    if !sel e.desc then .next s
    else if vuCount e.desc = 0 then .next (vuFinish s (s.ranStream i c k index) c k index e.desc 0)
    else .next (run i c e.desc)

/-- A VMAP of one operation. -/
def runVmap (s : State) (k : CoreId) (index func : Nat) : Host.Outcome State Fault Refusal :=
  runVector s k index 0x30 (fun d => vuFunc d == func) fun i c d =>
    vuFinish s (vuElementwise s i c k index d fun n =>
      vmapValue func (vuReadA s i d n) (vuReadB s i d n) (vuReadC s i d n) (vuScalar0 d)) c k index d 0

/-- VMAP COPY (R170): a. -/
def execVmapCopy (k : CoreId) (index : Nat) (s : State) : Host.Outcome State Fault Refusal := runVmap s k index 0

/-- VMAP ADD (R170): a + b. -/
def execVmapAdd (k : CoreId) (index : Nat) (s : State) : Host.Outcome State Fault Refusal := runVmap s k index 1

/-- VMAP MUL (R170): a × b. -/
def execVmapMul (k : CoreId) (index : Nat) (s : State) : Host.Outcome State Fault Refusal := runVmap s k index 2

/-- VMAP FMA (R170): a × b + c with one rounding. -/
def execVmapFma (k : CoreId) (index : Nat) (s : State) : Host.Outcome State Fault Refusal := runVmap s k index 3

/-- VMAP MAX (R170). -/
def execVmapMax (k : CoreId) (index : Nat) (s : State) : Host.Outcome State Fault Refusal := runVmap s k index 4

/-- VMAP MIN (R170). -/
def execVmapMin (k : CoreId) (index : Nat) (s : State) : Host.Outcome State Fault Refusal := runVmap s k index 5

/-- VMAP SCALE (R170): a × SCALAR0. -/
def execVmapScale (k : CoreId) (index : Nat) (s : State) : Host.Outcome State Fault Refusal := runVmap s k index 6

/-- The table in a slot of a core. -/
def slotTable (s : State) (k : CoreId) (slot : Nat) : List Byte := (s.core k).vu.tables.getD slot []

/-- The plane bit that a VFUNC writes for an operand (R171). -/
def funcBit (mode : Nat) (a : Word) : Bool :=
  let w := rne32 (val32 a)
  if mode = 1 then (match val32 w with | .fin neg m _ => !neg && m != 0 | .inf neg => !neg | .nan => false)
  else w.getLsbD 31 && !isNan (val32 w)

/-- VFUNC (R175, R171): a table function, and a bit plane where BITS asks for one, by read-modify-write of its bytes. -/
def execVfunc (k : CoreId) (index : Nat) (s : State) : Host.Outcome State Fault Refusal :=
  runVector s k index 0x31 (fun _ => true) fun i c d =>
    let s1 := vuElementwise s i c k index d fun n => tableEval (slotTable s k (vuFunc d)) (vuReadA s i d n)
    let s2 := if vuBits d = 0 then s1
      else forEach (List.range (vuCount d)) s1 fun s2 n =>
        let (a, b) := planeBit c d n
        let old := (s2.seen (.core k)).readVa i a
        s2.store (.core k) i a [if funcBit (vuBits d) (vuReadA s i d n) then setBit old b else clearBit old b]
    vuFinish s s2 c k index d 0

/-- VDERIV with a table (R170): b × table_eval(a). -/
def execVderivTable (k : CoreId) (index : Nat) (s : State) : Host.Outcome State Fault Refusal :=
  runVector s k index 0x32 (fun d => vuBits d == 0) fun i c d =>
    vuFinish s (vuElementwise s i c k index d fun n =>
      mul32 (vuReadB s i d n) (tableEval (slotTable s k (vuFunc d)) (vuReadA s i d n))) c k index d 0

/-- VDERIV with a bit plane (R170): b × SCALAR1 or SCALAR0 as the bit selects. -/
def execVderivBits (k : CoreId) (index : Nat) (s : State) : Host.Outcome State Fault Refusal :=
  runVector s k index 0x32 (fun d => vuBits d == 1) fun i c d =>
    vuFinish s (vuElementwise s i c k index d fun n =>
      let (a, b) := planeBit c d n
      mul32 (vuReadB s i d n) (if (s.readVa i a).getLsbD b then vuScalar1 d else vuScalar0 d)) c k index d 0

/-- Is element `n` of a dropout dropped (R182)? The element of the dropout site decides: that of the op itself for a
FORWARD VDROP, that of its LINK for a BACKWARD one. -/
def dropped (s : State) (i : Stall) (c : Charter) (d site : BitVec 512) (n : Nat) : Bool :=
  let f := fmtCode (vuFmtD site)
  let e := elemIndexAt (c.tensor (vuTensorD site)) (vuD site + n * fmtBytes f)
  decide (drawFor (s.stall i) (vuStream d) e < vuAux d)

/-- The value of an element of a dropout: exactly +0 where dropped. -/
def dropValue (drop : Bool) (a scale : Word) : Word := if drop then 0 else mul32 a scale

/-- VDROP FORWARD (R182). -/
def execVdropForward (k : CoreId) (index : Nat) (s : State) : Host.Outcome State Fault Refusal :=
  runVector s k index 0x33 (fun d => vuFunc d == 0) fun i c d =>
    let site := drawDesc c k index d
    let n := ((List.range (vuCount d)).filter (dropped s i c d site)).length
    vuFinish s (vuElementwise s i c k index d fun n => dropValue (dropped s i c d site n) (vuReadA s i d n) (vuScalar0 d))
      c k index d n

/-- VDROP BACKWARD (R182, R183): the mask of the linked forward op. -/
def execVdropBackward (k : CoreId) (index : Nat) (s : State) : Host.Outcome State Fault Refusal :=
  runVector s k index 0x33 (fun d => vuFunc d == 1) fun i c d =>
    let site := drawDesc c k (vuLink d) d
    vuFinish s (vuElementwise s i c k index d fun n => dropValue (dropped s i c d site n) (vuReadA s i d n) (vuScalar0 d))
      c k index d 0

/-- The sum of one row in the reference order with every b = +1 (R170, R87). -/
def rowSum (s : State) (i : Stall) (d : BitVec 512) (row : Nat) : Word :=
  let f := fmtCode (vuFmtA d)
  let one : Val := .fin false 1 0
  reference (if f = .f32 then 16 else 128) 0 ((List.range (vuAux d)).map fun n =>
    some (decodeVal f (s.readNat i (vuA d + (row * vuAux d + n) * fmtBytes f) (fmtBytes f)), one))

/-- VSUM (R170): one F32 for each row of ROW_LEN elements. -/
def execVsum (k : CoreId) (index : Nat) (s : State) : Host.Outcome State Fault Refusal :=
  runVector s k index 0x34 (fun _ => true) fun i c d =>
    let rows := vuCount d / vuAux d
    vuFinish s (forEach (List.range rows) (s.ranStream i c k index) fun s1 r => vuStore k s i c d (drawDesc c k index d) s1 r (rowSum s i d r))
      c k index d 0

end Sys2Proof.Machine
end

