-- ==== Sys2Proof/Machine/Cost.lean ====
section
/-! DEFINITION. What the charter loader charges for every entry (R52): cycles of tile-ops, vector ops, copies, ledger and
settlement entries, and the time of transfers, with the resources that are in service (R56, R293, R328, R460). -/

namespace Sys2Proof.Machine

/-! ### Tile-ops (R115, R145, R148, R154, R158) -/

/-- Stream cycles of `klen` K positions of a format pair (R114). -/
def pairStream (wide : Bool) (klen : Nat) : Nat := (if wide then 64 else 16) * ceilDiv klen 16

/-- gme_tile (R145). -/
def gmeTile (rows cap klen cols c : Nat) (wide : Bool) : Nat :=
  let g := ceilDiv cols 32
  let q := if wide then 4 else 1
  let write := ceilDiv (rows * cols) 64
  if cap = 0 then 24 + write
  else
    let w := g * (q * cap + 4 * (rows + 72))
    let pmax := g * (q * min klen (max (ceilDiv cap 8) c) + 4)
    24 + ceilDiv w 32 + pmax + 7 * g * ceilDiv klen c + write

/-- Are both formats of a GME product F32? -/
def gmWide (d : BitVec 512) : Bool := arithFmt (gmFmtA d) == .f32 && arithFmt (gmFmtB d) == .f32

/-- Is an SPMM or RAGGED empty (R14)? -/
def gmEmpty (d : BitVec 512) : Bool := gmRows d == 0 || gmCols d == 0 || gmKLen d == 0

/-- dense_tile (R145) of the tile at block `kb` of a row block of `rows` rows. -/
def denseTile (d : BitVec 512) (rows klen : Nat) (firstOfChain wake : Bool) : Nat :=
  denseCycles rows rows (gmCols d) (pairStream (gmWide d) klen) false (!(firstOfChain && gmKOffset d == 0)) wake + 64

/-- spmm_cost (R145). -/
def spmmCost (c : Charter) (d : BitVec 512) (wake : Bool) : Nat :=
  if gmEmpty d then 0
  else
    let f := sparseForm c (c.tensor (gmTensorA d)) (gmTurnA d)
    let first := (spmmBlocks d f).headD 0
    let tiles := spmmTiles d f
    16 + ((List.range tiles.length).map fun n =>
      let t := tiles.getD n (0, 0)
      let rows := f.tileRows t.1
      let klen := f.tileK t.2
      max (denseTile d rows klen (t.2 == first) (wake && n == 0))
        (gmeTile rows (f.cap rows klen) klen (gmCols d) (gmChunk d) (gmWide d))).sum

/-- The level an SPMM asks of its partner array: the highest of its tiles (R123). -/
def spmmLevel (c : Charter) (d : BitVec 512) : Nat :=
  let f := sparseForm c (c.tensor (gmTensorA d)) (gmTurnA d)
  maxOf ((spmmTiles d f).map fun t => denseLevel (f.tileRows t.1) (gmCols d)) 0

/-- Cost of a RAGGED tile-op (R148). -/
def raggedCost (d : BitVec 512) : Nat :=
  if gmEmpty d then 0
  else
    16 + ceilDiv (gmRows d) 64 + ((List.range (ceilDiv (gmRows d) 128)).map fun b =>
      let rows := min 128 (gmRows d - 128 * b)
      gmeTile rows (rows * gmKLen d) (gmKLen d) (gmCols d) (gmChunk d) (gmWide d)).sum

/-- Cost of a DISPATCH or COMBINE (R154). -/
def routeCost (d : BitVec 512) : Nat :=
  if dpEmpty d then 0
  else
    let n := dpCount d
    let r := ceilDiv (dpRowBytes d) 256
    if opcodeOf d = 0x23 then 32 + ceilDiv n 8 + min n (dpDests d * dpSlots d) * ceilDiv (dpRowLen d) 64
    else if dpSpill d then 32 + ceilDiv n 8 + dpDests d * (dpSlots d - dpMain d) * r
    else 64 + 4 * ceilDiv n 32 * ((max n 2 - 1).log2 + 1) + dpDests d * dpSlots d * r + ceilDiv n 8 + ceilDiv (dpDests d) 16

/-- Is an ASSAY empty (R14)? -/
def asEmpty (d : BitVec 512) : Bool := asRowTiles d == 0 || asKTiles d == 0

/-- The tiles of an ASSAY, by row block and K block of the row form. -/
def asTiles (d : BitVec 512) : List (Nat × Nat) :=
  (List.range (asRowTiles d)).flatMap fun j => (List.range (asKTiles d)).map fun b => (asFirstRow d + j, asFirstK d + b)

/-- Cost of an ASSAY (R158); both terms are charged for each tile (log entry 14). -/
def assayCost (c : Charter) (d : BitVec 512) : Nat :=
  if asEmpty d then 0
  else
    let f := sparseForm c (c.tensor (asTensorS d)) false
    let w := if asTurned d then 2 else 1
    16 + ((asTiles d).map fun t => ceilDiv (f.tileRows t.1 * f.tileK t.2) 64 + w * ceilDiv f.slot 256).sum

/-- Cycles of an entry of a core's stream; `wake` says that its array wakes. -/
def streamCost (c : Charter) (e : StreamEntry) (wake : Bool) : Nat :=
  let op := opcodeOf e.desc
  if op = 0x10 then denseCost e wake
  else if op = 0x20 then spmmCost c e.desc wake
  else if op = 0x21 then raggedCost e.desc
  else if op = 0x22 ∨ op = 0x23 then routeCost e.desc
  else if op = 0x24 then assayCost c e.desc
  else if isBlock e.desc then 0
  else vectorCost e.desc

/-- Is an entry of a core's stream empty (R14)? -/
def streamEmpty (e : StreamEntry) : Bool :=
  let op := opcodeOf e.desc
  if op = 0x10 then mmEmpty e.desc
  else if op = 0x20 ∨ op = 0x21 then gmEmpty e.desc
  else if op = 0x22 ∨ op = 0x23 then dpEmpty e.desc
  else if op = 0x24 then asEmpty e.desc
  else vuCount e.desc == 0

/-- The array an entry runs on, and the level it asks of it (R115, R145). -/
def arrayOf (c : Charter) (e : StreamEntry) : Option (Nat × Nat) :=
  let op := opcodeOf e.desc
  if streamEmpty e then none
  else if op = 0x10 then some ((mmEngine e.desc).val, mmLevel e)
  else if op = 0x20 then some ((gmPartner e.desc).val, spmmLevel c e.desc)
  else none

/-- Is the wake charged to entry `n` of a core's stream (R115)? -/
def wakeCharged (c : Charter) (k : CoreId) (n : Nat) : Bool :=
  match (c.stream k)[n]? with
  | none => false
  | some e =>
    match arrayOf c e with
    | none => false
    | some (a, level) =>
      let before := ((c.stream k).take n).filterMap fun x =>
        if x.sched.leg = e.sched.leg then (arrayOf c x).bind fun y => if y.1 = a then some y.2 else none else none
      let other := e.sched.deps.any fun w => match depRef w with
        | some (.stream q m) =>
          if q = k then
            match (c.stream k)[m]? with
            | some x => !(unitsOfEntry x.desc == [a])
            | none => true
          else true
        | _ => true
      match before.getLast? with
      | none => true
      | some l => other || decide (l < level)

/-! ### Rates in service (R293, R378) -/

/-- Tier code of an address of a stall: 0 staging, 1 near, 2 Serai, 3 host. -/
def tierAt (s : State) (i : Stall) (va : Nat) : Nat :=
  match regionAt (s.stall i).customs va with | some (_, g) => g.tier.toNat | none => 1

/-- A rate of near memory or the Serai with a DEGRADED group (R293): 7/8 and 1/2. -/
def derated (t : Tiers) (tier rate : Nat) : Nat :=
  if tier = 1 ∧ t.nearGroups.toList.any (· == 1) then rate * 7 / 8
  else if tier = 2 ∧ t.seraiGroup = 1 then rate / 2
  else rate

/-- Lanes of a host link by bifurcation mode (Table 13-3). -/
def linkLanes (mode : BitVec 2) : Nat := if mode = 0 then 16 else if mode = 1 then 8 else 4

/-- The host rate in bytes per CP cycle for `engines` engines with a host side in a leg (R378): 32 where the shares give
51.2 GB/s to each, and what they give otherwise. -/
def hostRate (s : State) (i : Stall) (engines : Nat) : Nat :=
  let rate := match ownerLink (s.stall i).page with
    | some l => if (s.host l).rate = 1 then 1 else 2
    | none => 2
  let shares := (s.stall i).page.comp.cxlShares.toNat
  min 32 (shares * linkLanes s.tollgate.mode * 200 * rate / (max engines 1 * 1600))

/-- Does a batch have a host side? -/
def hostSided (s : State) (i : Stall) (ops : List CopyOp) : Bool :=
  ops.any fun o => !cpEmpty o.d && (tierAt s i (cpSrc o.d) == 3 || tierAt s i (cpDst o.d) == 3)

/-- The number of engines with a host side in a leg. -/
def hostEngines (s : State) (i : Stall) (c : Charter) (leg : Nat) : Nat :=
  ((List.range 8).filter fun e =>
    (c.copies.getD e {}).entries.any fun x =>
      decide (x.leg.toNat = leg) && hostSided s i (batchFrom (c.copies.getD e {}) x.item.toNat)).length

/-- CP cycles of a copy entry (R217). -/
def entryCopyCost (s : State) (i : Stall) (c : Charter) (e : EngineId) (x : Sched) : Nat :=
  copyCost c (batchFrom (c.copies.getD e.val {}) x.item.toNat) (tierAt s i)
    (fun tier => derated s.tiers tier (tierRate tier (hostRate s i (hostEngines s i c x.leg.toNat)))) (bit c.hostQueues e.val)

/-- Bytes that a settlement entry moves at each of its regions: address and bytes (R266). -/
def settleTraffic (e : BitVec 512) : List (Nat × Nat × Nat) :=     -- address, bytes read, bytes written
  let n := seCount e
  let f := if seCompat e then 4 else 2
  [(seW e, f * n, f * n), (seS e, f * n, f * n), (seG e, 4 * n, 0)]
    ++ (if seCompat e then [(seH e, 0, 2 * n)] else [])
    ++ (if seFreeze e = 2 then [(sePlane e, ceilDiv n 8, 0)] else [])

/-- XF cycles of a settlement entry (R266, R293). -/
def entrySettleCost (s : State) (i : Stall) (e : BitVec 512) : Nat :=
  let bytes (tier : Nat) := ((settleTraffic e).map fun x => if tierAt s i x.1 = tier then x.2.1 + x.2.2 else 0).sum
  let n := seCount e
  if n = 0 then 0
  else 32 + max (ceilDiv n 64) (max (ceilDiv (bytes 1) (derated s.tiers 1 512)) (ceilDiv (bytes 2) (derated s.tiers 2 128)))

/-! ### Clocks (R51) -/

/-- Cycles of a clock given in MHz as whole nanoseconds. -/
def clockNs (mhz cycles : Nat) : Nat := ceilDiv (1000 * cycles) mhz

/-- Core cycles at the fit clock. -/
def fitNs (c : Charter) (cycles : Nat) : Nat := clockNs (50 * c.fitClock) cycles

/-! ### Transfers (R52, R53, R316, R328, R460) -/

/-- The state with every port that is not down taken as usable: the proof counts resources in service, lit or not. -/
def portsUsable (s : State) : State :=
  forEach (List.finRange 8) s fun s p => s.modPort p fun x => { x with state := if x.state = 4 then 4 else 3 }

/-- The member that works under an index now, where a standby took it (R460). -/
def holderOf (t : StallState) (m : Member) : Nat :=
  match t.ledger.subst.find? fun e => e.1 == m with | some e => e.2.toNat | none => m.toNat

/-- The member at the far end of a torus port (R315). -/
def torusStep (c : Charter) (m p : Nat) : Nat :=
  let a := p / 2
  let len := axisLen c a
  let x := axisPos c m a
  let y := if p % 2 = 0 then (x + 1) % len else (x + len - 1) % len
  let unit := if a = 0 then 1 else if a = 1 then c.lx else c.lx * c.ly
  m + y * unit - x * unit

/-- Hops between two indices of the caravan with the standbys that took a place (R316, R460): to a replaced index, along the
path to its last member, from there to the ring if it lies off it, and along the ring. -/
def hopsNow (t : StallState) (c : Charter) (src dst : Nat) : Nat :=
  let hs := holderOf t (BitVec.ofNat 7 src)
  let hd := holderOf t (BitVec.ofNat 7 dst)
  let entry := if hs = src then src else 16 * (hs - 64)
  let lead := if hs = src then 0 else 1
  if hd = dst then lead + caravanHops c entry dst
  else
    let path := torusPath c entry dst
    let p := path.getLastD 0
    let q := path.dropLast.foldl (torusStep c) entry
    if q / 16 = hd - 64 then lead + path.dropLast.length + (ringMove c (hd - 64) q hd).1
    else lead + path.dropLast.length + 2 + (ringMove c (hd - 64) (torusStep c (torusStep c q (detourPort c p)) p) hd).1

/-- The hops by which a transfer's path is longer than its declared one (R328, R460). -/
def extraHops (t : StallState) (c : Charter) (src dst : Nat) (car : BitVec 6) : Nat :=
  if car = c.caravanIx ∧ (holderOf t (BitVec.ofNat 7 src) ≠ src ∨ holderOf t (BitVec.ofNat 7 dst) ≠ dst)
  then hopsNow t c src dst - caravanHops c src dst else 0

/-- A stall's state with the member index that a charter gives it. -/
def asMember (t : StallState) (c : Charter) : StallState := { t with march := { t.march with member := c.member } }

/-- The transmit lanes, with every announced switch done, and the extra hops of a send; none where no path is left. -/
def sendPath (s : State) (i : Stall) (c : Charter) (dst : Member) (car : BitVec 6) : Option (PortId × Nat × Nat) :=
  let t := asMember (s.stall i) c
  match exitPort (portsUsable s) c t dst car none with
  | none => none
  | some (p, detour) =>
    some (p, activeLanes (txLanesSoon s p),
      extraHops (s.stall i) c c.member.toNat dst.toNat car + (if detour then
        (match normalPort (portsUsable s) c t dst car none with | some q => detourHops c q | none => 0) else 0))

/-- The port at the far end of a hop out of a port within a caravan (R316, R317). -/
def farPort (p : Nat) (toStandby fromStandby : Bool) : Nat :=
  if toStandby then (if p = 7 then 1 else 0)
  else if fromStandby then (if p = 0 then 6 else 7)
  else if p = 7 then 6 else if p = 6 then 7
  else if p % 2 = 0 then p + 1 else p - 1

/-- The port on which a transfer from a member arrives (R316 to R318). -/
def arrivalPort (c : Charter) (src : Member) (car : BitVec 6) : Option Nat :=
  let self := c.member.toNat
  let within (a : Nat) : Option Nat :=
    if a = self then none
    else if a < 64 ∧ self < 64 then ((torusPath c a self).getLast?).map fun p => farPort p false false
    else
      let j := if 64 ≤ self then self - 64 else a - 64
      if 64 ≤ a ∧ self / 16 ≠ j ∧ self < 64 then
        ((torusPath c (16 * j) self).getLast?).map fun p => farPort p false false
      else
        let near := if a < 64 ∧ a / 16 ≠ j then 16 * j else a
        let (h, fwd) := ringMove c j near self
        let last := if h = 1 then near else
          let n := (ringMembers c j).length + 1
          let place := (ringPlace j self + (if fwd then n - 1 else 1)) % n
          if place = 0 then 64 + j else 16 * j + place - 1
        some (farPort (ringPort last fwd) (decide (64 ≤ self)) (decide (64 ≤ last)))
  if car = c.caravanIx then within src.toNat
  else match fedEdge c car with
    | none => none
    | some (e, atB) =>
      let (g, q) := fedGate e false atB
      if g = self then some q else within g

/-- The receive lanes and the extra hops of a transfer that arrives. -/
def recvPath (s : State) (i : Stall) (c : Charter) (src : Member) (car : BitVec 6) : Option (PortId × Nat × Nat) :=
  match arrivalPort c src car with
  | none => none
  | some p =>
    let more := extraHops (s.stall i) c src.toNat c.member.toNat car
    if (s.port (portId p)).state = 4 then
      let d := portId (detourPort c p)
      if p < 6 ∧ (s.port d).state ≠ 4 then some (d, activeLanes (s.port d).rxLanes, more + detourHops c p) else none
    else some (portId p, activeLanes (s.port (portId p)).rxLanes, more)

/-- A cost that no budget holds: a transfer without a path. -/
def noPathNs : Nat := 2 ^ 40

/-- The transfer cost over a path (R52). -/
def pathCost (bytes hops : Nat) : Option (PortId × Nat × Nat) → Nat
  | none => noPathNs
  | some (_, lanes, extra) => if lanes = 0 then noPathNs else transferCost bytes lanes (hops + extra)

end Sys2Proof.Machine
end

