-- ==== Sys2Proof/Machine/Extents.lean ====
section
/-! DEFINITION. What every entry of a charter reads and writes (R118, R160, R172, R194, R208, R226, R256), as byte ranges
of stall virtual addresses, and the predecessor graph of R349. The loader's checks are made on them. -/

namespace Sys2Proof.Machine

/-- Byte ranges `[lo, hi)` that an entry accesses with one set of permissions (Table 14-8). -/
structure Access where
  need : BitVec 4
  ranges : List (Nat × Nat)
  deriving DecidableEq, Repr

/-- Does the access write? -/
def Access.writes (a : Access) : Bool := a.need &&& permWrite != 0

/-- A read of ranges, a write, and the two by one unit in place: a continuation, a sum into the destination (R91, R118). -/
def rd (l : List (Nat × Nat)) : Access := ⟨permRead, l⟩
def wr (l : List (Nat × Nat)) : Access := ⟨permWrite, l⟩
def rw (l : List (Nat × Nat)) : Access := ⟨permRead ||| permWrite, l⟩

/-- One range of `n` bytes. -/
def span (a n : Nat) : List (Nat × Nat) := if n = 0 then [] else [(a, a + n)]

/-- `n` rows of `len` bytes, `stride` bytes apart. -/
def rowSpans (a stride n len : Nat) : List (Nat × Nat) :=
  if len = 0 then [] else (List.range n).map fun r => (a + r * stride, a + r * stride + len)

/-- Do two lists of ranges share a byte? -/
def spansMeet (a b : List (Nat × Nat)) : Bool := a.any fun x => b.any fun y => decide (x.1 < y.2) && decide (y.1 < x.2)

/-- Are the bytes from `lo` to `hi` covered by ranges? The fuel bounds the ranges used. -/
def coveredBy : Nat → Nat → Nat → List (Nat × Nat) → Bool
  | 0, lo, hi, _ => decide (hi ≤ lo)
  | n + 1, lo, hi, l =>
    decide (hi ≤ lo) || match l.find? fun x => decide (x.1 ≤ lo) && decide (lo < x.2) with
      | some x => coveredBy n x.2 hi l
      | none => false

/-- Is every byte of the first ranges in one of the second? -/
def spansIn (a b : List (Nat × Nat)) : Bool := a.all fun x => coveredBy (b.length + 1) x.1 x.2 b

/-- The bytes that two lists of ranges share, as ranges. -/
def spansBoth (a b : List (Nat × Nat)) : List (Nat × Nat) :=
  a.flatMap fun x => b.filterMap fun y =>
    if max x.1 y.1 < min x.2 y.2 then some (max x.1 y.1, min x.2 y.2) else none

/-- `n` contiguous bytes of a tensor, over the whole blocks that they touch where it is a weave (R194). -/
def wholeSpan (t : BitVec 512) (a n : Nat) : List (Nat × Nat) :=
  if n = 0 then []
  else if tLayout t = 1 ∨ tLayout t = 2 then
    let corner (b : Nat) : Nat :=
      match coordsOf t (2 * b) with
      | some x => elemPos t (blockCorner false (tLayout t) x) / 2
      | none => b
    [(corner a, corner (a + n - (tSize t + 1) / 2) + 1024 * tSize t)]
  else [(a, a + n)]

/-- Addresses, in any order, as ranges: neighbours that follow each other join. -/
def rangesOf (l : List Nat) : List (Nat × Nat) :=
  l.foldr (fun a acc => match acc with
    | (lo, hi) :: rest => if a = lo then acc else if a + 1 = lo then (a, hi) :: rest else (a, a + 1) :: acc
    | [] => [(a, a + 1)]) []

/-- The whole blocks that a weave operand of `outer` × `k` positions touches (R194): one range for each group along the
128-element side. -/
def weaveSpans (w : WeaveOperand) (outer k : Nat) : List (Nat × Nat) :=
  let (p, q) := woPQ w outer k
  rowSpans w.addr w.stride (ceilDiv p 128) (ceilDiv q 16 * 1024 * tSize w.tensor)

/-- The whole plane blocks of a weave operand's position mask plane (R196). -/
def planeSpans (w : WeaveOperand) (plane outer k : Nat) : List (Nat × Nat) :=
  let (p, q) := woPQ w outer k
  rowSpans plane (w.stride / (4 * tSize w.tensor)) (ceilDiv p 128) (ceilDiv q 16 * 256)

/-- The expansion table or records of an integer tensor (R83, R84). -/
def auxSpans (t : BitVec 512) : List (Nat × Nat) :=
  if tFormat t ≠ 3 ∧ tFormat t ≠ 4 then []
  else if fldN (tExpand t) 0 2 = 1 then span (tAux t) 32
  else
    let kd := if tLayout t = 2 then 1 else 0
    let g := 32 * 2 ^ fldN (tExpand t) 3 2
    span (tAux t) (4 * (tN t 2 * tN t 3 * tN t 4 * tN t 5 * tN t (1 - kd) * ceilDiv (tN t kd) g))

/-! ### Accesses by unit -/

/-- MATMUL (R118). -/
def mmAccess (c : Charter) (d : BitVec 512) : List Access :=
  let a := mmOperandA c d
  let b := mmOperandB c d
  let f := arithFmt (mmFmtC d)
  let dest := if mmAweaveC d
    then rowSpans (mmC d) (mmStrideC d) (ceilDiv (mmRows d) 128) (ceilDiv (mmCols d) 16 * 2048 * fmtBytes f)
    else rowSpans (mmC d) (mmStrideC d) (mmRows d) (mmCols d * fmtBytes f)
  let mask := (if mmRowMask d then span (mmMask d) 128 else [])
    ++ (if mmMaskPort d = 1 then planeSpans a (mmMask d + 128) (mmRows d) (mmKLen d)
        else if mmMaskPort d = 2 then planeSpans b (mmMask d + 128) (mmCols d) (mmKLen d) else [])
  [rd (weaveSpans a (mmRows d) (mmKLen d)), rd (weaveSpans b (mmCols d) (mmKLen d)), rd mask,
    rd (auxSpans a.tensor), rd (auxSpans b.tensor), if mmKOffset d = 0 then wr dest else rw dest]

/-- Slots and directory entries of tiles of a form. -/
def tileSpans (f : SparseForm) (ixs : List Nat) : List (Nat × Nat) :=
  ixs.flatMap fun ix => span (f.slotAddr ix) f.slot ++ span (f.dirAddr ix) 16

/-- Rows that an SPMM writes. -/
def spmmRows (d : BitVec 512) (f : SparseForm) : Nat :=
  ((List.range (gmRows d)).map fun j => f.tileRows (gmFirstTile d + j)).sum

/-- SPMM and RAGGED (R160). -/
def gmAccess (c : Charter) (d : BitVec 512) : List Access :=
  let spmm := opcodeOf d == 0x20
  let ta := c.tensor (gmTensorA d)
  let f := sparseForm c ta (gmTurnA d)
  let b := gmOperandB c d
  let rows := if spmm then spmmRows d f else gmRows d
  let dest := rowSpans (gmC d) (gmStrideC d) rows (gmCols d * fmtBytes (arithFmt (gmFmtC d)))
  let a := if spmm then tileSpans f ((spmmTiles d f).map fun t => t.1 * f.kt + t.2)
    else rowSpans (gmA d) (gmStrideA d) rows ((gmKLen d * tSize ta + 1) / 2)
  let lens := if spmm then [] else span (gmLens d) (4 * rows)
  [rd a, rd lens, rd (auxSpans ta), rd (weaveSpans b (gmCols d) (gmKLen d)), rd (auxSpans b.tensor),
    if gmKOffset d = 0 then wr dest else rw dest]

/-- DISPATCH and COMBINE (R149 to R153). -/
def dpAccess (c : Charter) (k : CoreId) (d : BitVec 512) : List Access :=
  let n := dpCount d
  let ts := c.tensor (dpTensorSrc d)
  let td := c.tensor (dpTensorDst d)
  let slots := wholeSpan (if opcodeOf d = 0x23 then ts else td) (if opcodeOf d = 0x23 then dpSrc d else dpDst d)
    (dpDests d * dpSlots d * dpRowBytes d)
  let tokens := rd (wholeSpan ts (dpSrc d) (dpTokens d * dpRowBytes d))
  let list := span (if opcodeOf d = 0x22 && !dpSpill d then dpVerdict d else linkVerdict c k d) (8 * n)
  if opcodeOf d = 0x23 then
    [rd list, rd slots, rd (span (dpWeight d) (4 * n)), rw (wholeSpan td (dpDst d) (dpTokens d * dpRowLen d * 4))]
  else if dpSpill d then [rd list, tokens, wr slots]
  else [rd (span (dpRoute d) (8 * n)), tokens, wr slots, wr (span (dpVerdict d) (8 * n + 4 * dpDests d))]

/-- The byte range of a tensor (R208). -/
def tensorSpan (c : Charter) (t : BitVec 512) : List (Nat × Nat) := match tensorExtent c t with | some r => [r] | none => []

/-- ASSAY (R155): the weights, the tiles of the range, and every tile of the turned form. -/
def asAccess (c : Charter) (d : BitVec 512) : List Access :=
  let ts := c.tensor (asTensorS d)
  let f := sparseForm c ts false
  let ft := sparseForm c ts true
  let tiles := tileSpans f ((asTiles d).map fun t => t.1 * f.kt + t.2)
  let turned := if asTurned d then tileSpans ft (List.range (ceilDiv ft.rows 128 * ft.kt)) else []
  [rd (tensorSpan c (c.tensor (asTensorW d))), rw tiles, wr turned]

/-- Does a vector op read operand b (Table 06-2)? -/
def vuReadsB (d : BitVec 512) : Bool :=
  (opcodeOf d == 0x30 && decide (1 ≤ vuFunc d) && decide (vuFunc d ≤ 5)) || opcodeOf d == 0x32

/-- Does a vector op read c as an operand? -/
def vuReadsC (d : BitVec 512) : Bool := opcodeOf d == 0x30 && vuFunc d == 3

/-- Elements that a vector op writes. -/
def vuResults (d : BitVec 512) : Nat := if opcodeOf d = 0x34 then vuCount d / vuAux d else vuCount d

/-- The bytes of the bit plane of a vector op (R171, R196): those of its elements' bits. -/
def vuPlane (c : Charter) (d : BitVec 512) : List (Nat × Nat) :=
  rangesOf ((List.range (vuCount d)).map fun n => (planeBit c d n).1)

/-- The bytes of a vector op's operands and of its destination (R172, R194). -/
def vuSpanA (c : Charter) (d : BitVec 512) : List (Nat × Nat) :=
  wholeSpan (c.tensor (vuTensorA d)) (vuA d) (vuCount d * fmtBytes (fmtCode (vuFmtA d)))
def vuSpanB (c : Charter) (d : BitVec 512) : List (Nat × Nat) :=
  wholeSpan (c.tensor (vuTensorB d)) (vuB d) (vuCount d * fmtBytes (fmtCode (vuFmtB d)))
def vuSpanC (d : BitVec 512) : List (Nat × Nat) := span (vuC d) (vuCount d * fmtBytes (fmtCode (vuFmtB d)))
def vuSpanD (c : Charter) (d : BitVec 512) : List (Nat × Nat) :=
  wholeSpan (c.tensor (vuTensorD d)) (vuD d) (vuResults d * fmtBytes (fmtCode (vuFmtD d)))

/-- A vector op (R172). -/
def vuAccess (c : Charter) (d : BitVec 512) : List Access :=
  let src := [rd (vuSpanA c d)] ++ (if vuReadsB d then [rd (vuSpanB c d)] else []) ++ (if vuReadsC d then [rd (vuSpanC d)] else [])
  let plane := if opcodeOf d = 0x31 ∧ vuBits d ≠ 0 then [rw (vuPlane c d)]
    else if opcodeOf d = 0x32 ∧ vuBits d = 1 then [rd (vuPlane c d)] else []
  src ++ plane ++ [wr (vuSpanD c d)]

/-- The accesses of an entry of a core's stream; none where it is empty (R14). -/
def streamAccess (c : Charter) (k : CoreId) (e : StreamEntry) : List Access :=
  let op := opcodeOf e.desc
  if isBlock e.desc || streamEmpty e then []
  else if op = 0x10 then mmAccess c e.desc
  else if op = 0x20 ∨ op = 0x21 then gmAccess c e.desc
  else if op = 0x22 ∨ op = 0x23 then dpAccess c k e.desc
  else if op = 0x24 then asAccess c e.desc
  else vuAccess c e.desc

/-- The accesses of a copy entry (R208, R211). -/
def copyAccess (s : State) (i : Stall) (c : Charter) (e : EngineId) (x : Sched) : List Access :=
  ((batchFrom (c.copies.getD e.val {}) x.item.toNat).filter fun o => !cpEmpty o.d).flatMap fun o =>
    [rd ((srcExtent s i c o).toList), wr ((dstExtent s i c o).toList)]
      ++ (if cpGather o.d || cpScatter o.d then [rd (span (cpList o.d) (cpBlocks o.d * cpEntryBytes o.d))] else [])

/-- A ledger entry's accesses (R226). -/
def ledgerAccess (c : Charter) (n : Nat) : List Access :=
  let b := c.bucket (leBucket (c.ledger.getD n {}).raw)
  [⟨permRead ||| permLedger, span (bkSrc b) (4 * bkElems b)⟩, wr (span (bkDst b) (4 * bkElems b))]

/-- A settlement entry's accesses (R256). -/
def settleAccess (e : BitVec 512) : List Access :=
  let n := seCount e
  let f := if seCompat e then 4 else 2
  let w := span (seW e) (f * n)
  let a := span (seS e) (f * n)
  [rd w, wr w, rd a, wr a, rd (span (seG e) (4 * n))]
    ++ (if seCompat e then [wr (span (seH e) (2 * n))] else [])
    ++ (if seFreeze e = 2 then [rd (span (sePlane e) (ceilDiv n 8))] else [])

/-- The accesses of any entry. -/
def entryAccess (s : State) (i : Stall) (c : Charter) : EntryRef → List Access
  | .stream k n => match (c.stream k)[n]? with | some e => streamAccess c k e | none => []
  | .copy e n => match (c.copies.getD e.val {}).entries[n]? with | some x => copyAccess s i c e x | none => []
  | .recv n => let r := (c.recvs.getD n {}).raw; [wr (span (rtAddr r) (rtBytes r))]
  | .ledger n => ledgerAccess c n
  | .settle n => settleAccess (c.settle.getD n {}).raw
  | .send n => let r := (c.sends.getD n {}).raw; [rd (span (rtAddr r) (rtBytes r))]

/-- Who makes an entry's accesses (R413). -/
def entryReach : EntryRef → Reach
  | .stream k _ => .core k.val
  | .copy _ _ => .copy
  | .recv _ | .send _ => .route
  | .ledger _ => .ledger
  | .settle _ => .settle

/-- What an entry writes, and what it reads. -/
def entryWrites (s : State) (i : Stall) (c : Charter) (r : EntryRef) : List (Nat × Nat) :=
  ((entryAccess s i c r).filter Access.writes).flatMap fun a => a.ranges

def entryReads (s : State) (i : Stall) (c : Charter) (r : EntryRef) : List (Nat × Nat) :=
  ((entryAccess s i c r).filter fun a => a.need &&& permRead != 0).flatMap fun a => a.ranges

/-- Count the bytes that an entry moved in its tiers' BYTES counters, and its writes to lost PLAIN units (R294, R304):
tile-ops, vector ops, ledger and settlement entries; copies and transfers are counted as they run. -/
def State.countEntry (s : State) (i : Stall) (c : Charter) (r : EntryRef) : State :=
  match r with
  | .copy _ _ | .recv _ | .send _ => s
  | _ => forEach (entryWrites s i c r) (forEach (entryReads s i c r) s fun s x => s.countRead i x.1 (x.2 - x.1))
      fun s x => s.countBytes i x.1 (x.2 - x.1)

/-- Who writes for an entry of a stall (R300). -/
def writerOf (i : Stall) : EntryRef → Writer
  | .stream k _ => .core k
  | .copy e _ => .copy e
  | .recv _ | .send _ => .route
  | .ledger _ => .ledger i
  | .settle _ => .settle i

/-! ### Entries and the predecessor graph (R349) -/

/-- The entries of a charter with the section and the item by which CHT_REFUSAL_AT names them (Table 12-13). -/
def allEntries (c : Charter) : List (EntryRef × Nat × Nat) :=
  ((List.finRange 32).flatMap fun k =>
      (List.range (c.stream k).length).map fun n => ((.stream k n : EntryRef), 4, k.val * 2 ^ 20 + n))
    ++ ((List.finRange 8).flatMap fun e =>
      (List.range (c.copies.getD e.val {}).entries.length).map fun n => ((.copy e n : EntryRef), 5, e.val * 2 ^ 20 + n))
    ++ ((List.range c.sends.length).map fun n => ((.send n : EntryRef), 6, n))
    ++ ((List.range c.recvs.length).map fun n => ((.recv n : EntryRef), 6, c.sends.length + n))
    ++ ((List.range c.ledger.length).map fun n => ((.ledger n : EntryRef), 8, n))
    ++ ((List.range c.settle.length).map fun n => ((.settle n : EntryRef), 9, n))

/-- The leg of an entry. -/
def legOf (c : Charter) (r : EntryRef) : Nat := match c.sched r with | some x => x.leg.toNat | none => 0

/-- The entries that an entry follows on its engines (R54, R349): those of earlier legs, and in its leg those that stand
earlier in the list. -/
def engineBefore (c : Charter) : EntryRef → List EntryRef
  | .ledger n => ((List.range c.ledger.length).map .ledger).filter fun r =>
      decide (legOf c r < legOf c (.ledger n)) || (legOf c r == legOf c (.ledger n) && (List.range n).any fun m => r == .ledger m)
  | .recv n =>
    let port (m : Nat) := let r := (c.recvs.getD m {}).raw; arrivalPort c (rtMember r) (rtCaravan r)
    ((List.range c.recvs.length).filter fun m => port m == port n
      && (decide (legOf c (.recv m) < legOf c (.recv n)) || (legOf c (.recv m) == legOf c (.recv n) && decide (m < n)))).map .recv
  | r => c.before r

/-- The predecessors that an entry's dependency list names (R349). -/
def namedLinks (c : Charter) (r : EntryRef) : List EntryRef :=
  match c.sched r with | some x => x.deps.filterMap depRef | none => []

/-- The direct predecessors of an entry, named and implied. -/
def linksOf (c : Charter) (r : EntryRef) : List EntryRef := namedLinks c r ++ engineBefore c r

/-- Entries reached from a frontier along links; the fuel bounds the links followed. -/
def reachFrom (next : EntryRef → List EntryRef) : Nat → List EntryRef → List EntryRef → List EntryRef
  | 0, _, seen => seen
  | _ + 1, [], seen => seen
  | n + 1, r :: l, seen => if seen.contains r then reachFrom next n l seen else reachFrom next n (next r ++ l) (r :: seen)

/-- The number of links of the graph. -/
def linkCount (c : Charter) : Nat := ((allEntries c).map fun e => (linksOf c e.1).length + 1).sum

/-- Every predecessor of an entry, named or implied, direct or through others: what is done before it begins. -/
def ancestors (c : Charter) (r : EntryRef) : List EntryRef := reachFrom (linksOf c) (linkCount c + 1) (linksOf c r) []

/-- Every entry that an entry depends on: named in its dependency list, or in that of one it depends on. -/
def dependencies (c : Charter) (r : EntryRef) : List EntryRef :=
  reachFrom (namedLinks c) (linkCount c + 1) (namedLinks c r) []

/-- Is there an order between two entries in the dependency lists (R118)? -/
def ordered (c : Charter) (a b : EntryRef) : Bool := (dependencies c b).contains a || (dependencies c a).contains b

end Sys2Proof.Machine
end

