-- ==== Sys2Proof/Machine/Activate.lean ====
section
/-! DEFINITION. What making a charter active does (R353, R358, R359): its tables, coefficients and roles take effect
together; and the collection of ACCEPTED words at the lead (R357). -/

namespace Sys2Proof.Machine

/-- The cores of a stall. -/
def stallCores (s : State) (i : Stall) : List CoreId := (List.finRange 32).filter fun k => coreStall s k == some i

/-- The function tables of a charter on the stall's cores; a slot without an item is empty (R169, R174, R359). -/
def State.installTables (s : State) (i : Stall) (c : Charter) : State :=
  forEach (stallCores s i) s fun s k => s.modCore k fun x => { x with vu := { x.vu with
    tables := Vector.ofFn fun slot =>
      match c.functions.find? fun f => f.core.toNat == k.val && f.slot.toNat == slot.val with
      | some f => f.table
      | none => []
    heldTables := Vector.replicate 16 [] } }

/-- The charter becomes the active one (R353, R359): tensor contents, tariffs, t, statistics and seed stay. -/
def State.activate (s : State) (i : Stall) (c : Charter) : State :=
  let s1 := s.modCharter i fun p => { p with
    active := some c, activeSlot := c.slot, pending := none, checking := none, loader := 0
    loads := satAdd p.loads 1, scheduled := false, swapAt := none }
  let s2 := s1.modLedger i fun l => { l with buckets := BitVec.ofNat 21 c.buckets.length, runs := [] }
  let s3 := s2.modSettle i fun x => { x with
    compat := c.settle.any fun e => seCompat e.raw
    coef := c.groups, tau := c.tau, nscale := c.nscale, heldCoef := [] }
  let s4 := s3.modSeq i fun q => { q with nextCauses := clearBit q.nextCauses 11 }
  s4.installTables i c

/-- The roles that a charter gives its member when it is loaded in EMPTY (R347). SYNCED reads 1 from here on, before the first
sync flit (DESIGN CHOICE, log entry 148: R44 speaks of the time after a sync flit). -/
def State.takeRoles (s : State) (i : Stall) (c : Charter) : State :=
  s.modMarch i fun m => { m with
    member := c.member, lead := c.member == c.lead, deputy := c.member == c.deputy, synced := true }

/-- The members whose latest ACCEPTED word does not carry the EPOCH (R357). -/
def missingWords (t : StallState) (c : Charter) : List Member :=
  c.members.filter fun m => !isFenced t m && !t.charter.epochs.any fun e => e.1 == m && e.2.1 == c.epoch

/-- Does the lead hold a matching word from every member of its pending charter (R358)? -/
def swapReady (t : StallState) : Bool :=
  match t.charter.pending with
  | some c => (missingWords t c).isEmpty
  | none => false

/-- The pending charter takes effect (R358, R359); ports that it leaves unused go dark (R330). -/
def State.swapIn (s : State) (i : Stall) : State :=
  match (s.stall i).charter.pending with
  | some c => (s.activate i c).darkenUnused i
  | none => s

end Sys2Proof.Machine
end

