-- ==== Sys2Proof/Machine/Keccak.lean ====
section
/-! DEFINITION. SHA3-256 and SHAKE256 (FIPS 202), which the spec names for the digests of slots, updates, customs tables,
images, checkpoints and waybills (R342, R361, R399, R406, R415, R462). The standard lies outside the spec (log entry 12).
The 1,600 bits of its state are one bit vector, lane (x, y) in bits 64 (x + 5 y) and up; the constants are computed as the
standard defines them, by the walk over the lanes and by the 8-bit shift register. -/

namespace Sys2Proof.Machine

/-- The lane in column `x` and row `y`, both taken modulo 5. -/
def spongeLane (a : BitVec 1600) (x y : Nat) : BitVec 64 := a.extractLsb' (64 * (x % 5 + 5 * (y % 5))) 64

/-- A state from its lanes. -/
def spongeOf (f : Nat → Nat → BitVec 64) : BitVec 1600 :=
  BitVec.ofNat 1600 ((List.range 25).foldr (fun n acc => (f (n % 5) (n / 5)).toNat * 2 ^ (64 * n) + acc) 0)

/-- The sum of column `x`. -/
def columnSum (a : BitVec 1600) (x : Nat) : BitVec 64 :=
  (List.range 5).foldl (fun acc y => acc ^^^ spongeLane a x y) 0

/-- The step theta. -/
def stepTheta (a : BitVec 1600) : BitVec 1600 :=
  spongeOf fun x y => spongeLane a x y ^^^ columnSum a (x + 4) ^^^ (columnSum a (x + 1)).rotateLeft 1

/-- The lanes in the order of the walk (x, y) to (y, 2 x + 3 y) from (1, 0), with the triangular number of each. -/
def laneWalk : Nat → Nat × Nat → Nat → List ((Nat × Nat) × Nat)
  | 0, _, _ => []
  | fuel + 1, p, t => (p, (t + 1) * (t + 2) / 2 % 64) :: laneWalk fuel (p.2, (2 * p.1 + 3 * p.2) % 5) (t + 1)

/-- The rotation of a lane; lane (0, 0), which the walk does not meet, is not rotated. -/
def laneTurn (x y : Nat) : Nat := ((laneWalk 24 (1, 0) 0).lookup (x, y)).getD 0

/-- The rotations at position x + 5 y. -/
def laneTurns : List Nat := (List.range 25).map fun n => laneTurn (n % 5) (n / 5)

/-- The steps rho and pi: lane (x, y) takes lane (x + 3 y, x), turned. -/
def stepRhoPi (a : BitVec 1600) : BitVec 1600 :=
  spongeOf fun x y =>
    (spongeLane a (x + 3 * y) x).rotateLeft (laneTurns.getD ((x + 3 * y) % 5 + 5 * x) 0)

/-- The step chi. -/
def stepChi (a : BitVec 1600) : BitVec 1600 :=
  spongeOf fun x y => spongeLane a x y ^^^ (~~~spongeLane a (x + 1) y &&& spongeLane a (x + 2) y)

/-- The shift register of the round constants after `t` steps: its polynomial is x^8 + x^6 + x^5 + x^4 + 1. -/
def constRegister : Nat → BitVec 8
  | 0 => 1
  | t + 1 => let r := constRegister t; (r <<< 1) ^^^ (if r.getLsbD 7 then 0x71 else 0)

/-- The constant of a round: bit 2^j − 1 is bit 0 of the register after j + 7 · round steps. -/
def roundConst (r : Nat) : BitVec 1600 :=
  BitVec.ofNat 1600 ((List.range 7).foldr
    (fun j acc => (if (constRegister (j + 7 * r)).getLsbD 0 then 2 ^ (2 ^ j - 1) else 0) + acc) 0)

/-- The constants of the 24 rounds. -/
def roundConsts : List (BitVec 1600) := (List.range 24).map roundConst

/-- Keccak-f[1600]. -/
def permute (a : BitVec 1600) : BitVec 1600 :=
  roundConsts.foldl (fun a c => stepChi (stepRhoPi (stepTheta a)) ^^^ c) a

/-- Bytes per block of both functions. -/
def spongeRate : Nat := 136

/-- The message with its suffix byte, filled to whole blocks, the last byte's top bit set. -/
def spongePad (suffix : Byte) (m : List Byte) : List Byte :=
  let l := m ++ suffix :: List.replicate (spongeRate - 1 - m.length % spongeRate) 0
  l.dropLast ++ [l.getLastD 0 ||| 0x80]

/-- Take blocks in. -/
def absorbAll (bs : List (List Byte)) : BitVec 1600 :=
  bs.foldl (fun a b => permute (a ^^^ BitVec.ofNat 1600 (ofLe b))) 0

/-- Give blocks out. -/
def squeeze : Nat → BitVec 1600 → List Byte
  | 0, _ => []
  | fuel + 1, a => leBytes spongeRate a ++ squeeze fuel (permute a)

/-- `n` bytes of the sponge over a message. -/
def sponge (suffix : Byte) (n : Nat) (m : List Byte) : List Byte :=
  let p := spongePad suffix m
  (squeeze (n / spongeRate + 1) (absorbAll (chunksOf spongeRate (p.length / spongeRate) p))).take n

/-- SHA3-256 of a byte string; byte 0 of the digest in bits 7 to 0. -/
def sha3 (m : List Byte) : BitVec 256 := ofBytes 256 (sponge 0x06 32 m)

/-- `n` bytes of SHAKE256 of a byte string. -/
def shake256 (n : Nat) (m : List Byte) : List Byte := sponge 0x1F n m

/-- The bytes of a 256-bit value, lowest first. -/
def bytes256 (v : BitVec 256) : List Byte := leBytes 32 v

/-- The bytes of an ASCII string. -/
def asciiBytes (s : String) : List Byte := s.toList.map fun c => BitVec.ofNat 8 c.toNat

end Sys2Proof.Machine
end

