-- ==== Sys2Proof/Machine/Checkpoint.lean ====
section
/-! DEFINITION. Checkpoint generations (R461 to R464): their place in the CHECKPOINT regions, their header, the job, and
the restore. -/

namespace Sys2Proof.Machine

/-! ### Region records of a charter (Table 12-3) -/

def rgIndex (r : BitVec 256) : Nat := fldN r 0 10
def rgTier (r : BitVec 256) : Nat := fldN r 10 3
def rgKind (r : BitVec 256) : Nat := fldN r 13 3
def rgGuarded (r : BitVec 256) : Bool := bit r 16
def rgPerm (r : BitVec 256) : Nat := fldN r 17 4
def rgCore (r : BitVec 256) : Nat := fldN r 21 5
def rgVa (r : BitVec 256) : Nat := fldN r 32 48
def rgSize (r : BitVec 256) : Nat := fldN r 80 48
def rgPlace (r : BitVec 256) : Nat := fldN r 128 64

/-- Insert a region record in index order. -/
def insertRegion (r : BitVec 256) : List (BitVec 256) → List (BitVec 256)
  | [] => [r]
  | q :: l => if rgIndex r ≤ rgIndex q then r :: q :: l else q :: insertRegion r l

/-- The regions of a charter in index order. -/
def regionsByIndex (c : Charter) : List (BitVec 256) := c.regions.foldr insertRegion []

/-- The address of an offset into the concatenation of regions (R462). -/
def concatAddr : List (BitVec 256) → Nat → Option Nat
  | [], _ => none
  | r :: l, off => if off < rgSize r then some (rgVa r + off) else concatAddr l (off - rgSize r)

/-- The offset of an address in the concatenation of regions. -/
def concatOffset : List (BitVec 256) → Nat → Option Nat
  | [], _ => none
  | r :: l, a =>
    if rgVa r ≤ a ∧ a < rgVa r + rgSize r then some (a - rgVa r) else (concatOffset l a).map fun o => o + rgSize r

/-- The STATE and TARIFF regions, which a checkpoint copies. -/
def stateRegions (c : Charter) : List (BitVec 256) := (regionsByIndex c).filter fun r => rgKind r == 0 || rgKind r == 1

/-- The CHECKPOINT regions. -/
def spaceRegions (c : Charter) : List (BitVec 256) := (regionsByIndex c).filter fun r => rgKind r == 3

def regionsSize (l : List (BitVec 256)) : Nat := (l.map rgSize).sum

/-- S of R462. -/
def generationSize (c : Charter) : Nat := 4096 + regionsSize (stateRegions c)

/-- Does the space hold two generations; does it hold one (R462)? -/
def twoGenerations (c : Charter) : Bool := decide (4 * generationSize c ≤ regionsSize (spaceRegions c))
def oneGeneration (c : Charter) : Bool := decide (2 * generationSize c ≤ regionsSize (spaceRegions c))

/-- The offset of a generation in the space. -/
def generationOffset (c : Charter) (buddy : Bool) (g : Bool) : Nat :=
  let n := generationSize c
  if twoGenerations c then (if buddy then 2 * n else 0) + (if g then n else 0)
  else if buddy then n else 0

/-- Read bytes of the space. -/
def spaceByte (s : State) (i : Stall) (c : Charter) (off : Nat) : Byte :=
  match concatAddr (spaceRegions c) off with | some a => s.readVa i a | none => 0

/-- Read a number of the space, lowest byte first. -/
def spaceNat (s : State) (i : Stall) (c : Charter) (off n : Nat) : Nat :=
  ofLe ((List.range n).map fun k => spaceByte s i c (off + k))

/-- The engine that moves a stall's checkpoints: one of its copy engines (R461). -/
def ckptWriter (s : State) (i : Stall) : Writer :=
  match (List.finRange 8).find? fun e => engineStall s e == some i with
  | some e => .copy e
  | none => .route

/-- Write bytes at the addresses that offsets from `off` up stand for in a list of regions. -/
def State.writeRegions (s : State) (i : Stall) (rs : List (BitVec 256)) (off : Nat) (bs : List Byte) : State :=
  forEach (List.range bs.length) s fun s k =>
    match concatAddr rs (off + k) with
    | some a => (s.store (ckptWriter s i) i a [bs.getD k 0]).countBytes i a 1
    | none => s

/-- Write bytes into the space. -/
def State.writeSpace (s : State) (i : Stall) (c : Charter) (off : Nat) (bs : List Byte) : State :=
  s.writeRegions i (spaceRegions c) off bs

/-- MAGIC of a checkpoint header. -/
def ckptMagic : Nat := 0x4B435A47

/-- The march of a generation that is valid and holds a member's state; none where it is not. -/
def generationMarch (s : State) (i : Stall) (c : Charter) (off : Nat) : Option (BitVec 40) :=
  if spaceNat s i c off 4 = ckptMagic ∧ spaceByte s i c (off + 4) = 1 then some (BitVec.ofNat 40 (spaceNat s i c (off + 8) 8))
  else none

/-- The offsets of the generations of one side. -/
def generations (c : Charter) (buddy : Bool) : List Nat :=
  if twoGenerations c then [generationOffset c buddy false, generationOffset c buddy true]
  else if oneGeneration c then [generationOffset c buddy false] else []

/-- The newest valid generation of one side (R463). -/
def newestGeneration (s : State) (i : Stall) (c : Charter) (buddy : Bool) : Option (BitVec 40) :=
  (generations c buddy).foldl (fun acc off =>
    match acc, generationMarch s i c off with
    | some a, some b => if a.toNat < b.toNat then some b else some a
    | none, b => b
    | a, none => a) none

/-- The bytes that a checkpoint holds: every STATE and TARIFF region in index order. -/
def stateBytes (s : State) (i : Stall) (c : Charter) : List Byte :=
  (stateRegions c).flatMap fun r => s.readBytes i (rgVa r) (rgSize r)

/-- Write the bytes of a checkpoint back into the STATE and TARIFF regions; the tariff records that it lacks become
invalid (R237). -/
def State.restoreBytes (s : State) (i : Stall) (c : Charter) (bs : List Byte) : State :=
  forEach (List.range c.buckets.length) (s.writeRegions i (stateRegions c) 0 bs) fun s b =>
    match concatOffset (stateRegions c) (tariffAddr c b) with
    | some o =>
      if o + 16 ≤ bs.length then s else s.setTariff (ckptWriter s i) i c b (clearBit (tariffRecord s i c b) 8)
    | none => s

/-- The 88 bytes of a checkpoint header (Table 16-5). -/
def ckptHeader (s : State) (i : Stall) (c : Charter) (bs : List Byte) : List Byte :=
  let t := s.stall i
  leBytes 4 (BitVec.ofNat 32 ckptMagic) ++ [1, t.march.member.setWidth 8, c.caravanIx.setWidth 8, BitVec.ofNat 8 i.val]
    ++ leBytes 8 (t.march.num.setWidth 64) ++ leBytes 8 (t.settle.step.setWidth 64) ++ leBytes 8 t.lot.seed
    ++ leBytes 4 c.epoch ++ leBytes 4 t.tally.mean ++ leBytes 4 t.tally.var ++ leBytes 4 t.tally.samples
    ++ leBytes 8 (BitVec.ofNat 64 bs.length) ++ leBytes 32 (sha3 bs)

/-- Start a checkpoint job at a march boundary (R461, R462). -/
def State.startCheckpoint (s : State) (i : Stall) (c : Charter) : State :=
  let p := (s.stall i).service.period.toNat
  if p = 0 ∨ (s.stall i).march.num.toNat % p ≠ 0 then s
  else if !oneGeneration c then
    (s.modService i fun v => { v with ckptState := 3, twoGen := false }).record { reason := 0x0213, stall := some i }
  else
    let s1 := s.modService i fun v => { v with ckptState := 1, twoGen := twoGenerations c }
    (s1.writeSpace i c (generationOffset c false (s.stall i).service.gen + 4) [0]).send (.checkpoint i (s.stall i).march.num)

/-- A job that is unfinished when a settling verdict is held is abandoned (R461). -/
def State.abandonCheckpoint (s : State) (i : Stall) : State :=
  if (s.stall i).service.ckptState = 1 then
    (s.modService i fun v => { v with ckptState := 0 }).record { reason := 0x0212, stall := some i }
  else s

/-- CKPT_JOB_DONE (R461, R462): the generation is written whole, VALID last. -/
def execCkptJobDone (i : Stall) (s : State) : Host.Outcome State Fault Refusal :=
  let t := s.stall i
  match t.charter.active with
  | none => .next s
  | some c =>
    if t.service.ckptState != 1 then .next s
    else
      let bs := stateBytes s i c
      let off := generationOffset c false t.service.gen
      let s1 := (s.writeSpace i c (off + 4096) bs).writeSpace i c off (ckptHeader s i c bs)
      .next (s1.modService i fun v => { v with
        ckptState := 0, ckptMarch := t.march.num, gen := if twoGenerations c then !v.gen else v.gen })

/-- The values of a checkpoint header: march, t, seed, m, v, n. -/
def headerNat (h : List Byte) (at_ n : Nat) : Nat := ofLe (slice h at_ n)

/-- BUDDY_CKPT_RECEIVE (R459, R461): a standby that mirrors the sender takes the state as its own mirror; any other
member writes the buddy generation, VALID last. -/
def execBuddyCkptReceive (i : Stall) (m : Member) (header data : List Byte) (s : State) : Host.Outcome State Fault Refusal :=
  let t := s.stall i
  match t.charter.active with
  | none => .next s
  | some c =>
    let march := BitVec.ofNat 40 (headerNat header 8 8)
    if t.service.mirrorMember = m ∧ 64 ≤ t.march.member.toNat then
      .next ((s.restoreBytes i c data).modService i fun v => { v with mirrorMarch := march, mirrorCurrent := true })
    else
      match generations c true with
      | [] => .next s
      | offs =>
        let older := offs.foldl (fun acc off =>
          match generationMarch s i c acc, generationMarch s i c off with
          | some a, some b => if b.toNat < a.toNat then off else acc
          | some _, none => off
          | none, _ => acc) (offs.getD 0 0)
        let cleared := s.writeSpace i c (older + 4) [0]
        .next ((cleared.writeSpace i c (older + 4096) data).writeSpace i c older (header.set 4 1))

/-- The generation that a member restores (R464): its own of that march, or one that holds its index's state; it must
pass its DIGEST. -/
def restoreFrom (s : State) (i : Stall) (c : Charter) (march : BitVec 40) : Option (List Byte × List Byte) :=
  ((generations c false) ++ generations c true).findSome? fun off =>
    let h := (List.range 88).map fun k => spaceByte s i c (off + k)
    let bs := (List.range (headerNat h 48 8)).map fun k => spaceByte s i c (off + 4096 + k)
    if generationMarch s i c off == some march && (slice h 5 1) == [(ownRole (s.stall i)).setWidth 8]
        && slice h 56 32 == leBytes 32 (sha3 bs) then some (h, bs)
    else none

/-- Restore a member to a common checkpoint (R464): state bytes, march number, t, seed and statistics, and READY; a
member without the generation records CKPT_MISSING and writes nothing. A checkpoint job is abandoned (Table 16-9). -/
def State.restoreTo (s : State) (i : Stall) (march : BitVec 40) : State :=
  match (s.stall i).charter.active with
  | none => s
  | some c =>
    match restoreFrom s i c march with
    | none => s.record { reason := 0x0214, cls := clsModule, stall := some i }
    | some (h, bs) =>
      let s1 := (s.abandonCheckpoint i).restoreBytes i c bs
      let s2 := s1.modMarch i fun m => { m with state := .ready, num := march, repeats := 0, sinceStart := 0 }
      let s3 := s2.modSeq i fun q => { q with hold := 0, repeatAt := none, continuous := false, waiting := [], missing := [] }
      let s4 := s3.modSettle i fun x => { x with step := BitVec.ofNat 40 (headerNat h 16 8) }
      let s5 := s4.modLot i fun l => { l with seed := BitVec.ofNat 64 (headerNat h 24 8), pending := false }
      let s6 := s5.modTally i fun y => { y with
        mean := BitVec.ofNat 32 (headerNat h 36 4), var := BitVec.ofNat 32 (headerNat h 40 4)
        samples := BitVec.ofNat 32 (headerNat h 44 4) }
      if (s.stall i).march.lead then
        (s6.modService i fun v => { v with kind := 2 }).record { reason := 0x020F, cls := clsModule, stall := some i }
      else s6

/-- Is any stall of the module in LEGS, where a RESTORE is ignored (Table 16-9)? -/
def anyInLegs (s : State) : Bool := allStalls.any fun j => (s.stall j).march.state == .legs

/-- A write of FLT_CKPT_CTRL.RESTORE (R464, R472, Table 16-9): at the lead, in READY or in a NO_TAKEOVER hold. -/
def writeRestore (i : Stall) (s : State) : State :=
  let t := s.stall i
  if t.march.lead && !anyInLegs s && (t.march.state == .ready || heldFor t 0x0210) then
    (s.restoreTo i t.service.ckptCommon).send (.relayed i (.restore t.service.ckptCommon))
  else s.ignored i

/-- RESTORE (R464). -/
def execRestore (r : Requester) (i : Stall) (s : State) : Host.Outcome State Fault Refusal :=
  .next (s.guardWrite r (faultOff i 0) (writeRestore i))

/-- A write of FLT_MIRROR (R472): only in READY. -/
def writeMirror (i : Stall) (v : Word) (s : State) : State :=
  if (s.stall i).march.state == .ready then s.modService i fun x => { x with
      mirrorCurrent := x.mirrorCurrent && x.mirrorMember == fld v 0 7, mirrorMember := fld v 0 7 }
  else s

/-- FLT_MIRROR_WRITE (R472). -/
def execFltMirrorWrite (r : Requester) (i : Stall) (v : Word) (s : State) : Host.Outcome State Fault Refusal :=
  .next (s.guardWrite r (faultOff i 0x18) (writeMirror i v))

end Sys2Proof.Machine
end

