-- ==== Sys2Proof/Machine/Legs.lean ====
section
/-! DEFINITION. The legs of a march (R46 to R50): their ticks, lengths and budgets, and the entries that each waits for. -/

namespace Sys2Proof.Machine

/-- The start tick of leg `k` of the current march (R47). -/
def legStart (t : StallState) (c : Charter) (k : Nat) : BitVec 64 := t.march.origin + BitVec.ofNat 64 (c.legOffset k)

/-- Nanoseconds of leg `k` and of its budget (R47, R50). -/
def legNs (c : Charter) (k : Nat) : Nat := 1000 * legLength (c.legs.getD k 0)
def budgetNs (c : Charter) (k : Nat) : Nat := 1000 * (legLength (c.legs.getD k 0) - legGuard (c.legs.getD k 0))

/-- The kind code of leg `k` (Table 02-1). -/
def kindOf (c : Charter) (k : Nat) : BitVec 3 := BitVec.ofNat 3 (legKind (c.legs.getD k 0))

/-- The entries of a leg that its sequencer waits for: every list but the ledger's (R58), without block entries. -/
def legEntries (c : Charter) (k : Nat) : List EntryRef :=
  ((List.finRange 32).flatMap fun q => (List.range (c.stream q).length).filterMap fun n =>
      match (c.stream q)[n]? with
      | some e => if e.sched.leg.toNat = k && !isBlock e.desc then some (.stream q n) else none
      | none => none)
    ++ ((List.finRange 8).flatMap fun e => (List.range (c.copies.getD e.val {}).entries.length).filterMap fun n =>
      match (c.copies.getD e.val {}).entries[n]? with
      | some x => if x.leg.toNat = k then some (.copy e n) else none
      | none => none)
    ++ ((List.range c.recvs.length).filter fun n => (c.recvs.getD n {}).sched.leg.toNat == k).map .recv
    ++ ((List.range c.settle.length).filter fun n => (c.settle.getD n {}).sched.leg.toNat == k).map .settle
    ++ ((List.range c.sends.length).filter fun n => (c.sends.getD n {}).sched.leg.toNat == k).map .send

/-- The entries of a leg that this member's sequencer waits for: a standby's own march waits for none before a takeover
(R459). -/
def marchEntries (t : StallState) (c : Charter) (k : Nat) : List EntryRef := if idleStandby t then [] else legEntries c k

end Sys2Proof.Machine
end

