-- ==== Sys2Proof/Machine/Proof.lean ====
section
/-! DEFINITION. The fit proof (R50 to R56, R244, R245): the list schedule of every leg against its budget, and its
repetition after a retirement (R293, R360). -/

namespace Sys2Proof.Machine

/-- What a failed proof reports (R55, Table 02-13). -/
structure Fit where
  leg : Nat
  engine : Nat
  excess : Nat
  deriving DecidableEq, Repr

/-- The state of one leg's list schedule (R54). -/
structure Slate where
  free : List (Nat × Nat) := []          -- time from which an engine is free
  fin : List (EntryRef × Nat) := []
  worst : Nat := 0
  engine : Nat := 0                      -- the engine of the latest entry
  sends : List (Nat × Nat × Nat) := []   -- a ledger entry's sends: engine, declared time, transfer cost
  miss : Option Fit := none
  deriving DecidableEq, Repr

/-- Engine numbers of MRC_FIT (Table 02-13); the add and write stages of the ledger have numbers of the model's own. -/
def fitLedger : Nat := 168
def fitSettle : Nat := 169
def fitAdd : Nat := 200
def fitWrite : Nat := 201

/-- The engines that an entry occupies (R54). -/
def fitEngines (s : State) (i : Stall) (c : Charter) : EntryRef → List Nat
  | .stream k n => match (c.stream k)[n]? with
    | some e => (unitsOfEntry e.desc).map fun u => 5 * k.val + u
    | none => []
  | .copy e _ => [160 + e.val]
  | .recv n => match recvPath s i c (rtMember (c.recvs.getD n {}).raw) (rtCaravan (c.recvs.getD n {}).raw) with
    | some (p, _, _) => [171 + 2 * p.val]
    | none => [171]
  | .ledger _ => [fitLedger]
  | .settle _ => [fitSettle]
  | .send n => match sendPath s i c (rtMember (c.sends.getD n {}).raw) (rtCaravan (c.sends.getD n {}).raw) with
    | some (p, _, _) => [170 + 2 * p.val]
    | none => [170]

/-- Every entry of a leg that is work, in list order. -/
def fitEntries (c : Charter) (leg : Nat) : List EntryRef :=
  legEntries c leg ++ ((List.range c.ledger.length).filter fun n => (c.ledger.getD n {}).sched.leg.toNat == leg).map .ledger

/-- When an engine is free. -/
def Slate.freeAt (z : Slate) (allow engine : Nat) : Nat := (lookupKey engine z.free).getD allow

/-- The finish of an entry scheduled in this leg. -/
def Slate.finOf (z : Slate) (r : EntryRef) : Option Nat := (z.fin.find? fun e => e.1 == r).map fun e => e.2

/-- Record an entry's finish. -/
def Slate.put (z : Slate) (r : EntryRef) (engines : List Nat) (finish : Nat) : Slate :=
  { z with
    free := engines.foldl (fun l e => insertKey e finish l) z.free
    fin := (r, finish) :: z.fin
    worst := if z.worst < finish then finish else z.worst
    engine := if z.worst < finish then engines.headD 0 else z.engine }

/-- LG cycles as nanoseconds (1.6 GHz). -/
def lgNs (cycles : Nat) : Nat := clockNs 1600 cycles

/-- The largest sum of hops from the root to a leaf of a tree (R244); `fuel` bounds the path. -/
def nodeDepth (nodes : List (BitVec 32)) : Nat → BitVec 32 → Nat
  | 0, _ => 0
  | fuel + 1, n =>
    match nodes.find? fun p => nodeMember p == nodeParent n && nodeCaravan p == nodeParentCaravan n with
    | some p => if nodeParent n = 0x7F then 0 else nodeHops n + nodeDepth nodes fuel p
    | none => 0

def treeDepth (nodes : List (BitVec 32)) : Nat := maxOf (nodes.map (nodeDepth nodes nodes.length)) 0

/-- Transfer cost of a tree edge towards this member, and away from it (R52, R244). -/
def edgeIn (s : State) (i : Stall) (c : Charter) (m : Member) (car : BitVec 6) (hops bytes : Nat) : Nat :=
  pathCost bytes hops (recvPath s i c m car)
def edgeOut (s : State) (i : Stall) (c : Charter) (m : Member) (car : BitVec 6) (hops bytes : Nat) : Nat :=
  pathCost bytes hops (sendPath s i c m car)

/-- The engine of a ledger send. -/
def edgeEngine (s : State) (i : Stall) (c : Charter) (m : Member) (car : BitVec 6) : Nat :=
  match sendPath s i c m car with | some (p, _, _) => 170 + 2 * p.val | none => 170

/-- A requirement of R244: `a ≤ b`, or the proof fails by `a - b`. -/
def Slate.require (z : Slate) (leg a b : Nat) : Slate :=
  if a ≤ b ∨ z.miss.isSome then z else { z with miss := some ⟨leg, fitLedger, a - b⟩ }

/-- ledger_times (R244): the three parts of a ledger entry and its sends. -/
def Slate.ledger (z : Slate) (s : State) (i : Stall) (c : Charter) (leg allow start n : Nat) (survey : Bool) : Slate :=
  let e := c.ledger.getD n {}
  let b := c.bucket (leBucket e.raw)
  let x := bkElems b
  if x = 0 then { z with fin := (.ledger n, start) :: z.fin }
  else
    let tree := c.trees.getD (bkTree b) []
    let m := c.member
    let bytes := ceilDiv x 2048 * 12320
    let rate (va : Nat) := let t := tierAt s i va; max 1 (derated s.tiers t (tierRate t 32))
    let rd := max (ceilDiv x 64) (ceilDiv (4 * x) (rate (bkSrc b)))
    let wr := max (ceilDiv x 64) (ceilDiv (4 * x) (rate (bkDst b)))
    let scan := start + lgNs (48 + rd)
    let surveyAt := fldN e.raw 96 32
    let z1 := if survey then z.require leg scan surveyAt else z
    let own := if survey then surveyAt + 2 * (1 + 1500 * treeDepth tree) + lgNs (48 + rd) else scan
    let kids := tree.filter fun d => nodeParent d == m && nodeParentCaravan d == c.caravanIx
    let childUp := fldN e.peer 0 32
    let upIn := kids.foldl (fun a d =>
      max a (childUp + edgeIn s i c (nodeMember d) (nodeCaravan d) (nodeHops d) bytes)) own
    let up := max upIn (z1.freeAt allow fitAdd) + lgNs (ceilDiv x 64)
    let node := (c.treeNode (bkTree b) m).getD 0
    let root := nodeParent node == 0x7F
    let upSend := fldN e.raw 32 32
    let downSend := fldN e.raw 64 32
    let parentDown := fldN e.peer 32 32
    let z2 := if root then z1 else z1.require leg up upSend
    let have_ := if root then up
      else parentDown + edgeIn s i c (nodeParent node) (nodeParentCaravan node) (nodeHops node) bytes
    let z3 := if kids.isEmpty then z2 else z2.require leg have_ downSend
    let done := max have_ (z3.freeAt allow fitWrite) + lgNs (16 + wr)
    let sends :=
      (if root then [] else [(edgeEngine s i c (nodeParent node) (nodeParentCaravan node), upSend,
        edgeOut s i c (nodeParent node) (nodeParentCaravan node) (nodeHops node) bytes)])
      ++ kids.map fun d => (edgeEngine s i c (nodeMember d) (nodeCaravan d), downSend,
        edgeOut s i c (nodeMember d) (nodeCaravan d) (nodeHops d) bytes)
    let finish := sends.foldl (fun a x => max a (x.2.1 + x.2.2)) done
    { z3 with
      free := insertKey fitLedger own (insertKey fitAdd up (insertKey fitWrite done z3.free))
      fin := (.ledger n, finish) :: z3.fin
      worst := if z3.worst < finish then finish else z3.worst
      engine := if z3.worst < finish then fitLedger else z3.engine
      sends := z3.sends ++ sends }

/-- Schedule one entry whose predecessors of the leg are scheduled (R54). -/
def Slate.schedule (z : Slate) (s : State) (i : Stall) (c : Charter) (leg allow : Nat) (survey : Bool) (r : EntryRef) : Slate :=
  let engines := fitEngines s i c r
  let deps := match c.sched r with
    | some x => x.deps.filterMap fun w => (depRef w).bind z.finOf
    | none => []
  let start := deps.foldl max (engines.foldl (fun a e => max a (z.freeAt allow e)) 0)
  match r with
  | .stream k n =>
    match (c.stream k)[n]? with
    | some e => z.put r engines (start + fitNs c (streamCost c e (wakeCharged c k n)))
    | none => z
  | .copy e n =>
    match ((c.copies.getD e.val {}).entries)[n]? with
    | some x => z.put r engines (start + clockNs 1600 (entryCopyCost s i c e x))
    | none => z
  | .settle n => z.put r engines (start + clockNs 2000 (entrySettleCost s i (c.settle.getD n {}).raw))
  | .ledger n => z.ledger s i c leg allow start n survey
  | .recv n =>
    let x := (c.recvs.getD n {}).raw
    if rtBytes x = 0 then z.put r engines start
    else
      let path := recvPath s i c (rtMember x) (rtCaravan x)
      let whole := pathCost (rtBytes x) (rtHops x) path
      let data := match path with
        | some (_, lanes, _) => if lanes = 0 then noPathNs else transferNs (rtBytes x) lanes
        | none => noPathNs
      z.put r engines (max start (rtAt x + whole - data) + data)
  | .send n =>
    let x := (c.sends.getD n {}).raw
    if rtBytes x = 0 then z.put r engines start
    else
      let finish := start + pathCost (rtBytes x) (rtHops x) (sendPath s i c (rtMember x) (rtCaravan x))
      let z1 := z.put r engines finish
      if rtAt x < finish ∧ z1.miss.isNone then { z1 with miss := some ⟨leg, engines.headD 170, finish - rtAt x⟩ } else z1

/-- Is an entry ready: its predecessors of this leg are scheduled, and so is every entry before it on its engines? -/
def fitReady (s : State) (i : Stall) (c : Charter) (left : List EntryRef) (r : EntryRef) : Bool :=
  let deps := match c.sched r with | some x => x.deps.filterMap depRef | none => []
  let engines := fitEngines s i c r
  (deps.all fun d => !left.contains d)
    && (left.takeWhile (· != r)).all fun q => (fitEngines s i c q).all fun e => !engines.contains e

/-- Schedule what is left of a leg; `fuel` bounds the entries. -/
def fitLoop (s : State) (i : Stall) (c : Charter) (leg allow : Nat) (survey : Bool) : Nat → List EntryRef → Slate → Slate
  | 0, _, z => z
  | fuel + 1, left, z =>
    if z.miss.isSome then z
    else match left.find? (fitReady s i c left) with
      | none => z
      | some r => fitLoop s i c leg allow survey fuel (left.filter (· != r)) (z.schedule s i c leg allow survey r)

/-- The sends of the ledger entries take the transmit engines after the leg's route sends (log entry 15). -/
def Slate.placeSends (z : Slate) (allow : Nat) : Slate :=
  z.sends.foldl (fun z x =>
    let finish := max x.2.1 (z.freeAt allow x.1) + x.2.2
    { z with
      free := insertKey x.1 finish z.free
      worst := if z.worst < finish then finish else z.worst
      engine := if z.worst < finish then x.1 else z.engine }) z

/-- The links between dies that are retired, as a mask in the order of Table 16-8. -/
def lostLinks (s : State) : BitVec 12 :=
  BitVec.ofNat 12 ((List.finRange 12).map fun k => if s.anatomy.d2d.get k then 2 ^ k.val else 0).sum

/-- What the retired links between dies add to a leg (R24, R56): nothing while all are in service. -/
def linkExcess (s : State) (c : Charter) (leg : Nat) : Nat :=
  if lostLinks s = 0 then 0 else Config.linkDelay (lostLinks s) c leg

/-- The groups that a member's settlement entries name. -/
def settleGroups (c : Charter) : Nat := (dedup (c.settle.map fun e => seGroup e.raw)).length

/-- The proof of one leg, in its history or survey form. -/
def fitLeg (s : State) (i : Stall) (c : Charter) (leg : Nat) (survey : Bool) : Option Fit :=
  let first := leg == c.firstSettle
  let allow := 2000 + (if first then 16000 else 0)
  let begun := allow + clockNs 2000 (16 + 48 * settleGroups c)
  let z0 : Slate := if first then { free := [(fitSettle, begun)], worst := begun, engine := fitSettle } else {}
  let es := fitEntries c leg
  let z := fitLoop s i c leg allow survey es.length es z0
  match z.miss with
  | some f => some f
  | none =>
    let z1 := z.placeSends allow
    let worst := z1.worst + linkExcess s c leg
    if budgetNs c leg < worst then some ⟨leg, z1.engine, worst - budgetNs c leg⟩ else none

/-- The tariff update of R245 within the budgets after the verdict tick. -/
def fitTariffs (c : Charter) : Option Fit :=
  let room := ((List.range c.legs.length).map fun k => if c.lastReduce < k then budgetNs c k else 0).sum - 16000
  let need := lgNs (ceilDiv c.buckets.length 64)
  if need ≤ room then none else some ⟨c.firstSettle, fitLedger, need - room⟩

/-- The fit proof: the first failure, in leg order (R55). -/
def fitProof (s : State) (i : Stall) (c : Charter) : Option Fit :=
  match (List.range c.legs.length).findSome? fun leg => (fitLeg s i c leg false).orElse fun _ => fitLeg s i c leg true with
  | some f => some f
  | none => if c.buckets.isEmpty then none else fitTariffs c

/-- Is an address in a GUARDED bay? -/
def guardedAt (c : Customs) (va : Nat) : Bool := match regionAt c va with | some (_, g) => g.guarded | none => false

/-- Bytes that an entry moves in a tier, with writes of GUARDED bays twice (R297). -/
def tierBytes (s : State) (i : Stall) (c : Charter) (tier : Nat) (r : EntryRef) : Nat :=
  let one (read : Nat) (write : Nat) (a : Nat) : Nat :=
    if tierAt s i a = tier then read + (if guardedAt (s.stall i).customs a then 2 * write else write) else 0
  match r with
  | .stream _ _ => 0
  | .copy e n =>
    match (c.copies.getD e.val {}).entries[n]? with
    | none => 0
    | some x => ((batchFrom (c.copies.getD e.val {}) x.item.toNat).map fun o =>
        if cpEmpty o.d then 0
        else
          let bytes (ext : Nat → Nat) := cpBlocks o.d * cpSize o.d * (((List.range 6).map ext).foldl (· * ·) 1)
          one (bytes (cpExt o.d)) 0 (cpSrc o.d)
            + one 0 (if cpPad o.d = 1 then bytes (cpBox o) else bytes (cpExt o.d)) (cpDst o.d)).sum
  | .ledger n =>
    let b := c.bucket (leBucket (c.ledger.getD n {}).raw)
    one (4 * bkElems b) 0 (bkSrc b) + one 0 (4 * bkElems b) (bkDst b)
  | .settle n => ((settleTraffic (c.settle.getD n {}).raw).map fun x => one x.2.1 x.2.2 x.1).sum
  | .send n => let x := (c.sends.getD n {}).raw; one (rtBytes x) 0 (rtAddr x)
  | .recv n => let x := (c.recvs.getD n {}).raw; one 0 (rtBytes x) (rtAddr x)

/-- Do a leg's bytes exceed shares × share rate × budget in near memory or the Serai (R296, R297), at the bandwidth in
service (R293)? -/
def legOver (s : State) (i : Stall) (c : Charter) (leg : Nat) : Bool :=
  let moved (tier : Nat) := ((fitEntries c leg).map (tierBytes s i c tier)).sum
  decide (derated s.tiers 1 (c.nearShares * 336 * budgetNs c leg) < moved 1)
    || decide (derated s.tiers 2 (c.seraiShares * 54 * budgetNs c leg) < moved 2)

/-- Does any leg exceed its bandwidth? -/
def overBandwidth (s : State) (i : Stall) (c : Charter) : Bool := (List.range c.legs.length).any (legOver s i c)

/-- MRC_FIT and MRC_FIT_EXCESS of a failed proof (R55); an excess of 2^32 or more is held as 2^32 − 1 (log entry 137). -/
def State.reportFit (s : State) (i : Stall) (f : Fit) : State :=
  s.modMarch i fun m => { m with
    fitValid := true, fitEngine := BitVec.ofNat 8 f.engine, fitLeg := BitVec.ofNat 8 f.leg
    fitExcess := BitVec.ofNat 32 (min f.excess (2 ^ 32 - 1)) }

/-- MRC_FIT after a proof that held. -/
def State.fitHeld (s : State) (i : Stall) : State := s.modMarch i fun m => { m with fitValid := false }

/-- Is a core absent (R19)? -/
def coreAbsent (s : State) (k : CoreId) : Bool := (s.anatomy.dies.getD (k.val / 8) {}).map.getD (k.val % 8) 0 == 0xF

/-- Does a charter use a core that is absent, or a retired engine (R19, R451, R494)? -/
def usesLost (s : State) (i : Stall) (c : Charter) : Bool :=
  ((List.finRange 32).any fun k => bit c.cores k.val && coreAbsent s k)
    || ((List.finRange 8).any fun e => (bit c.engines e.val || bit c.hostQueues e.val) && (s.engine e).retired)
    || (!c.ledger.isEmpty && (s.stall i).ledger.retired)

/-- Report a refused load (R355, Table 12-13): its code, its detail and where it was found; the LOAD event follows (R389). -/
def State.noteRefusal (s : State) (i : Stall) (code detail : Reason) (section_ item : Nat) : State :=
  (s.modCharter i fun p => { p with
    refusalReason := code, refusalDetail := detail
    refusalAt := BitVec.ofNat 32 (section_ * 2 ^ 28 + item % 2 ^ 28)
    refusals := satAdd p.refusals 1 }).raiseEvent i 3

/-- The march of a stall halts with HALT_NOFIT (R19, R56); one that has not begun halts as soon as it does. -/
def State.nofit (s : State) (i : Stall) : State :=
  match (s.stall i).march.state with
  | .ready | .held => s.causeNext i vNofit 0x0203
  | _ => s.cause i vNofit 0x0203

/-- A charter that no longer fits (R56), in time or in the bandwidth of a tier (R293, R297): the march halts with
HALT_NOFIT. MRC_FIT reports a failed schedule alone (R55; log entry 137). -/
def State.refitActive (s : State) (i : Stall) (c : Charter) : State :=
  match fitProof s i c with
  | some f => (s.reportFit i f).nofit i
  | none =>
    if usesLost s i c || overBandwidth s i c then s.nofit i
    else (s.fitHeld i).modSeq i fun q => { q with nextCauses := clearBit q.nextCauses 11 }

/-- A pending charter that no longer fits (R360): dropped with reason FIT; its member sends WITHDRAW, and the lead is missing
again itself. -/
def State.refitPending (s : State) (i : Stall) (c : Charter) : State :=
  let f := fitProof s i c
  if f.isSome || usesLost s i c || overBandwidth s i c then
    let t := s.stall i
    let s1 := (s.modCharter i fun p => { p with pending := none, loader := 0 }).noteRefusal i 0x011C 0 2
      (match f with | some f => f.leg | none => 0)
    if t.march.lead then s1.modCharter i fun p => { p with epochs := p.epochs.filter fun e => e.1 != t.march.member }
    else s1.send (.withdraw i)
  else s

/-- The repeated proof after a retirement (R56, R293, R360). -/
def State.refit (s : State) (i : Stall) : State :=
  let s1 := match (s.stall i).charter.active with
    | none => s
    | some c => s.refitActive i c
  match (s1.stall i).charter.pending with
  | none => s1
  | some c => s1.refitPending i c

/-- The repeated proof after a core is lost without a spare in a march: a charter that no longer fits halts the next march
with HALT_NOFIT (R19, Table 16-3). -/
def State.refitNext (s : State) (i : Stall) : State :=
  match (s.stall i).charter.active with
  | none => s
  | some c =>
    let s1 := match fitProof s i c with
      | some f => (s.reportFit i f).causeNext i vNofit 0x0203
      | none => if usesLost s i c || overBandwidth s i c then s.causeNext i vNofit 0x0203 else s
    match (s1.stall i).charter.pending with
    | none => s1
    | some p => s1.refitPending i p

/-- What the fit proof sees of a port: is it down, and its active lanes each way, announced switches done. -/
def portCapacity (s : State) (p : PortId) : Bool × Nat × Nat :=
  ((s.port p).state == 4, activeLanes (txLanesSoon s p), activeLanes (s.port p).rxLanes)

/-- The fit proofs repeated where the capacity of a port differs from what it was (R318, R325, R327, R328); no charter work
uses a side ring (Table 11-3). -/
def State.refitPort (s was : State) (p : PortId) : State :=
  if portMode s p = 1 ∨ portCapacity s p = portCapacity was p then s
  else match portStall s p with | some i => s.refit i | none => s

/-- REFIT (R56, R293, R360): the loader repeats the fit proof of the active and the pending charter. -/
def execRefit (i : Stall) (s : State) : Host.Outcome State Fault Refusal := .next (s.refit i)

end Sys2Proof.Machine
end

