-- ==== Sys2Proof/Machine/MarchOps.lean ====
section
/-! DEFINITION. The march's shared operations (chapter 02): origins, ticks, the verdict exchange, what a verdict does, and
how a march closes. -/

namespace Sys2Proof.Machine

/-- The kind under which leg `k` passes: a march that ends without settlement passes through its remaining legs as IDLE
legs (R67). -/
def kindNow (t : StallState) (c : Charter) (k : Nat) : BitVec 3 :=
  if t.seq.noSettle && decide (c.lastReduce < k) then 0 else kindOf c k

/-- The verdicts after which the march number advances (R66), the host's decision being known. -/
def advances (code : BitVec 4) (decision : BitVec 2) : Bool :=
  code == vAllClear || code == vSaturated || code == vNonfinite || (code == vTally && decision != 0)

/-- The verdicts that repeat the march by themselves (Table 02-2). -/
def repeats (code : BitVec 4) : Bool := code == vShort || code == vFault || code == vOverrun || code == vSupply

/-- The time at which an entry completed. -/
def doneTime (t : StallState) (r : EntryRef) : Option (BitVec 64) := (t.seq.done.find? fun d => d.entry == r).map fun d => d.time

/-- The done time of a leg, once every entry has completed (R57); none before. -/
def legDone (t : StallState) (c : Charter) (k : Nat) : Option Nat :=
  (marchEntries t c k).foldl (fun acc r => match acc, doneTime t r with
    | some a, some b => some (max a b.toNat)
    | _, _ => none) (some 0)

/-- The tick that ends leg `k`, in nanoseconds. -/
def endTick (t : StallState) (c : Charter) (k : Nat) : Nat := (legStart t c k).toNat + legNs c k

/-- Is an entry still unfinished at the tick that ends its leg: has its engine reported none, or a time after that tick
(R57, R58)? -/
def unfinishedAt (t : StallState) (tick : Nat) (r : EntryRef) : Bool :=
  match doneTime t r with | some d => decide (tick < d.toNat) | none => true

/-- Count a leg's guard overrun where its done time falls after its budget, but, in a leg up to the verdict tick, not
after its ending tick (R57, R59). -/
def State.guardOverrun (s : State) (i : Stall) (c : Charter) (k : Nat) : State :=
  let t := s.stall i
  match legDone t c k with
  | none => s
  | some d =>
    let lim := (legStart t c k).toNat + budgetNs c k
    if d ≤ lim ∨ (k ≤ c.lastReduce ∧ endTick t c k < d) ∨ t.seq.overrunLegs.contains (BitVec.ofNat 8 k) then s
    else (s.modMarch i fun m => { m with
        guardOvr := satAdd m.guardOvr 1, guardMax := maxU m.guardMax (BitVec.ofNat 32 (d - lim)) }).modSeq i fun q => { q with
          overrunLegs := q.overrunLegs ++ [BitVec.ofNat 8 k] }

/-- Enter HELD (R67) and raise the HELD event (R389). -/
def State.enterHeld (s : State) (i : Stall) (hold : Reason) : State :=
  ((s.modMarch i fun m => { m with state := .held }).modSeq i fun q => { q with hold := hold }).raiseEvent i 1

/-! ### The march origin -/

/-- What every unit of a stall does at a march origin: the chooser takes its written threshold (R137), held function
tables take effect at a new march number (R176), returning ports are used again (R327). -/
def State.unitsOrigin (s : State) (i : Stall) (new : Bool) : State :=
  let s1 := forEach (stallCores s i) s fun s k => s.modCore k fun x => { x with
    chooser := x.chooserWritten, chooserPending := false
    vu := if new then { x.vu with
        tables := Vector.ofFn fun n => if (x.vu.heldTables.get n).isEmpty then x.vu.tables.get n else x.vu.heldTables.get n
        heldTables := Vector.replicate 16 [] } else x.vu }
  let back := (List.finRange 8).filter fun p => portStall s p == some i && (s.lnk p).returning
  let s2 := forEach back s1 fun s p =>
    (s.modPort p fun x => { x with state := 3, detour := false, sideDir := 0 }).modLnk p fun l => { l with returning := false }
  let s3 := forEach ((List.finRange 8).filter fun p => portStall s p == some i) (forEach back s2 fun s p => s.refitPort s1 p)
    fun s p => s.dropAttempt p
  { s3 with fabric := { s3.fabric with
    delivered := s3.fabric.delivered.filter fun e => e.1 != i
    inbound := s3.fabric.inbound.filter fun e => e.1.1 != i
    sentMsgs := s3.fabric.sentMsgs.set i (Vector.replicate 5 0)
    got := s3.fabric.got.filter fun e => e.1.1 != i } }

/-- A member out of step in a march (R44): it learns of the halt, so that it issues nothing new from its next tick on,
and the caravan counts it as a missing peer with reason TICK_LOST by its halt flit and its word. -/
def State.outOfStepCause (s : State) (i : Stall) : State :=
  let t := s.stall i
  let s1 := (s.modSeq i fun q => { q with
    causes := setBit q.causes vFault.toNat, reasons := addReason q.reasons vFault 0x0206 }).learnHalt i
  let s2 := s1.send (.halt i vFault 0x0206)
  if t.march.lead && !t.seq.haltKnown then s2.send (.haltBroadcast i) else s2

/-- The march's origin is reached (R47, R64, R65, R358): a due swap takes effect, held values are captured, the ledger
starts, and the stall enters LEGS. MRC_VERDICT keeps the last caravan verdict while the march runs (DESIGN CHOICE, log entry
149: Table 02-6 says so, and Table 02-2 gives code 0 to a march in progress). -/
def State.beginMarch (s : State) (i : Stall) : State :=
  let t := s.stall i
  let swapped := if t.charter.swapAt == some t.march.origin then s.swapIn i else s
  match (swapped.stall i).charter.active with
  | none => swapped
  | some c =>
    let new := t.seq.lastNum != some t.march.num
    let busy (e : EngineId) : Bool := let x := swapped.engine e
      engineStall swapped e == some i && (x.state == 4 || (x.state == 3 && !x.source))
    let idle := forEach ((List.finRange 8).filter busy) swapped State.copyIdle
    let s1 := ((idle.unitsOrigin i new).settleOrigin i new).ledgerOrigin i c new
    let s2 := s1.modMarch i fun m => { m with state := .legs, leg := 0, kind := kindOf c 0 }
    let due := (s2.stall i).seq
    let s3 := s2.modSeq i fun q => { q with
      ran := [], done := [], causes := q.nextCauses, reasons := q.nextReasons
      nextCauses := 0, nextReasons := [], haltKnown := false, stopped := (s.stall i).sync.outOfStep, sentVerdict := false
      settles := false, noSettle := false, runAll := false, ended := false, finished := false, hold := 0
      boundary := t.march.origin + BitVec.ofNat 64 c.marchLength, late := 0, overrunLegs := [], words := [], fedWords := []
      waiting := [], repeatAt := none, lastNum := some t.march.num, missing := [] }
    let halting := ((List.range 13).map fun k => BitVec.ofNat 4 k).filter fun k => halts k && bit due.nextCauses k.toNat
    let s4 := forEach halting s3 fun s k => s.causeNow i k (reasonOf due.nextReasons k)
    if t.sync.outOfStep then s4.outOfStepCause i else s4

/-! ### Closing a march -/

/-- Round nanoseconds up to a whole microsecond (R59). -/
def toMicro (n : Nat) : Nat := ceilDiv n 1000 * 1000

/-- Has every member that settles sent SETTLED (R262)? -/
def allSettled (t : StallState) (c : Charter) : Bool :=
  (settlingMembers t c).all fun m => t.settle.settledWords.contains m

/-- Leave SETTLE once the march is finished (R59, R67, R262, R358): the lead announces the next origin, or the swap with
it; the other members wait for the announcement; without continuous running the stall enters READY. -/
def State.closeMarch (s : State) (i : Stall) : State :=
  let t := s.stall i
  match t.charter.active with
  | none => s
  | some c =>
    if !t.seq.finished || (t.march.state != .settle && !heldFor t 0x0402) then s
    else if t.march.lead then
      if t.seq.settles && !allSettled t c then
        (if t.seq.hold = 0x0402 && t.march.state == .settle then s.enterHeld i 0x0402 else s)
      else
        let swap := swapReady t
        if !t.seq.continuous then
          let s1 := (s.modMarch i fun m => { m with state := .ready }).modSeq i fun q => { q with hold := 0 }
          if swap then (s1.swapIn i).send (.relayed i (.swap s.time)) else s1
        else
          let plain := t.seq.boundary.toNat
          let o := if t.seq.late.toNat = 0 then plain else max plain (toMicro (t.seq.late.toNat + 10000))
          let at_ := BitVec.ofNat 64 (max o s.time.toNat)
          let s1 := s.modMarch i fun m => { m with state := .armed, origin := at_ }
          let s2 := s1.modSeq i fun q => { q with hold := 0, repeatAt := some at_ }
          let s3 := if plain < at_.toNat then
              s2.record { reason := 0x0209, stall := some i, detail := BitVec.ofNat 32 (at_.toNat - plain) } else s2
          let s4 := if swap then
              (s3.modCharter i fun p => { p with scheduled := true, swapAt := some at_ }).send (.relayed i (.swap at_))
            else s3.send (.relayed i (.origin at_))
          if t.settle.requests.isEmpty || t.seq.settles then s4 else s4.send (.relayed i (.start (some at_)))
    else if !t.seq.continuous then s.modMarch i fun m => { m with state := .ready }
    else
      match t.seq.repeatAt with
      | some o => s.modMarch i fun m => { m with state := .armed, origin := o }
      | none => s

/-- The boundary effects of a march whose work is over (R66): settlement's statistics and t, the tariff history, the march
number, the checkpoint, the mirror's forward. -/
def State.finishMarch (s : State) (i : Stall) : State :=
  let t := s.stall i
  match t.charter.active with
  | none => s
  | some c =>
    let open_ := (List.range c.legs.length).filter fun k =>
      decide (c.lastReduce < k) && !((marchEntries t c k).all fun r => isDone t r || (t.seq.noSettle && !hasRun t r))
    if t.seq.finished || !t.seq.ended || !open_.isEmpty then s
    else
      let settled := if t.seq.settles then s.settleBoundary i c else s
      let tariffs := settled.ledgerBoundary i c
      let s1 := tariffs.modMarch i fun m => { m with num := m.num + 1, repeats := 0, sinceStart := 0 }
      let s2 := s1.modSeq i fun q => { q with finished := true, noSettle := true }
      let s3 := s2.modSettle i fun x => { x with state := 0 }
      let s4 := if t.seq.settles && c.standbys != 0 then s3.send (.mirror i t.march.num) else s3
      (s4.startCheckpoint i c).closeMarch i

/-- This member has completed its last settlement entry (R262): SETTLED goes to the lead. -/
def State.sendSettled (s : State) (i : Stall) : State :=
  let t := s.stall i
  if t.settle.settled then s
  else
    let s1 := s.modSettle i fun x => { x with
      settled := true, state := 3
      settledWords := if t.march.lead || t.march.deputy then x.settledWords ++ [t.march.member] else x.settledWords }
    if t.march.lead then s1 else s1.send (.settled i t.march.num t.settle.step)

/-- Settlement of a march begins (R249, R262): the prologue starts as soon as the verdict that settles is held; a member
without settlement entries has settled at once. A standby settles as the forwards of its mirrored member arrive
(R459). -/
def State.beginSettle (s : State) (i : Stall) (c : Charter) : State :=
  let s1 := s.modMarch i fun m => { m with state := .settle }
  let s2 := (s1.modSeq i fun q => { q with settles := true, hold := 0 }).settlePrologue i
  if c.settle.isEmpty && !idleStandby (s.stall i) then s2.sendSettled i else s2

/-! ### The verdict exchange -/

/-- Reasons whose reporters need longer before a repeat and report ready (R64, R437, R441, R455): CORE_FAULT,
MODULE_FAULT, THERMAL_HALT, SUPPLY. -/
def needsReady (r : Reason) : Bool := r == 0x020B || r == 0x020C || r == 0x0A07 || r == 0x0202

/-- Does a member need longer before a repeat: by a reason of its march, of which a core fault counts only where a spare is
loaded (R454, R455), or because it is in a brace or a thermal halt (R437, R441)? -/
def needsLonger (s : State) (t : StallState) (rs : List (BitVec 4 × Reason)) : Bool :=
  s.power.brace || s.power.thermalHalt
    || rs.any fun e => needsReady e.2 && (e.2 != 0x020B || !bit t.seq.nextCauses vNofit.toNat)

/-- This member's verdict word (R62, R239, R251, R267, R459, R463). -/
def ownWord (s : State) (i : Stall) (c : Charter) : VerdictWord :=
  let t := s.stall i
  let lc := ledgerCauses t
  let cs := lc.foldl (fun acc e => setBit acc e.1.toNat) t.seq.causes
  let rs := lc.foldl (fun acc e => addReason acc e.1 e.2) t.seq.reasons
  let top := maxOf ((List.range 13).filter fun k => bit cs k) 0
  { member := t.march.member
    causes := if cs = 0 then 2 else cs
    reason := reasonOf rs (BitVec.ofNat 4 top)
    step := t.settle.step, norm := t.ledger.norm, loss := lossWord s i c
    longer := needsLonger s t rs
    missing := missingReport t c
    mirrorOf := if t.service.mirrorCurrent then t.service.mirrorMember else 0x7F, mirrorMarch := t.service.mirrorMarch
    ownGen := newestGeneration s i c false, buddyGen := newestGeneration s i c true }

/-- The causes and reason of a reporter, as the combination takes them. -/
structure Report where
  member : Member
  causes : BitVec 13
  reason : Reason
  step : BitVec 40
  deriving DecidableEq, Repr

/-- The lowest-numbered of members. -/
def lowest (l : List Member) : Member := BitVec.ofNat 7 (minOf (l.map BitVec.toNat) 0x7F)

/-- The highest cause of a set. -/
def topCause (cs : BitVec 13) : BitVec 4 := BitVec.ofNat 4 (maxOf ((List.range 13).filter fun k => bit cs k) 0)

/-- The caravan verdict from the reports, the members whose words are missing, and what the lead found (R60, R62, R64,
R251, R270). `sinceStart` and `limit` decide on HALT_REPEAT_LIMIT. -/
def combine (reports : List Report) (lost : List Member) (leadStep : BitVec 40) (alarms holdEn : BitVec 4)
    (norm2 loss : Word) (leadMember : Member) (sinceStart limit : BitVec 8) : CaravanVerdict :=
  let differ := (reports.filter fun r => r.step != leadStep).map fun r => r.member
  let base := reports.foldl (fun acc r => acc ||| r.causes) (0 : BitVec 13)
  let c1 := if lost.isEmpty then base else setBit base 6
  let c2 := if differ.isEmpty then c1 else setBit c1 10
  let held := alarms &&& holdEn
  let c3 := if held = 0 then c2 else setBit c2 2
  let code := topCause c3
  let saying := reports.filter fun r => bit r.causes code.toNat
  let source := if code = vCounter ∧ !differ.isEmpty then lowest differ
    else if !saying.isEmpty then lowest (saying.map fun r => r.member)
    else if code = vFault then lowest lost else leadMember
  let reason : Reason :=
    if code = vCounter ∧ !differ.isEmpty then 0x0401
    else match saying.find? fun r => r.member == source && topCause r.causes == code with
      | some r => r.reason
      | none => if code = vFault then 0x0207 else if code = vTally then (if bit held 1 then 0x0406 else 0x0405) else 0
  if repeats code && decide (limit.toNat < sinceStart.toNat + 1) then
    { code := vLimit, reason := 0x0205, source := source, causes := setBit c3 12, norm2 := norm2, loss := loss, alarms := alarms }
  else { code := code, reason := reason, source := source, causes := c3, norm2 := norm2, loss := loss, alarms := alarms }

/-- What the parents have reported missing: the reporter, its caravan, and the child with the bucket (R239, R243). -/
def missingReports (t : StallState) : List (BitVec 6 × Member × MissingChild) :=
  (t.seq.words.flatMap fun w => w.missing.map fun e => (ownCaravan t, standsFor t w.member, e))
    ++ t.seq.fedWords.flatMap fun w => w.reports.map fun e => (w.caravan, e.1, e.2)

/-- Has the word of a member arrived, by itself or within its caravan's combined word? -/
def wordArrived (t : StallState) (m : Member) (car : BitVec 6) : Bool :=
  if car = ownCaravan t then t.seq.words.any fun w => standsFor t w.member == m
  else t.seq.fedWords.any fun w => w.caravan == car

/-- The members that the lead counts as short (R240): reported missing by a parent in a bucket, with a word of their own
that arrived and reports no missing child for that bucket. -/
def shortMembers (t : StallState) : List (BitVec 6 × Member) :=
  let all := missingReports t
  dedup ((all.filter fun e => wordArrived t e.2.2.member e.2.2.caravan
    && !all.any fun x => x.1 == e.2.2.caravan && x.2.1 == e.2.2.member && x.2.2.bucket == e.2.2.bucket).map fun e =>
      (e.2.2.caravan, e.2.2.member))

/-- LDG_SHORT_MEMBERS: up to four, in increasing order (Table 08-11). -/
def shortRegister (l : List Member) : Vector Byte 4 :=
  let ix := (List.range 68).filter fun k => l.contains (BitVec.ofNat 7 k)
  Vector.ofFn fun n => BitVec.ofNat 8 (ix.getD n.val 0x7F)

/-- The standby that mirrors a member of any caravan: by the own members' words, or by a caravan's combined word
(R241, R243). -/
def mirrorFor (t : StallState) (m : Member) (car : BitVec 6) : Option Member :=
  if car = ownCaravan t then standbyFor t m
  else match t.seq.fedWords.find? fun w => w.caravan == car with
    | some w => (w.mirrors.find? fun e => e.1 == m).map fun e => e.2
    | none => none

/-- A member of any caravan replaced: here, or by a command to the caravan that it belongs to (R241, R243). -/
def State.replaceIn (s : State) (i : Stall) (car : BitVec 6) (m sb : Member) : State :=
  if car = ownCaravan (s.stall i) then s.replaceMember i m sb else s.send (.relayed i (.fence car m sb))

/-- The fall-back of R241 for the members short in two consecutive attempts. The repeat waits for the standby's report of
readiness, which is late enough for its takeover (log entry 139). -/
def State.fallBack (s : State) (i : Stall) : State :=
  let t := s.stall i
  let now := shortMembers t
  let s1 := forEach (now.filter fun m => t.ledger.shortBefore.contains m) s fun s e =>
    let m := e.2
    let num : BitVec 16 := t.march.num.setWidth 16
    match mirrorFor (s.stall i) m e.1 with
    | some sb =>
      (((s.replaceIn i e.1 m sb).modLedger i fun l => { l with
          fallback := put num 16 ||| put sb 8 ||| put m 0 }).modSeq i fun q => { q with
            waiting := if e.1 = ownCaravan t then q.waiting ++ [sb] else q.waiting }).record
        { reason := 0x0304, cls := clsModule, stall := some i, kind := 13, unit := m.setWidth 16 }
    | none =>
      (s.modLedger i fun l => { l with fallback := put num 16 ||| putB true 15 ||| put m 0 }).record
        { reason := 0x0305, stall := some i, kind := 13, unit := m.setWidth 16 }
  s1.modLedger i fun l => { l with shortBefore := now }

/-- The lead announces the origin of a repeat (R64): at least 100 µs after every member holds the verdict,
and not before the last member that needed longer is ready. -/
def State.announceRepeat (s : State) (i : Stall) : State :=
  let t := s.stall i
  let o := BitVec.ofNat 64 (max (t.seq.verdictTick.toNat + 116000) s.time.toNat)
  if t.march.lead && t.march.state == .waitRepeat && t.seq.waiting.isEmpty && t.seq.repeatAt.isNone then
    (((s.modMarch i fun m => { m with origin := o }).modSeq i fun q => { q with repeatAt := some o }).send
      (.relayed i (.origin o)))
  else s

/-- Wait for a repeat (R64): REPEATS counts it, and TLY_REPEATS the repeat attempt (R271). -/
def State.waitRepeat (s : State) (i : Stall) : State :=
  let s1 := s.modMarch i fun m => { m with state := .waitRepeat, repeats := satAdd m.repeats 1 }
  let s2 := s1.modSeq i fun q => { q with hold := 0, repeatAt := none }
  s2.modTally i fun y => { y with repeats := satAdd y.repeats 1 }

/-- Enter WAIT_REPEAT (R64) and, at the lead, announce the origin as soon as no member is waited for. -/
def State.enterRepeat (s : State) (i : Stall) : State := (s.waitRepeat i).announceRepeat i

/-- A member holds the caravan verdict: the registers that show it, NORM2, the tallies and STL_LAST (R62, R64, R234,
R270, R271, R277). -/
def State.takeVerdict (s : State) (i : Stall) (v : CaravanVerdict) : State :=
  let s1 := s.modMarch i fun m => { m with
    verdict := v, hostDecision := 0, sinceStart := if repeats v.code then satAdd m.sinceStart 1 else m.sinceStart }
  let s2 := (s1.modLedger i fun l => { l with norm2 := v.norm2 }).tallyVerdict i v
  if v.code = vCounter ∧ v.reason = 0x0401 then s2.stlLast i v.reason else s2

/-- A member holds the caravan verdict and acts on it (R62, Table 02-2). -/
def State.applyVerdict (s : State) (i : Stall) (c : Charter) (v : CaravanVerdict) : State :=
  let t := s.stall i
  let s1 := s.takeVerdict i v
  let s2 := if t.march.lead || t.march.deputy then
      s1.modSettle i fun x => { x with record := some ⟨t.march.num, v, 0, x.step⟩ } else s1
  let s3 := s2.raiseEvent i 0
  if v.code = vAllClear then (s3.abandonCheckpoint i).beginSettle i c
  else if v.code = vSaturated ∨ v.code = vNonfinite then
    (s3.modMarch i fun m => { m with state := .settle, kind := 0 }).modSeq i fun q => { q with noSettle := true }
  else if repeats v.code then s3.enterRepeat i
  else s3.enterHeld i 0

/-- What the lead does with a verdict it has formed (R64, R240, R241, R458, R463), then acts on it itself. A repeat, at
once or at a later START, waits for every member whose word is missing or says that it needs longer. -/
def State.leadVerdict (s : State) (i : Stall) (c : Charter) (v : CaravanVerdict) (lost : List Member) : State :=
  let t := s.stall i
  let slow := (t.seq.words.filter fun w => w.longer).map fun w => w.member
  let gens := (settlingMembers t c).map fun m =>
    match t.seq.words.find? fun w => w.member == m with | some w => [w.ownGen, w.buddyGen] | none => [none]
  let common := match gens.flatten with
    | some g :: l => if l.all fun x => x == some g then some g else none
    | _ => none
  let s1 := s.modSeq i fun q => { q with
    sentVerdict := true
    waiting := dedup (lost ++ slow)
    missing := q.missing ++ lost.map fun m => (m, (0x0207 : Reason)) }
  let s2 := s1.modLedger i fun l => { l with shortMembers := shortRegister ((shortMembers t).map fun e => e.2) }
  let s3 := match common with | some g => s2.modService i fun x => { x with ckptCommon := g } | none => s2
  let s4 := if advances v.code 0 then s3.modLedger i fun l => { l with shortBefore := [] } else s3.fallBack i
  (s4.send (.caravanVerdict i v)).applyVerdict i c v

/-- The words of a caravan as reports. -/
def reportsOf (t : StallState) : List Report :=
  t.seq.words.map fun w => ⟨w.member, w.causes, w.reason, w.step⟩

/-- The caravans of a federation other than this one, from its edges. -/
def otherCaravans (c : Charter) : List (BitVec 6) :=
  (dedup (c.fed.flatMap fun e => [fld e 0 6, fld e 6 6])).filter fun k => k != c.caravanIx

/-- The federation lead combines (R243): its own caravan's words and the caravan words, a missing one being
REPEAT_FAULT with VERDICT_LOST. -/
def State.federate (s : State) (i : Stall) (c : Charter) (lost : List Member) (force : Bool) : State :=
  let t := s.stall i
  let absent := (otherCaravans c).filter fun k => !t.seq.fedWords.any fun w => w.caravan == k
  if t.seq.sentVerdict || (!absent.isEmpty && !force) then s
  else
    let far := t.seq.fedWords.map fun w => (⟨w.source, w.causes, w.reason, w.step⟩ : Report)
    let norm2 := normSum ((t.seq.words.map fun w => w.norm) ++ t.seq.fedWords.map fun w => w.norm)
    let loss := chunkRound (t.seq.fedWords.foldl (fun k w => chunkJoin k w.loss) (lossAcc (t.seq.words.map fun w => w.loss)))
    let alarms := leadAlarms t.tally c.lossEn loss
    let gone := lost ++ (absent.map fun _ => (0x7F : Member))
    s.leadVerdict i c (combine (reportsOf t ++ far) gone t.settle.step alarms (fld t.tally.used 28 4) norm2 loss t.march.member
      t.march.sinceStart t.march.repeatLimit) lost

/-- The lead has every word of its members, or the time of Table 02-3 is up (R62). A federation lead goes on when every
caravan's word is there too, or FEDERATION_WORD_TIMEOUT tells it that the time for them is up (R243). -/
def State.tryVerdict (s : State) (i : Stall) (force : Bool) : State :=
  let t := s.stall i
  match t.charter.active with
  | none => s
  | some c =>
    let lost := (liveMembers t c).filter fun m => !t.seq.words.any fun w => w.member == m
    if t.march.state != .verdict || !t.march.lead || t.seq.sentVerdict || (!lost.isEmpty && !force) then s
    else if c.federated && c.caravanIx != 0 then
      let norm := BitVec.ofNat 704 ((t.seq.words.map fun w => w.norm.toNat).sum)
      let v := combine (reportsOf t) lost t.settle.step 0 0 0 0 t.march.member 0 0xFF
      ((s.modSeq i fun q => { q with sentVerdict := true }).modLedger i fun l => { l with
        shortMembers := shortRegister ((shortMembers t).map fun e => e.2) }).send (.federationWord i
        { caravan := c.caravanIx, causes := v.causes, code := v.code, reason := v.reason, source := v.source
          step := t.settle.step, norm := norm, loss := lossAcc (t.seq.words.map fun w => w.loss)
          reports := (missingReports t).map fun e => (e.2.1, e.2.2)
          mirrors := (liveMembers t c).filterMap fun m => (standbyFor t m).map fun sb => (m, sb) })
    else if c.federated then s.federate i c lost false
    else
      let norm2 := normSum (t.seq.words.map fun w => w.norm)
      let loss := lossSum (t.seq.words.map fun w => w.loss)
      let alarms := leadAlarms t.tally c.lossEn loss
      s.leadVerdict i c (combine (reportsOf t) lost t.settle.step alarms (fld t.tally.used 28 4) norm2 loss t.march.member
        t.march.sinceStart t.march.repeatLimit) lost

/-- The verdict exchange begins at a tick (R61, R62): the stall enters VERDICT and sends its word; a fenced member takes
no part in it (R242). -/
def State.beginExchange (s : State) (i : Stall) (c : Charter) (tick : Nat) : State :=
  let s1 := s.modLedger i fun l => { l with firstBad := firstBad (s.stall i) }
  let w := ownWord s1 i c
  let s2 := s1.modMarch i fun m => { m with state := .verdict }
  let s3 := s2.modSeq i fun q => { q with verdictTick := BitVec.ofNat 64 tick, stopped := true, sentVerdict := false }
  if (s.stall i).march.lead then
    (s3.modSeq i fun q => { q with words := w :: q.words.filter fun x => x.member != w.member }).tryVerdict i false
  else if selfFenced (s.stall i) then s3
  else s3.send (.verdictWord i w)

/-! ### Ticks -/

/-- The tick that ends leg `k` of a march in LEGS (R47, R57, R58, R61, R239). -/
def State.tickLegs (s : State) (i : Stall) (c : Charter) (k : Nat) : State :=
  let s1 := s.ledgerDeadline i c k
  let t := s1.stall i
  let known := t.seq.haltKnown || t.sync.outOfStep
  let tick := endTick t c k
  let unfinished := !known && !t.seq.stopped && (marchEntries t c k).any (unfinishedAt t tick)
  let s2 := if unfinished then
      (s1.causeNow i vOverrun 0x0201).record
        { reason := 0x0201, cls := clsRepeat, stall := some i, detail := BitVec.ofNat 32 k }
    else s1.guardOverrun i c k
  let moved := s2.modMarch i fun m => { m with leg := BitVec.ofNat 8 (k + 1), kind := kindOf c (k + 1) }
  if k = c.lastReduce then moved.beginExchange i c tick
  else if known then s2.beginExchange i c tick
  else moved

/-- The tick that ends leg `k` after the verdict tick: the next leg, or the march boundary (R47, R57, R59). -/
def State.tickAfter (s : State) (i : Stall) (c : Charter) (k : Nat) : State :=
  let t := s.stall i
  let s1 := if (legDone t c k).isSome then s.guardOverrun i c k else s
  if k + 1 < c.legs.length then
    s1.modMarch i fun m => { m with leg := BitVec.ofNat 8 (k + 1), kind := kindNow t c (k + 1) }
  else
    let s2 := s1.modSeq i fun q => { q with ended := true }
    if t.march.state = .held then
      if t.march.hostDecision = 2 then (s2.modMarch i fun m => { m with state := .settle }).finishMarch i
      else s2
    else s2.finishMarch i

/-- Does time still run through the legs of a stall: LEGS, SETTLE, and the holds that wait within the march's schedule
(R67)? -/
def ticking (t : StallState) : Bool :=
  !t.seq.left && match t.march.state with
  | .legs => true
  | .settle => !t.seq.ended
  | .held => !t.seq.ended && (t.seq.hold == 0x0208 || (t.seq.hold == 0 && t.march.verdict.code == vTally))
  | _ => false

end Sys2Proof.Machine
end

