-- ==== Sys2Proof/Machine/March.lean ====
section
/-! DEFINITION. Time and march (chapter 02), the SETTLED words and record requests (R262, R263), takeovers and reports of
readiness (R455, R458, R460). -/

namespace Sys2Proof.Machine

/-! ### Synchronisation (R41 to R45) -/

/-- Is a march of a stall in progress: armed, between its origin and its boundary, waiting for a repeat, or in a hold
whose legs still pass? -/
def marching (t : StallState) : Bool :=
  t.march.state == .armed || t.march.state == .legs || t.march.state == .verdict || t.march.state == .settle
    || t.march.state == .waitRepeat || (t.march.state == .held && ticking t)

/-- Is a member the lead of a further caravan of a federation? It is lead in its caravan, and follows the sync flits and
the verdict of the federation's lead (R41, R243); the first caravan is caravan 0 (log entry 138). -/
def furtherLead (t : StallState) : Bool :=
  t.march.lead && (match t.charter.active with | some c => c.federated && c.caravanIx != 0 | none => false)

/-- Does a member steer its timebase by sync flits that it receives (R41, R44)? -/
def follows (t : StallState) : Bool := t.charter.active.isSome && (!t.march.lead || furtherLead t)

/-- Whom a member's sync flits go to (R41, R317): its children in tree 0; the standby of its side ring, where it is the
ring's first member and tree 0 does not name the standby; and from the lead of the first caravan the lead of every
further caravan, whose member index the charter does not name (0x7F, log entry 138). With each, the hops that it
adds. -/
def syncTargets (t : StallState) (c : Charter) : List (Member × BitVec 6 × Nat) :=
  let self := t.march.member
  let kids := (c.children 0 self).map fun ch =>
    (ch.1, ch.2, match (c.trees.getD 0 []).find? fun n => nodeMember n == ch.1 && nodeCaravan n == ch.2 with
      | some n => nodeHops n | none => 1)
  let sb : Member := BitVec.ofNat 7 (64 + self.toNat / 16)
  let ring := if self.toNat < 64 ∧ self.toNat % 16 = 0 ∧ c.rp6Mode = 1 ∧ c.members.contains sb ∧ (c.treeNode 0 sb).isNone
    then [(sb, c.caravanIx, 1)] else []
  let leads := if t.march.lead ∧ c.federated ∧ c.caravanIx = 0 then (otherCaravans c).map fun k => ((0x7F : Member), k, 0) else []
  kids ++ ring ++ leads

/-- Send the sync flit of an instant on: to every target on the port towards it (R41). -/
def State.sendSync (s : State) (i : Stall) (stamp : BitVec 64) (hops : BitVec 8) : State :=
  let t := s.stall i
  match t.charter.active with
  | none => s
  | some c => forEach (syncTargets t c) s fun s x =>
      match exitPort s c t x.1 x.2.1 none with
      | some (p, _) => s.send (.sync i p x.1 x.2.1 stamp (hops + BitVec.ofNat 8 x.2.2))
      | none => s

/-- SYNC_FLIT_SEND (R41): the lead sends a sync flit 50 µs after the one before. The lead of a further caravan sends
none of its own: it forwards those of the first caravan's lead down its tree. -/
def execSyncFlitSend (i : Stall) (s : State) : Host.Outcome State Fault Refusal :=
  let t := s.stall i
  if t.march.lead && t.charter.active.isSome && !furtherLead t then
    let s1 := s.atTime (t.sync.last + 50000)
    .next ((s1.modSync i fun y => { y with last := s1.time, hops := 0 }).sendSync i s1.time 0)
  else .next s

/-- The offset of a timebase from an arriving sync flit, in nanoseconds (R42). -/
def syncOffset (s : State) (p : PortId) (stamp : BitVec 64) : Int :=
  ((stamp.toNat : Int) + (s.port p).delay.toNat) - s.time.toNat

/-- The correction that R42 allows: the whole offset in a step while no march of any stall is in progress and it exceeds
1 µs, else a slew of at most 1 ns in every 10 µs since the last sync flit. -/
def syncCorrection (s : State) (i : Stall) (off : Int) : Int :=
  let slew : Nat := (s.time.toNat - (s.stall i).sync.last.toNat) / 10000
  if (allStalls.all fun j => !marching (s.stall j)) && decide (1000 < off.natAbs) then off
  else max (-(slew : Int)) (min (slew : Int) off)

/-- SYNC_FLIT_RECEIVE (R41, R42, R44): the offset is measured and corrected, the flit forwarded to the children. -/
def execSyncFlitReceive (i : Stall) (p : PortId) (stamp : BitVec 64) (hops : BitVec 8) (s : State) :
    Host.Outcome State Fault Refusal :=
  let t := s.stall i
  if t.march.lead && !furtherLead t then .next s
  else
    let off := syncOffset s p stamp
    let time := BitVec.ofNat 64 ((s.time.toNat : Int) + syncCorrection s i off).toNat
    let bound : Nat := if t.march.lead then 100 else 20
    let within := decide (off.natAbs ≤ bound)
    let s1 := ({ s with time := time }.modSync i fun y => { y with
      holdover := false, last := time, hops := hops
      offset := BitVec.ofInt 16 (max (-32767) (min 32767 off))
      outOfStep := y.outOfStep && !within }).modMarch i fun m => { m with synced := m.synced || within }
    .next (s1.sendSync i time hops)

/-- DELAY_MEASURE (R42): the measured one-way delay of a link. -/
def execDelayMeasure (p : PortId) (ns : BitVec 32) (s : State) : Host.Outcome State Fault Refusal :=
  .next (s.modPort p fun x => { x with delay := ns })

/-- HOLDOVER (R44): 50 µs without a sync flit. -/
def execHoldover (i : Stall) (s : State) : Host.Outcome State Fault Refusal :=
  let t := s.stall i
  if !follows t then .next s
  else .next ((s.atTime (t.sync.last + 50000)).modSync i fun y => { y with holdover := true })

/-- SYNCED_LOST (R44): 200 µs without a sync flit; the member still marches. -/
def execSyncedLost (i : Stall) (s : State) : Host.Outcome State Fault Refusal :=
  let t := s.stall i
  if !follows t then .next s
  else .next (((s.atTime (t.sync.last + 200000)).modSync i fun y => { y with holdover := true }).modMarch i fun m => { m with
    synced := false })

/-- OUT_OF_STEP (R44): 1 ms without a sync flit; no new work from the next tick on, and the caravan counts the member as
a missing peer with reason TICK_LOST. -/
def execOutOfStep (i : Stall) (s : State) : Host.Outcome State Fault Refusal :=
  let t := s.stall i
  if !follows t || t.sync.outOfStep then .next s
  else
    let s1 := ((s.atTime (t.sync.last + 1000000)).modSync i fun y => { y with holdover := false, outOfStep := true }).modMarch i
      fun m => { m with synced := false }
    .next (if t.march.state == .legs then s1.outOfStepCause i else s1.cause i vFault 0x0206)

/-- LEAD_CHANGE (R45, Table 09-7): the deputy becomes lead without a step; the former lead is a missing peer if it was in
a march. The SETTLED words that the deputy has collected count for the close of the march. -/
def execLeadChange (i : Stall) (s : State) : Host.Outcome State Fault Refusal :=
  let t := s.stall i
  match t.charter.active with
  | none => .next s
  | some c =>
    if !t.march.deputy || t.march.lead then .next s
    else
      let s1 := s.atTime (t.sync.last + 200000)
      let s2 := s1.modMarch i fun m => { m with lead := true, deputy := false, synced := true }
      let s3 := (s2.modSync i fun y => { y with holdover := false, hops := 0, last := s1.time }).record
        { reason := 0x020A, stall := some i, kind := 13, unit := t.march.member.setWidth 16 }
      let own := t.charter.pending.getD c
      let s4 := (s3.modCharter i fun p => { p with
        epochs := [(t.march.member, own.epoch, own.seq)], assembled := t.seq.lastNum.isSome }).send (.resendWords i)
      let s5 := s4.sendSync i s1.time 0
      let s6 := if marching t then s5.missingPeer i c.lead 0x020A else s5
      .next (s6.closeMarch i)

/-! ### The march -/

/-- MARCH_ORIGIN (R47, R64): the announced origin of an armed or repeating march is reached. -/
def execMarchOrigin (i : Stall) (s : State) : Host.Outcome State Fault Refusal :=
  let t := s.stall i
  if (t.march.state == .armed || t.march.state == .waitRepeat) && t.seq.repeatAt.isSome && !t.seq.left then
    .next ((s.atTime t.march.origin).beginMarch i)
  else .next s

/-- The tick that ends the current leg fires (R47). -/
def State.fireTick (s : State) (i : Stall) : State :=
  let t := s.stall i
  match t.charter.active with
  | none => s
  | some c =>
    let k := t.march.leg.toNat
    if !ticking t || c.legs.length ≤ k then s
    else
      let s1 := s.atTime (t.march.origin + BitVec.ofNat 64 (c.legOffset (k + 1)))
      if t.march.state == .legs then s1.tickLegs i c k else s1.tickAfter i c k

/-- May an entry report completion: it has run, has not yet completed, and nothing of it is outstanding (R200, R300)? -/
def completable (s : State) (i : Stall) (e : EntryRef) : Bool :=
  let t := s.stall i
  hasRun t e && !isDone t e && !t.seq.left && !s.waits (writerOf i e) && (match e with
    | .ledger n => t.ledger.runs.any fun r => r.index == n && r.complete
    | _ => true)

/-- An entry is complete (R57): its engine counts it and is idle again, and the time is kept. -/
def State.entryDone (s : State) (i : Stall) (c : Charter) (e : EntryRef) : State :=
  let s0 := s.countEntry i c e
  let s1 := match e with | .copy n _ => s0.copyIdle n | _ => s0
  s1.modSeq i fun q => { q with done := q.done ++ [⟨e, s1.time⟩] }

/-- Work of leg `k` that ends after the leg's tick, in a leg after the verdict tick (R59): the overrun is counted, and the
lead learns of the time. -/
def State.lateWork (s : State) (i : Stall) (c : Charter) (k : Nat) : State :=
  let s1 := s.guardOverrun i c k
  if (s.stall i).march.lead then s1.modSeq i fun q => { q with late := maxU q.late s.time } else s1.send (.late i s.time)

/-- The last settlement entry is complete: SETTLED leaves, and late settlement is counted (R59, R262). -/
def State.settleEnds (s : State) (i : Stall) (late : Bool) : State :=
  (if late then s.modSettle i fun x => { x with late := satAdd x.late 1 } else s).sendSettled i

/-- Has an entry ended the settlement of a march: is it a settlement entry, and are all complete? -/
def endsSettle (t : StallState) (c : Charter) : EntryRef → Bool
  | .settle _ => (List.range c.settle.length).all fun n => isDone t (.settle n)
  | _ => false

/-- ENTRY_COMPLETE (R57, R59, R262): an engine reports an entry after `dt` nanoseconds; the last settlement entry sends
SETTLED, late work is reported to the lead, and a march whose work is over closes. -/
def execEntryComplete (i : Stall) (e : EntryRef) (dt : BitVec 64) (s : State) : Host.Outcome State Fault Refusal :=
  let t := s.stall i
  match t.charter.active with
  | none => .next s
  | some c =>
    if !completable s i e then .next s
    else
      let s1 := (s.atTime (s.time + dt)).entryDone i c e
      let k := match c.sched e with | some x => x.leg.toNat | none => 0
      let ending := (t.march.origin + BitVec.ofNat 64 (c.legOffset (k + 1))).toNat
      let isLate := decide (c.lastReduce < k) && decide (ending < s1.time.toNat)
      let s2 := if isLate then s1.lateWork i c k else s1
      let s3 := if endsSettle (s1.stall i) c e then s2.settleEnds i isLate else s2
      .next (if t.march.state == .settle then s3.finishMarch i else s3)

/-- SETTLE_LATE (R59): the lead receives a member's report of late work. -/
def execSettleLate (i : Stall) (_m : Member) (time : BitVec 64) (s : State) : Host.Outcome State Fault Refusal :=
  let t := s.stall i
  if !t.march.lead then .next s
  else
    let s1 := s.modSeq i fun q => { q with late := maxU q.late time }
    let o := BitVec.ofNat 64 (toMicro (time.toNat + 10000))
    if t.march.state == .armed && decide (t.march.origin.toNat < o.toNat) then
      .next ((((s1.modMarch i fun m => { m with origin := o }).modSeq i fun q => { q with repeatAt := some o }).send
        (.relayed i (.origin o))).record
          { reason := 0x0209, stall := some i, detail := BitVec.ofNat 32 (o.toNat - t.march.origin.toNat) })
    else .next s1

/-- HALT_FLIT (R61): the lead receives a halt flit and broadcasts the halt; the cause itself comes with the sender's
verdict word. -/
def execHaltFlit (i : Stall) (m : Member) (code : BitVec 4) (reason : Reason) (s : State) : Host.Outcome State Fault Refusal :=
  let t := s.stall i
  if !t.march.lead || t.march.state != .legs || !halts code || isFenced t m then .next s
  else
    let s1 := (s.learnHalt i).modSeq i fun q => { q with
      missing := if (reason = 0x020C ∨ reason = 0x0206) ∧ !q.missing.any (fun e => e.1 == m) then q.missing ++ [(m, reason)] else q.missing }
    .next (if t.seq.haltKnown then s1 else s1.send (.haltBroadcast i))

/-- HALT_BROADCAST (R61): a member learns of the halt. -/
def execHaltBroadcast (i : Stall) (s : State) : Host.Outcome State Fault Refusal :=
  if (s.stall i).march.state == .legs then .next (s.learnHalt i) else .next s

/-- VERDICT_WORD (R62): a word reaches the lead; with the last one the caravan verdict is formed. -/
def execVerdictWord (i : Stall) (w : VerdictWord) (s : State) : Host.Outcome State Fault Refusal :=
  let t := s.stall i
  if !t.march.lead || t.seq.sentVerdict || isFenced t w.member
      || !(t.march.state == .verdict || t.march.state == .legs) then .next s
  else .next ((s.modSeq i fun q => { q with words := q.words.filter (fun x => x.member != w.member) ++ [w] }).tryVerdict i false)

/-- VERDICT_LOST (R62): at the tick + 10 µs the lead counts every missing word. -/
def execVerdictLost (i : Stall) (s : State) : Host.Outcome State Fault Refusal :=
  let t := s.stall i
  if t.march.state == .verdict && t.march.lead && !t.seq.sentVerdict then
    .next ((s.atTime (t.seq.verdictTick + 10000)).tryVerdict i true)
  else .next s

/-- FEDERATION_WORD (R243): a caravan's combined word reaches the federation lead. -/
def execFederationWord (i : Stall) (w : FederationWord) (s : State) : Host.Outcome State Fault Refusal :=
  let t := s.stall i
  match t.charter.active with
  | none => .next s
  | some c =>
    if !t.march.lead || !c.federated || c.caravanIx != 0 || t.seq.sentVerdict then .next s
    else
      .next ((s.modSeq i fun q => { q with fedWords := q.fedWords.filter (fun x => x.caravan != w.caravan) ++ [w] }).tryVerdict
        i (decide (t.seq.verdictTick.toNat + 10000 ≤ s.time.toNat)))

/-- FEDERATION_WORD_TIMEOUT (R243): at the tick + 11 µs missing caravan words count as REPEAT_FAULT. -/
def execFederationWordTimeout (i : Stall) (s : State) : Host.Outcome State Fault Refusal :=
  let t := s.stall i
  match t.charter.active with
  | none => .next s
  | some c =>
    if t.march.state == .verdict && t.march.lead && c.federated && c.caravanIx == 0 && !t.seq.sentVerdict then
      let lost := (liveMembers t c).filter fun m => !t.seq.words.any fun w => w.member == m
      .next ((s.atTime (t.seq.verdictTick + 11000)).federate i c lost true)
    else .next s

/-- CARAVAN_VERDICT (R62, R243, R263): a member acts on it; the lead of a further caravan of a federation relays it. A
member in DECISION_LOST takes the record's values, once, and waits for the relayed command. A fenced member takes no
part (R242). -/
def execCaravanVerdict (i : Stall) (v : CaravanVerdict) (s : State) : Host.Outcome State Fault Refusal :=
  let t := s.stall i
  match t.charter.active with
  | none => .next s
  | some c =>
    if selfFenced t then .next s
    else if t.march.state == .verdict then
      if t.march.lead then
        if furtherLead t then
          .next ((s.send (.caravanVerdict i v)).applyVerdict i c v)
        else .next s
      else .next (s.applyVerdict i c v)
    else if heldFor t 0x0208 && t.march.verdict.code == 0 then
      .next ((s.takeVerdict i v).modMarch i fun m => { m with verdict := { v with reason := 0x0208 } })
    else .next s

/-- DECISION_LOST (R63): no caravan verdict by the tick + 16 µs, at a member or at the lead of a further caravan. CODE and
MRC_CAUSES read 0 and SOURCE names the member itself until the verdict record arrives (DESIGN CHOICE, log entry
141). -/
def execDecisionLost (i : Stall) (s : State) : Host.Outcome State Fault Refusal :=
  let t := s.stall i
  if t.march.state == .verdict && (!t.march.lead || furtherLead t) then
    let s1 := (s.atTime (t.seq.verdictTick + 16000)).modMarch i fun m => { m with
      hostDecision := 0
      verdict := { code := 0, reason := 0x0208, source := m.member, causes := 0, norm2 := m.verdict.norm2, loss := m.verdict.loss
                   alarms := 0 } }
    .next ((s1.modSettle i fun x => { x with state := 4, asked := none }).enterHeld i 0x0208)
  else .next s

/-! ### Commands (R67, R68, R251) -/

/-- Set the origin of the next march and arm the stall. -/
def State.armAt (s : State) (i : Stall) (o : BitVec 64) (continuous : Bool) : State :=
  (s.rouse.modMarch i fun m => { m with state := .armed, origin := o, sinceStart := 0 }).modSeq i fun q => { q with
    continuous := continuous, repeatAt := some o, hold := 0 }

/-- The origin that the lead sets for a START or SINGLE: 100 µs ahead. -/
def startOrigin (s : State) : BitVec 64 := s.time + 100000

/-- Holds from which START repeats the march: the verdicts HALT_HOST, COUNTER_MISMATCH and HALT_REPEAT_LIMIT (Table 02-2,
R251), and NO_TAKEOVER. HALT_NOFIT waits for another charter (log entry 34). -/
def startRepeats (t : StallState) : Bool :=
  t.march.state == .held && (heldFor t 0x0210 || (t.seq.hold == 0
    && (t.march.verdict.code == vHost || t.march.verdict.code == vCounter || t.march.verdict.code == vLimit)))

/-- The effect of START at the lead (R64, R67, R358). A repeat waits for the members that needed longer, as an automatic
one does. -/
def cmdStart (i : Stall) (s : State) : State :=
  let t := s.stall i
  match t.charter.active with
  | none => s.ignored i
  | some c =>
    if t.march.state == .ready && (t.charter.assembled || (missingWords t c).isEmpty) then
      ((s.modCharter i fun p => { p with assembled := true }).armAt i (startOrigin s) true).send (.relayed i (.start (some (startOrigin s))))
    else if startRepeats t then
      let s1 := s.modMarch i fun m => { m with sinceStart := 0 }
      let s2 := s1.modSeq i fun q => { q with continuous := true, verdictTick := s.time }
      ((s2.waitRepeat i).send (.relayed i (.start none))).announceRepeat i
    else s.ignored i

/-- The effect of SINGLE at the lead (R67). -/
def cmdSingle (i : Stall) (s : State) : State :=
  let t := s.stall i
  match t.charter.active with
  | none => s.ignored i
  | some c =>
    if t.march.state == .ready && (t.charter.assembled || (missingWords t c).isEmpty) then
      ((s.modCharter i fun p => { p with assembled := true }).armAt i (startOrigin s) false).send (.relayed i (.single (startOrigin s)))
    else s.ignored i

/-- The effect of STOP (R68): continuous running ends at the next march boundary. -/
def State.stopRunning (s : State) (i : Stall) : State := s.modSeq i fun q => { q with continuous := false }

/-- STOP at the lead. Where the stall does not run continuously (a march after SINGLE, or a second STOP) STOP has no
effect and sets CMD_IGNORED (DESIGN CHOICE, log entry 142: Table 02-5 does not say). -/
def cmdStop (i : Stall) (s : State) : State :=
  let t := s.stall i
  if t.march.state == .empty || t.march.state == .ready || !t.seq.continuous then s.ignored i
  else (s.stopRunning i).send (.relayed i .stop)

/-- STOP_NOW at the lead (R68): HALT_HOST before the verdict tick, STOP after it. -/
def cmdStopNow (i : Stall) (s : State) : State :=
  let t := s.stall i
  match t.march.state with
  | .armed | .legs | .waitRepeat => (s.cause i vHost 0x0204).send (.relayed i .stopNow)
  | _ => cmdStop i s

/-- An ACCEPT acts on a member in its hold (R249, R251, R263): the SETTLE legs run on schedule, or at once where they have
begun. -/
def State.acceptHold (s : State) (i : Stall) (c : Charter) : State :=
  let t := s.stall i
  let begun := decide ((legStart t c c.firstSettle).toNat ≤ s.time.toNat)
  let s1 := s.modMarch i fun m => { m with hostDecision := if m.verdict.code = vTally then 1 else m.hostDecision }
  let s2 := s1.modSettle i fun x => { x with
    record := x.record.map fun r => { r with hostDecision := if r.verdict.code = vTally then 1 else r.hostDecision }, state := 0 }
  let s3 := (s2.abandonCheckpoint i).beginSettle i c
  (s3.modSeq i fun q => { q with runAll := begun || q.ended }).finishMarch i

/-- A DISCARD acts on a member in its hold (R66, R67, R251, R263). -/
def State.discardHold (s : State) (i : Stall) : State :=
  let t := s.stall i
  if t.march.verdict.code = vCounter then
    (s.modMarch i fun m => { m with state := .ready, hostDecision := 2 }).modSeq i fun q => { q with continuous := false, hold := 0 }
  else
    let s1 := s.modMarch i fun m => { m with
      hostDecision := 2, kind := match t.charter.active with
        | some c => if c.lastReduce < m.leg.toNat then 0 else m.kind
        | none => m.kind }
    let s2 := s1.modSettle i fun x => { x with
      record := x.record.map fun r => { r with hostDecision := 2 }, state := 0 }
    let s3 := s2.modSeq i fun q => { q with noSettle := true, continuous := false, repeatAt := none }
    if t.seq.ended then
      ((s3.modSeq i fun q => { q with hold := 0 }).modMarch i fun m => { m with state := .settle }).finishMarch i
    else s3

/-- ACCEPT at the lead (R251): honoured in a HALT_TALLY hold alone. -/
def cmdAccept (i : Stall) (s : State) : State :=
  let t := s.stall i
  match t.charter.active with
  | none => s.ignored i
  | some c =>
    if t.march.state == .held && t.seq.hold == 0 && t.march.verdict.code == vTally && t.march.hostDecision == 0 then
      (s.acceptHold i c).send (.relayed i .accept)
    else s.ignored i

/-- DISCARD at the lead (R67). -/
def cmdDiscard (i : Stall) (s : State) : State :=
  let t := s.stall i
  if t.march.state == .held && t.seq.hold == 0 && (t.march.verdict.code == vTally || t.march.verdict.code == vCounter)
      && t.march.hostDecision == 0 then
    (s.discardHold i).send (.relayed i .discard)
  else s.ignored i

/-- A command written to MRC_CTRL.CMD (Table 02-7): only the lead acts on it (R68). -/
def writeMarchCmd (i : Stall) (cmd : BitVec 3) (s : State) : State :=
  if cmd = 0 ∨ cmd = 7 then s
  else if !(s.stall i).march.lead then s.ignored i
  else if cmd = 1 then cmdStart i s
  else if cmd = 2 then cmdSingle i s
  else if cmd = 3 then cmdStop i s
  else if cmd = 4 then cmdStopNow i s
  else if cmd = 5 then cmdAccept i s
  else cmdDiscard i s

/-- START (R68); where START and STOP_NOW reach the lead in the same cycle, STOP_NOW wins. -/
def execStart (r : Requester) (i : Stall) (withStopNow : Bool) (s : State) : Host.Outcome State Fault Refusal :=
  .next (s.guardWrite r (marchOff i 0) (writeMarchCmd i (if withStopNow then 4 else 1)))

/-- SINGLE (R68). -/
def execSingle (r : Requester) (i : Stall) (s : State) : Host.Outcome State Fault Refusal :=
  .next (s.guardWrite r (marchOff i 0) (writeMarchCmd i 2))

/-- STOP (R68). -/
def execStop (r : Requester) (i : Stall) (s : State) : Host.Outcome State Fault Refusal :=
  .next (s.guardWrite r (marchOff i 0) (writeMarchCmd i 3))

/-- STOP_NOW (R68). -/
def execStopNow (r : Requester) (i : Stall) (s : State) : Host.Outcome State Fault Refusal :=
  .next (s.guardWrite r (marchOff i 0) (writeMarchCmd i 4))

/-- ACCEPT (R251). -/
def execAccept (r : Requester) (i : Stall) (s : State) : Host.Outcome State Fault Refusal :=
  .next (s.guardWrite r (marchOff i 0) (writeMarchCmd i 5))

/-- DISCARD (R67). -/
def execDiscard (r : Requester) (i : Stall) (s : State) : Host.Outcome State Fault Refusal :=
  .next (s.guardWrite r (marchOff i 0) (writeMarchCmd i 6))

/-- An origin announced by the lead. -/
def State.takeOrigin (s : State) (i : Stall) (o : BitVec 64) : State :=
  let t := s.stall i
  match t.march.state with
  | .armed | .waitRepeat => (s.modMarch i fun m => { m with origin := o }).modSeq i fun q => { q with repeatAt := some o }
  | .settle | .held => (s.modSeq i fun q => { q with repeatAt := some o }).closeMarch i
  | _ => s

/-- A fence and the place that a standby takes, as the lead relays them (R241, R242). -/
def State.takeFence (s : State) (i : Stall) (m sb : Member) : State :=
  s.modLedger i fun l => { l with
    fences := setBit l.fences m.toNat, subst := (l.subst.filter fun e => e.1 != m) ++ [(m, sb)] }

/-- A member reports ready to the lead: with the last one the repeat origin is set. -/
def State.memberIsReady (s : State) (i : Stall) (m : Member) : State :=
  (s.modSeq i fun q => { q with waiting := q.waiting.filter fun x => x != m }).announceRepeat i

/-- A member repeats its fit proof for a takeover and reports ready; one in a brace or a thermal halt reports at its end
(R437, R441, R460). -/
def State.offerReady (s : State) (i : Stall) : State :=
  let s1 := (s.abandonCheckpoint i).refit i
  if s.power.brace || s.power.thermalHalt then s1
  else if (s.stall i).march.lead then s1.memberIsReady i (s.stall i).march.member else s1.send (.ready i)

/-- The march and t that a standby has settled on its mirror: of the march in SETTLE, or of the march just finished
(R459). -/
def mirrorSettled (t : StallState) : Option (BitVec 40 × BitVec 40) :=
  if !t.seq.settles || !t.service.mirrorCurrent then none
  else if t.seq.finished then (if t.service.mirrorMarch == t.march.num then some (t.march.num - 1, t.settle.step - 1) else none)
  else if t.service.mirrorMarch == t.march.num + 1 then some (t.march.num, t.settle.step) else none

/-- A standby that took a member's place in SETTLE sends that member's SETTLED word once its mirror is settled (R262,
R263). -/
def State.standbySettled (s : State) (i : Stall) : State :=
  let t := s.stall i
  match mirrorSettled t with
  | some (march, step) =>
    if idleStandby t || t.march.member.toNat < 64 || t.settle.settled then s
    else (s.modSettle i fun x => { x with settled := true }).send (.settled i march step)
  | none => s

/-- A fence of a member's own caravan (R241, R242, R263, R460): in SETTLE the standby takes the place with its settled
mirror; before a repeat every member repeats its fit proof and reports ready. -/
def State.obeyFence (s : State) (i : Stall) (m sb : Member) : State :=
  let s1 := s.takeFence i m sb
  match (s.stall i).march.state with
  | .verdict | .waitRepeat => s1.offerReady i
  | _ => s1.standbySettled i

/-- The F32 totals that a forward brings, where the settlement entries read them (R459). -/
def State.mirrorTotals (s : State) (i : Stall) (c : Charter) (totals : List (List (BitVec 32))) : State :=
  forEach (List.range c.settle.length) s fun s k =>
    let e := (c.settle.getD k {}).raw
    let ws := totals.getD k []
    forEach (List.range (min ws.length (seCount e))) s fun s n =>
      s.storeElem (.settle i) i c (c.tensor (seGTensor e)) (seG e + 4 * n) .f32 (ws.getD n 0).toNat

/-- The tariff records that a forward brings (R459). -/
def State.mirrorTariffs (s : State) (i : Stall) (c : Charter) (tariffs : List (BitVec 128)) : State :=
  forEach (List.range (min tariffs.length c.buckets.length)) s fun s b => s.setTariff (.settle i) i c b (tariffs.getD b 0)

/-- Every settlement entry has run and is complete. -/
def State.settleMarks (s : State) (i : Stall) (c : Charter) : State :=
  s.modSeq i fun q => { q with
    ran := q.ran ++ ((List.range c.settle.length).map .settle).filter fun e => !q.ran.contains e
    done := q.done ++ (((List.range c.settle.length).map .settle).filter fun e => !q.done.any fun d => d.entry == e).map
      fun e => ⟨e, s.time⟩ }

/-- MIRROR_APPLY (R459): a standby applies the settlement of its mirrored member's march to its own regions: the totals
take the place of the ledger's, the tariff records that of its own. Coefficients, the clip factor, t and seed are its
own; it applies the march that it settles or has last settled (DESIGN CHOICE, log entry 155). A standby that has settled
in the member's place by its own entries applies no forward. -/
def execMirrorApply (i : Stall) (march : BitVec 40) (totals : List (List (BitVec 32))) (tariffs : List (BitVec 128)) (s : State) :
    Host.Outcome State Fault Refusal :=
  let t := s.stall i
  match t.charter.active with
  | none => .next s
  | some c =>
    let settling := t.march.num == march && t.seq.settles && !t.seq.finished
    let settled := t.march.num == march + 1 && (t.seq.finished || !t.settle.started)
    let free := idleStandby t || (t.seq.settles && !(List.range c.settle.length).any fun n => hasRun t (.settle n))
    if !free || t.march.member.toNat < 64 || t.service.mirrorMember == 0x7F || !t.service.mirrorCurrent
        || t.service.mirrorMarch != march || !(settling || settled) then .next s
    else
      let step := if settling then t.settle.step else t.settle.step - 1
      let s1 := (s.mirrorTotals i c totals).modService i fun v => { v with mirrorMarch := march + 1 }
      let s2 := forEach c.settle s1 fun s e => s.settleEntry i c e.raw t.settle.clip march step
      let s3 := s2.mirrorTariffs i c tariffs
      .next (if settling then (((s3.settleMarks i c).standbySettled i).finishMarch i) else s3.standbySettled i)

/-- COMMAND_RELAY (R68, R242, R263, R358, R461, R464): a member acts on what the lead relays. The lead of a further
caravan takes a fence for its own caravan from the federation lead and relays it on (R243). -/
def execCommandRelay (i : Stall) (cmd : RelayedCommand) (s : State) : Host.Outcome State Fault Refusal :=
  let t := s.stall i
  match t.charter.active with
  | none => .next s
  | some c =>
    if t.march.lead then
      match cmd with
      | .fence car m sb => .next (if furtherLead t && car == c.caravanIx then s.replaceMember i m sb else s)
      | _ => .next s
    else match cmd with
      | .start o =>
        match t.march.state, o with
        | .ready, some x => .next (s.armAt i x true)
        | .held, _ =>
          if t.march.hostDecision = 2 then
            .next (s.modSeq i fun q => { q with continuous := true, repeatAt := if o.isSome then o else q.repeatAt })
          else
            let s1 := s.modMarch i fun m => { m with
              sinceStart := if t.seq.hold == 0x0208 && repeats t.march.verdict.code then m.sinceStart else 0 }
            let s2 := (s1.modSeq i fun q => { q with continuous := true }).waitRepeat i
            .next (match o with | some x => s2.takeOrigin i x | none => s2)
        | _, _ => .next s
      | .single o => if t.march.state == .ready then .next (s.armAt i o false) else .next s
      | .stop => .next (s.stopRunning i)
      | .stopNow =>
        match t.march.state with
        | .legs => .next (s.learnHalt i)
        | .armed | .waitRepeat => .next s
        | _ => .next (s.stopRunning i)
      | .accept =>
        if t.march.state == .held && (t.seq.hold == 0x0208 || (t.seq.hold == 0 && t.march.verdict.code == vTally)) then
          let late := t.seq.hold == 0x0208
          let s1 := s.acceptHold i c
          .next (if late then s1.record { reason := 0x0209, stall := some i } else s1)
        else .next s
      | .discard =>
        if t.march.state == .held && (t.seq.hold == 0x0208 || (t.seq.hold == 0
            && (t.march.verdict.code == vTally || t.march.verdict.code == vCounter))) then .next (s.discardHold i)
        else .next s
      | .restore march => .next (if anyInLegs s then s.ignored i else s.restoreTo i march)
      | .lift fences => .next (s.modLedger i fun l => { l with lifts := l.lifts ||| (fences &&& l.fences) })
      | .fence car m sb => .next (if car = c.caravanIx then s.obeyFence i m sb else s)
      | .swap o =>
        if t.march.state == .ready || t.march.state == .held then
          .next ((s.swapIn i).modMarch i fun m => { m with state := .ready })
        else .next ((s.modCharter i fun p => { p with swapAt := some o }).takeOrigin i o)
      | .origin o => .next (s.takeOrigin i o)
      | .period p => .next (s.modService i fun v => { v with period := p })

/-! ### SETTLED words and record requests (R262, R263) -/

/-- SETTLED (R262): a member's word reaches the lead; with the last one the next origin may be announced. The deputy, to
which members send it where the lead has failed, collects it too (Table 09-7). -/
def execSettled (i : Stall) (m : Member) (march _step : BitVec 40) (s : State) : Host.Outcome State Fault Refusal :=
  let t := s.stall i
  let num := match t.settle.record with | some r => r.march | none => t.march.num
  if !(t.march.lead || t.march.deputy) || march != num || t.settle.settledWords.contains m || isFenced t m then .next s
  else .next ((s.modSettle i fun x => { x with settledWords := x.settledWords ++ [m] }).closeMarch i)

/-- RECORD_REQUEST (R263): every 10 µs a member in DECISION_LOST asks the lead. -/
def execRecordRequest (i : Stall) (s : State) : Host.Outcome State Fault Refusal :=
  let t := s.stall i
  if !heldFor t 0x0208 then .next s
  else
    let n := match t.settle.asked with | some n => n + 1 | none => 0
    let s1 := s.atTime (t.seq.verdictTick + 16000 + BitVec.ofNat 64 (10000 * n))
    .next ((s1.modSettle i fun x => { x with asked := some n }).send (.recordRequest i))

/-- The command that matches a verdict record (R263): none where the verdict holds for a host that has not decided.
START carries the origin where the lead has announced one; otherwise the announcement follows. -/
def matchingCommand (r : VerdictRecord) (o : Option (BitVec 64)) : Option RelayedCommand :=
  if r.verdict.code = vAllClear ∨ (r.verdict.code = vTally ∧ r.hostDecision = 1) then some .accept
  else if advances r.verdict.code r.hostDecision then some .discard
  else if repeats r.verdict.code then some (.start o)
  else none

/-- RECORD_ANSWER (R263): the lead, or the deputy in its place, answers a request and relays the matching command; while
the caravan runs continuously a DISCARD is followed by START with the next origin, at once where it is announced and
else with its announcement. -/
def execRecordAnswer (i : Stall) (m : Member) (s : State) : Host.Outcome State Fault Refusal :=
  let t := s.stall i
  match t.settle.record with
  | none => .next s
  | some r =>
    if !t.march.lead then .next s
    else
      let asked := s.modSettle i fun x => { x with requests := if x.requests.contains m then x.requests else x.requests ++ [m] }
      let s1 := asked.send (.recordAnswer i m r)
      match matchingCommand r t.seq.repeatAt with
      | none => .next s1
      | some cmd =>
        let s2 := s1.send (.relayed i cmd)
        .next (if cmd = .discard ∧ t.seq.continuous ∧ t.seq.repeatAt.isSome
          then s2.send (.relayed i (.start t.seq.repeatAt)) else s2)

/-- SETTLE_UNCONFIRMED (R263): 1 ms after the verdict tick a member with neither SETTLED nor a request is replaced by a
standby with a current mirror; without one the lead holds. -/
def execSettleUnconfirmed (i : Stall) (m : Member) (s : State) : Host.Outcome State Fault Refusal :=
  let t := s.stall i
  match t.charter.active with
  | none => .next s
  | some c =>
    if !t.march.lead || !t.seq.settles || t.settle.settledWords.contains m || t.settle.requests.contains m
        || !(settlingMembers t c).contains m || (t.march.state != .settle && !heldFor t 0x0402) then .next s
    else
      let s1 := s.atTime (t.seq.verdictTick + 1000000)
      match standbyFor t m with
      | some sb =>
        .next (((s1.replaceMember i m sb).stlLast i 0x0403).record
            { reason := 0x0403, cls := clsModule, stall := some i, kind := 13, unit := m.setWidth 16 } |>.closeMarch i)
      | none =>
        let s2 := (s1.stlLast i 0x0402).record
          { reason := 0x0402, cls := clsModule, stall := some i, kind := 13, unit := m.setWidth 16 }
        .next ((s2.modSeq i fun q => { q with hold := 0x0402 }).closeMarch i)

/-! ### Readiness and takeover (R64, R455, R458, R460) -/

/-- SPARE_READY (R455): a mapped and loaded spare is reported to the lead. -/
def execSpareReady (i : Stall) (m : Member) (s : State) : Host.Outcome State Fault Refusal :=
  if (s.stall i).march.lead then .next (s.memberIsReady i m) else .next s

/-- MEMBER_READY (R64, R458). A fenced member's report changes nothing (Table 16-9). -/
def execMemberReady (i : Stall) (m : Member) (s : State) : Host.Outcome State Fault Refusal :=
  let t := s.stall i
  if t.march.lead && !isFenced t m then .next (s.memberIsReady i m) else .next s

/-- The members whose readiness the lead waits for and that it counts missing (R458, R437): without a word, or with one
that reports MODULE or THERMAL_HALT. A member that only needs longer is not missing (R64, R441, R455). -/
def missingPeers (t : StallState) : List Member :=
  t.seq.waiting.filter fun m => !t.seq.words.any fun w => w.member == m && !(w.reason == 0x020C || w.reason == 0x0A07)

/-- A mirror takeover of one member (R460): fenced, replaced, shown in FLT_TAKEOVER and recorded. -/
def State.takeOver (s : State) (i : Stall) (m : Member) : State :=
  match standbyFor (s.stall i) m with
  | some sb =>
    ((s.replaceMember i m sb).modService i fun v => { v with kind := 1, lost := m, standby := sb }).record
      { reason := 0x020E, cls := clsModule, stall := some i, kind := 13, unit := m.setWidth 16 }
  | none => s

/-- TAKEOVER_WAIT (R458, R460): the wait for a missing member expires, at once where it reported MODULE. Each missing
member with a current mirror is fenced and replaced, and every member, the lead among them, repeats its fit proof and
reports ready; without one the lead holds with NO_TAKEOVER. -/
def execTakeoverWait (i : Stall) (s : State) : Host.Outcome State Fault Refusal :=
  let t := s.stall i
  match t.charter.active with
  | none => .next s
  | some c =>
    let gone := missingPeers t
    if !t.march.lead || t.march.state != .waitRepeat || gone.isEmpty then .next s
    else
      let reported := gone.all fun m => (t.seq.missing.any fun e => e.1 == m && e.2 == 0x020C)
        || t.seq.words.any fun w => w.member == m && w.reason == 0x020C
      let s1 := if reported then s
        else s.atTime (t.seq.verdictTick + 16000 + BitVec.ofNat 64 (1000000 * t.service.wait.toNat))
      if gone.all fun m => (standbyFor t m).isSome then
        let s2 := forEach gone s1 fun s m => s.takeOver i m
        .next ((s2.modSeq i fun q => { q with waiting := liveMembers (s2.stall i) c }).offerReady i)
      else
        .next ((s1.record { reason := 0x0210, cls := clsModule, stall := some i, kind := 13
                            unit := (lowest gone).setWidth 16 }).enterHeld i 0x0210)

end Sys2Proof.Machine
end

