-- ==== Sys2Proof/Machine/Identity.lean ====
section
/-! DEFINITION. The module's identity (R402). -/

namespace Sys2Proof.Machine

/-- The seed of the identity key pair, its public key and the identity tag (R402). -/
def identityKeySeed : List Byte := shake256 32 (bytes256 Config.identitySeed ++ asciiBytes "ZG9640 identity")
def identityPublic : List Byte := Config.mldsaPublic identityKeySeed
def identityTag : BitVec 64 := (sha3 identityPublic).setWidth 64

end Sys2Proof.Machine
end

