-- ==== Sys2Proof/Machine/Route.lean ====
section
/-! DEFINITION. Route ports (chapter 11), the commands: transfers, flits, replay, audits, lanes, discovery, relay,
recalibration, light and bandit mode. -/

namespace Sys2Proof.Machine

/-- The flits of a transfer (R308, R310). -/
def transferFlits (s : State) (i : Stall) (c : Charter) (r : BitVec 256) (msg : Nat) : List Flit :=
  messageFlits 0 (rtMember r, rtCaravan r) (ownRole (s.stall i)) c.caravanIx msg (s.readBytes i (rtAddr r) (rtBytes r))

/-- Is an earlier send of the same leg and port still outstanding (R54)? -/
def sendBlocked (s : State) (i : Stall) (c : Charter) (index : Nat) (p : PortId) : Bool :=
  let t := s.stall i
  let leg := match c.sends[index]? with | some r => r.sched.leg | none => 0
  (List.range index).any fun k =>
    match c.sends[k]? with
    | some r => r.sched.leg == leg && !isDone t (.send k)
        && (match exitPort s c t (rtMember r.raw) (rtCaravan r.raw) none with
            | some e => decide (e.1 = p)
            | none => false)
    | none => false

/-- ROUTE_SEND (R310): a due send leaves as TRANSFER flits on its path; a send without bytes is empty (R14); without a
path the destination is a missing peer (R328). -/
def execRouteSend (i : Stall) (index : Nat) (s : State) : Host.Outcome State Fault Refusal :=
  let t := s.stall i
  match t.charter.active with
  | none => .next s
  | some c =>
    match c.sends[index]? with
    | none => .next s
    | some r =>
      if !due t c (.send index) then .next s
      else if rtBytes r.raw = 0 then
        .next ((s.markRan i (.send index)).modSeq i fun q => { q with done := q.done ++ [⟨.send index, s.time⟩] })
      else match exitPort s c t (rtMember r.raw) (rtCaravan r.raw) none with
        | none => .next (s.missingPeer i (rtMember r.raw) 0x020D)
        | some (p, _) =>
          if sendBlocked s i c index p then .next s
          else .next (((s.markRan i (.send index)).countRead i (rtAddr r.raw) (rtBytes r.raw)).queueFlits p
            ((transferFlits s i c r.raw index).map fun f => { flit := f }))

/-- BANDIT_DELAY_EXPIRE (R334): the held flits go out, then the queue behind them. -/
def execBanditDelayExpire (p : PortId) (s : State) : Host.Outcome State Fault Refusal :=
  let l := s.lnk p
  if l.heldFlits.isEmpty then .next s
  else
    let s1 := (s.atTime l.heldUntil).modLnk p fun l => { l with heldFlits := [] }
    let s2 := forEach l.heldFlits s1 fun s f => s.emit p f
    .next (s2.pump p (s2.lnk p).queue.length)

/-- A flit's identity in the current attempt (R310): source, class, message and index. -/
def flitIdentity (h : BitVec 128) : BitVec 54 := (fld h 77 13 ++ fld h 0 3) ++ fld h 90 38

/-- Bytes of a receive entry that have arrived in the attempt. -/
def gotBytes (s : State) (i : Stall) (k : Nat) : Nat :=
  ((s.fabric.got.filter fun (e : (Stall × Nat) × Nat) => decide (e.1 = (i, k))).map fun e => e.2).sum

/-- The key of a message that arrives: its source, class and MSG. -/
def messageKey (h : BitVec 128) : BitVec 32 := (fld h 77 13 ++ fld h 0 3) ++ fld h 90 16

/-- The bytes of a message that is whole: its flits are there from the first to the one marked LAST. -/
def wholeMessage (fs : List (Nat × Bool × List Byte)) : Option (List Byte) :=
  match fs.find? fun e => e.2.1 with
  | none => none
  | some last =>
    let parts := (List.range (last.1 + 1)).map fun k => (fs.find? fun e => e.1 == k).map fun e => e.2.2
    if parts.all Option.isSome then some (parts.flatMap fun e => e.getD []) else none

/-- A LEDGER flit arrives (R230, R310): once its message is whole, the segments that it packs are received in order. -/
def State.ledgerFlit (s : State) (i : Stall) (f : Flit) : State :=
  let key := messageKey f.header
  let old := match s.fabric.inbound.find? fun e => e.1 == (i, key) with | some e => e.2 | none => []
  let fs := old ++ [(flIndex f.header, bit f.header 39, f.payload.take (flLen f.header))]
  let rest := s.fabric.inbound.filter fun e => !(e.1 == (i, key))
  match wholeMessage fs with
  | none => { s with fabric := { s.fabric with inbound := rest ++ [((i, key), fs)] } }
  | some bs =>
    let s1 := { s with fabric := { s.fabric with inbound := rest } }
    forEach (segmentsIn bs.length bs) s1 fun s g => s.receiveSegment i g

/-- Deliver a flit to this member (R310): a TRANSFER flit's bytes go to the region that its receive record names, a LEDGER
flit's to the ledger engine; duplicates and the void flits of an attempt that is over are discarded. What arrives returns the module from IDLE
(R443). The payload layouts
of CONTROL, RELAY and MIRROR words are not in the spec: they take effect by commands of their own (log entry 145). -/
def State.deliverFlit (s : State) (i : Stall) (c : Charter) (f : Flit) : State :=
  let id := flitIdentity f.header
  if flLen f.header = 0 || s.fabric.delivered.any (fun e => e.1 == i && e.2 == id) then s
  else
    let s0 := { s with fabric := { s.fabric with delivered := s.fabric.delivered ++ [(i, id)] } }
    let s1 := if flClass f.header = 2 ∨ flClass f.header = 4 then s0 else s0.rouse
    if flClass f.header = 1 then s1.ledgerFlit i f
    else if flClass f.header ≠ 0 then s1
    else
      match (List.range c.recvs.length).find? fun k =>
          let r := (c.recvs.getD k {}).raw
          rtMember r == flSrc f.header && rtCaravan r == flSrcCaravan f.header && rtMsg r == flMsg f.header with
      | none => s1
      | some k =>
        let r := (c.recvs.getD k {}).raw
        let off := 256 * flIndex f.header
        let bs := f.payload.take (min (flLen f.header) (rtBytes r - off))
        let old := gotBytes s1 i k
        let s2 := { s1 with fabric := { s1.fabric with
          got := s1.fabric.got.filter (fun (e : (Stall × Nat) × Nat) => !decide (e.1 = (i, k))) ++ [((i, k), old + bs.length)] } }
        (s2.store .route i (rtAddr r + off) bs).countBytes i (rtAddr r + off) bs.length

/-- What a header tells the transmitter: ACK, NAK and returned credits (R311, R313). -/
def State.headerNews (s : State) (p : PortId) (h : BitVec 128) : State :=
  let s1 := s.acknowledge p (flAck h)
  let k := flCrClass h
  let s2 := if k < 5 ∧ 0 < flCredits h then
      s1.modLnk p fun l => { l with credits := l.credits.setIfInBounds k (min (classBuffers k) (l.credits.getD k 0 + flCredits h)) }
    else s1
  let s3 := if flNak h then s2.resend p else s2
  s3.pump p (s3.lnk p).queue.length

/-- A discarded flit: the receiver asks for a resend (R311). -/
def State.sendNak (s : State) (p : PortId) : State :=
  let s1 := s.modLnk p fun l => { l with nakPending := true }
  s1.send (.flit p (idleFlit (s1.lnk p) (0, 0)))

/-- An uncorrectable codeword of a flit charged to its lane (R307, R324): eight within 1 s retire it. -/
def State.chargeLane (s : State) (p : PortId) (lane : Fin 18) : State :=
  let l := s.lnk p
  let fresh := decide ((l.laneUeAt.get lane).toNat + 1000000000 < s.time.toNat)
  let n := if fresh then 1 else l.laneUe.get lane + 1
  let s1 := (s.modLnk p fun l => { l with
    laneUe := l.laneUe.set lane n
    laneUeAt := if fresh || n == 1 then l.laneUeAt.set lane s.time else l.laneUeAt })
  if 8 ≤ n then
    ((s1.modLnk p fun l => { l with laneUe := l.laneUe.set lane 0 }).retireLane p true lane 0x0801).send
      (.retire p lane ((s1.lnk p).rxSeq + 4))
  else s1

/-- An uncorrectable flit (R307, R324): counted once, charged to the lane of every uncorrectable codeword, the lower lane
first (Table 11-3), and asked for again. -/
def State.uncorrectable (s : State) (p : PortId) (lanes : List (Fin 18)) : State :=
  let s1 := s.modPort p fun x => { x with fecUe := satAdd x.fecUe 1 }
  (forEach ((List.finRange 18).filter lanes.contains) s1 fun s lane => s.chargeLane p lane).sendNak p

/-- A flit that no check refuses (R308 to R314): it fills a receive buffer of its class until it is delivered or leaves on
the next port, and the buffer's credit returns then. -/
def State.acceptFlit (s : State) (p : PortId) (f : Flit) : State :=
  let h := f.header
  let k := flClass h
  let s1 := (s.modLnk p fun l => { l with
    rxSeq := l.rxSeq + 1, nakPending := false
    spent := l.spent.setIfInBounds k (l.spent.getD k 0 + 1)
    occupied := l.occupied.setIfInBounds k (l.occupied.getD k 0 + 1) }).modPort p fun x => { x with
      rx := x.rx + BitVec.ofNat 64 (flLen h) }
  let s2 := s1.headerNews p h
  match portCharter s p with
  | none => s2.freeBuffer p k
  | some (i, c) =>
    let t := s.stall i
    if (flDst h = t.march.member ∨ flDst h = ownRole t) ∧ flDstCaravan h = c.caravanIx then (s2.deliverFlit i c f).freeBuffer p k
    else match exitPort s2 c t (flDst h) (flDstCaravan h) (some p) with
      | some (q, _) =>
        let plain := flitHeader k (bit h 39) (flLen h) (flDst h) (flDstCaravan h) (flSrc h) (flSrcCaravan h) (flMsg h) (flIndex h)
        s2.queueFlits q [{ flit := { f with header := plain }, buffer := some p }]
      | none => (s2.freeBuffer p k).missingPeer i (flDst h) 0x020D

/-- FLIT_RECEIVE (R307 to R314): the checks in order, then delivery or the next hop; a lane or a port that it costs reduces
the port, and the fit proofs are repeated. -/
def execFlitReceive (p : PortId) (f : Flit) (ueLanes : List (Fin 18)) (s : State) : Host.Outcome State Fault Refusal :=
  let h := f.header
  if !ueLanes.isEmpty then .next ((s.uncorrectable p ueLanes).refitPort s p)
  else if f.crc != flitCrc h f.payload || 6 ≤ flClass h then .next (s.sendNak p)
  else if flClass h = 5 then .next ((s.headerNews p h).refitPort s p)
  else if !portUp s p then .next s
  else if flSeq h != (s.lnk p).rxSeq then .next (s.sendNak p)
  else .next ((s.acceptFlit p f).refitPort s p)

/-- RECEIVED_TRANSFER (R53): the last flit has arrived and the receive entry completes. -/
def execReceivedTransfer (i : Stall) (index : Nat) (s : State) : Host.Outcome State Fault Refusal :=
  let t := s.stall i
  match t.charter.active with
  | none => .next s
  | some c =>
    match c.recvs[index]? with
    | none => .next s
    | some r =>
      let have_ := gotBytes s i index
      if issuing t && !isDone t (.recv index) && !s.waits .route && decide (rtBytes r.raw ≤ have_) then
        .next ((s.markRan i (.recv index)).modSeq i fun q => { q with done := q.done ++ [⟨.recv index, s.time⟩] })
      else .next s

/-- NAK (R311): every flit from ACK + 1 on is resent in order. -/
def execNak (p : PortId) (ack : BitVec 12) (s : State) : Host.Outcome State Fault Refusal :=
  .next (((s.acknowledge p ack).resend p).refitPort s p)

/-- REPLAY_TIMEOUT (R311): flits unacknowledged for 4 µs are resent from the oldest. -/
def execReplayTimeout (p : PortId) (s : State) : Host.Outcome State Fault Refusal :=
  match (s.lnk p).window with
  | [] => .next s
  | w :: _ => .next (((s.atTime (w.time + 4000)).resend p).refitPort s p)

/-- AUDIT_FLIT (R314): granted must equal returned plus buffered plus held; a second mismatch within 1 s takes the port
down. -/
def execAuditFlit (p : PortId) (cls : Fin 5) (granted _spent held : Nat) (s : State) : Host.Outcome State Fault Refusal :=
  let l := s.lnk p
  let returned := l.granted.get cls - classBuffers cls.val
  if granted = returned + l.occupied.get cls + held then
    .next (s.modPort p fun x => { x with audits := satAdd x.audits 1 })
  else
    let code := BitVec.ofNat 16 (0x0500 + p.val)
    let again := s.log.auditFails.any fun e => e.1 == code && decide (s.time.toNat ≤ e.2.toNat + 1000000000)
    let s1 := ((s.modPort p fun x => { x with auditFail := true }).portEvent p 0x0803 true 0x1F).recordPause
      (portRec s p 0x0803 clsAudit)
    let s2 := { s1 with log := { s1.log with auditFails := s1.log.auditFails.filter (fun (e : BitVec 16 × BitVec 64) => e.1 != code) ++ [(code, s.time)] } }
    .next ((if again then s2.portDown p 0x0802 else s2.reinitLink p).refitPort s p)

/-- RETIRE_MESSAGE (R324): the transmitting end switches at the SEQ, lists the lane and records it. -/
def execRetireMessage (p : PortId) (lane : Fin 18) (seq : BitVec 12) (s : State) : Host.Outcome State Fault Refusal :=
  if (txLanesSoon s p).get lane == 2 then .next s
  else
    let unit := BitVec.ofNat 16 (64 * p.val + lane.val)
    let aborted := match (s.lnk p).recalOf false with
      | some k => if (s.port p).txLanes.toList.contains 1 then none else some k
      | none => none
    let s0 := match aborted with
      | some k => (((s.modPort p fun x => { x with txLanes := x.txLanes.set k 0 }).modLnk p fun l => l.setRecal false none).portEvent
          p 0x080A false k.val).record (portRec s p 0x080A clsInfo)
      | none => s
    let s1 := ((s0.retire 4 unit 0x0801).portEvent p 0x0801 false lane.val).recordPause
      { reason := 0x0801, cls := clsRetired, stall := portStall s p, kind := 4, unit := unit }
    let s2 := (s1.modLnk p fun l => { l with switches := l.switches ++ [(seq, lane)] }).checkSwitch p
    .next ((if workingLanes (txLanesSoon s2 p) < 12 then s2.portDown p 0x0802 else s2).refitPort s p)

/-- The wiring entry of a port (R347). -/
def wireTag (w : BitVec 128) : BitVec 64 := fld w 0 64
def wireMember (w : BitVec 128) : Member := fld w 64 7
def wireCaravan (w : BitVec 128) : BitVec 6 := fld w 71 6
def wirePort (w : BitVec 128) : BitVec 3 := fld w 77 3
def wireUsed (w : BitVec 128) : Bool := bit w 80

/-- Does a far end differ from the wiring of the charter in force (R320)? -/
def wrongNeighbour (s : State) (p : PortId) (m : IdentMessage) : Bool :=
  match portCharter s p with
  | none => false
  | some (_, c) =>
    let w := c.wiring.getD p.val 0
    wireUsed w && (wireTag w != m.tag || c.timeDomain != m.timeDomain || wireMember w != m.member)

/-- The longest one-way delay of a port's link (R312). -/
def delayLimit (s : State) (p : PortId) : Nat := if portMode s p = 2 then 1000 else 250

/-- IDENT_MESSAGE (R319, R320, R312): the neighbour is shown; a link that measures too long is not brought up, and a wrong
neighbour takes the port down. A port that was down stays so until R327 lets it return. -/
def execIdentMessage (p : PortId) (m : IdentMessage) (s : State) : Host.Outcome State Fault Refusal :=
  let s1 := s.modPort p fun x => { x with neighbour := some m }
  if (s.port p).state = 0 ∨ (s.port p).state = 1 then .next s
  else if delayLimit s p < (s.port p).delay.toNat then
    .next ((s1.portEvent p 0x0805 true 0x1F).record (portRec s p 0x0805 clsInfo))
  else if wrongNeighbour s p m then .next (((s1.portDown p 0x0804).modPort p fun x => { x with neighbour := some m }).refitPort s p)
  else if (s.port p).state = 2 then .next ((s1.modPort p fun x => { x with state := 3 }).modLnk p freshLink)
  else if (s.port p).state = 4 then .next (s1.modLnk p freshLink)
  else .next s1

/-- PORT_RETURN (R312, R327): after 1 s of clean IDLE flits the port is used again at the next march origin. -/
def execPortReturn (p : PortId) (s : State) : Host.Outcome State Fault Refusal :=
  let ok := (s.port p).state == 4 && (s.optic p).lightIn && decide (12 ≤ workingLanes (s.port p).txLanes)
    && decide (12 ≤ workingLanes (s.port p).rxLanes)
    && (match (s.port p).neighbour with | some m => !wrongNeighbour s p m | none => false)
    && decide ((s.port p).delay.toNat ≤ delayLimit s p)
  if ok then .next (s.modLnk p fun l => { l with returning := true }) else .next s

/-! ### Relay (R321 to R323, R339) -/

/-- The stall of the relay registers, where this member is lead of a caravan in relay mode (R339). -/
def relayStall (s : State) : Option (Stall × Charter) :=
  match portCharter s 0 with
  | some (i, c) => if (s.stall i).march.lead && c.relay then some (i, c) else none
  | none => none

def State.modRelay (s : State) (f : Relay → Relay) : State := { s with fabric := { s.fabric with relay := f s.fabric.relay } }

/-- The request that a GO issues (R322). -/
def relayOpOf (y : Relay) (op : BitVec 2) (len : BitVec 9) : Option RelayOp :=
  let off := BitVec.ofNat 24 (y.target.toNat)
  if op = 0 then some (.read32 off)
  else if op = 1 then some (.write32 off y.data)
  else if op = 2 then some (.post off len (y.buf.toList.take len.toNat))
  else none

/-- A write of RTE_RELAY_CTRL (R322, Table 11-10). -/
def writeRelayCtrl (v : Word) (s : State) : State :=
  match relayStall s with
  | none => s
  | some (i, c) =>
    let m : Member := fld v 9 7
    let s1 := s.modRelay fun y => { y with vector := fld v 26 6, len := fld v 17 9, member := m, op := fld v 0 2 }
    let y := s.fabric.relay
    if !bit v 2 || y.busy then s1
    else match relayOpOf y (fld v 0 2) (fld v 17 9) with
      | none => s1
      | some op =>
        let reachable := c.members.contains m && (exitPort s c (s.stall i) m c.caravanIx none).isSome
        if reachable then
          (s1.modRelay fun y => { y with busy := true, statusMember := m, issuedAt := s.time, stall := some i }).send
            (.relayRequest m op)
        else
          (s1.modRelay fun y => { y with statusMember := m, result := 3 }).record
            { reason := 0x080D, stall := some i, kind := 13, unit := m.setWidth 16 }

/-- RELAY_READ32 (R322): a write of RTE_RELAY_CTRL. -/
def execRelayRead32 (r : Requester) (ctrl : Word) (s : State) : Host.Outcome State Fault Refusal :=
  .next (s.guardWrite r (routeOff 0 0x8000) (writeRelayCtrl ctrl))

/-- RELAY_WRITE32 (R322): a write of RTE_RELAY_CTRL. -/
def execRelayWrite32 (r : Requester) (ctrl : Word) (s : State) : Host.Outcome State Fault Refusal :=
  .next (s.guardWrite r (routeOff 0 0x8000) (writeRelayCtrl ctrl))

/-- RELAY_POST (R322): a write of RTE_RELAY_CTRL. -/
def execRelayPost (r : Requester) (ctrl : Word) (s : State) : Host.Outcome State Fault Refusal :=
  .next (s.guardWrite r (routeOff 0 0x8000) (writeRelayCtrl ctrl))

/-- RELAY_RESPONSE (R322): the lead sets RESULT, and RTE_RELAY_DATA for a read. -/
def execRelayResponse (result : BitVec 3) (data : Word) (s : State) : Host.Outcome State Fault Refusal :=
  if s.fabric.relay.busy then
    .next (s.modRelay fun y => { y with busy := false, result := result, data := if y.op = 0 ∧ result = 0 then data else y.data })
  else .next s

/-- RELAY_TIMEOUT (R322): no response within 100 µs. -/
def execRelayTimeout (s : State) : Host.Outcome State Fault Refusal :=
  let y := s.fabric.relay
  if y.busy then
    .next (((s.atTime (y.issuedAt + 100000)).modRelay fun y => { y with busy := false, result := 2 }).record
      { reason := 0x080C, stall := y.stall, kind := 13, unit := y.statusMember.setWidth 16 })
  else .next s

/-- RELAY_EVENT (R323): a hostless member's event is queued, up to 64, and the lead's vector raised. -/
def execRelayEvent (i : Stall) (m : Member) (vector : BitVec 6) (s : State) : Host.Outcome State Fault Refusal :=
  match relayStall s with
  | none => .next s
  | some (j, _) =>
    if i ≠ j then .next s
    else if 64 ≤ s.fabric.relay.events.length then .next (s.modRelay fun y => { y with lost := satAdd y.lost 1 })
    else .next ((s.modRelay fun y => { y with events := y.events ++ [(m, vector)] }).raise i s.fabric.relay.vector)

/-- The value of RTE_RELAY_EVENT, and the state after its read (Table 11-10). -/
def takeRelayEvent (s : State) : Word × State :=
  match s.fabric.relay.events with
  | [] => (0, s)
  | (m, v) :: l => (putB true 31 ||| put m 7 ||| put v 0, s.modRelay fun y => { y with events := l })

/-- RELAY_EVENT_READ (R339): the oldest event is removed. -/
def execRelayEventRead (r : Requester) (s : State) : Host.Outcome State Fault Refusal :=
  if mayRead s r (.route 0 0x8010) then
    let (v, s1) := takeRelayEvent s
    .next { s1 with data := v }
  else .next { s with data := 0 }

/-! ### Recalibration (R326) -/

/-- Start the recalibration of a lane, or count it as skipped for want of a spare. -/
def State.recalibrate (s : State) (p : PortId) (rx : Bool) (lane : Fin 18) : State :=
  let v := if rx then (s.port p).rxLanes else (s.port p).txLanes
  if ((s.lnk p).recalOf rx).isSome || v.get lane == 2 then s
  else if !v.toList.contains 1 then s.modPort p fun x => { x with recalSkipped := satAdd x.recalSkipped 1 }
  else
    let v1 := lanesFix (v.set lane 3)
    (s.modPort p fun x => if rx then { x with rxLanes := v1 } else { x with txLanes := v1 }).modLnk p fun l => l.setRecal rx (some lane)

/-- A write of RTE_CTRL (Table 11-6). -/
def writeRteCtrl (p : PortId) (v : Word) (s : State) : State :=
  let s1 := s.modPort p fun x => { x with auto := bit v 8, recalDir := bit v 6, recalLane := fld v 0 5 }
  if h : bit v 7 ∧ fldN v 0 5 < 18 then s1.recalibrate p (bit v 6) ⟨fldN v 0 5, h.2⟩ else s1

/-- RECAL_GO (R326): a write of RTE_CTRL. -/
def execRecalGo (r : Requester) (p : PortId) (v : Word) (s : State) : Host.Outcome State Fault Refusal :=
  .next (s.guardWrite r (routeOff p 4) (writeRteCtrl p v))

/-- RECAL_AUTO (R326): the next lane in turn. -/
def execRecalAuto (p : PortId) (s : State) : Host.Outcome State Fault Refusal :=
  if (s.port p).auto then
    let n := (s.lnk p).recalNext
    let s1 := s.modLnk p fun l => { l with recalNext := n + 1 }
    .next (s1.recalibrate p (18 ≤ n.val) ⟨n.val % 18, Nat.mod_lt _ (by decide)⟩)
  else .next s

/-- RECAL_COMPLETE (R326): the lane returns to the working lanes. -/
def execRecalComplete (p : PortSide) (s : State) : Host.Outcome State Fault Refusal :=
  match (s.lnk p.port).recalOf p.rx with
  | none => .next s
  | some lane =>
    let v := if p.rx then (s.port p.port).rxLanes else (s.port p.port).txLanes
    let v1 := lanesFix (v.set lane 0)
    .next ((s.modPort p.port fun x => if p.rx then { x with rxLanes := v1 } else { x with txLanes := v1 }).modLnk p.port
      fun l => l.setRecal p.rx none)

/-! ### Light (R27, R28, R329 to R332) -/

/-- PROBE_BURST (R331): an engine that may emit and sees no far light sends 2 µs at reduced bias. -/
def execProbeBurst (p : PortId) (s : State) : Host.Outcome State Fault Refusal :=
  if mayEmit s p && !(s.optic p).lightIn then
    .next (((s.modOptic p fun o => setSources o 1).modPort p fun x => { x with
      state := if x.state = 0 then 1 else x.state }).send (.probe p))
  else .next s

/-- The IDENT message of a port (R319). Without a charter the time domain is open, and the message carries a free value
(DESIGN CHOICE, log entry 156). -/
def State.sendIdent (s : State) (p : PortId) : State :=
  let msg (domain : Word) (m : Member) (car : BitVec 6) : Out :=
    .ident p ⟨identityTag, s.starts.seat, BitVec.ofNat 3 p.val, domain, m, car⟩
  match portCharter s p with
  | some (i, c) => s.send (msg c.timeDomain (s.stall i).march.member c.caravanIx)
  | none => s.drawWord.2.send (msg s.drawWord.1 0x7F 0x3F)

/-- LIGHT_IN (R331): far light on at least 12 lanes; the sources go to full bias and the link trains. -/
def execLightIn (p : PortId) (s : State) : Host.Outcome State Fault Refusal :=
  let s1 := s.modOptic p fun o => { o with lightIn := true }
  if mayEmit s p then
    .next (((s1.modOptic p fun o => setSources o 2).modPort p fun x => { x with
      state := if x.state = 4 ∨ x.state = 3 then x.state else 2 }).sendIdent p)
  else .next s1

/-- PORT_DARK (R331): no light for 500 µs; probe bursts again, and the port is down. -/
def execPortDark (p : PortId) (s : State) : Host.Outcome State Fault Refusal :=
  let s1 := s.modOptic p fun o => { setSources o (if mayEmit s p then 1 else 0) with lightIn := false }
  if (s.port p).state = 2 ∨ (s.port p).state = 3 then .next ((s1.portDown p 0x0808).refitPort s p) else .next s1

/-- MATE_OPEN (R330): the engine goes dark and its port is down. -/
def execMateOpen (p : PortId) (s : State) : Host.Outcome State Fault Refusal :=
  let s1 := (s.modOptic p fun o => { o with mated := false }).darken p
  if (s.port p).state = 2 ∨ (s.port p).state = 3 then .next ((s1.portDown p 0x0808).refitPort s p)
  else .next (s1.modPort p fun x => { x with state := if x.state = 1 then 0 else x.state })

/-- MATE_CLOSE (R330): the engine may emit light. -/
def execMateClose (p : PortId) (s : State) : Host.Outcome State Fault Refusal :=
  .next (s.modOptic p fun o => { o with mated := true })

/-- The lanes that a source lights: nine for source A, nine for source B. -/
def sourceLanes (src : Fin 2) : List (Fin 18) := (List.finRange 18).filter fun k => k.val / 9 == src.val

/-- SOURCE_FAILOVER (R27, R332): the standby source takes the lanes, or they are retired and the port is down. -/
def execSourceFailover (p : PortId) (src : Fin 2) (standbyLights : Bool) (s : State) : Host.Outcome State Fault Refusal :=
  let o := s.optic p
  let k : Fin 3 := ⟨src.val, by omega⟩
  if o.sources.get k != 2 then .next s
  else
    let free := o.sources.get 2 != 3 && o.onStandby.isNone
    let unit := BitVec.ofNat 16 (3 * p.val + src.val)
    let s1 := ((s.modOptic p fun o => { o with sources := o.sources.set k 3 }).retire 7 unit 0x0807)
    if free && standbyLights then
      .next ((((s1.modOptic p fun o => { o with sources := o.sources.set 2 2, onStandby := some src }).portEvent p 0x0807 false
        0x1F).recordPause { portRec s p 0x0807 clsRetired with kind := 7, unit := unit }))
    else
      let s2 := if free then s1.modOptic p fun o => { o with sources := o.sources.set 2 3 } else s1
      let s3 := forEach (sourceLanes src) s2 fun s lane =>
        (s.modPort p fun x => { x with txLanes := lanesFix (x.txLanes.set lane 2) }).retire 4
          (BitVec.ofNat 16 (64 * p.val + lane.val)) 0x0801
      .next ((((s3.portEvent p 0x0801 false (9 * src.val)).record { portRec s p 0x0801 clsRetired with kind := 7, unit := unit }).portDown
        p 0x0802).refitPort s p)

/-- STANDBY_SOURCE_FAILED (R332): the idle standby is marked and listed. -/
def execStandbySourceFailed (p : PortId) (s : State) : Host.Outcome State Fault Refusal :=
  let o := s.optic p
  if o.onStandby.isSome || o.sources.get 2 == 3 then .next s
  else
    let unit := BitVec.ofNat 16 (3 * p.val + 2)
    .next ((((s.modOptic p fun o => { o with sources := o.sources.set 2 3 }).retire 7 unit 0x080E).portEvent p 0x080E false
      0x1F).record { portRec s p 0x080E clsRetired with kind := 7, unit := unit })

/-! ### Bandit mode (R333) -/

/-- A write of RTE_BANDIT (R333, Table 11-8): it needs TEST privilege of the owning stall; EN rising restarts the count
of offered flits. -/
def writeBandit (p : PortId) (v : Word) (s : State) : State :=
  let test := match portStall s p with | some i => (s.stall i).page.comp.test | none => false
  if test then
    s.modLnk p fun l => { l with
      banditDelay := fld v 24 8, banditMask := fld v 16 5, banditAction := fld v 1 2, banditEn := bit v 0
      offered := if bit v 0 then 0 else l.offered }
  else s.modPort p fun x => { x with banditDenied := true }

/-- RTE_BANDIT_WRITE (R333). -/
def execRteBanditWrite (r : Requester) (p : PortId) (v : Word) (s : State) : Host.Outcome State Fault Refusal :=
  .next (s.guardWrite r (routeOff p 0x50) (writeBandit p v))

end Sys2Proof.Machine
end

