-- ==== Sys2Proof/Machine/Memory.lean ====
section
/-! DEFINITION. The memory tiers (chapter 10): the error codes (R283, R284), errors and their classes (R285), retirement and
rebuild (R290 to R294), the patrol scrub (R287), the CXL.mem view (R298, R299) and the brace buffers (R301). -/

namespace Sys2Proof.Machine

/-! ### Module faults (R449) -/

/-- The stalls that exist. -/
def presentStalls (s : State) : List Stall := allStalls.filter fun i => (s.stall i).page.comp.owner.isSome

/-- A MODULE fault (Table 16-1): recorded, and every stall's march ends with REPEAT_FAULT, reason MODULE_FAULT (R471). -/
def State.moduleFault (s : State) (r : Rec) : State :=
  let s1 := s.record { r with cls := clsModule }
  forEach (presentStalls s1) s1 fun s i => s.cause i vFault 0x020C

/-! ### Units and groups -/

/-- The stripe group of a pseudo-channel (R281). -/
def groupOf (pc : Fin 256) : Fin 16 := ⟨pc.val % 16, Nat.mod_lt _ (by decide)⟩

/-- The stack of a pseudo-channel and its number there (R25). -/
def stackOf (pc : Fin 256) : Fin 8 := ⟨pc.val / 32, by omega⟩
def inStack (pc : Fin 256) : Fin 32 := ⟨pc.val % 32, Nat.mod_lt _ (by decide)⟩

/-- The state of the parity group of a unit (Table 10-8). -/
def unitGroup (s : State) (u : MemUnit) : BitVec 2 := groupState s.tiers u

/-- Is a unit in service: neither failing, retired nor rejected? -/
def unitServes (s : State) (u : MemUnit) : Bool := serves s.tiers u

/-- Kind and index of a unit in records and in the retired list (Table 16-8). -/
def unitKind : MemUnit → BitVec 8
  | .near _ => 2
  | .serai _ => 3
def unitIndex : MemUnit → BitVec 16
  | .near pc => BitVec.ofNat 16 pc.val
  | .serai ch => BitVec.ofNat 16 ch.val

/-- Tier code of a unit (Table 12-3). -/
def unitTier : MemUnit → BitVec 3
  | .near _ => 1
  | .serai _ => 2

/-- Serai bays that a region maps (R413). -/
def regionBays (g : Region) : Nat := ceilDiv g.size.toNat (seraiBayBytes g.guarded)

/-- Is a Serai bay GUARDED: does a stall's table map it so (R280)? -/
def bayGuarded (s : State) (bay : Nat) : Bool :=
  allStalls.any fun i => (s.stall i).customs.regions.any fun e =>
    e.2.valid && e.2.tier == 2 && e.2.guarded && decide (e.2.place.toNat ≤ bay)
      && decide (bay < e.2.place.toNat + regionBays e.2)

/-- Does a unit hold its bay under a parity stripe (R280)? -/
def underStripe (s : State) (u : MemUnit) (bay : BitVec 10) : Bool :=
  match u with | .near _ => true | .serai _ => bayGuarded s bay.toNat

/-- Both halves of NEAR_ERR or SER_ERR (Table 10-10); the kind is the low byte of a code of Table 10-5. -/
def errBits (bay : BitVec 10) (row : BitVec 18) (kind : BitVec 8) (unit : BitVec 16) (guarded : Bool) : BitVec 64 :=
  (0 : BitVec 8) ++ kind ++ unit.setWidth 8 ++ (0 : BitVec 7) ++ BitVec.ofBool guarded ++ (0 : BitVec 4) ++ bay ++ row

/-- Set a unit's error register. -/
def State.unitErr (s : State) (u : MemUnit) (bay : BitVec 10) (row : BitVec 18) (kind : BitVec 8) : State :=
  let e := errBits bay row kind (unitIndex u) (underStripe s u bay)
  match u with
  | .near pc => s.modStack (stackOf pc) fun t => { t with err := e }
  | .serai ch => s.modChannel ch fun c => { c with err := e }

/-- A record of a unit. -/
def unitRec (u : MemUnit) (reason : Reason) (cls : BitVec 3) : Rec :=
  { reason := reason, cls := cls, kind := unitKind u, unit := unitIndex u }

/-! ### The error codes (R283, R284) -/

/-- What a unit's own code makes of a read (R285). -/
inductive ReadClass where
  | clean | correctable | uncorrectable
  deriving DecidableEq, Repr

/-- The codeword of a symbol of a Serai block (R284): each of the 16 takes two of the 32 symbols of every pin, the `k`-th
and the one 16 later (log entry 146). -/
def codewordOf (k : Fin 2048) : Nat := k.val % 16

/-- The pin of a symbol of a Serai block: a symbol is eight successive beats of one of the 64 data pins (R284). -/
def pinOf (k : Fin 2048) : Nat := k.val / 32

/-- The class of a read with symbols in error. Near memory corrects an error confined to two symbols of a transfer (R283);
a Serai block corrects two symbols in each of its codewords (R284). -/
def classify (u : MemUnit) (e : SymbolErrors) : ReadClass :=
  if e.isEmpty then .clean
  else match u with
    | .near _ => if e.length ≤ 2 then .correctable else .uncorrectable
    | .serai _ =>
      if (List.range 16).all fun w => decide ((e.filter fun k => codewordOf k == w).length ≤ 2) then .correctable
      else .uncorrectable

/-! ### Rebuild (R291) -/

/-- The GUARDED Serai bays in increasing order. -/
def guardedBays (s : State) : List Nat := (List.range 992).filter fun b => bayGuarded s b

/-- Set the rebuild of a unit's group. -/
def State.setRebuild (s : State) (u : MemUnit) (r : Rebuild) : State :=
  match u with
  | .near pc => { s with tiers := { s.tiers with nearRebuilds := s.tiers.nearRebuilds.set (groupOf pc).val r (groupOf pc).isLt } }
  | .serai _ => { s with tiers := { s.tiers with seraiRebuild := r } }

/-- Set the state of a unit's group. -/
def State.setGroup (s : State) (u : MemUnit) (g : BitVec 2) : State :=
  match u with
  | .near pc => { s with tiers := { s.tiers with nearGroups := s.tiers.nearGroups.set (groupOf pc).val g (groupOf pc).isLt } }
  | .serai _ => { s with tiers := { s.tiers with seraiGroup := g } }

/-- Begin the rebuild of the group of a retired unit (R291): at bay 0, or the first GUARDED bay of the Serai. -/
def State.startRebuild (s : State) (u : MemUnit) : State :=
  s.setRebuild u (match u with
    | .near pc => { active := true, member := some u, bay := 0, row := BitVec.ofNat 18 (groupOf pc).val }
    | .serai _ => { active := true, member := some u, bay := BitVec.ofNat 10 ((guardedBays s).headD 0) })

/-- The address in its units of a row (R281, R282). -/
def rowAddr (u : MemUnit) (bay row : Nat) : Nat :=
  match u with
  | .near _ => bay * 2 ^ 22 + row / 16 * 256
  | .serai _ => bay * 2 ^ 26 + row * 256

/-- Reconstruct the retired member's unit of a row into the row's parity unit (R291); nothing is written where the member
is the parity member itself. -/
def State.rebuildUnit (s : State) (u : MemUnit) (bay row : Nat) : State :=
  let a := rowAddr u bay row
  let par := parityUnit u a
  if par = u then s
  else { s with mem := (List.range 256).foldl (fun m k => memPut (unitKey par (a + k)) (reconstruct m u (a + k)) m) s.mem }

/-- A rebuild is complete: the group is UNPROTECTED (R291, R303). -/
def State.rebuilt (s : State) (u : MemUnit) (bay : BitVec 10) (row : BitVec 18) : State :=
  (((s.setRebuild u { member := some u, whole := true }).setGroup u 2).unitErr u bay row 0x04).record
    (unitRec u 0x0904 clsInfo)

/-- The next near group, in turn, whose rebuild runs (R302). -/
def nearTurnOf (s : State) : Option (Fin 16) :=
  ((List.finRange 16).map fun k => s.tiers.nearTurn + k).find? fun j => (s.tiers.nearRebuilds.get j).active

/-- One row of the rebuild of a near group (R291). -/
def State.rebuildNear (s : State) (j : Fin 16) : State :=
  let r := s.tiers.nearRebuilds.get j
  match r.member with
  | none => s
  | some u =>
    let s1 := s.rebuildUnit u r.bay.toNat r.row.toNat
    if r.row.toNat + 16 < 262144 then s1.setRebuild u { r with row := r.row + 16 }
    else if r.bay.toNat < 639 then s1.setRebuild u { r with bay := r.bay + 1, row := BitVec.ofNat 18 j.val }
    else s1.rebuilt u r.bay r.row

/-- One row of the rebuild of the Serai (R291): the GUARDED bays in increasing order. -/
def State.rebuildSerai (s : State) : State :=
  let r := s.tiers.seraiRebuild
  match r.member with
  | none => s
  | some u =>
    let here := bayGuarded s r.bay.toNat
    let s1 := if here then s.rebuildUnit u r.bay.toNat r.row.toNat else s
    if r.row.toNat < 262143 ∧ here then s1.setRebuild u { r with row := r.row + 1 }
    else match (guardedBays s).find? fun b => decide (r.bay.toNat < b) with
      | some b => s1.setRebuild u { r with bay := BitVec.ofNat 10 b, row := 0 }
      | none => s1.rebuilt u r.bay r.row

/-- REBUILD_ROW (R291, R302): the next row of a tier's rebuild; the near groups that rebuild take turns. -/
def execRebuildRow (serai : Bool) (s : State) : Host.Outcome State Fault Refusal :=
  if serai then .next (if s.tiers.seraiRebuild.active then s.rebuildSerai else s)
  else match nearTurnOf s with
    | some j => .next ({ s with tiers := { s.tiers with nearTurn := j + 1 } }.rebuildNear j)
    | none => .next s

/-! ### Retirement (R290, R292, R294) -/

/-- PLAIN_LOST (R294): one record for each region that maps a part of a PLAIN bay; the channel's error register shows it. -/
def State.plainLost (s : State) (u : MemUnit) : State :=
  forEach allStalls s fun s i =>
    forEach ((s.stall i).customs.regions.filter fun e => e.2.valid && e.2.tier == 2 && !e.2.guarded) s fun s e =>
      (s.unitErr u (BitVec.ofNat 10 e.2.place.toNat) 0 0x06).record
        { reason := 0x0906, cls := clsInfo, stall := some i, kind := 11, unit := e.1.setWidth 16 }

/-- The repeated fit proofs of the stalls that map bays in a tier (R293). -/
def State.refitTier (s : State) (tier : BitVec 3) : State :=
  forEach (allStalls.filter fun i => (s.stall i).customs.regions.any fun e => e.2.valid && e.2.tier == tier) s
    fun s i => s.refit i

/-- A group FAILED (R292): its stacks say so, its rebuild stops where it is, GROUP_FAILED is recorded once, as a module
fault. -/
def State.groupFailed (s : State) (u : MemUnit) (bay : BitVec 10) (row : BitVec 18) : State :=
  let s1 := (s.setGroup u 3).setRebuild u { rebuildOf s.tiers u with active := false }
  let s2 := match u with
    | .near _ => forEach (List.finRange 8) s1 fun s k => s.modStack k fun t => { t with state := 4, scrubbing := false }
    | .serai _ => forEach (List.finRange 24) s1 fun s k => s.modChannel k fun c => { c with scrubbing := false }
  (s2.unitErr u bay row 0x05).moduleFault (unitRec u 0x0905 clsModule)

/-- Mark a unit FAILING, or a unit RETIRED (Tables 10-8, 10-12): a Serai channel shows no FAILING state. -/
def State.setUnit (s : State) (u : MemUnit) (state : BitVec 2) : State :=
  match u with
  | .near pc => s.modStack (stackOf pc) fun t => { t with pcs := t.pcs.set (inStack pc).val state (inStack pc).isLt }
  | .serai ch => if state = 2 then s.modChannel ch fun c => { c with state := 4, scrubbing := false } else s

/-- Step 4 of R290: a FAILING unit is RETIRED, entered in the list of retired units and recorded; its PLAIN data is lost
(R294), and where its group is DEGRADED the rebuild begins and the fit proofs are repeated (R291, R293). -/
def State.retireNow (s : State) (f : FailingUnit) : State :=
  let u := f.unit
  let s1 := ((s.setUnit u 2).unitErr u f.bay f.row 0x03).retire (unitKind u) (unitIndex u) f.reason
  let s2 := match u with | .serai _ => s1.plainLost u | .near _ => s1
  if unitGroup s u = 1 then ((s2.recordPause (unitRec u 0x0903 clsRetired)).startRebuild u).refitTier (unitTier u)
  else s2

/-- Every FAILING unit reaches step 4 of R290. -/
def State.finishRetirements (s : State) : State :=
  forEach s.tiers.failing { s with tiers := { s.tiers with failing := [] } } State.retireNow

/-- A unit has a permanent fault (R285, R290, R292): it is FAILING, and its data is reconstructed, where it is the first of
its group; a second one fails the group. A unit of a FAILED group is retired too. -/
def State.retireUnit (s : State) (u : MemUnit) (bay : BitVec 10) (row : BitVec 18) (reason : Reason) : State :=
  if !unitServes s u then s
  else
    let s0 := s.finishRetirements
    let g := unitGroup s0 u
    let s1 := s0.setUnit u 1
    let s2 := { s1 with tiers := { s1.tiers with failing := s1.tiers.failing ++ [⟨u, bay, row, reason⟩] } }
    if g = 0 then s2.setGroup u 1
    else if g = 3 then s2
    else s2.groupFailed u bay row

/-! ### Errors (R285) -/

/-- Corrected symbols counted in CE and in the last second of the unit. -/
def State.corrected (s : State) (u : MemUnit) (n : Nat) : State :=
  let now := s.time
  let young (l : List (BitVec 64 × Nat)) := l.filter fun e => decide (now.toNat < e.1.toNat + 1000000000)
  match u with
  | .near pc => s.modStack (stackOf pc) fun t => { t with
      ce := satAdd t.ce n, recent := t.recent.set (inStack pc) (young (t.recent.get (inStack pc)) ++ [(now, n)]) }
  | .serai ch => s.modChannel ch fun c => { c with ce := satAdd c.ce n, recent := young c.recent ++ [(now, n)] }

/-- MEM_CORRECTED (R283, R284, R285): an error that the unit's code corrects is corrected in the returned data, written
back and counted; an error beyond the code is none of these. -/
def execMemCorrected (u : MemUnit) (errors : SymbolErrors) (s : State) : Host.Outcome State Fault Refusal :=
  .next (if unitServes s u && classify u errors == .correctable then s.corrected u errors.length else s)

/-- The corrected symbols of a unit within the last second, and its limit. -/
def recentSymbols (s : State) (u : MemUnit) : Nat × Nat :=
  let sum (l : List (BitVec 64 × Nat)) := ((l.filter fun e => decide (s.time.toNat < e.1.toNat + 1000000000)).map fun e => e.2).sum
  match u with
  | .near pc => let t := s.tiers.near.get (stackOf pc); (sum (t.recent.get (inStack pc)), t.ceLimit.toNat)
  | .serai ch => let c := s.tiers.serai.get ch; (sum c.recent, c.ceLimit.toNat)

/-- CE_RATE (R285): the symbols of the last second exceed CE_LIMIT, and the unit is retired; a limit of 0 disables it. -/
def execCeRate (u : MemUnit) (s : State) : Host.Outcome State Fault Refusal :=
  let (n, limit) := recentSymbols s u
  if limit = 0 ∨ n ≤ limit ∨ !unitServes s u then .next s
  else .next (((s.unitErr u 0 0 0x01).record (unitRec u 0x0901 clsInfo)).retireUnit u 0 0 0x0901)

/-- Count an uncorrectable read. -/
def State.countUncorrectable (s : State) (u : MemUnit) : State :=
  match u with
  | .near pc => s.modStack (stackOf pc) fun t => { t with ue := satAdd t.ue 1 }
  | .serai ch => s.modChannel ch fun c => { c with ue := satAdd c.ue 1 }

/-- An uncorrectable read is counted and its location scheduled for the repeat read (R285). -/
def State.scheduleRepeat (s : State) (u : MemUnit) (bay : BitVec 10) (row : BitVec 18) : State :=
  let s1 := s.countUncorrectable u
  if s.tiers.repeatReads.contains (u, bay, row) then s1
  else { s1 with tiers := { s1.tiers with repeatReads := s1.tiers.repeatReads ++ [(u, bay, row)] } }

/-- MEM_UNCORRECTABLE (R285): an error beyond the unit's code. -/
def execMemUncorrectable (u : MemUnit) (bay : BitVec 10) (row : FailedRow) (s : State) :
    Host.Outcome State Fault Refusal :=
  .next (if unitServes s u && classify u row.errors == .uncorrectable then s.scheduleRepeat u bay row.row else s)

/-- A transient (R285): counted, corrected data written back. -/
def State.transient (s : State) (u : MemUnit) (bay : BitVec 10) (row : BitVec 18) : State :=
  let s1 := match u with
    | .near pc => s.modStack (stackOf pc) fun t => { t with transient := satAdd t.transient 1 }
    | .serai ch => s.modChannel ch fun c => { c with transient := satAdd c.transient 1 }
  (s1.unitErr u bay row 0x02).recordPause (unitRec u 0x0902 clsTransient)

/-- Does a read of a row that stays uncorrectable return raw bits, for want of a parity that corrects it (R286): on a PLAIN
bay, or in a group that is not PROTECTED? -/
def rawRow (s : State) (u : MemUnit) (bay : BitVec 10) : Bool := !underStripe s u bay || unitGroup s u != 0

/-- RAW_RETURNED (R286, R303): not in a FAILED group (R292). -/
def State.rawReturned (s : State) (u : MemUnit) (bay : BitVec 10) (row : BitVec 18) : State :=
  if unitGroup s u = 3 then s else (s.unitErr u bay row 0x08).record (unitRec u 0x0908 clsInfo)

/-- MEM_REPEAT_READ (R285, R286): 200 ns later the second read decides. -/
def execMemRepeatRead (u : MemUnit) (bay : BitVec 10) (row : BitVec 18) (errors : SymbolErrors) (s : State) :
    Host.Outcome State Fault Refusal :=
  if !s.tiers.repeatReads.contains (u, bay, row) then .next s
  else
    let s1 := s.atTime (s.time + 200)
    let s2 := { s1 with tiers := { s1.tiers with repeatReads := s1.tiers.repeatReads.erase (u, bay, row) } }
    match classify u errors with
    | .clean | .correctable => .next (s2.transient u bay row)
    | .uncorrectable => .next ((if rawRow s u bay then s2.rawReturned u bay row else s2).retireUnit u bay row 0x0903)

/-! ### The patrol scrub (R287) -/

/-- Blocks of a pseudo-channel (256-byte units of 640 bays) and of a Serai channel (2,048-byte blocks of 64 GiB, R284). -/
def pcBlocks : Nat := 640 * 16384
def channelBlocks : Nat := 2 ^ 25

/-- Bay and row of the block that the scrub of a unit reads next. -/
def scrubRow (s : State) (u : MemUnit) : BitVec 10 × BitVec 18 :=
  match u with
  | .near pc =>
    let n := (s.tiers.near.get (stackOf pc)).scrubs.get (inStack pc) % pcBlocks
    (BitVec.ofNat 10 (n / 16384), BitVec.ofNat 18 (n % 16384 * 16 + pc.val % 16))
  | .serai ch =>
    let a := (s.tiers.serai.get ch).scrubs % channelBlocks * 1984
    (BitVec.ofNat 10 (a / 2 ^ 26), BitVec.ofNat 18 (a % 2 ^ 26 / 256))

/-- PATROL_SCRUB (R287, R302): the next block of a unit is read, and its errors are handled as those of any read; corrected
data is written back. A stack's pass is complete when every unit in service has been read whole. -/
def execPatrolScrub (u : MemUnit) (errors : SymbolErrors) (s : State) : Host.Outcome State Fault Refusal :=
  if !unitServes s u || unitGroup s u == 3 then .next s
  else
    let at_ := scrubRow s u
    let s1 := match classify u errors with
      | .clean => s
      | .correctable => s.corrected u errors.length
      | .uncorrectable => s.scheduleRepeat u at_.1 at_.2
    match u with
    | .near pc => .next (s1.modStack (stackOf pc) fun t =>
        let scrubs := t.scrubs.set (inStack pc).val (t.scrubs.get (inStack pc) + 1) (inStack pc).isLt
        let live := (List.finRange 32).filter fun k => t.pcs.get k == 0
        { t with
          scrubbing := true, scrubBay := at_.1, scrubs := scrubs
          passes := BitVec.ofNat 16 (min 0xFFFF (minOf (live.map fun k => scrubs.get k / pcBlocks) 0xFFFF)) })
    | .serai ch => .next (s1.modChannel ch fun c => { c with
        scrubbing := true, scrubBay := at_.1, scrubs := c.scrubs + 1
        passes := BitVec.ofNat 16 (min 0xFFFF ((c.scrubs + 1) / channelBlocks)) })

/-! ### The CXL.mem view (R298, R299) -/

/-- The stalls whose windows a link's HDM range holds, in increasing order (R298). -/
def windowStalls (s : State) (l : LinkId) : List Stall :=
  allStalls.filter fun i => ownerLink (s.stall i).page == some l || altLink (s.stall i).page == some l

/-- The stall and the virtual address behind an offset of a link's HDM range; none outside it. -/
def windowAt (s : State) (l : LinkId) (offset : BitVec 48) : Option (Stall × Nat) :=
  if !(s.host l).mem then none
  else ((windowStalls s l)[offset.toNat / 2 ^ 41]?).map fun i => (i, offset.toNat % 2 ^ 41)

/-- The virtual address of a slot region (R340; log entry 16). -/
def slotVa (slot : Bool) : Nat := 2 ^ 41 - 2 ^ 31 + (if slot then 2 ^ 30 else 0)

/-- Is a slot locked: the active charter's or a pending charter's (R340)? -/
def slotLocked (t : StallState) (slot : Bool) : Bool :=
  (t.charter.active.isSome && t.charter.activeSlot == slot) || (t.charter.pending.isSome && t.charter.pendingSlot == slot)

/-- The slot whose region an address lies in. -/
def slotOf (va : Nat) : Option Bool :=
  if slotVa false ≤ va ∧ va < slotVa false + nearBayBytes then some false
  else if slotVa true ≤ va ∧ va < slotVa true + nearBayBytes then some true else none

/-- Count a write dropped under R340 or R341. -/
def State.lockedWrite (s : State) (i : Stall) : State :=
  s.modCharter i fun p => { p with lockedWrites := satAdd p.lockedWrites 1 }

/-- A refused CXL.mem access (R299): CUSTOMS_DENY in the fault log and CUS_LAST. -/
def State.cxlDenied (s : State) (i : Stall) (cause : BitVec 4) (va : Nat) : State :=
  (s.denied i 186 cause va).record
    { reason := 0x0701, cls := clsInfo, stall := some i, kind := 11
      unit := (regionBelow (s.stall i).customs va).setWidth 16, detail := BitVec.ofNat 32 va }

/-- Why a CXL.mem access is not carried out: a dead window (R298), the stall's reset (R419), customs (R412). -/
inductive CxlRefusal where
  | dead | resetting | customs (cause : BitVec 4)
  deriving DecidableEq, Repr

def cxlRefusal (s : State) (l : LinkId) (i : Stall) (need : BitVec 4) (va len : Nat) : Option CxlRefusal :=
  let t := s.stall i
  if ownerLink t.page ≠ some l then some .dead
  else if t.page.state = 1 then some .resetting
  else (denyCause t.customs .cxl need va len).map .customs

/-- A refusal of a stall's request (R380, Table 13-11); the unit is 0x0100 for CXL.mem. -/
def State.stallRefused (s : State) (i : Stall) (reason : Reason) (unit : BitVec 16) : State :=
  s.modPage i fun p => { p with refused := satAdd p.refused 1, last := reason ++ unit }

/-- What a refused access records. -/
def State.cxlRefuse (s : State) (i : Stall) (va : Nat) : CxlRefusal → State
  | .dead => s.record { reason := 0x0701, cls := clsInfo, stall := some i, detail := BitVec.ofNat 32 va }
  | .resetting => s.stallRefused i 0x0C03 0x0100
  | .customs cause => s.cxlDenied i cause va

/-- Does an uncorrectable read of a place return raw bits: no parity corrects it (R286, R292)? -/
def rawPlace (s : State) (p : Place) : Bool :=
  match cellOf p with
  | some c => !c.striped || unitGroup s c.unit != 0
  | none => false

/-- An uncorrectable read of a place on behalf of a host (R286, R292, R299): where the read was of a retired member's data
in a DEGRADED group, the reconstruction has met it and the group fails; otherwise RAW_RETURNED is recorded. -/
def State.hostUncorrectable (s : State) (p : Place) : State :=
  match cellOf p with
  | none => s
  | some c =>
    let bay := BitVec.ofNat 10 (rowOf c.unit c.addr).1
    let row := BitVec.ofNat 18 (rowOf c.unit c.addr).2
    if c.striped && unitGroup s c.unit == 1 && !serves s.tiers c.unit then s.groupFailed c.unit bay row
    else s.rawReturned c.unit bay row

/-- CXL_MEM_READ (R298, R299, R286): served from tier memory, by reconstruction where a unit is lost to a DEGRADED
group; zeros where it is refused; raw bits, which are a free value, where nothing corrects it. -/
def execCxlMemRead (l : LinkId) (offset : BitVec 48) (len : Fin 65) (uncorrectable : Bool) (s : State) :
    Host.Outcome State Fault Refusal :=
  match windowAt s l offset with
  | none => .next s
  | some (i, va) =>
    match cxlRefusal s l i (permRead ||| permHost) va len.val with
    | some r => .next ((s.cxlRefuse i va r).send (.memData l (List.replicate len.val 0)))
    | none =>
      let s1 := s.countRead i va len.val
      match s.placeOf i va with
      | some p =>
        if uncorrectable && rawPlace s p then
          let s2 := s1.hostUncorrectable p
          .next ({ s2 with free := s2.free + 1 }.send (.memData l ((List.range len.val).map fun k => Config.freeByte s2.free k)))
        else .next (s1.send (.memData l (s.readBytes i va len.val)))
      | none => .next (s1.send (.memData l (s.readBytes i va len.val)))

/-- CXL_MEM_WRITE (R299, R340): written, dropped where customs refuses it or a locked slot holds the address. -/
def execCxlMemWrite (l : LinkId) (offset : BitVec 48) (data : List Byte) (s : State) : Host.Outcome State Fault Refusal :=
  match windowAt s l offset with
  | none => .next s
  | some (i, va) =>
    match cxlRefusal s l i (permWrite ||| permHost) va data.length with
    | some r => .next (s.cxlRefuse i va r)
    | none =>
      match slotOf va with
      | some slot =>
        if slotLocked (s.stall i) slot then .next (s.lockedWrite i)
        else .next ((s.writeBytes i va data).countBytes i va data.length)
      | none => .next ((s.writeBytes i va data).countBytes i va data.length)

/-! ### Brace buffers (R301) -/

/-- Write held bytes to memory in order. -/
def State.commitHeld (s : State) (l : List (Place × Byte)) : State := forEach l s fun s e => s.storePlace e.1 e.2

/-- The end of a channel's hold: its buffer drains in order before new writes are taken. -/
def State.drainChannel (s : State) (ch : Fin 24) : State :=
  (s.commitHeld (s.tiers.serai.get ch).buffer).modChannel ch fun c => { c with braceHold := false, buffer := [], held := 0 }

/-- SERAI_HOLD_ROOM (R301): a writer that waits on a full buffer resumes when the buffer has room. -/
def execSeraiHoldRoom (ch : Fin 24) (s : State) : Host.Outcome State Fault Refusal :=
  let c := s.tiers.serai.get ch
  if c.waiting.isEmpty then .next s
  else if c.braceHold then
    let room := braceBufferBytes - c.buffer.length
    .next (s.modChannel ch fun c => { c with
      buffer := c.buffer ++ c.waiting.take room, waiting := c.waiting.drop room
      held := BitVec.ofNat 32 (c.buffer ++ c.waiting.take room).length })
  else .next ((s.commitHeld c.waiting).modChannel ch fun c => { c with waiting := [] })

end Sys2Proof.Machine
end

