-- ==== Sys2Proof/Machine/Anatomy.lean ====
section
/-! DEFINITION. Faults of the module's own parts (chapter 01): cores and their spares (R16 to R20, R455), die-to-die links
(R24), the eye-safety interlock (R28, R329), clocks (R33). -/

namespace Sys2Proof.Machine

/-! ### Cores (R18 to R20, R449, R455) -/

/-- The logical core of a die's slot (R15). -/
def slotCore (d : DieId) (i : Fin 8) : CoreId := ⟨8 * d.val + i.val, by omega⟩

/-- The slot that a physical core works in. -/
def slotOfPc (die : Die) (pc : Fin 9) : Option (Fin 8) :=
  (List.finRange 8).find? fun i => die.map.get i == BitVec.ofNat 4 pc.val

/-- The working spare of a die (R36). -/
def spareOf (die : Die) : Option (Fin 9) := (List.finRange 9).find? fun j => die.states.get j == 1

/-- A unit's staging memory without contents: a spare that is powered holds none. -/
def State.clearStaging (s : State) (k : CoreId) : State :=
  { s with mem := s.mem.filter fun c => !(c.1 % 4 == 2 && c.1 / 4 % 32 == k.val) }

/-- A core whose work is lost and whose arrays stand at level 0, IDLE where it is powered and OFF where not; its
registers keep their values. -/
def idleCore (powered : Bool) (x : Core) : Core :=
  let st : BitVec 4 := if powered then 1 else 0
  { x with
    da := x.da.map fun a => { a with state := st, level := 0, target := 0, hold := false }
    gme := x.gme.map fun g => { g with state := st }
    vu := { x.vu with state := st } }

/-- Has a logical core a working physical core (R19, R37)? -/
def liveCore (s : State) (k : CoreId) : Bool :=
  (s.anatomy.dies.get ⟨k.val / 8, by omega⟩).map.get ⟨k.val % 8, Nat.mod_lt _ (by decide)⟩ != 0xF

/-- The 16 table slots of a core from its charter's FUNCTION section (R455). -/
def chargedTables (c : Charter) (k : CoreId) : Vector (List Byte) 16 :=
  Vector.ofFn fun slot =>
    match c.functions.find? fun f => f.core.toNat == k.val && f.slot.toNat == slot.val with
    | some f => f.table
    | none => []

/-- Map a failed core's slot to the spare, or mark it absent; the core is marked RETIRED or REJECTED (R17 to R19, R37). -/
def spareDie (die : Die) (slot : Fin 8) (pc : Fin 9) (mark : BitVec 2) : Die :=
  match spareOf die with
  | some j => { map := die.map.set slot (BitVec.ofNat 4 j.val), states := (die.states.set pc mark).set j 0 }
  | none => { map := die.map.set slot 0xF, states := die.states.set pc mark }

/-- A die that loses a physical core: an active one by `spareDie`; the spare, and a core that is lost already, leave the
map as it is. -/
def loseCore (die : Die) (pc : Fin 9) (mark : BitVec 2) : Die :=
  match slotOfPc die pc with
  | some slot => spareDie die slot pc mark
  | none => if die.states.get pc == 1 then { die with states := die.states.set pc mark } else die

/-- A die as the retired list gives it (R36, R37): its cores are lost in the order in which they entered the list, so that
a slot keeps the spare it was given (R38). -/
def listedDie (l : List Retired) (d : DieId) : Die :=
  (l.filter fun e => e.kind == 1 && e.index.toNat / 16 == d.val).foldl (fun die e =>
    let pc := e.index.toNat % 16
    if h : pc < 9 then loseCore die ⟨pc, h⟩ (if e.rejected then 3 else 2) else die) {}

/-- Dies and links between dies as the retired list gives them at a reset (R36, R37). -/
def listedAnatomy (l : List Retired) : Anatomy :=
  { dies := Vector.ofFn fun d => listedDie l d
    d2d := Vector.ofFn fun k => l.any fun e => e.kind == 6 && e.index.toNat == k.val }

/-- The march of the stall that uses the core is repeated (R18, Table 16-3), and where no spare is left its charter does
not fit any more (R19): a march in progress ends REPEAT_FAULT, and its repeat HALT_NOFIT (Table 16-3). A spare takes the
charter's tables (R455); held updates stay held (R176, R359). -/
def State.coreLost (s : State) (k : CoreId) (spared : Bool) : State :=
  match coreStall s k with
  | none => s
  | some i =>
    match (s.stall i).charter.active with
    | none => s.refit i
    | some c =>
      let s1 := if spared then s.modCore k fun x => { x with vu := { x.vu with tables := chargedTables c k } } else s
      let s2 := if bit c.cores k.val then s1.cause i vFault 0x020B else s1
      if spared then s2
      else if (s.stall i).march.state == .legs || (s.stall i).march.state == .verdict then s2.refitNext i
      else s2.refit i

/-- A permanent fault of an active core, its Quartermaster at work (R18 to R20). -/
def State.failCore (s : State) (d : DieId) (pc : Fin 9) (reason : Reason) : State :=
  let die := s.anatomy.dies.get d
  match slotOfPc die pc with
  | none => s
  | some slot =>
    let k := slotCore d slot
    let s1 := (s.record { reason := reason, cls := clsRepeat, stall := coreStall s k, kind := 1, unit := coreUnit d pc }).retire
      1 (coreUnit d pc) reason
    let s2 := { s1 with anatomy := { s1.anatomy with dies := s1.anatomy.dies.set d (spareDie die slot pc 2) } }
    ((s2.clearStaging k).modCore k (idleCore (spareOf die).isSome)).coreLost k (spareOf die).isSome

/-- Does the Quartermaster of a die restart (R466)? -/
def qmRestarting (s : State) (d : DieId) : Bool := s.tollgate.restarting == some (BitVec.ofNat 4 (2 + d.val))

/-- A permanent core fault (R18); while the die's Quartermaster restarts it is held (R466). -/
def State.coreFault (s : State) (d : DieId) (pc : Fin 9) (reason : Reason) : State :=
  if qmRestarting s d then
    { s with anatomy := { s.anatomy with heldFaults := s.anatomy.heldFaults ++ [(d, pc, reason)] } }
  else s.failCore d pc reason

/-- The held faults of a die, acted on when its Quartermaster returns (R466). -/
def State.releaseFaults (s : State) (d : DieId) : State :=
  let mine := s.anatomy.heldFaults.filter fun e => e.1 == d
  let s1 := { s with anatomy := { s.anatomy with heldFaults := s.anatomy.heldFaults.filter fun e => e.1 != d } }
  forEach mine s1 fun s e => s.failCore e.1 e.2.1 e.2.2

/-- PERMANENT_CORE_FAULT (R18, R450). -/
def execPermanentCoreFault (d : DieId) (pc : Fin 9) (reason : Reason) (s : State) : Host.Outcome State Fault Refusal :=
  .next (s.coreFault d pc reason)

/-! ### Die-to-die links (R24) -/

/-- A die-to-die link retires: listed, recorded with its pause, and the fit proofs repeated (R24, R56). Where both hub links
of a die are retired nothing more happens (DESIGN CHOICE, log entry 132: R24 moves traffic to the other hub link only). -/
def State.d2dRetire (s : State) (l : Fin 12) : State :=
  if s.anatomy.d2d.get l then s
  else
    let s1 := { s with anatomy := { s.anatomy with d2d := s.anatomy.d2d.set l true } }
    let s2 := (s1.retire 6 (BitVec.ofNat 16 l.val) 0x0211).recordPause
      { reason := 0x0211, cls := clsRetired, kind := 6, unit := BitVec.ofNat 16 l.val }
    forEach (presentStalls s2) s2 fun s i => s.refit i

/-- D2D_LINK_RETIRE (R24). -/
def execD2dLinkRetire (l : Fin 12) (s : State) : Host.Outcome State Fault Refusal := .next (s.d2dRetire l)

/-! ### The interlock (R28, R329) -/

/-- A port whose sources go dark carries nothing more: a link that is up or trains is down, and a probe ends (R331). -/
def State.darkPort (s : State) (p : PortId) : State :=
  let s1 := (s.darken p).modOptic p fun o => { o with interlock := false }
  if (s.port p).state == 2 || (s.port p).state == 3 then s1.cutLink p 4
  else s1.modPort p fun x => { x with state := if x.state = 1 then 0 else x.state }

/-- Every source dark (R28). -/
def State.allDark (s : State) : State :=
  let s1 := forEach (List.finRange 8) s fun s p => s.darkPort p
  { s1 with power := { s1.power with interlock := false }, pins := { s1.pins with lasers := false } }

/-- INTERLOCK_LOST (R28, R329, Table 16-1): every source is dark, and the member reports a module fault. -/
def execInterlockLost (s : State) : Host.Outcome State Fault Refusal :=
  if !s.power.interlock then .next s
  else .next (s.allDark.moduleFault { reason := 0x0809 })

/-! ### Clocks (R33, Table 01-3) -/

/-- The tables of a core from the active charter of its stall; empty without one. -/
def tablesNow (s : State) (k : CoreId) : Vector (List Byte) 16 :=
  match (coreStall s k).bind fun i => (s.stall i).charter.active with
  | some c => chargedTables c k
  | none => Vector.replicate 16 []

/-- IDENT_RESET_CAUSE (R425, Table 15-12). -/
def State.resetCause (s : State) (cause scope : BitVec 4) (channel : BitVec 8) : State :=
  { s with starts := { s.starts with cause := cause, scope := scope, channel := channel } }

/-- A Quartermaster's reset (R395, R387, source 5): its cores lose their work, its posts are acknowledged
RECEIVER_RESET, and the march of a stall that uses them ends REPEAT_FAULT; maps and lists stay. -/
def State.resetQm (s : State) (d : DieId) : State :=
  let cores := (List.finRange 8).map fun i => slotCore d i
  let s0 := s.resetCause 5 (BitVec.ofNat 4 d.val) 0
  let s1 := forEach cores s0 fun s k => (s.clearStaging k).modCore k fun x => { idleCore (liveCore s k) x with
    vu := { (idleCore (liveCore s k) x).vu with tables := tablesNow s k } }
  let s2 := forEach allStalls s1 fun s i => forEach ((List.finRange 24).filter fun n =>
      decide (4 + 4 * d.val ≤ n.val) && decide (n.val < 8 + 4 * d.val)) s fun s n =>
    s.modPost i false n fun p => if p.full then { p with
      full := false, ackDone := true, ackTag := p.tag, ackCode := 0x0605, sender := none, acked := p.acked + 1 } else p
  let owners := dedup (cores.filterMap fun k => coreStall s2 k)
  forEach owners s2 fun s i =>
    match (s.stall i).charter.active with
    | some c => if cores.any fun k => bit c.cores k.val then s.cause i vFault 0x020B else s
    | none => s

/-- A copy engine retired until the next bring-up; a charter that uses it halts with HALT_NOFIT (Table 16-2, R494). -/
def State.retireEngine (s : State) (e : EngineId) : State :=
  let s1 := s.modEngine e fun x => { x with retired := true, state := 0, qen := false }
  match engineStall s e with
  | some i => s1.refit i
  | none => s1

/-- A stall's ledger engine retired likewise (R494). -/
def State.retireLedger (s : State) (i : Stall) : State :=
  (s.modLedger i fun l => { l with retired := true }).refit i

/-- The pseudo-channels of a stack and the Serai channels. -/
def stackUnits (k : Nat) : List (Fin 256) := (List.finRange 256).filter fun pc => decide (pc.val / 32 = k)

/-- What the loss of a domain's lock does (R33): a core clock fails its core, any other domain the unit it clocks. The
ledger engine (LG) and the copy engines (CP0, CP1) are retired, for a charter that needs one halts with HALT_NOFIT (R494);
the debug and trace unit (DT) is recorded alone, for no rule gives a use of it to a march (log entry 136). -/
def State.domainLost (s : State) (n : Nat) : State :=
  let r : Rec := { reason := 0x020C, kind := 12, unit := BitVec.ofNat 16 n }
  if h : n < 32 then
    let d : DieId := ⟨n / 8, by omega⟩
    let pc := ((s.anatomy.dies.get d).map.get ⟨n % 8, Nat.mod_lt _ (by decide)⟩).toNat
    if g : pc < 9 then s.coreFault d ⟨pc, g⟩ 0x020B else s
  else if n < 36 then s.moduleFault r
  else if n < 40 then (s.record { r with reason := 0x020B, cls := clsRepeat }).resetQm ⟨(n - 36) % 4, Nat.mod_lt _ (by decide)⟩
  else if n < 44 then
    let l := 2 * (n - 40)
    (s.d2dRetire ⟨l % 12, Nat.mod_lt _ (by decide)⟩).d2dRetire ⟨(l + 1) % 12, Nat.mod_lt _ (by decide)⟩
  else if n < 48 then s.d2dRetire ⟨(8 + (n - 44)) % 12, Nat.mod_lt _ (by decide)⟩
  else if n < 56 then forEach (stackUnits (n - 48)) s fun s pc => s.retireUnit (.near pc) 0 0 0x0903
  else if n < 80 then s.retireUnit (.serai ⟨(n - 56) % 24, Nat.mod_lt _ (by decide)⟩) 0 0 0x0903
  else if n < 88 then
    let p : PortId := ⟨(n - 80) % 8, Nat.mod_lt _ (by decide)⟩
    (s.portDown p 0x0802).refitPort s p
  else if n = 94 then s.record { r with cls := clsInfo }
  else if n = 95 then
    forEach (presentStalls s) s fun s i =>
      (s.record { r with cls := clsRetired, stall := some i, kind := 9, unit := BitVec.ofNat 16 i.val }).retireLedger i
  else if n = 96 ∨ n = 97 then
    forEach ((List.finRange 8).filter fun e => decide (e.val / 4 = n - 96)) s fun s e =>
      (s.record { r with cls := clsRetired, stall := engineStall s e, kind := 8, unit := BitVec.ofNat 16 e.val }).retireEngine e
  else s.moduleFault r

/-- OSC156_STOP (R33): a module fault; the lasers go dark, and the caravan goes on without the member. -/
def execOsc156Stop (s : State) : Host.Outcome State Fault Refusal :=
  if !s.anatomy.osc156 then .next s
  else
    let s1 := { s with anatomy := { s.anatomy with osc156 := false } }
    let s2 := forEach allStalls s1 fun s i => s.modSeq i fun q => { q with left := true }
    .next (s2.allDark.moduleFault { reason := 0x020C, kind := 12 })

end Sys2Proof.Machine
end

