-- ==== Sys2Proof/Machine/Parse.lean ====
section
/-! DEFINITION. Charter slots (R340 to R352): the header and the section directory of a slot, whether a slot is valid
(R343), which slot wins (R344), and the charter that its body holds. A section whose contents run past its own end breaks
the container rule (log entry 19). -/

namespace Sys2Proof.Machine

/-- A byte of a slot (R340, R342): slots A and B are the stall's first two near bays. -/
def slotByte (s : State) (i : Stall) (slot : Bool) (off : Nat) : Byte :=
  s.readPlace (.near ((s.stall i).page.comp.nearFirst.toNat + (if slot then 1 else 0)) off)

/-- The bytes of a slot by offset. -/
abbrev SlotBytes := Nat → Byte

/-- `n` bytes as a number. -/
def slNat (b : SlotBytes) (o n : Nat) : Nat := ofLe ((List.range n).map fun k => b (o + k))

/-- Bytes as a bit vector. -/
def slBits (b : SlotBytes) (w o : Nat) : BitVec w := BitVec.ofNat w (slNat b o (w / 8))

/-- Are `n` bytes zero? -/
def slZero (b : SlotBytes) (o n : Nat) : Bool := (List.range n).all fun k => b (o + k) == 0

/-! ### The header (Table 12-1) and the section directory (Table 12-2) -/

def slSigned (b : SlotBytes) : Bool := (b 6).getLsbD 0
def slSeq (b : SlotBytes) : BitVec 64 := slBits b 64 8
def slLength (b : SlotBytes) : Nat := slNat b 16 8

/-- The first part of rule 1 of R343: MAGIC, FORMAT, LENGTH and the reserved bytes and bits of the header. -/
def headerOk (b : SlotBytes) : Bool :=
  slNat b 0 4 == 0x52414843 && slNat b 4 2 == 1 && decide (slNat b 6 2 < 2) && slLength b % 64 == 0
    && decide (256 ≤ slLength b) && decide (slLength b ≤ 1006629888) && slZero b 28 4 && slZero b 64 192

/-- Rule 2 of R343: PART, STEP and STALL. -/
def targetOk (b : SlotBytes) (i : Stall) : Bool :=
  slNat b 24 2 == 0x9640 && b 26 == 0x10 && (b 27 == 0xFF || (b 27).toNat == i.val)

/-- A section of a body: its TYPE, its slot offset, its LENGTH and its COUNT. -/
structure Sect where
  ty : Nat := 0
  off : Nat := 0
  len : Nat := 0
  count : Nat := 0
  deriving DecidableEq, Repr

/-- An entry of the section directory. -/
def tocEntry (b : SlotBytes) (k : Nat) : BitVec 128 := slBits b 128 (256 + 16 * k)

/-- The sections in directory order. -/
def sections (b : SlotBytes) : List Sect :=
  (List.range 16).filterMap fun k =>
    let e := tocEntry b k
    if fldN e 0 8 = 0 then none else some ⟨fldN e 0 8, 256 + fldN e 32 32, fldN e 64 32, fldN e 96 32⟩

/-- The section of a type; an absent section is empty (R345). -/
def sect (b : SlotBytes) (ty : Nat) : Sect := ((sections b).find? fun x => x.ty == ty).getD { ty := ty }

/-- Do two sections overlap? -/
def sectsMeet (x y : Sect) : Bool := decide (x.off < y.off + y.len) && decide (y.off < x.off + x.len)

/-- R345: places, overlaps, types at most once, and the three sections that must be present. -/
def tocOk (b : SlotBytes) : Bool :=
  let l := sections b
  (l.all fun x => x.off % 64 == 0 && decide (x.off + x.len ≤ 256 + slLength b))
    && ((List.range l.length).all fun n => (List.range n).all fun m =>
      let x := l.getD n {}
      let y := l.getD m {}
      x.ty != y.ty && !sectsMeet x y)
    && [1, 2, 3].all fun t => l.any fun x => x.ty == t

/-! ### Items of sections -/

/-- Do `n` bytes at offset `o` of a section lie inside it? -/
def Sect.holds (x : Sect) (o n : Nat) : Bool := decide (o + n ≤ x.len)

/-- A number of `n` bytes of a section. -/
def Sect.nat (x : Sect) (b : SlotBytes) (o n : Nat) : Nat := slNat b (x.off + o) n

/-- A record of a section. -/
def Sect.bits (x : Sect) (b : SlotBytes) (w o : Nat) : BitVec w := slBits b w (x.off + o)

/-- `n` records of `w` bits from offset `o`. -/
def Sect.recs (x : Sect) (b : SlotBytes) (w o n : Nat) : List (BitVec w) :=
  (List.range n).map fun k => x.bits b w (o + w / 8 * k)

/-- The schedule record at offset `o` with its words of the dependency array at `deps` (R349, Table 12-6). -/
def Sect.sched (x : Sect) (b : SlotBytes) (o deps : Nat) : Sched :=
  let r := x.bits b 128 o
  { leg := fld r 0 8, item := fld r 64 32, deps := x.recs b 32 (deps + 4 * fldN r 32 32) (fldN r 8 8) }

/-- Do a schedule record and its dependency words lie inside the section? -/
def Sect.schedHolds (x : Sect) (b : SlotBytes) (o deps : Nat) : Bool :=
  let r := x.bits b 128 o
  x.holds o 16 && (fldN r 8 8 == 0 || x.holds (deps + 4 * fldN r 32 32) (4 * fldN r 8 8))

/-- Reserved bits of a schedule record and of its dependency words (R349): ITEM is used by COPY alone, QUAL by two spaces. -/
def Sect.schedOdd (x : Sect) (b : SlotBytes) (o deps : Nat) (copy : Bool) : Bool :=
  let r := x.bits b 128 o
  fldN r 16 16 != 0 || fldN r 96 32 != 0 || (!copy && fldN r 64 32 != 0)
    || (x.sched b o deps).deps.any fun w =>
      fldN w 25 3 != 0 || decide (5 ≤ fldN w 28 4) || (decide (2 ≤ fldN w 28 4) && fldN w 20 5 != 0)
        || (fldN w 28 4 == 1 && decide (8 ≤ fldN w 20 5))

/-! ### CARAVAN (Table 12-4) -/

def carLegs (h : BitVec 1024) : Nat := fldN h 112 9
def carTrees (h : BitVec 1024) : Nat := fldN h 128 8
def carEdges (h : BitVec 1024) : Nat := fldN h 144 16
def carOffset (h : BitVec 1024) (k : Nat) : Nat := fldN h (160 + 32 * k) 32

/-- The offset of tree `k` in the section. -/
def treeAt (b : SlotBytes) (x : Sect) (h : BitVec 1024) (k : Nat) : Nat := x.nat b (carOffset h 1 + 4 * k) 4

/-- Do the tables of a CARAVAN section lie inside it? -/
def caravanHolds (b : SlotBytes) (x : Sect) : Bool :=
  let h := x.bits b 1024 0
  x.holds 0 128 && x.holds (carOffset h 0) (8 * carLegs h) && x.holds (carOffset h 1) (4 * carTrees h)
    && x.holds (carOffset h 2) 128 && x.holds (carOffset h 3) (16 * carEdges h)
    && (List.range (carTrees h)).all fun k =>
      let o := treeAt b x h k
      x.holds o 4 && x.holds (o + 4) (4 * x.nat b o 4)

/-! ### List sections (Table 12-7) -/

/-- A core's header of the STREAM section: entries and the offsets of its three arrays. -/
def coreHead (b : SlotBytes) (x : Sect) (k : Nat) : Nat × Nat × Nat × Nat :=
  let h := x.bits b 128 (16 * k)
  (fldN h 0 16, fldN h 32 32, fldN h 64 32, fldN h 96 32)

/-- An engine's header of the COPY section: entries, the offsets of schedules, descriptors and dependencies, descriptors. -/
def engineHead (b : SlotBytes) (x : Sect) (e : Nat) : Nat × Nat × Nat × Nat × Nat :=
  let h := x.bits b 256 (32 * e)
  (fldN h 0 32, fldN h 32 32, fldN h 64 32, fldN h 96 32, fldN h 128 32)

/-- Do a list's schedules, at `o`, lie inside the section with their dependency words? -/
def Sect.listHolds (x : Sect) (b : SlotBytes) (n o deps : Nat) : Bool :=
  x.holds o (16 * n) && (List.range n).all fun k => x.schedHolds b (o + 16 * k) deps

/-- ROUTE: sends, receives, and the offsets of the schedules and of the dependency words. -/
def routeHead (b : SlotBytes) (x : Sect) : Nat × Nat × Nat × Nat :=
  let n := x.nat b 0 4
  let m := x.nat b 4 4
  (n, m, 64 + 32 * (n + m), 64 + 48 * (n + m))

/-- SETTLE: groups, entries, and the offsets of entries, schedules and dependency words. -/
def settleHead (b : SlotBytes) (x : Sect) : Nat × Nat × Nat × Nat × Nat :=
  let h := x.bits b 512 0
  let g := fldN h 160 9
  let n := fldN h 128 32
  (g, n, 64 + 64 * g, 64 + 64 * g + 64 * n, 64 + 64 * g + 80 * n)

/-- The records of the DIRECTORY section from offset `o`; none where one runs past the section. -/
def dirRecords (b : SlotBytes) (x : Sect) : Nat → Nat → Option (List DirectoryRec)
  | 0, _ => some []
  | n + 1, o =>
    if !x.holds o 16 then none
    else
      let h := x.bits b 128 o
      let t := fldN h 32 32
      if !x.holds (o + 16) (16 * t) then none
      else (dirRecords b x n (o + 64 * ceilDiv (16 + 16 * t) 64)).map fun l =>
        { tensor := fld h 0 16, turned := bit h 16, tiles := x.recs b 128 (o + 16) t } :: l

/-- The offsets of the records of the DIRECTORY section. -/
def dirOffsets (b : SlotBytes) (x : Sect) : Nat → Nat → List Nat
  | 0, _ => []
  | n + 1, o => if !x.holds o 16 then [] else o :: dirOffsets b x n (o + 64 * ceilDiv (16 + 16 * x.nat b (o + 4) 4) 64)

/-- Do the contents of every section lie inside it? -/
def contentsOk (b : SlotBytes) : Bool :=
  let s := sect b
  let opt (ty : Nat) (f : Sect → Bool) : Bool := (s ty).len == 0 || f (s ty)
  (s 1).holds 0 (64 + 32 * (s 1).count) && caravanHolds b (s 2) && (s 3).holds 0 (64 * (s 3).count)
    && opt 4 (fun x => x.holds 0 512 && (List.range 32).all fun k =>
      let (n, e, o, d) := coreHead b x k
      n == 0 || (x.holds e (64 * n) && x.listHolds b n o d))
    && opt 5 (fun x => x.holds 0 256 && (List.range 8).all fun k =>
      let (n, o, e, d, m) := engineHead b x k
      (n == 0 || x.listHolds b n o d) && (m == 0 || x.holds e (64 * m)))
    && opt 6 (fun x => x.holds 0 64 && (let (n, m, o, d) := routeHead b x; x.listHolds b (n + m) o d))
    && opt 7 (fun x => x.holds 0 64 && x.holds 64 (32 * x.nat b 8 4))
    && (s 8).listHolds b (s 8).count (32 * (s 8).count) (48 * (s 8).count)
    && opt 9 (fun x => x.holds 0 64 && (let (g, n, _, o, d) := settleHead b x; x.holds 64 (64 * g) && x.listHolds b n o d))
    && (s 10).holds 0 (3200 * (s 10).count) && (s 11).holds 0 (8 * (s 11).count)
    && (dirRecords b (s 12) (s 12).count 0).isSome

/-- Rule 1 of R343. -/
def containerOk (b : SlotBytes) : Bool := headerOk b && tocOk b && contentsOk b

/-- A core's list. -/
def parseStream (b : SlotBytes) (x : Sect) (k : Nat) : List StreamEntry :=
  if x.len = 0 then []
  else
    let (n, e, o, d) := coreHead b x k
    (List.range n).map fun j => { desc := x.bits b 512 (e + 64 * j), sched := x.sched b (o + 16 * j) d }

/-- An engine's list. -/
def parseCopies (b : SlotBytes) (x : Sect) (k : Nat) : CopyList :=
  if x.len = 0 then {}
  else
    let (n, o, e, d, m) := engineHead b x k
    { entries := (List.range n).map fun j => x.sched b (o + 16 * j) d, descs := x.recs b 512 e m }

/-- The charter that a body holds; row masks and shape records are captured when it is accepted (R107, R202). -/
def parseCharter (b : SlotBytes) (slot : Bool) : Charter :=
  let s := sect b
  let h := (s 2).bits b 1024 0
  let (sends, recvs, ro, rd) := routeHead b (s 6)
  let (groups, settles, eo, so, sd) := settleHead b (s 9)
  let n8 := (s 8).count
  { slot := slot, seq := slSeq b, isSigned := slSigned b
    resource := (s 1).bits b 512 0
    regions := (s 1).recs b 256 64 (s 1).count
    caravan := h
    legs := (s 2).recs b 64 (carOffset h 0) (carLegs h)
    trees := (List.range (carTrees h)).map fun k =>
      let o := treeAt b (s 2) h k
      (s 2).recs b 32 (o + 4) ((s 2).nat b o 4)
    wiring := (s 2).recs b 128 (carOffset h 2) 8
    fed := (s 2).recs b 128 (carOffset h 3) (carEdges h)
    tensors := (s 3).recs b 512 0 (s 3).count
    exts := (s 3).recs b 512 (64 * (s 3).count) ((s 3).len / 64 - (s 3).count)
    streams := (List.range 32).map fun k => parseStream b (s 4) k
    copies := (List.range 8).map fun k => parseCopies b (s 5) k
    sends := if (s 6).len = 0 then [] else (List.range sends).map fun k =>
      { raw := (s 6).bits b 256 (64 + 32 * k), sched := (s 6).sched b (ro + 16 * k) rd }
    recvs := if (s 6).len = 0 then [] else (List.range recvs).map fun k =>
      { raw := (s 6).bits b 256 (64 + 32 * (sends + k)), sched := (s 6).sched b (ro + 16 * (sends + k)) rd }
    tariffBase := if (s 7).len = 0 then 0 else (s 7).bits b 48 0
    buckets := if (s 7).len = 0 then [] else (s 7).recs b 256 64 ((s 7).nat b 8 4)
    ledger := (List.range n8).map fun k =>
      { raw := (s 8).bits b 128 (16 * k), peer := (s 8).bits b 128 (16 * n8 + 16 * k)
        sched := (s 8).sched b (32 * n8 + 16 * k) (48 * n8) }
    settleHead := if (s 9).len = 0 then 0 else (s 9).bits b 512 0
    groups := if (s 9).len = 0 then [] else (s 9).recs b 512 64 groups
    settle := if (s 9).len = 0 then [] else (List.range settles).map fun k =>
      { raw := (s 9).bits b 512 (eo + 64 * k), sched := (s 9).sched b (so + 16 * k) sd }
    functions := (List.range (s 10).count).map fun k =>
      { core := fld ((s 10).bits b 16 (3200 * k)) 0 5, slot := fld ((s 10).bits b 16 (3200 * k)) 8 4
        table := (List.range 3136).map fun j => b ((s 10).off + 3200 * k + 64 + j) }
    lots := (s 11).recs b 64 0 (s 11).count
    dirInit := (List.range 16).any fun k => fldN (tocEntry b k) 0 8 == 12 && bit (tocEntry b k) 8
    dirs := (dirRecords b (s 12) (s 12).count 0).getD []
    order := (sections b).map fun x => BitVec.ofNat 8 x.ty }

/-- Items of a list that break a condition. -/
def oddItems {α : Type} (ty : Nat) (l : List α) (item : Nat → Nat) (bad : α → Bool) : List (Nat × Nat) :=
  (List.range l.length).filterMap fun k =>
    match l[k]? with
    | some x => if bad x then some (ty, item k) else none
    | none => none

/-- Non-zero reserved fields of what a Charter does not keep: the directory, section headers, schedule records (R345,
R349 to R351). A core's and an engine's own fields are reported at its first item. -/
def oddFields (b : SlotBytes) : List (Nat × Nat) :=
  let s := sect b
  let nums (n : Nat) := List.range n
  let (sends, recvs, ro, rd) := routeHead b (s 6)
  let (_, settles, _, so, sd) := settleHead b (s 9)
  let n8 := (s 8).count
  oddItems 0 (nums 16) id (fun k =>
      let e := tocEntry b k
      fldN e 0 8 != 0 && (decide (12 < fldN e 0 8) || fldN e 9 23 != 0 || (bit e 8 && fldN e 0 8 != 12)))
    ++ (if (s 4).len = 0 then [] else (nums 32).flatMap fun k =>
      let (n, _, o, d) := coreHead b (s 4) k
      (if fldN ((s 4).bits b 128 (16 * k)) 16 16 != 0 then [(4, k * 2 ^ 20)] else [])
        ++ oddItems 4 (nums n) (fun j => k * 2 ^ 20 + j) fun j => (s 4).schedOdd b (o + 16 * j) d false)
    ++ (if (s 5).len = 0 then [] else (nums 8).flatMap fun k =>
      let (n, o, _, d, _) := engineHead b (s 5) k
      (if !slZero b ((s 5).off + 32 * k + 20) 12 then [(5, k * 2 ^ 20)] else [])
        ++ oddItems 5 (nums n) (fun j => k * 2 ^ 20 + j) fun j => (s 5).schedOdd b (o + 16 * j) d true)
    ++ (if (s 6).len = 0 then [] else
      (if !slZero b ((s 6).off + 8) 56 then [(6, 0)] else [])
        ++ oddItems 6 (nums (sends + recvs)) id fun j => (s 6).schedOdd b (ro + 16 * j) rd false)
    ++ (if (s 7).len = 0 then [] else
      if !slZero b ((s 7).off + 6) 2 || !slZero b ((s 7).off + 12) 52 then [(7, 0)] else [])
    ++ oddItems 8 (nums n8) id (fun j => (s 8).schedOdd b (32 * n8 + 16 * j) (48 * n8) false)
    ++ (if (s 9).len = 0 then [] else oddItems 9 (nums settles) id fun j => (s 9).schedOdd b (so + 16 * j) sd false)
    ++ oddItems 10 (nums (s 10).count) id (fun j =>
      let h := (s 10).bits b 512 (3200 * j)
      fldN h 5 3 != 0 || fldN h 12 500 != 0)
    ++ oddItems 12 (dirOffsets b (s 12) (s 12).count 0) id fun o =>
      let h := (s 12).bits b 128 o
      fldN h 17 15 != 0 || fldN h 64 64 != 0

/-! ### Validity and choice (R343, R344) -/

/-- The bytes that DIGEST covers (Table 12-1). -/
def digested (b : SlotBytes) : List Byte :=
  ((List.range 32).map b) ++ (List.range (slLength b)).map fun k => b (256 + k)

/-- The key that the stall's policy names (R342, R409): an owner slot of the key store. -/
def policyKey (s : State) (i : Stall) : List Byte := s.tollgate.keys.getD (s.stall i).charter.keyIndex.toNat []

/-- Does a signature of 2,420 bytes over a digest verify under the stall's key (R342, R361)? -/
def signatureOk (s : State) (i : Stall) (digest sig : List Byte) : Bool :=
  !(policyKey s i).isEmpty && Config.mldsaVerify (policyKey s i) digest sig

/-- The reason for which a slot is invalid (R343); 0 where it is valid. -/
def slotReason (s : State) (i : Stall) (b : SlotBytes) : Reason :=
  if !containerOk b then 0x0102
  else if !targetOk b i then 0x0105
  else if bytes256 (sha3 (digested b)) != (List.range 32).map (fun k => b (32 + k)) then 0x0103
  else if slSigned b && !signatureOk s i ((List.range 32).map fun k => b (32 + k))
      ((List.range 2420).map fun k => b (256 + slLength b + k)) then 0x0104
  else if (s.stall i).charter.signedOnly && !slSigned b then 0x0104
  else 0

/-- CHT_SLOTx_STATUS (Table 12-13). -/
def slotStatus (b : SlotBytes) (reason : Reason) : Word :=
  putB (reason == 0) 31 ||| putB (slSigned b) 30 ||| put (fld reason 0 8) 16 ||| put (fld (slSeq b) 0 16) 0

/-- What R344 gives: the winning slot, or a refusal with its code and detail. -/
inductive Choice where
  | winner (slot : Bool)
  | refuse (code detail : Reason)
  deriving DecidableEq, Repr

/-- R344, given the two reasons. -/
def chooseBy (s : State) (i : Stall) (ra rb : Reason) : Choice :=
  let a := slotByte s i false
  let b := slotByte s i true
  let first := if ra != 0 then ra else rb
  let newer (slot : Bool) : Choice :=
    match (s.stall i).charter.active with
    | some c => if (slSeq (if slot then b else a)).toNat ≤ c.seq.toNat then .refuse 0x0107 first else .winner slot
    | none => .winner slot
  if ra != 0 && rb != 0 then .refuse 0x0101 first
  else if ra != 0 then newer true
  else if rb != 0 then newer false
  else if slSeq a == slSeq b then
    (if (List.range 32).map (fun k => a (32 + k)) == (List.range 32).map (fun k => b (32 + k)) then newer false
     else .refuse 0x0106 0)
  else newer (decide ((slSeq a).toNat < (slSeq b).toNat))

/-- The choice of a slot with the two status registers. -/
def State.chooseSlot (s : State) (i : Stall) : Choice × State :=
  let ra := slotReason s i (slotByte s i false)
  let rb := slotReason s i (slotByte s i true)
  (chooseBy s i ra rb, s.modCharter i fun p => { p with
    slotAStatus := slotStatus (slotByte s i false) ra, slotBStatus := slotStatus (slotByte s i true) rb })

/-- The charter of a slot. -/
def slotCharter (s : State) (i : Stall) (slot : Bool) : Charter := parseCharter (slotByte s i slot) slot

end Sys2Proof.Machine
end

