-- ==== Sys2Proof/Machine/FieldChecks.lean ====
section
/-! DEFINITION. The load checks 0x0108 to 0x010C of Table 12-9 (R355): shape, reserved fields and formats, tensors,
resources and the time domain. A check lists what breaks it, by section, item and detail; the loader reports the first. -/

namespace Sys2Proof.Machine

/-- Something that a check refuses: the section, the item and the detail of the report (R355, Table 12-13). -/
structure Finding where
  sec : Nat
  item : Nat
  detail : Reason := 0
  deriving DecidableEq, Repr

/-- The place of a section in the directory (R355). -/
def sectionRank (c : Charter) (sec : Nat) : Nat :=
  if sec = 0 then 0 else 1 + (c.order.takeWhile fun x => x.toNat != sec).length

/-- Is a finding met before another: sections in directory order, items in index order? -/
def Finding.before (c : Charter) (a b : Finding) : Bool :=
  decide (sectionRank c a.sec < sectionRank c b.sec) || (a.sec == b.sec && decide (a.item < b.item))

/-- The first finding. -/
def firstFinding (c : Charter) : List Finding → Option Finding
  | [] => none
  | a :: l => match firstFinding c l with
    | some b => if b.before c a then some b else some a
    | none => some a

/-- Findings of a section's items. -/
def findIn {α : Type} (sec : Nat) (l : List α) (bad : α → Bool) (detail : Reason := 0) : List Finding :=
  (oddItems sec l id bad).map fun e => ⟨e.1, e.2, detail⟩

/-- A finding where a condition holds. -/
def found (bad : Bool) (sec item : Nat) (detail : Reason := 0) : List Finding := if bad then [⟨sec, item, detail⟩] else []

/-- Findings among the entries of the cores' streams. -/
def findStream (c : Charter) (bad : CoreId → Nat → StreamEntry → Bool) (detail : Reason := 0) : List Finding :=
  (List.finRange 32).flatMap fun k =>
    (List.range (c.stream k).length).flatMap fun n =>
      match (c.stream k)[n]? with
      | some e => found (bad k n e) 4 (k.val * 2 ^ 20 + n) detail
      | none => []

/-- Are all of some bit fields, as (first bit, bits), zero? -/
def clear {w : Nat} (x : BitVec w) (l : List (Nat × Nat)) : Bool := l.all fun f => fldN x f.1 f.2 == 0

/-! ### SHAPE_CHANGED (R354, R356) -/

/-- The region that a record describes (R346, R412). -/
def recordRegion (r : BitVec 256) : BitVec 11 × Region :=
  ((fld r 0 10).setWidth 11,
    { valid := true, tier := fld r 10 3, kind := fld r 13 3, guarded := bit r 16, perm := fld r 17 4, core := fld r 21 5
      system := false, va := fld r 32 48, size := fld r 80 48, place := fld r 128 64 })

/-- Put a region into a table sorted by index. -/
def putRegion (e : BitVec 11 × Region) : List (BitVec 11 × Region) → List (BitVec 11 × Region)
  | [] => [e]
  | f :: l => if e.1.toNat < f.1.toNat then e :: f :: l else if e.1 = f.1 then e :: l else f :: putRegion e l

/-- The entries of a customs table that a charter's records give. -/
def recordTable (c : Charter) : List (BitVec 11 × Region) :=
  c.regions.foldl (fun l r => putRegion (recordRegion r) l) []

/-- Do a charter's region records differ from the customs table in force? -/
def regionsDiffer (t : StallState) (c : Charter) : Bool :=
  recordTable c != t.customs.regions.filter fun e => !e.2.system

/-- What a swap may not change in the CARAVAN section (R356). -/
def caravanShape (c : Charter) : List Nat :=
  [c.timeDomain.toNat, c.caravanIx.toNat, c.member.toNat, c.lead.toNat, c.deputy.toNat, c.lx, c.ly, c.lz]
    ++ [if c.federated then 1 else 0, if c.relay then 1 else 0]

/-- 0x0108. -/
def shapeFindings (t : StallState) (c : Charter) : List Finding :=
  if t.march.state == .empty then []
  else found (regionsDiffer t c) 1 0
    ++ (match t.charter.active with | some a => found (caravanShape a != caravanShape c) 2 0 | none => [])

/-! ### BAD_FIELD (R70, R86, R117, R159, R171, R345) -/

/-- Reserved bits and encodings of the RESOURCE section (Table 12-3). -/
def resourceOdd (c : Charter) : List Finding :=
  found (!clear c.resource [(62, 2), (70, 2), (78, 434)] || decide (c.fitClock < 18) || decide (36 < c.fitClock)) 1 0
    ++ findIn 1 c.regions fun r => !clear r [(26, 6), (192, 64)] || decide (3 < fldN r 10 3) || decide (4 < fldN r 13 3)

/-- Reserved bits and encodings of the CARAVAN section (R347). -/
def caravanOdd (c : Charter) : List Finding :=
  let h := c.caravan
  let member (m : Member) := decide (m.toNat ≤ 67)
  found (!clear h [(79, 1), (87, 1), (95, 1), (102, 2), (121, 7), (140, 4), (288, 736)]
      || fldN h 96 2 == 3 || fldN h 98 2 == 3 || fldN h 100 2 == 3 || c.virtualStages == 0 || decide (8 < c.virtualStages)
      || c.rp6Mode == 3 || c.rp7Mode == 3 || !member c.member || !member c.lead || !(member c.deputy || c.deputy == 0x7F)) 2 0
    ++ findIn 2 c.legs (fun l => !clear l [(23, 1), (44, 20)] || decide (4 < legKind l))
    ++ findIn 2 c.wiring (fun w => !clear w [(81, 47)])
    ++ findIn 2 c.fed fun e => !clear e [(32, 12), (64, 64)]

/-- Reserved bits and encodings of a tensor entry and its extension records (Tables 12-5, 03-1, 03-3, 07-1). -/
def tensorOdd (c : Charter) (t : BitVec 512) : Bool :=
  let x := tExpand t
  !clear t [(20, 12), (480, 32)] || decide (4 < tFormat t) || decide (3 < tLayout t)
    || !clear x [(2, 1), (5, 3)] || fldN x 0 2 == 3 || (fldN x 0 2 != 1 && fldN x 3 2 == 3)
    || (tSparse t && !clear (c.sparseExt t) [(21, 11), (149, 11), (256, 256)])
    || (tPad t && !clear (c.padExt t) [(320, 192)])

/-- An operand format of a tile-op (Table 03-1): a reserved code or L48 is refused. -/
def storedFmt (f : Nat) : Bool := decide (f ≤ 4)

/-- A destination format: H16, G16 or F32. -/
def resultFmt (f : Nat) : Bool := decide (f ≤ 2)

/-- A product pair (R86): both F32, or neither. -/
def pairOk (a b : Nat) : Bool := storedFmt a && storedFmt b && ((a == 2) == (b == 2))

/-- Reserved fields, encodings and formats of a stream entry (Tables 04-4, 05-4 to 05-6, 06-3, 06-5, R350). -/
def streamOdd (e : StreamEntry) : Bool :=
  let d := e.desc
  let op := opcodeOf d
  if op = 0x10 then
    !clear d [(28, 4), (43, 5), (59, 5), (176, 16), (240, 16), (304, 16)] || mmMaskPort d == 3
      || !pairOk (mmFmtA d) (mmFmtB d) || !resultFmt (mmFmtC d)
  else if op = 0x20 then
    !clear d [(23, 9), (43, 5), (128, 48), (240, 16), (304, 16), (320, 32), (416, 48)]
      || !pairOk (gmFmtA d) (gmFmtB d) || !resultFmt (gmFmtC d)
  else if op = 0x21 then
    !clear d [(9, 1), (22, 1), (23, 9), (43, 5), (176, 16), (240, 16), (304, 16)]
      || !pairOk (gmFmtA d) (gmFmtB d) || !resultFmt (gmFmtC d)
  else if op = 0x22 ∨ op = 0x23 then
    !clear d [(13, 3), (20, 12), (52, 12), (176, 16), (240, 16), (304, 16), (368, 16), (432, 16), (496, 16)]
      || !resultFmt (dpFmt d)
      || (op == 0x23 && !clear d [(9, 1), (128, 48), (320, 48)])
      || (op == 0x22 && !clear d [(384, 48)])
      || (op == 0x22 && dpSpill d && !clear d [(128, 48), (320, 48)])
      || (op == 0x22 && !dpSpill d && !clear d [(448, 16)])
  else if op = 0x24 then !clear d [(8, 1), (16, 16), (128, 336), (496, 16)] || fldN d 9 2 == 3
  else if 0x30 ≤ op ∧ op ≤ 0x34 then
    !clear d [(24, 8), (240, 16), (328, 8), (448, 64)] || !resultFmt (vuFmtA d) || !resultFmt (vuFmtD d)
      || ((vuReadsB d || vuReadsC d) && !resultFmt (vuFmtB d))
      || (op == 0x30 && decide (6 < vuFunc d)) || (op == 0x33 && decide (1 < vuFunc d)) || (op == 0x34 && vuFunc d != 0)
      || (op == 0x32 && vuBits d == 1 && vuFunc d != 0)
      || (if op = 0x31 then vuBits d == 3 else if op = 0x32 then decide (1 < vuBits d) else vuBits d != 0)
      || (op != 0x33 && op != 0x34 && vuAux d != 0)
      || (!(op == 0x32 && vuBits d == 1) && vuScalar1 d != 0)
      || (!(op == 0x33 && vuFunc d == 1) && vuLink d != 0)
  else if op = 0x70 then
    let r := blockRecord d
    fldN d 8 120 != 0 || fldN d 256 256 != 0 || !clear r [(5, 11)] || fldN r 0 2 == 3
      || (fldN r 0 2 != 1 && !clear r [(48, 32)])
      || e.sched.leg != 0 || !e.sched.deps.isEmpty
  else true

/-- 0x0109. What Charter records keep is read here; the rest is `odd` (R349, R350). Tables and coefficient records answer
to R174 and R253, and copy descriptors to R212. -/
def fieldFindings (odd : List (Nat × Nat)) (c : Charter) : List Finding :=
  odd.map (fun e => ⟨e.1, e.2, 0⟩)
    ++ resourceOdd c ++ caravanOdd c ++ findIn 3 c.tensors (tensorOdd c)
    ++ findStream c (fun _ _ e => streamOdd e)
    ++ findIn 6 (c.sends ++ c.recvs) (fun r => decide (2 ^ 30 < rtBytes r.raw))
    ++ findIn 6 c.sends (fun r => !clear r.raw [(13, 3), (24, 40), (96, 16), (192, 64)])
    ++ ((findIn 6 c.recvs fun r => !clear r.raw [(13, 3), (24, 8), (48, 16), (96, 16), (192, 64)]).map
      fun f => { f with item := c.sends.length + f.item })
    ++ findIn 7 c.buckets (fun b => !clear b [(21, 11), (45, 3), (193, 63)])
    ++ findIn 8 c.ledger (fun e => !clear e.raw [(28, 4)] || fldN e.raw 0 8 != 0x50 || !clear e.peer [(64, 64)])
    ++ found (!clear c.settleHead [(113, 15), (169, 343)] || decide (256 < fldN c.settleHead 160 9)) 9 0
    ++ findIn 9 c.settle (fun e => !clear e.raw [(19, 13), (368, 16), (432, 80)] || fldN e.raw 0 8 != 0x60 || seFreeze e.raw == 3
      || (!seCompat e.raw && !clear e.raw [(256, 64)]))
    ++ findIn 11 c.lots (fun l => !clear l [(28, 4)] || decide (1 < fldN l 24 4))
    ++ findIn 12 c.dirs fun r => r.tiles.any fun e => !clear e [(5, 3), (30, 2), (88, 8)] || fldN e 0 2 == 3
      || (List.range 7).any fun k => bit e (32 + 8 * k + 7)

/-! ### TENSOR (R82, R130, R190 to R197) -/

/-- R82. -/
def expandOk (t : BitVec 512) : Bool :=
  let mode := fldN (tExpand t) 0 2
  if tFormat t = 3 then mode != 0 else if tFormat t = 4 then mode != 0 && mode != 1 else mode == 0

/-- R190: one to six dimensions, every extent at least 1, unused ones 1. -/
def dimsOk (t : BitVec 512) : Bool :=
  decide (1 ≤ tDims t) && decide (tDims t ≤ 6)
    && (List.range 6).all fun d => if d < tDims t then decide (1 ≤ tN t d) else tN t d == 1

/-- R195: a STRIDED I4 tensor is packed: two codes a byte along dimension 0, and the rows and matrices of each further
dimension follow one another. No byte count states half a byte: S0 is not looked at (DESIGN CHOICE, log entry 28). -/
def packedOk (t : BitVec 512) : Bool :=
  tN t 0 % 2 == 0 && (List.range (tDims t)).all fun d =>
    d == 0 || 2 * tS t d == (List.range d).foldl (fun n k => n * tN t k) 1

/-- R192 to R195: strides of a STRIDED tensor, and what a weave must meet. -/
def layoutOk (t : BitVec 512) : Bool :=
  let blk := 1024 * tSize t
  if tLayout t = 0 then
    (if tFormat t = 3 then packedOk t else (List.range 6).all fun d => 2 * tS t d % tSize t == 0)
  else if tLayout t = 3 then tSparse t && tFormat t != 3
  else
    let nq := if tLayout t = 1 then tN t 0 else tN t 1
    tBase t % 256 == 0 && tS t 0 == 0 && tS t 1 % blk == 0 && decide (ceilDiv nq 16 * blk ≤ tS t 1)
      && (List.range 4).all fun d => tS t (d + 2) % 256 == 0

/-- R130: TK and CAP16 of each form. -/
def sparseOk (c : Charter) (t : BitVec 512) : Bool :=
  let form (tk cap : Nat) := tk % 128 == 0 && decide (128 ≤ tk) && decide (tk ≤ 16384) && decide (cap ≤ 16)
  let e := c.sparseExt t
  (!tTurned t || tSparse t)
    && (!tSparse t || (form (fldN e 0 16) (fldN e 16 5) && (!tTurned t || form (fldN e 128 16) (fldN e 144 5))))

/-- R197: the data range lies inside the extents. -/
def padOk (c : Charter) (t : BitVec 512) : Bool :=
  !tPad t || (List.range 6).all fun d => decide (padOff (c.padExt t) d + padLen (c.padExt t) d ≤ tN t d)

/-- Do the extension records that an entry names exist (R348)? -/
def extsOk (c : Charter) (t : BitVec 512) : Bool :=
  let n := (if tSparse t then 1 else 0) + (if tPad t then 1 else 0)
  n == 0 || decide (tExtIndex t + n ≤ c.exts.length)

/-- 0x010A: tensors, and directories that do not match the form they name (R350, R352). -/
def tensorFindings (c : Charter) : List Finding :=
  findIn 3 c.tensors (fun t => !(expandOk t && dimsOk t && layoutOk t && extsOk c t && sparseOk c t && padOk c t))
    ++ findIn 12 c.dirs fun r =>
      let t := c.tensor r.tensor.toNat
      let f := sparseForm c t r.turned
      decide (c.tensors.length ≤ r.tensor.toNat) || !tSparse t || (r.turned && !tTurned t)
        || decide (ceilDiv f.rows 128 * f.kt < r.tiles.length)

/-! ### RESOURCE (R19, R198) and TIME_DOMAIN (R40) -/

/-- May the stall's charter use a core: owned and not absent? -/
def coreUsable (s : State) (i : Stall) (k : CoreId) : Bool := coreStall s k == some i && !coreAbsent s k

/-- Is a port one that the charter names and the stall owns? -/
def portClaimed (s : State) (i : Stall) (c : Charter) (p : PortId) : Bool := bit c.usesPorts p.val && portStall s p == some i

/-- 0x010B. -/
def resourceFindings (s : State) (i : Stall) (c : Charter) : List Finding :=
  let m := (s.stall i).page.comp
  found ((List.finRange 32).any (fun k => bit c.cores k.val && !coreUsable s i k)
      || (List.finRange 8).any (fun p => bit c.usesPorts p.val && portStall s p != some i)
      || (List.finRange 8).any (fun e => (bit c.engines e.val || bit c.hostQueues e.val)
        && (engineStall s e != some i || (s.engine e).retired))
      || decide (m.nearShares.toNat < c.nearShares) || decide (m.seraiShares.toNat < c.seraiShares)) 1 0
    ++ (List.finRange 32).flatMap (fun k => found
      ((!(c.stream k).isEmpty && !(bit c.cores k.val && coreUsable s i k)) || decide (32768 < (c.stream k).length)) 4 (k.val * 2 ^ 20))
    ++ (List.finRange 8).flatMap (fun e => found
      (!(c.copies.getD e.val {}).entries.isEmpty && !(bit c.engines e.val && engineStall s e == some i && !(s.engine e).retired))
      5 (e.val * 2 ^ 20))
    ++ findIn 6 c.sends (fun r => rtBytes r.raw != 0 && (match sendPath s i c (rtMember r.raw) (rtCaravan r.raw) with
      | some (p, _) => !portClaimed s i c p
      | none => false))
    ++ ((findIn 6 c.recvs fun r => rtBytes r.raw != 0 && (match arrivalPort c (rtMember r.raw) (rtCaravan r.raw) with
      | some p => !portClaimed s i c (portId p)
      | none => false)).map fun f => { f with item := c.sends.length + f.item })
    ++ found (!c.ledger.isEmpty && (!m.ledger || (s.stall i).ledger.retired)) 8 0
    ++ findIn 10 c.functions fun f => !coreUsable s i (⟨f.core.toNat, f.core.isLt⟩ : CoreId)

/-- 0x010C: another stall of the module that runs, neither EMPTY nor READY (Table 02-5), follows another time domain
(R40). -/
def domainFindings (s : State) (i : Stall) (c : Charter) : List Finding :=
  found (allStalls.any fun j => j != i && (s.stall j).march.state != .empty && (s.stall j).march.state != .ready
    && (match (s.stall j).charter.active with | some a => a.timeDomain != c.timeDomain | none => false)) 2 0

end Sys2Proof.Machine
end

