-- ==== Sys2Proof/Machine/EntryChecks.lean ====
section
/-! DEFINITION. The load checks 0x010D to 0x0115 of Table 12-9: wiring, the leg table, tile-ops and vector ops, blocks,
tables, copies, ledger and settlement entries, lot streams. The state they take has the charter's own region records as the
stall's customs table. -/

namespace Sys2Proof.Machine

/-! ### WIRING (R312, R316, R318, R320, R321, R226) -/

/-- Do the declared hops of a transfer agree with R316? Within the caravan the path is known; to another caravan the
federation's edges must lead there (R318). -/
def hopsOk (c : Charter) (m : Member) (car : BitVec 6) (hops : Nat) (incoming : Bool) : Bool :=
  if car = c.caravanIx then
    c.members.contains m
      && hops == (if incoming then caravanHops c m.toNat c.member.toNat else caravanHops c c.member.toNat m.toNat)
  else c.federated && fedReach c.fed c.fed.length c.caravanIx car

/-- The delay limit of a port by the mode that the charter gives it (R312). -/
def portLimit (c : Charter) (p : PortId) : Nat :=
  if (p.val = 6 ∧ c.rp6Mode = 2) ∨ (p.val = 7 ∧ c.rp7Mode = 2) then 1000 else 250

/-- A used port's identity tag and delay: the code of what fails (R312, R320). -/
def portFault (s : State) (c : Charter) (p : PortId) : Option Reason :=
  if !wireUsed (c.wiring.getD p.val 0) then none
  else match (s.port p).neighbour with
    | none => some 0x0804
    | some n =>
      if n.tag ≠ wireTag (c.wiring.getD p.val 0) then some 0x0804
      else if portLimit c p < (s.port p).delay.toNat then some 0x0805 else none

/-- An edge without a secondary link on other members at both ends (R318). -/
def edgeOdd (e : BitVec 128) : Bool :=
  (fedGate e true false).2 < 6 || (fedGate e true true).2 < 6
    || (fedGate e false false).1 == (fedGate e true false).1 || (fedGate e false true).1 == (fedGate e true true).1

/-- Does a tree declare hops that differ from the path within the caravan (R316)? -/
def treeHopsOdd (c : Charter) (t : List (BitVec 32)) : Bool :=
  t.any fun n => nodeParent n != 0x7F && nodeCaravan n == c.caravanIx && nodeParentCaravan n == c.caravanIx
    && nodeHops n != caravanHops c (nodeMember n).toNat (nodeParent n).toNat

/-- Is a bucket empty (R226)? -/
def bkEmpty (b : BitVec 256) : Bool := bkElems b == 0

/-- Does a bucket's tree break R226: absent, without this member, or not of N members? An N out of its range is the
bucket's own fault. -/
def treeOdd (c : Charter) (b : BitVec 256) : Bool :=
  !bkEmpty b && bkN b != 0 && decide (bkN b ≤ 4096) && (decide (c.trees.length ≤ bkTree b) || (c.treeNode (bkTree b) c.member).isNone
    || (c.trees.getD (bkTree b) []).length != bkN b)

/-- 0x010D. -/
def wiringFindings (s : State) (c : Charter) : List Finding :=
  ((List.finRange 8).flatMap fun p => match portFault s c p with | some r => [⟨2, p.val, r⟩] | none => [])
    ++ findIn 2 c.trees (treeHopsOdd c)
    ++ ((c.buckets.filter (treeOdd c)).map fun b => ⟨2, bkTree b, 0⟩)
    ++ (if c.federated then findIn 2 c.fed edgeOdd else [])
    ++ found (c.relay && decide (c.lx * c.ly * c.lz < 16)) 2 0
    ++ findIn 6 c.sends (fun r => rtBytes r.raw != 0 && !hopsOk c (rtMember r.raw) (rtCaravan r.raw) (rtHops r.raw) false)
    ++ ((findIn 6 c.recvs fun r => rtBytes r.raw != 0 && !hopsOk c (rtMember r.raw) (rtCaravan r.raw) (rtHops r.raw) true).map
      fun f => { f with item := c.sends.length + f.item })

/-! ### LEG_TABLE (R46, R48, R49, R184) -/

/-- R48. -/
def legOrderOk (c : Charter) : Bool :=
  let ks := c.legs.map legKind
  let head := ks.take (c.lastReduce + 1)
  let tail := ks.drop (c.lastReduce + 1)
  ks.contains 3 && !head.contains 4 && tail.contains 4 && tail.all (fun k => k == 4 || k == 0)
    && (ks.takeWhile (· != 3)).contains 2

/-- May an entry's unit work in a leg of a kind (Table 02-1)? -/
def kindAllows (c : Charter) (r : EntryRef) (kind : Nat) : Bool :=
  match r with
  | .stream k n =>
    match (c.stream k)[n]? with
    | some e =>
      if isBlock e.desc then true
      else if opcodeOf e.desc < 0x30 then kind == 1 || kind == 2 else decide (1 ≤ kind)
    | none => true
  | .copy _ _ | .recv _ | .send _ => true
  | .ledger _ => kind == 2 || kind == 3
  | .settle _ => kind == 4

/-- Fields of a block record (Table 06-5). -/
def blKeep (r : BitVec 128) : Nat := fldN r 0 2
def blStage (r : BitVec 128) : Nat := fldN r 2 3
def blF0 (r : BitVec 128) : Nat := fldN r 16 16
def blF1 (r : BitVec 128) : Nat := fldN r 32 16
def blR0 (r : BitVec 128) : Nat := fldN r 48 16
def blR1 (r : BitVec 128) : Nat := fldN r 64 16
def blInput (r : BitVec 128) : Nat := fldN r 80 16
def blB0 (r : BitVec 128) : Nat := fldN r 96 16
def blB1 (r : BitVec 128) : Nat := fldN r 112 16

/-- The block records of a core. -/
def blocksOf (c : Charter) (k : CoreId) : List (BitVec 128) :=
  ((c.stream k).filter fun e => isBlock e.desc).map fun e => blockRecord e.desc

/-- The leg kinds that R184 asks of an entry, one for every range of a block that it lies in. -/
def blockKinds (c : Charter) (k : CoreId) (n : Nat) : List Nat :=
  let within (a b : Nat) := decide (a ≤ n) && decide (n ≤ b)
  (blocksOf c k).flatMap fun r =>
    (if within (blF0 r) (blF1 r) then [1] else [])
      ++ (if (blKeep r = 1 && within (blR0 r) (blR1 r)) || within (blB0 r) (blB1 r) then [2] else [])

/-- 0x010E. -/
def legFindings (c : Charter) : List Finding :=
  findIn 2 c.legs (fun l => decide (legLength l < 250) || decide (1000000 < legLength l))
    ++ found (decide (c.legs.length < 2) || decide (256 < c.legs.length) || !legOrderOk c) 2 0
    ++ (allEntries c).flatMap fun e =>
      let leg := legOf c e.1
      let kind := legKind (c.legs.getD leg 0)
      let block := match e.1 with | .stream k n => (blockKinds c k n).any (· != kind) | _ => false
      let isBlk := match e.1 with | .stream k n => (match (c.stream k)[n]? with | some x => isBlock x.desc | none => false) | _ => false
      found (!isBlk && (decide (c.legs.length ≤ leg) || !kindAllows c e.1 kind || block)) e.2.1 e.2.2

/-! ### TILE_OP (R100, R102, R118, R157, R160, R172) -/

/-- Does a tensor of the table bear an index? -/
def hasTensor (c : Charter) (n : Nat) : Bool := decide (n < c.tensors.length)

/-- A weave operand against its tensor: WEAVE and the stride, a block start, and every position within the extents (R102,
R118, R190). -/
def weaveOk (w : WeaveOperand) (outer k : Nat) : Bool :=
  let (rows, cols) := woRC w outer k
  tLayout w.tensor == (if w.bweave then 2 else 1) && w.stride == tS w.tensor 1
    && match coordsOf w.tensor (2 * w.addr) with
      | none => false
      | some x =>
        let x0 := x.getD 0 0
        let x1 := x.getD 1 0
        (if w.bweave then x0 % 128 == 0 && x1 % 16 == 0 else x1 % 128 == 0 && x0 % 16 == 0)
          && decide (x1 + rows ≤ tN w.tensor 1) && decide (x0 + cols ≤ tN w.tensor 0)

/-- A matrix in the ROWS layout against its tensor (R111, R118, R191). -/
def rowsOk (t : BitVec 512) (addr stride rows cols : Nat) : Bool :=
  tLayout t == 0 && (tFormat t == 3 || 2 * tS t 0 == tSize t) && tS t 1 == stride
    && match coordsOf t (2 * addr) with
      | none => false
      | some x => decide (x.getD 1 0 + rows ≤ tN t 1) && decide (x.getD 0 0 + cols ≤ tN t 0)

/-- The destination of a tile-op (R111, R118). -/
def destOk (t : BitVec 512) (fmt : Nat) (aweave : Bool) (addr stride rows cols : Nat) : Bool :=
  tFormat t == fmt && stride % 4 == 0
    && (if aweave then weaveOk ⟨t, addr, stride, false, false⟩ rows cols
        else rowsOk t addr stride rows cols && decide (cols * fmtBytes (arithFmt fmt) ≤ stride))

/-- Are `n` contiguous elements element positions of a tensor (R172, R190)? -/
def elemsOk (t : BitVec 512) (addr n : Nat) : Bool :=
  (List.range n).all fun k => (coordsOf t (2 * addr + k * tSize t)).isSome

/-- Do ranges lie in the staging memory of a core, each in one region (R100)? -/
def inStaging (s : State) (i : Stall) (k : CoreId) (l : List (Nat × Nat)) : Bool :=
  l.all fun x => match regionAt (s.stall i).customs x.1 with
    | some (_, g) => g.tier == 0 && g.core.toNat == k.val && decide (x.2 ≤ g.va.toNat + g.size.toNat)
    | none => false

/-- Does a destination overlap an operand of the same op (R118)? A destination that a continuation or a sum reads in place
is no operand. -/
def selfOverlap (l : List Access) : Bool := l.any fun a => a.writes && l.any fun b => !b.writes && spansMeet a.ranges b.ranges

/-- MATMUL (R118). -/
def mmOk (c : Charter) (d : BitVec 512) : Bool :=
  let chunk := chunkLen (arithFmt (mmFmtA d)) (arithFmt (mmFmtB d))
  hasTensor c (mmTensorA d) && hasTensor c (mmTensorB d) && hasTensor c (mmTensorC d)
    && decide (mmRows d ≤ 1024) && decide (mmCols d ≤ 1024) && decide (mmKOffset d + mmKLen d ≤ 2 ^ 20)
    && tFormat (c.tensor (mmTensorA d)) == mmFmtA d && tFormat (c.tensor (mmTensorB d)) == mmFmtB d
    && !(mmStochastic d && mmFmtC d == 2) && mmKOffset d % chunk == 0 && (mmKOffset d == 0 || mmFmtC d == 2)
    && weaveOk (mmOperandA c d) (mmRows d) (mmKLen d) && weaveOk (mmOperandB c d) (mmCols d) (mmKLen d)
    && destOk (c.tensor (mmTensorC d)) (mmFmtC d) (mmAweaveC d) (mmC d) (mmStrideC d) (mmRows d) (mmCols d)

/-- Does a sparse tensor have the form that a tile-op asks of it? -/
def hasForm (t : BitVec 512) (turned : Bool) : Bool := tLayout t == 3 && tSparse t && (!turned || tTurned t)

/-- SPMM and RAGGED (R139, R147, R160). -/
def gmOk (c : Charter) (k : CoreId) (n : Nat) (d : BitVec 512) : Bool :=
  let spmm := opcodeOf d == 0x20
  let ta := c.tensor (gmTensorA d)
  let f := sparseForm c ta (gmTurnA d)
  let rows := if spmm then spmmRows d f else gmRows d
  let a :=
    if spmm then
      hasForm ta (gmTurnA d) && gmKOffset d % f.tk == 0 && decide (gmKOffset d + gmKLen d ≤ f.kdim)
        && (gmKLen d % f.tk == 0 || gmKOffset d + gmKLen d == f.kdim)
        && decide (gmFirstTile d + gmRows d ≤ ceilDiv f.rows 128)
        && (List.finRange 32).all fun q => (List.range (c.stream q).length).all fun m =>
          match (c.stream q)[m]? with
          | some e => !(opcodeOf e.desc == 0x24 && !streamEmpty e && asTensorS e.desc == gmTensorA d
              && !(dependencies c (.stream k n)).contains (.stream q m))
          | none => true
    else decide (gmRows d ≤ 8192) && rowsOk ta (gmA d) (gmStrideA d) (gmRows d) (gmKLen d)
  hasTensor c (gmTensorA d) && hasTensor c (gmTensorB d) && hasTensor c (gmTensorC d)
    && decide (gmCols d ≤ 1024) && decide (gmKOffset d + gmKLen d ≤ 2 ^ 20)
    && tFormat ta == gmFmtA d && tFormat (c.tensor (gmTensorB d)) == gmFmtB d
    && !(gmStochastic d && gmFmtC d == 2) && gmKOffset d % gmChunk d == 0 && (gmKOffset d == 0 || gmFmtC d == 2)
    && a && weaveOk (gmOperandB c d) (gmCols d) (gmKLen d)
    && destOk (c.tensor (gmTensorC d)) (gmFmtC d) false (gmC d) (gmStrideC d) rows (gmCols d)

/-- Do a linked tile-op's shapes agree with its main pass (R160)? -/
def linkOk (c : Charter) (k : CoreId) (n : Nat) (d : BitVec 512) : Bool :=
  match (c.stream k)[dpLink d]? with
  | none => false
  | some e =>
    let m := e.desc
    opcodeOf m == 0x22 && !dpSpill m && !dpEmpty m && dpTokens m == dpTokens d && dpTopk m == dpTopk d && dpDests m == dpDests d
      && dpSlots m == dpSlots d && dpMain m == dpMain d && dpRowLen m == dpRowLen d
      && (dependencies c (.stream k n)).contains (.stream k (dpLink d))

/-- DISPATCH and COMBINE (R149, R160). -/
def dpOk (c : Charter) (k : CoreId) (n : Nat) (d : BitVec 512) : Bool :=
  let slots := dpDests d * dpSlots d * dpRowLen d
  let tokens := dpTokens d * dpRowLen d
  let src := c.tensor (dpTensorSrc d)
  let dst := c.tensor (dpTensorDst d)
  let main := opcodeOf d == 0x22 && !dpSpill d
  hasTensor c (dpTensorSrc d) && hasTensor c (dpTensorDst d)
    && decide (dpDests d ≤ 4096) && decide (dpTopk d ≤ 8) && decide (dpRowLen d ≤ 16384)
    && decide (1 ≤ dpMain d) && decide (dpMain d ≤ dpSlots d)
    && (!main || dpMain d == dpSlots d || (List.range (c.stream k).length).any fun m =>
      match (c.stream k)[m]? with
      | some e => opcodeOf e.desc == 0x22 && dpSpill e.desc && dpLink e.desc == n
      | none => false)
    && (main || linkOk c k n d)
    && tFormat src == dpFmt d && tFormat dst == (if opcodeOf d = 0x23 then 2 else dpFmt d)
    && elemsOk src (dpSrc d) (if opcodeOf d = 0x23 then slots else tokens)
    && elemsOk dst (dpDst d) (if opcodeOf d = 0x23 then tokens else slots)

/-- ASSAY (R155 to R157, R160). -/
def asOk (c : Charter) (d : BitVec 512) : Bool :=
  let w := c.tensor (asTensorW d)
  let t := c.tensor (asTensorS d)
  let f := sparseForm c t false
  hasTensor c (asTensorW d) && hasTensor c (asTensorS d) && tFormat w == tFormat t && resultFmt (tFormat w) && tLayout w != 3
    && ((List.range 6).all fun k => tN w k == tN t k) && hasForm t (asTurned d)
    && (!asTurned d || (sparseForm c t true).cap16 * asG d == 16 * asKeep d)
    && decide (1 ≤ asKeep d) && decide (asKeep d < asG d) && decide (1 ≤ asPeriod d) && decide (asPhase d < asPeriod d)
    && f.cap16 * asG d == 16 * asKeep d
    && decide (asFirstRow d + asRowTiles d ≤ ceilDiv f.rows 128) && decide (asFirstK d + asKTiles d ≤ f.kt)

/-- A vector op (R172). -/
def vuOk (c : Charter) (d : BitVec 512) : Bool :=
  let ta := c.tensor (vuTensorA d)
  let tb := c.tensor (vuTensorB d)
  let td := c.tensor (vuTensorD d)
  let n := vuCount d
  let same (a b : Nat) := opcodeOf d != 0x34 && arithFmt a == arithFmt b
  let clash (r : List (Nat × Nat)) (addr fmt : Nat) : Bool :=
    spansMeet r (vuSpanD c d) && !(addr == vuD d && same fmt (vuFmtD d))
  hasTensor c (vuTensorA d) && hasTensor c (vuTensorD d) && tFormat ta == vuFmtA d && tFormat td == vuFmtD d
    && (!vuReadsB d || (hasTensor c (vuTensorB d) && tFormat tb == vuFmtB d && elemsOk tb (vuB d) n))
    && !(vuStochastic d && (vuFmtD d == 2 || opcodeOf d == 0x33))
    && (opcodeOf d != 0x34 || (vuFmtD d == 2 && decide (1 ≤ vuAux d) && n % vuAux d == 0))
    && elemsOk ta (vuA d) n && elemsOk td (vuD d) (vuResults d)
    && !clash (vuSpanA c d) (vuA d) (vuFmtA d)
    && !(vuReadsB d && clash (vuSpanB c d) (vuB d) (vuFmtB d))
    && !(vuReadsC d && clash (vuSpanC d) (vuC d) (vuFmtB d))
    && !(vuBits d != 0 && spansMeet (vuPlane c d) (vuSpanD c d))

/-- A tile-op or vector op that is not empty (R14). -/
def tileOk (s : State) (i : Stall) (c : Charter) (k : CoreId) (n : Nat) (e : StreamEntry) : Bool :=
  let d := e.desc
  let op := opcodeOf d
  isBlock d || streamEmpty e ||
    ((if op = 0x10 then mmOk c d
      else if op = 0x20 ∨ op = 0x21 then gmOk c k n d
      else if op = 0x22 ∨ op = 0x23 then dpOk c k n d
      else if op = 0x24 then asOk c d
      else vuOk c d)
    && (streamAccess c k e).all (fun a => inStaging s i k a.ranges)
    && (decide (0x30 ≤ op) || !selfOverlap (streamAccess c k e)))

/-- 0x010F. A DISPATCH with a zero MAIN and an ASSAY with a zero KEEP or PERIOD are refused even where they are empty
(R14). -/
def tileFindings (s : State) (i : Stall) (c : Charter) : List Finding :=
  findStream c fun k n e =>
    !tileOk s i c k n e || (opcodeOf e.desc == 0x22 && dpMain e.desc == 0)
      || (opcodeOf e.desc == 0x24 && (asKeep e.desc == 0 || asPeriod e.desc == 0))

/-! ### BLOCK (R177 to R181, R185) -/

/-- The entries of a core's stream from one index to another. -/
def rangeEntries (k : CoreId) (a b : Nat) : List EntryRef := (List.range (b + 1 - a)).map fun j => .stream k (a + j)

/-- A descriptor without its destination addresses (R179). -/
def withoutDest (d : BitVec 512) : BitVec 512 :=
  let op := opcodeOf d
  let cut (x : BitVec 512) (lo n : Nat) : BitVec 512 := x &&& ~~~((BitVec.ofNat 512 (2 ^ n - 1)) <<< lo)
  if op < 0x30 then cut (cut d 256 48) 320 (if op = 0x22 then 48 else 0)
  else if op = 0x31 then cut (cut d 336 48) 256 48
  else cut d 336 48

/-- Is a recompute entry a copy of its original (R179)? -/
def copyOfEntry (c : Charter) (k : CoreId) (a b : Nat) : Bool :=
  match (c.stream k)[a]?, (c.stream k)[b]? with
  | some x, some y => withoutDest x.desc == withoutDest y.desc && x.mask == y.mask
  | _, _ => false

/-- Is entry `a` done before entry `b` begins: by the graph, or by an earlier leg? -/
def precedes (c : Charter) (a b : EntryRef) : Bool := decide (legOf c a < legOf c b) || (ancestors c b).contains a

/-- The bit planes that the forward VFUNC entries of a block write. -/
def planeSpansOf (c : Charter) (k : CoreId) (r : BitVec 128) : List (Nat × Nat) :=
  (rangeEntries k (blF0 r) (blF1 r)).flatMap fun e => match e with
    | .stream q n => match (c.stream q)[n]? with
      | some x => if opcodeOf x.desc = 0x31 ∧ vuBits x.desc ≠ 0 then vuPlane c x.desc else []
      | none => []
    | _ => []

/-- What a list of entries writes. -/
def writtenBy (s : State) (i : Stall) (c : Charter) (l : List EntryRef) : List (Nat × Nat) := l.flatMap (entryWrites s i c)

/-- The forward, the recompute and the backward entries of a block. -/
def forwardOf (k : CoreId) (r : BitVec 128) : List EntryRef := rangeEntries k (blF0 r) (blF1 r)
def recomputeOf (k : CoreId) (r : BitVec 128) : List EntryRef := if blKeep r = 1 then rangeEntries k (blR0 r) (blR1 r) else []
def backwardOf (k : CoreId) (r : BitVec 128) : List EntryRef := rangeEntries k (blB0 r) (blB1 r)

/-- What a backward entry may read where the block's forward entries write (R178): what its KEEP mode allows, and what
another entry has written there since the forward entries and before it (a gradient in a region that is used again). -/
def blockAllows (s : State) (i : Stall) (c : Charter) (k : CoreId) (r : BitVec 128) (e : EntryRef) : List (Nat × Nat) :=
  let fwd := forwardOf k r
  let since := ((allEntries c).map fun x => x.1).filter fun w =>
    !fwd.contains w && precedes c w e
      && fwd.all fun f => !spansMeet (entryWrites s i c f) (entryWrites s i c w) || precedes c f w
  writtenBy s i c (recomputeOf k r ++ since)
    ++ (if blKeep r = 1 then tensorSpan c (c.tensor (blInput r)) else planeSpansOf c k r)

/-- R178. -/
def blockReadsOk (s : State) (i : Stall) (c : Charter) (k : CoreId) (r : BitVec 128) : Bool :=
  blKeep r == 0 || (backwardOf k r).all fun e =>
    spansIn (spansBoth (entryReads s i c e) (writtenBy s i c (forwardOf k r))) (blockAllows s i c k r e)

/-- The tensor that a stream entry names for its destination; 2^16 where it is none of the table (R14). -/
def destTensor (e : StreamEntry) : Nat :=
  let d := e.desc
  let op := opcodeOf d
  if op = 0x10 then mmTensorC d else if op = 0x20 ∨ op = 0x21 then gmTensorC d else if op = 0x22 ∨ op = 0x23 then dpTensorDst d
  else if op = 0x24 then asTensorS d else if 0x30 ≤ op ∧ op ≤ 0x34 then vuTensorD d else 2 ^ 16

/-- What a block keeps, tensor by tensor (R181): INPUT; the bytes that its forward entries write in each tensor; or the bit
planes. -/
def keptRegions (s : State) (i : Stall) (c : Charter) (k : CoreId) (r : BitVec 128) : List (List (Nat × Nat)) :=
  if blKeep r = 1 then [tensorSpan c (c.tensor (blInput r))]
  else if blKeep r = 2 then [planeSpansOf c k r]
  else
    let dest (e : EntryRef) : Nat := match e with
      | .stream q n => (((c.stream q)[n]?).map destTensor).getD (2 ^ 16)
      | _ => 2 ^ 16
    (dedup ((forwardOf k r).map dest)).map fun t => writtenBy s i c ((forwardOf k r).filter fun e => dest e == t)

/-- Does an entry write a kept region between the last forward entry that writes it and its last reader (R181)? For INPUT,
which the block need not write, the time begins with the block's first forward entry. -/
def disturbs (s : State) (i : Stall) (c : Charter) (k : CoreId) (r : BitVec 128) (kept : List (Nat × Nat)) (w : EntryRef) :
    Bool :=
  let fwd := forwardOf k r
  let readers := (backwardOf k r ++ recomputeOf k r).filter fun e => spansMeet (entryReads s i c e) kept
  let last := ((fwd.filter fun e => spansMeet (entryWrites s i c e) kept).getLast?).or fwd.head?
  !readers.isEmpty && spansMeet (entryWrites s i c w) kept && !fwd.contains w
    && !(match last with | some f => precedes c w f | none => true)
    && !(readers.all fun e => precedes c e w || e == w)

/-- Does a block keep what R178 and R181 ask? -/
def blockKeeps (s : State) (i : Stall) (c : Charter) (k : CoreId) (r : BitVec 128) : Bool :=
  blockReadsOk s i c k r
    && (keptRegions s i c k r).all fun kept => !((allEntries c).any fun e => disturbs s i c k r kept e.1)

/-- A block record of core `k`. -/
def blockOk (s : State) (i : Stall) (c : Charter) (k : CoreId) (r : BitVec 128) : Bool :=
  let n := (c.stream k).length
  blKeep r != 3 && decide (blStage r < c.virtualStages)
    && decide (blF0 r ≤ blF1 r) && decide (blB0 r ≤ blB1 r) && decide (blF1 r < blB0 r) && decide (blB1 r < n)
    && (blKeep r != 1 || (decide (blR0 r ≤ blR1 r) && decide (blF1 r < blR0 r) && decide (blR1 r < n)
      && decide (blR1 r - blR0 r ≤ blF1 r - blF0 r) && hasTensor c (blInput r)
      && (List.range (blR1 r + 1 - blR0 r)).all fun j => copyOfEntry c k (blF0 r + j) (blR0 r + j)))
    && blockKeeps s i c k r

/-- 0x0110. -/
def blockFindings (s : State) (i : Stall) (c : Charter) : List Finding :=
  findStream c fun k _ e => isBlock e.desc && !blockOk s i c k (blockRecord e.desc)

/-! ### TABLE (R174, R253) -/

/-- Is a word a finite F32? -/
def finite32 (w : Word) : Bool := match val32 w with | .fin _ _ _ => true | _ => false

/-- A function table (R174, Table 06-4). -/
def tableOk (t : List Byte) : Bool :=
  let w := tblWexp t
  t.length == 3136 && (slice t 5 3).all (· == 0) && (slice t 24 40).all (· == 0)
    && decide (-126 ≤ w) && decide (w ≤ 119) && finite32 (tblWord t 0)
    && finite32 (rne32 (addVal (val32 (tblWord t 0)) (.fin false 256 w)))
    && (List.range 4).all (fun k => finite32 (tblWord t (8 + 4 * k)))
    && (List.range 768).all fun k => finite32 (tblWord t (64 + 4 * k))

/-- A coefficient record (R253). -/
def coefOk (g : BitVec 512) : Bool :=
  let alpha := coefWord g 0
  (List.range 9).all (fun k => finite32 (coefWord g k)) && coefPhi g != 3 && coefP g != 3 && fldN g 293 219 == 0
    && (!coefBias g || decide (alpha.toNat < 0x3F800000) || alpha == 0x80000000)

/-- Does the charter fill a core's table slot? -/
def fillsSlot (c : Charter) (k : CoreId) (slot : Nat) : Bool :=
  c.functions.any fun f => f.core.toNat == k.val && f.slot.toNat == slot

/-- 0x0111. -/
def tableFindings (c : Charter) : List Finding :=
  findIn 10 c.functions (fun f => !tableOk f.table)
    ++ findIn 9 c.groups (fun g => !coefOk g)
    ++ findStream c fun k _ e =>
      let d := e.desc
      (opcodeOf d == 0x31 || (opcodeOf d == 0x32 && vuBits d == 0)) && vuCount d != 0 && !fillsSlot c k (vuFunc d)

/-! ### COPY (R212) -/

/-- Does a batch end within its engine's descriptors and 256 of them (R212, R350)? -/
def batchEnds (l : CopyList) (item : Nat) : Bool :=
  (List.range (min 256 (l.descs.length - item))).any fun n => !cpChain (l.descs.getD (item + n) 0)

/-- 0x0112. -/
def copyFindings (s : State) (i : Stall) (c : Charter) : List Finding :=
  (List.finRange 8).flatMap fun e =>
    let l := c.copies.getD e.val {}
    (List.range l.entries.length).flatMap fun n =>
      match l.entries[n]? with
      | none => []
      | some x =>
        if !batchEnds l x.item.toNat then [⟨5, e.val * 2 ^ 20 + n, 0x0507⟩]
        else match batchCheck s i c (batchFrom l x.item.toNat) true with
          | some r => [⟨5, e.val * 2 ^ 20 + n, r⟩]
          | none => []

/-! ### LEDGER (R224 to R226) -/

/-- A bucket's own fields, its region pair and its tariff row. -/
def bucketOk (s : State) (i : Stall) (c : Charter) (n : Nat) (b : BitVec 256) : Bool :=
  let ts := c.tensor (bkSrcTensor b)
  let td := c.tensor (bkDstTensor b)
  let row := tariffAddr c n
  decide (1 ≤ bkN b) && decide (bkN b ≤ 4096) && decide (bkElems b ≤ 2 ^ 20)
    && (c.ledger.filter fun e => leBucket e.raw == n).length != 0
    && (bkEmpty b ||
      (hasTensor c (bkSrcTensor b) && hasTensor c (bkDstTensor b) && tFormat ts == 2 && tFormat td == 2
        && elemsOk ts (bkSrc b) (bkElems b) && elemsOk td (bkDst b) (bkElems b)
        && !spansMeet (span (bkSrc b) (4 * bkElems b)) (span (bkDst b) (4 * bkElems b))
        && (match regionAt (s.stall i).customs row with
          | some (_, g) => g.kind == 1 && g.tier == 1 && decide (row + 16 ≤ g.va.toNat + g.size.toNat)
          | none => false)))

/-- A ledger entry: its bucket and its deadline, and no earlier entry of the same bucket. -/
def ledgerOk (c : Charter) (n : Nat) (e : LedgerRec) : Bool :=
  let b := c.bucket (leBucket e.raw)
  decide (leBucket e.raw < c.buckets.length)
    && legKind (c.legs.getD (bkDeadline b) 0) == 3 && decide (bkDeadline b < c.legs.length) && decide (e.sched.leg.toNat ≤ bkDeadline b)
    && !(c.ledger.take n).any fun x => leBucket x.raw == leBucket e.raw

/-- 0x0113. -/
def ledgerFindings (s : State) (i : Stall) (c : Charter) : List Finding :=
  found (decide (2 ^ 20 < c.buckets.length)) 7 0
    ++ (findIn 7 (List.range c.buckets.length) fun n => !bucketOk s i c n (c.bucket n))
    ++ (findIn 8 (List.range c.ledger.length) fun n => !ledgerOk c n (c.ledger.getD n {}))

/-! ### SETTLEMENT (R255, R256) -/

/-- Is a tensor in the canonical layout (R191)? -/
def canonical (t : BitVec 512) : Bool :=
  tLayout t == 0 && 2 * tS t 0 == tSize t
    && (List.range (tDims t)).all fun d => d == 0 || tS t d == tS t (d - 1) * tN t (d - 1)

/-- The named regions of a settlement entry: address, bytes of an element, tensor, format code. -/
def settleRegions (e : BitVec 512) : List (Nat × Nat × Nat × Nat) :=
  (if seCompat e then [(seW e, 4, seWTensor e, 2), (seS e, 4, seSTensor e, 2), (seH e, 2, seHTensor e, 0)]
   else [(seW e, 2, seWTensor e, 0), (seS e, 2, seSTensor e, 1)]) ++ [(seG e, 4, seGTensor e, 2)]

/-- The DST regions of the bucket table. -/
def totalSpans (c : Charter) : List (Nat × Nat) := c.buckets.flatMap fun b => span (bkDst b) (4 * bkElems b)

/-- The byte ranges of a settlement entry's regions, its freeze plane among them. -/
def settleSpans (e : BitVec 512) : List (Nat × Nat) :=
  ((settleRegions e).flatMap fun r => span r.1 (r.2.1 * seCount e))
    ++ (if seFreeze e = 2 then span (sePlane e) (ceilDiv (seCount e) 8) else [])

/-- The stall's regions of near memory and the Serai, as ranges. -/
def deepSpans (t : Customs) : List (Nat × Nat) :=
  (t.regions.filter fun e => e.2.valid && (e.2.tier == 1 || e.2.tier == 2)).map fun e => (e.2.va.toNat, e.2.va.toNat + e.2.size.toNat)

/-- A settlement entry that is not empty. -/
def settleOk (s : State) (i : Stall) (c : Charter) (n : Nat) (e : BitVec 512) : Bool :=
  let regions := settleRegions e
  let spans := settleSpans e
  (regions.all fun r =>
      hasTensor c r.2.2.1 && tFormat (c.tensor r.2.2.1) == r.2.2.2 && canonical (c.tensor r.2.2.1)
        && elemsOk (c.tensor r.2.2.1) r.1 (seCount e))
    && spansIn spans (deepSpans (s.stall i).customs)
    && spansIn (span (seG e) (4 * seCount e)) (totalSpans c)
    && ((List.range spans.length).all fun a => (List.range a).all fun b =>
      !spansMeet [spans.getD a (0, 0)] [spans.getD b (0, 0)])
    && !(c.settle.take n).any fun x => spansMeet (settleSpans x.raw) (settleSpans e)

/-- May an access be made: every range within one region that grants it (R412, R413)? -/
def granted (s : State) (i : Stall) (r : Reach) (a : Access) : Bool :=
  a.ranges.all fun x => (denyCause (s.stall i).customs r a.need x.1 (x.2 - x.1)).isNone

/-- May the loss word stand at LOSS_ADDR (R267): 4-byte aligned, in staging, near memory or the Serai, with read granted? -/
def lossOk (s : State) (i : Stall) (c : Charter) : Bool :=
  !c.lossEn || (c.lossAddr % 4 == 0 && tierAt s i c.lossAddr != 3 && granted s i .ledger (rd (span c.lossAddr 4)))

/-- 0x0114. GROUP is looked at in an empty entry too (DESIGN CHOICE, log entry 29: R14 serves an empty entry, R256 refuses
a group that the charter does not hold). -/
def settleFindings (s : State) (i : Stall) (c : Charter) : List Finding :=
  found (!lossOk s i c) 9 0 ++ findIn 9 (List.range c.settle.length) fun n =>
    let e := (c.settle.getD n {}).raw
    decide (c.groups.length ≤ seGroup e) || (seCount e != 0 && !settleOk s i c n e)

/-! ### LOT_STREAM (R80, R183, R352) -/

/-- The streams that an entry draws, with USE (Table 12-7). Copies and BACKWARD partners count as what they copy or link
to. -/
def streamsOf (c : Charter) : EntryRef → List (BitVec 24 × Nat)
  | .stream k n =>
    match (c.stream k)[n]? with
    | none => []
    | some e =>
      let d := e.desc
      let op := opcodeOf d
      if isRecompute c k n || streamEmpty e || isBlock d then []
      else if op = 0x10 then (if mmStochastic d then [(mmStream d, 0)] else [])
      else if op = 0x20 ∨ op = 0x21 then (if gmStochastic d then [(gmStream d, 0)] else [])
      else if op = 0x33 then (if vuFunc d = 0 then [(vuStream d, 1)] else [])
      else if 0x30 ≤ op ∧ op ≤ 0x34 then (if vuStochastic d then [(vuStream d, 0)] else [])
      else []
  | .settle n =>
    let e := (c.settle.getD n {}).raw
    if seCompat e || seCount e == 0 then [] else [(seLotW e, 0), (seLotS e, 0)]
  | _ => []

/-- R183: a BACKWARD VDROP and its LINK. -/
def backwardOk (c : Charter) (k : CoreId) (n : Nat) (d : BitVec 512) : Bool :=
  match (c.stream k)[vuLink d]? with
  | none => false
  | some e =>
    opcodeOf e.desc == 0x33 && vuFunc e.desc == 0 && vuStream e.desc == vuStream d && vuAux e.desc == vuAux d
      && vuScalar0 e.desc == vuScalar0 d && vuCount e.desc == vuCount d
      && (dependencies c (.stream k n)).contains (.stream k (vuLink d))

/-- Does the LOT section list a use, once, with its owner (R352)? -/
def lotListed (c : Charter) (r : EntryRef) (u : BitVec 24 × Nat) : Bool :=
  let l := c.lots.filter fun x => fld x 0 24 == u.1
  l.length == 1 && l.all fun x => fldN x 24 4 == u.2 && depRef (fld x 32 32) == some r

/-- 0x0115. -/
def lotFindings (c : Charter) : List Finding :=
  let uses := (allEntries c).flatMap fun e => (streamsOf c e.1).map fun u => (e, u)
  ((List.range uses.length).flatMap fun n =>
      match uses[n]? with
      | none => []
      | some (e, u) => found (!lotListed c e.1 u || (uses.take n).any fun x => x.2.1 == u.1) e.2.1 e.2.2)
    ++ findStream c fun k n e =>
      opcodeOf e.desc == 0x33 && vuFunc e.desc == 1 && vuCount e.desc != 0 && !backwardOk c k n e.desc

end Sys2Proof.Machine
end

