-- ==== Sys2Proof/Machine/PlaceChecks.lean ====
section
/-! DEFINITION. The load checks 0x0116 to 0x011C of Table 12-9: customs, order, placement, memory fit, bandwidth, the fault
reserve and the fit proof; and the whole run of checks in increasing code order (R355). -/

namespace Sys2Proof.Machine

/-! ### CUSTOMS (R412, R416) -/

/-- Do two records map a common bay or staging byte (R416)? Host addresses may repeat. -/
def placesMeet (a b : Region) : Bool :=
  let units (g : Region) : Nat :=
    if g.tier = 1 then g.size.toNat / nearBayBytes else if g.tier = 2 then g.size.toNat / seraiBayBytes g.guarded
    else g.size.toNat
  a.tier == b.tier && a.tier != 3 && (a.tier != 0 || a.core == b.core)
    && decide (a.place.toNat < b.place.toNat + units b) && decide (b.place.toNat < a.place.toNat + units a)

/-- Do the virtual addresses of two regions overlap? -/
def vasMeet (a b : Region) : Bool :=
  decide (a.va.toNat < b.va.toNat + b.size.toNat) && decide (b.va.toNat < a.va.toNat + a.size.toNat)

/-- A system region (R412): a slot, mapped with read, write and host-visible permission. -/
def systemRegion (p : StallPage) (slot : Bool) : Region :=
  { valid := true, tier := 1, kind := 0, guarded := true, perm := permRead ||| permWrite ||| permHost, core := 0, system := true
    va := BitVec.ofNat 48 (slotVa slot), size := BitVec.ofNat 48 nearBayBytes
    place := BitVec.ofNat 64 (p.comp.nearFirst.toNat + (if slot then 1 else 0)) }

/-- One region record against R416. The slots' own addresses count among the ranges that no record may overlap. -/
def recordOk (s : State) (i : Stall) (e : BitVec 11 × Region) : Bool :=
  let g := e.2
  let m := (s.stall i).page.comp
  let lo := g.place.toNat
  let near := g.size.toNat / nearBayBytes
  let serai := g.size.toNat / seraiBayBytes g.guarded
  decide (e.1.toNat ≤ 1021) && g.va.toNat % 4096 == 0 && g.size.toNat % 4096 == 0
    && decide (g.va.toNat + g.size.toNat ≤ 2 ^ 48)
    && !vasMeet g (systemRegion (s.stall i).page false) && !vasMeet g (systemRegion (s.stall i).page true)
    && (if g.tier = 1 then
          g.guarded && g.size.toNat % nearBayBytes == 0 && decide (m.nearFirst.toNat + 2 ≤ lo)
            && decide (lo + near ≤ m.nearFirst.toNat + m.nearCount.toNat)
        else if g.tier = 2 then
          g.size.toNat % seraiBayBytes g.guarded == 0 && decide (m.seraiFirst.toNat ≤ lo)
            && decide (lo + serai ≤ m.seraiFirst.toNat + m.seraiCount.toNat)
        else if g.tier = 0 then
          !g.guarded && coreStall s ⟨g.core.toNat, g.core.isLt⟩ == some i && decide (lo + g.size.toNat ≤ 2 ^ 25)
        else !g.guarded && m.alt.isNone)

/-- R416 over the records of a charter. -/
def recordsOk (s : State) (i : Stall) (c : Charter) : Bool :=
  let l := c.regions.map recordRegion
  l.all (recordOk s i)
    && (List.range l.length).all fun n => (List.range n).all fun m =>
      match l[n]?, l[m]? with
      | some a, some b => a.1 != b.1 && !vasMeet a.2 b.2 && !placesMeet a.2 b.2
      | _, _ => true

/-- 0x0116: the records (R416), then the entries. -/
def customsFindings (s : State) (i : Stall) (c : Charter) : List Finding :=
  if !recordsOk s i c then [⟨1, 0, 0x0702⟩]
  else
    ((allEntries c).flatMap fun e =>
      found (e.2.1 != 5 && !(entryAccess s i c e.1).all (granted s i (entryReach e.1))) e.2.1 e.2.2 0x0701)
    ++ (if c.dirInit then findIn 12 c.dirs (fun r =>
          let f := sparseForm c (c.tensor r.tensor.toNat) r.turned
          !granted s i .tollgate (wr (span f.dirBase (16 * r.tiles.length)))) 0x0701 else [])

/-! ### ORDER (R349, R91, R139, R186, R118) -/

/-- R349: predecessors exist, run in the same leg or an earlier one, and no entry is its own predecessor. -/
def depsOk (c : Charter) (r : EntryRef) : Bool :=
  match c.sched r with
  | none => true
  | some x =>
    (x.deps.all fun w => match depRef w with
      | some p => (c.sched p).isSome && (c.isBlockRef p || decide (legOf c p ≤ x.leg.toNat))
      | none => false)
      && !(ancestors c r).contains r

/-- The destination of a product tile-op, its K range and whether it continues one (R91). -/
def chainOf (s : State) (i : Stall) (c : Charter) (r : EntryRef) : Option (Nat × Nat × List (Nat × Nat)) :=
  match r with
  | .stream k n =>
    match (c.stream k)[n]? with
    | some e =>
      if streamEmpty e then none
      else if opcodeOf e.desc = 0x10 then some (mmKOffset e.desc, mmKLen e.desc, entryWrites s i c r)
      else if opcodeOf e.desc = 0x20 ∨ opcodeOf e.desc = 0x21 then some (gmKOffset e.desc, gmKLen e.desc, entryWrites s i c r)
      else none
    | none => none
  | _ => none

/-- The entries of a list that are the last to write some byte of ranges: what they write there is not covered by entries of
the list that come after them. -/
def lastWriters (s : State) (i : Stall) (c : Charter) (l : List EntryRef) (dest : List (Nat × Nat)) : List EntryRef :=
  l.filter fun w =>
    !spansIn (spansBoth (entryWrites s i c w) dest) (writtenBy s i c (l.filter fun v => v != w && precedes c w v))

/-- R91, R139: the predecessors of a continuation, named or by charter order, write the whole of its destination; where the
last writer of a byte is a product, its K range ends at the continuation's K_OFFSET. -/
def continues (s : State) (i : Stall) (c : Charter) (r : EntryRef) : Bool :=
  match chainOf s i c r with
  | none => true
  | some (off, _, dest) =>
    off == 0 ||
      (let writers := (ancestors c r).filter fun w => spansMeet (entryWrites s i c w) dest
       spansIn dest (writtenBy s i c writers) && (lastWriters s i c writers dest).all fun w => match chainOf s i c w with
         | some (o, n, _) => o + n == off
         | none => true)

/-- R186: every last writer of a bucket's elements precedes its ledger entry, and none writes them later. -/
def bucketFinal (s : State) (i : Stall) (c : Charter) (n : Nat) : Bool :=
  let b := c.bucket (leBucket (c.ledger.getD n {}).raw)
  let src := span (bkSrc b) (4 * bkElems b)
  let before := dependencies c (.ledger n)
  let writers := ((allEntries c).map fun e => e.1).filter fun w => w != .ledger n && spansMeet (entryWrites s i c w) src
  writers.all fun w => before.contains w ||
    spansIn (spansBoth (entryWrites s i c w) src) (writtenBy s i c (before.filter fun v => v != w && precedes c w v))

/-- Is an entry a tile-op, a vector op or a copy, to which the unordered-writer rule applies (R118, R160, R172, R212)? -/
def writerKind : EntryRef → Bool
  | .stream _ _ | .copy _ _ => true
  | _ => false

/-- The unordered-writer rule of R118 for one entry against the others of its leg. -/
def unordered (s : State) (i : Stall) (c : Charter) (r : EntryRef) : Bool :=
  let mine := entryWrites s i c r
  let reads := entryReads s i c r
  (allEntries c).any fun e =>
    e.1 != r && writerKind e.1 && legOf c e.1 == legOf c r
      && (spansMeet mine (entryWrites s i c e.1 ++ entryReads s i c e.1) || spansMeet reads (entryWrites s i c e.1))
      && !ordered c e.1 r

/-- 0x0117. -/
def orderFindings (s : State) (i : Stall) (c : Charter) : List Finding :=
  (allEntries c).flatMap fun e =>
    found (!depsOk c e.1 || !continues s i c e.1 || (writerKind e.1 && unordered s i c e.1)
      || (match e.1 with | .ledger n => !bucketFinal s i c n | _ => false)) e.2.1 e.2.2

/-! ### PLACEMENT (R295), MEMORY_FIT (R6), BANDWIDTH (R297), FAULT_RESERVE -/

/-- Does Table 10-3 refuse a region's kind in its tier and class? -/
def misplaced (g : Region) : Bool :=
  (g.kind == 0 && g.tier == 2 && !g.guarded) || (g.kind == 1 && g.tier != 1) || (g.kind == 2 && g.tier == 2 && !g.guarded)

/-- Does a range meet a region that march entries may not read (Table 10-3)? -/
def unreadable (c : Customs) (l : List (Nat × Nat)) : Bool :=
  l.any fun x => match regionAt c x.1 with | some (_, g) => g.kind == 3 || g.kind == 4 | none => false

/-- 0x0118. -/
def placementFindings (s : State) (i : Stall) (c : Charter) : List Finding :=
  findIn 1 c.regions (fun r => misplaced (recordRegion r).2)
    ++ (allEntries c).flatMap fun e =>
      found (unreadable (s.stall i).customs (entryReads s i c e.1)) e.2.1 e.2.2

/-- Do ranges lie each within one region whose kind satisfies a condition? -/
def inRegions (c : Customs) (ok : BitVec 3 → Bool) (l : List (Nat × Nat)) : Bool :=
  l.all fun x => match regionAt c x.1 with
    | some (_, g) => ok g.kind && decide (x.2 ≤ g.va.toNat + g.size.toNat)
    | none => false

/-- The bytes of a sparse tensor's slots and directories (R131). -/
def formSpans (c : Charter) (t : BitVec 512) (turned : Bool) : List (Nat × Nat) :=
  let f := sparseForm c t turned
  let n := ceilDiv f.rows 128 * f.kt
  span f.slotBase (n * f.slot) ++ span f.dirBase (16 * n)

/-- The bytes of a tensor: its elements, or its slots and directories. -/
def tensorBytes (c : Charter) (t : BitVec 512) : List (Nat × Nat) :=
  if tLayout t = 3 then formSpans c t false ++ (if tTurned t then formSpans c t true else []) else tensorSpan c t

/-- 0x0119: tensors outside a region, or in the tariff's; tariff rows outside the tariff's; staging of a core above
32 MiB. -/
def fitFindings (s : State) (i : Stall) (c : Charter) : List Finding :=
  let cu := (s.stall i).customs
  let staging (k : Fin 32) : Nat :=
    ((c.regions.map recordRegion).map fun e => if e.2.tier = 0 ∧ e.2.core.toNat = k.val then e.2.size.toNat else 0).sum
  found ((List.finRange 32).any fun k => decide (2 ^ 25 < staging k)) 1 0
    ++ findIn 3 c.tensors (fun t => !inRegions cu (· != 1) (tensorBytes c t))
    ++ found (!inRegions cu (· == 1) (span c.tariffBase.toNat (16 * c.buckets.length))) 7 0

/-- 0x011A: bytes of a leg against shares × share rate × budget (R296, R297). -/
def bandwidthFindings (s : State) (i : Stall) (c : Charter) : List Finding :=
  findIn 2 (List.range c.legs.length) (legOver s i c)

/-- 0x011B: guards outside R46, and a present standby that no SIDE ring reaches (R317). -/
def reserveFindings (c : Charter) : List Finding :=
  findIn 2 c.legs (fun l => decide (legGuard l < 40) || decide (legLength l < legGuard l + 10))
    ++ found ((List.range 4).any fun j => bit c.standbys j &&
      ((ringMembers c j).isEmpty
        || ((ringMembers c j).contains c.member.toNat && (c.rp6Mode != 1 || c.rp7Mode != 1)))) 2 0

/-! ### The run of checks (R355) -/

/-- A refusal of the checks: code, detail, section and item; with the fit proof's report for FIT. -/
structure Refused where
  code : Reason
  detail : Reason
  sec : Nat
  item : Nat
  fit : Option Fit := none
  deriving DecidableEq, Repr

/-- The checks of Table 12-9 from 0x0108 on but for the fit proof, each with its code, in increasing order. -/
def loadChecks (s : State) (i : Stall) (odd : List (Nat × Nat)) (c : Charter) : List (Reason × (Unit → List Finding)) :=
  [(0x0108, fun _ => shapeFindings (s.stall i) c), (0x0109, fun _ => fieldFindings odd c), (0x010A, fun _ => tensorFindings c),
    (0x010B, fun _ => resourceFindings s i c), (0x010C, fun _ => domainFindings s i c), (0x010D, fun _ => wiringFindings s c),
    (0x010E, fun _ => legFindings c), (0x010F, fun _ => tileFindings s i c), (0x0110, fun _ => blockFindings s i c),
    (0x0111, fun _ => tableFindings c), (0x0112, fun _ => copyFindings s i c), (0x0113, fun _ => ledgerFindings s i c),
    (0x0114, fun _ => settleFindings s i c), (0x0115, fun _ => lotFindings c), (0x0116, fun _ => customsFindings s i c),
    (0x0117, fun _ => orderFindings s i c), (0x0118, fun _ => placementFindings s i c), (0x0119, fun _ => fitFindings s i c),
    (0x011A, fun _ => bandwidthFindings s i c), (0x011B, fun _ => reserveFindings c)]

/-- The state on which a charter's addresses are checked: its own records stand in the stall's customs table. -/
def trialState (s : State) (i : Stall) (c : Charter) : State :=
  s.modCustoms i fun u => { u with regions := recordTable c ++ u.regions.filter fun e => e.2.system }

/-- The captured row masks and shape records (R107, R202). -/
def captureCharter (s : State) (i : Stall) (c : Charter) : Charter :=
  let s' := trialState s i c
  { c with
    streams := c.streams.map fun l => l.map fun e =>
      if opcodeOf e.desc = 0x10 ∧ mmRowMask e.desc then
        { e with mask := (List.range (mmRows e.desc)).map fun r => (s'.readVa i (mmMask e.desc + r / 8)).getLsbD (r % 8) }
      else e
    copies := c.copies.map fun l => { l with
      shapes := l.descs.map fun d => if cpEmpty d then 0 else ofBytes 640 (s'.readBytes i (cpShape d) 80) } }

/-- The first check that a captured charter fails; none where it passes all of them (R355, R55). -/
def checkCharter (s : State) (i : Stall) (odd : List (Nat × Nat)) (c : Charter) : Option Refused :=
  let t := trialState s i c
  let first := (found (regionsDiffer (s.stall i) c && (s.stall i).march.state != .empty) 1 0).head?
  match first with
  | some f => some { code := 0x0108, detail := f.detail, sec := f.sec, item := f.item }
  | none =>
    match (loadChecks t i odd c).findSome? fun k => (firstFinding c (k.2 ())).map fun f => (k.1, f) with
    | some (code, f) => some { code := code, detail := f.detail, sec := f.sec, item := f.item }
    | none => match fitProof t i c with
      | some f => some { code := 0x011C, detail := 0, sec := 2, item := f.leg, fit := some f }
      | none => none

end Sys2Proof.Machine
end

