-- ==== Sys2Proof/Machine/Loader.lean ====
section
/-! DEFINITION. The charter loader and the Tollgate pass (R341, R353 to R358, R412, R415): customs tables, LOAD, the end of
the checks, UNLOAD, CANCEL, the words of other members and the slot port. -/

namespace Sys2Proof.Machine

/-! ### The Tollgate pass (R354, R415) -/

/-- An entry of the customs table as its view shows it (Table 14-10). -/
def regionBits (g : Region) : BitVec 256 :=
  (0 : BitVec 64) ++ g.place ++ g.size ++ g.va ++ (0 : BitVec 14) ++ BitVec.ofBool g.system ++ g.core ++ g.perm
    ++ BitVec.ofBool g.guarded ++ g.kind ++ g.tier ++ BitVec.ofBool g.valid

/-- Entry `n` of a stall's table; an entry not in use is zero. -/
def regionEntry (c : Customs) (n : Nat) : BitVec 256 :=
  match c.regions.find? fun e => e.1.toNat == n with
  | some e => regionBits e.2
  | none => 0

/-- CUS_DIGEST (R415). -/
def customsDigest (c : Customs) : BitVec 256 := sha3 ((List.range 1024).flatMap fun n => leBytes 32 (regionEntry c n))

/-- Write and lock a stall's customs table from a charter (R412, R415, R416). -/
def State.writeTable (s : State) (i : Stall) (c : Option Charter) : State :=
  let p := (s.stall i).page
  let recs := match c with | some c => if recordsOk s i c then recordTable c else [] | none => []
  let s1 := s.modCustoms i fun u => { u with
    regions := recs ++ [(1022, systemRegion p false), (1023, systemRegion p true)], locked := true, pass := false }
  s1.modCustoms i fun u => { u with digest := customsDigest u }

/-- The pass: the policy, the winning slot and the table. -/
def State.passTable (s : State) (i : Stall) : State :=
  let policy := (s.stall i).page.comp.policy
  let s1 := s.modCharter i fun p => { p with keyIndex := fld policy 4 4, signedOnly := bit policy 0 }
  let (ch, s2) := s1.chooseSlot i
  s2.writeTable i (match ch with | .winner slot => some (slotCharter s2 i slot) | .refuse _ _ => none)

/-! ### LOAD -/

/-- The choice of LOAD (R344, R353, R354): a refusal, or the winner in CHECK; in EMPTY the customs table follows the
winner. -/
def State.doLoad (s : State) (i : Stall) : State :=
  let (ch, s1) := s.chooseSlot i
  match ch with
  | .refuse code detail => (s1.modCharter i fun p => { p with loader := 0 }).noteRefusal i code detail 0 0
  | .winner slot =>
    let c := slotCharter s1 i slot
    let s2 := if (s1.stall i).march.state == .empty && regionsDiffer (s1.stall i) c then s1.passTable i else s1
    s2.modCharter i fun p => { p with loader := 3, checking := some c, oddFields := oddFields (slotByte s1 i slot) }

/-- A LOAD in an IDLE loader; while the Tollgate restarts it waits in VALIDATE (R466). -/
def State.beginLoad (s : State) (i : Stall) : State :=
  if s.tollgate.restarting == some 6 then s.modCharter i fun p => { p with loader := 1 } else s.doLoad i

/-- The Tollgate pass of a stall and the AUTOLOAD at its end (R354). -/
def State.tollgatePass (s : State) (i : Stall) : State :=
  let s1 := s.passTable i
  if (s1.stall i).charter.autoload then s1.beginLoad i else s1

/-- A command of CHT_CTRL that finds no state to act in (R353). -/
def State.loaderIgnores (s : State) (i : Stall) : State := s.modCharter i fun p => { p with cmdIgnored := true }

/-- LOAD (R353, Table 12-11). -/
def cmdLoad (i : Stall) (s : State) : State :=
  let p := (s.stall i).charter
  if p.loader != 0 || p.pending.isSome then s.loaderIgnores i else s.rouse.beginLoad i

/-- The initial directories (R352). -/
def State.writeDirectories (s : State) (i : Stall) (c : Charter) : State :=
  forEach c.dirs s fun s r =>
    let f := sparseForm c (c.tensor r.tensor.toNat) r.turned
    s.writeBytes i f.dirBase (r.tiles.flatMap fun e => leBytes 16 e)

/-- A matching word from every member lets the pending charter take effect at once in READY and HELD (R358). -/
def State.collect (s : State) (i : Stall) : State :=
  let t := s.stall i
  if t.march.lead && swapReady t && (t.march.state == .ready || t.march.state == .held) then
    ((s.swapIn i).modMarch i fun m => { m with state := .ready }).send (.relayed i (.swap s.time))
  else s

/-- Keep a member's latest word (R357). -/
def State.keepWord (s : State) (i : Stall) (m : Member) (epoch : Word) (seq : BitVec 64) : State :=
  s.modCharter i fun p => { p with epochs := (p.epochs.filter fun e => e.1 != m) ++ [(m, epoch, seq)] }

/-- This member's ACCEPTED word: kept at the lead, sent to it by the others (R357). -/
def State.sendAccepted (s : State) (i : Stall) (c : Charter) : State :=
  if (s.stall i).march.lead then (s.keepWord i c.member c.epoch c.seq).collect i else s.send (.accepted i c.epoch c.seq)

/-- A charter has passed every check (R353, R352): active in EMPTY, with the stall READY; pending otherwise. -/
def State.acceptCharter (s : State) (i : Stall) (c : Charter) : State :=
  if (s.stall i).march.state == .empty then
    let s1 := ((s.activate i c).takeRoles i c).darkenUnused i
    let s2 := if c.dirInit then s1.writeDirectories i c else s1
    let s3 := ((s2.modMarch i fun m => { m with state := .ready }).modCharter i fun p => { p with assembled := false }).raiseEvent i 3
    s3.sendAccepted i c
  else
    let s1 := (s.modCharter i fun p => { p with
      pending := some c, pendingSlot := c.slot, loader := 4, checking := none, scheduled := false, swapAt := none }).raiseEvent i 3
    s1.sendAccepted i c

/-- The checks of a charter end (R355): accepted, or refused with the report of Table 12-13. -/
def State.endChecks (s : State) (i : Stall) (c0 : Charter) : State :=
  let s0 := if (s.stall i).march.state == .empty && regionsDiffer (s.stall i) c0 && recordsOk s i c0
    then s.writeTable i (some c0) else s
  let c := captureCharter s0 i c0
  match checkCharter s0 i (s.stall i).charter.oddFields c with
  | some r =>
    let s1 := s0.modCharter i fun p => { p with loader := 0, checking := none }
    let s2 := match r.fit with | some f => s1.reportFit i f | none => s1
    s2.noteRefusal i r.code r.detail r.sec r.item
  | none => ((s0.fitHeld i).modCharter i fun p => { p with checking := none }).acceptCharter i c

/-- LOAD. -/
def execLoad (r : Requester) (i : Stall) (s : State) : Host.Outcome State Fault Refusal :=
  .next (s.guardWrite r (charterOff i 0) (cmdLoad i))

/-- CHARTER_ACCEPTED (R355): the checks of the charter in CHECK end. -/
def execCharterAccepted (i : Stall) (s : State) : Host.Outcome State Fault Refusal :=
  match (s.stall i).charter.checking with
  | some c => .next (if (s.stall i).charter.loader = 3 then s.endChecks i c else s)
  | none => .next s

/-! ### UNLOAD, CANCEL and the words of the members (R353, R357, R360) -/

/-- UNLOAD (R353): EMPTY, without a charter, both slots unlocked, and without a role (R347). -/
def cmdUnload (i : Stall) (s : State) : State :=
  let t := s.stall i
  if t.march.state == .ready || t.march.state == .held then
    let s1 := s.modCharter i fun p => { p with
      active := none, pending := none, loader := if p.loader = 4 then 0 else p.loader, assembled := false
      scheduled := false, swapAt := none }
    let s2 := s1.modMarch i fun m => { m with state := .empty, lead := false, deputy := false, member := 0, synced := false }
    let s3 := s2.modLedger i fun l => { l with buckets := 0, runs := [] }
    s3.modSettle i fun x => { x with coef := [], heldCoef := [] }
  else s.loaderIgnores i

/-- UNLOAD. -/
def execUnload (r : Requester) (i : Stall) (s : State) : Host.Outcome State Fault Refusal :=
  .next (s.guardWrite r (charterOff i 0) (cmdUnload i))

/-- CANCEL (R353): a pending charter whose swap is not announced is dropped, and WITHDRAW goes to the lead. -/
def cmdCancel (i : Stall) (s : State) : State :=
  let t := s.stall i
  if t.charter.pending.isSome && !t.charter.scheduled && t.charter.swapAt.isNone then
    let s1 := s.modCharter i fun p => { p with pending := none, loader := 0 }
    if t.march.lead then s1.modCharter i fun p => { p with epochs := p.epochs.filter fun e => e.1 != t.march.member }
    else s1.send (.withdraw i)
  else s.loaderIgnores i

/-- CANCEL. -/
def execCancel (r : Requester) (i : Stall) (s : State) : Host.Outcome State Fault Refusal :=
  .next (s.guardWrite r (charterOff i 0) (cmdCancel i))

/-- A write of CHT_CTRL (R353, Table 12-13): AUTOLOAD, then CMD; 4 to 7 are ignored. -/
def writeChtCtrl (i : Stall) (v : Word) (s : State) : State :=
  let s1 := s.modCharter i fun p => { p with autoload := bit v 8 }
  match fldN v 0 3 with
  | 1 => cmdLoad i s1
  | 2 => cmdUnload i s1
  | 3 => cmdCancel i s1
  | _ => s1

/-- ACCEPTED_WORD (R357, R358). -/
def execAcceptedWord (i : Stall) (m : Member) (epoch : Word) (seq : BitVec 64) (s : State) : Host.Outcome State Fault Refusal :=
  .next ((s.keepWord i m epoch seq).collect i)

/-- WITHDRAW (R360): the sender is missing again. -/
def execWithdraw (i : Stall) (m : Member) (s : State) : Host.Outcome State Fault Refusal :=
  .next (s.modCharter i fun p => { p with epochs := p.epochs.filter fun e => e.1 != m })

/-! ### The slot port (R341) -/

/-- Words of a slot bay (R341). -/
def slotWords : Nat := 251658240

/-- A write of CHT_PORT_DATA: stored, or dropped and counted; the offset advances either way. -/
def writePortData (i : Stall) (v : Word) (s : State) : State :=
  let p := (s.stall i).charter
  let w := p.portWord.toNat
  let bay := (s.stall i).page.comp.nearFirst.toNat + (if p.portSlot then 1 else 0)
  let s1 :=
    if slotLocked (s.stall i) p.portSlot || decide (slotWords ≤ w) then
      s.modCharter i fun p => { p with lockedWrites := satAdd p.lockedWrites 1 }
    else (forEach (List.range 4) s fun s k => s.writePlace (.near bay (4 * w + k)) (fld v (8 * k) 8)).countPlace (.near bay (4 * w)) 4
  s1.modCharter i fun p => { p with portWord := p.portWord + 1 }

/-- CHT_PORT_DATA_WRITE (R341). -/
def execChtPortDataWrite (r : Requester) (i : Stall) (v : Word) (s : State) : Host.Outcome State Fault Refusal :=
  .next (s.guardWrite r (charterOff i 0x44) (writePortData i v))

end Sys2Proof.Machine
end

