-- ==== Sys2Proof/Machine/HostLinks.lean ====
section
/-! DEFINITION. Host links and stalls (chapter 13): link training, link-down and hot reset, stall resets, failover and
heartbeats (R365 to R376), shares and the arbiter's frames (R377 to R380), configuration requests (R429). -/

namespace Sys2Proof.Machine

/-! ### Links (R365, R367) -/

/-- Is a link in L0? -/
def inL0 (s : State) (l : LinkId) : Bool := (s.host l).rate != 0 && !(s.host l).l2

/-- Number of links of a bifurcation mode and the widest WIDTH code of each (Table 13-3). -/
def modeLinks (mode : BitVec 2) : Nat := if mode = 0 then 1 else if mode = 1 then 2 else 4
def modeWidth (mode : BitVec 2) : BitVec 3 := if mode = 0 then 3 else if mode = 1 then 2 else 1

/-- May a link train (R367, R429)? With the common clock and more than one link, link 0 trains alone. -/
def mayTrain (s : State) (l : LinkId) : Bool :=
  s.pins.pwrok && s.pins.perstN && !s.power.tripLatch && decide (l.val < modeLinks s.tollgate.mode)
    && (s.starts.clkmode || l.val == 0)

/-- A link's training result (R364, R365): 64 GT/s only with 256-byte flits; 68-byte flits offer no HDM range; a link
that cannot reach 32 GT/s stays down. No HDM range is offered in stranded mode (R431). -/
def State.trainLink (s : State) (l : LinkId) (rate : BitVec 2) (width : BitVec 3) (flit256 cxl3 : Bool) : State :=
  let good := (rate = 1 ∨ (rate = 2 ∧ flit256)) ∧ width ≠ 0 ∧ width.toNat ≤ (modeWidth s.tollgate.mode).toNat
  s.modHost l fun h =>
    if good then { h with
      rate := rate, width := width, flit256 := flit256, cxl3 := cxl3 && flit256, mem := flit256 && !s.tollgate.stranded
      l2 := false }
    else { h with rate := 0, width := 0, flit256 := false, cxl3 := false, mem := false, l2 := false }

/-- CXL_LINK_TRAINING (R365, R429). -/
def execCxlLinkTraining (l : LinkId) (rate : BitVec 2) (width : BitVec 3) (flit256 cxl3 : Bool) (s : State) :
    Host.Outcome State Fault Refusal :=
  if mayTrain s l && !inL0 s l then .next (s.trainLink l rate width flit256 cxl3) else .next s

/-- CONFIG_REQUEST (R429): Retry Status until READY; the surface of R431 answers. -/
def execConfigRequest (l : LinkId) (s : State) : Host.Outcome State Fault Refusal :=
  if !inL0 s l then .next s
  else if s.power.state = 2 ∨ s.power.state = 3 ∨ s.tollgate.stranded then .next (s.send (.configDone l))
  else .next (s.send (.configRetry l))

/-! ### Stall reset (R372, Table 13-5) -/

/-- A core after a reset of its stall: clocks stay the Waystation's (R32, R436); an absent core is OFF. -/
def freshCore (live : Bool) (x : Core) : Core :=
  idleCore live { clock := x.clock, thrClock := x.thrClock, capClock := x.capClock, stepAt := x.stepAt, brace := x.brace }

/-- A copy engine after a reset of its stall: a retired engine stays so (R494). -/
def freshEngine (e : EngineId) (x : CopyEngine) : CopyEngine :=
  { state := if x.retired then 0 else 1, retired := x.retired }

/-- A port's registers after a reset of its stall: counters and RTE_BANDIT clear (R333, R338); lanes, light and link
stay. -/
def freshPort (x : Port) : Port :=
  { x with
    recalSkipped := 0, banditDenied := false, fecCe := 0, fecUe := 0, replays := 0, auditFail := false, audits := 0
    lastReason := 0, lastDir := false, lastLane := 0, tx := 0, rx := 0, auto := true }
def freshBandit (l : LinkLayer) : LinkLayer :=
  { l with
    banditEn := false, banditAction := 0, banditMask := 0, banditDelay := 0, banditRate := 0, banditSeed := 0, offered := 0
    injected := 0, heldFlits := [], heldUntil := 0, reordered := none, queue := []
    injectAt := Vector.replicate 4 none, injectCount := Vector.replicate 4 0 }

/-- The stall's pages after a reset: what R372 keeps is the customs table until it is rewritten, STALL_RESETS and
CHT_POLICY, a retired ledger engine, and the composition in force. -/
def freshStall (t : StallState) : StallState :=
  { page := { state := t.page.state, comp := t.page.comp, swapped := t.page.swapped, resets := t.page.resets
              resetAt := t.page.resetAt }
    customs := { t.customs with denied := 0, debugOpen := false }
    charter := { keyIndex := t.charter.keyIndex, signedOnly := t.charter.signedOnly }
    ledger := { retired := t.ledger.retired } }

/-- The units of a stall reset with it. Their writes that wait for a host's response are dropped (DESIGN CHOICE, log
entry 24). -/
def State.freshUnits (s : State) (i : Stall) : State :=
  let s1 := forEach (stallCores s i) s fun s k => s.modCore k (freshCore (liveCore s k))
  let s2 := forEach ((List.finRange 8).filter fun e => engineStall s e == some i) s1 fun s e => s.modEngine e (freshEngine e)
  let s3 := forEach ((List.finRange 8).filter fun p => portStall s p == some i) s2 fun s p =>
    ((forEach (s.lnk p).queue s fun s q => s.leaveBuffer q).modPort p freshPort).modLnk p freshBandit
  let s4 := if portStall s 0 == some i then { s3 with fabric := { s3.fabric with relay := {} } } else s3
  { s4 with
    fabric := { s4.fabric with
      delivered := s4.fabric.delivered.filter fun e => e.1 != i
      got := s4.fabric.got.filter fun e => e.1.1 != i
      inbound := s4.fabric.inbound.filter fun e => e.1.1 != i
      sentMsgs := s4.fabric.sentMsgs.set i (Vector.replicate 5 0) }
    tiers := { s4.tiers with snoops := s4.tiers.snoops.filter fun h => h.stall != i } }

/-- A stall reset begins (R372): RESETTING; its march is over, and its engines, posts, queues and buffers are cleared. The low
halves that requesters hold (R9) stay: 'since reset' is taken as a reset of the module (DESIGN CHOICE, log entry 3). -/
def State.beginStallReset (s : State) (i : Stall) : State :=
  if (s.stall i).page.comp.owner.isNone then s
  else
    let s1 := s.modPage i fun p => { p with state := 1, resetAt := some s.time }
    (s1.freshUnits i).modStall i freshStall

/-- A stall reset ends (Table 13-5, R354, R369, R415): the composition on flash is applied, the Tollgate pass writes the
customs table, and AUTOLOAD loads. A passed ownership returns to the composed owner. -/
def State.endStallReset (s : State) (i : Stall) : State :=
  let c := s.tollgate.table.get i
  let s1 := s.modPage i fun p => { p with comp := c, swapped := false, resetAt := none, state := 2, resets := satAdd p.resets 1 }
  if c.owner.isNone then
    s1.modStall i fun t => { page := { state := 0, comp := c, resets := t.page.resets } }
  else (s1.freshUnits i).tollgatePass i

/-- Is the Tollgate at work: neither restarting nor without an image (R466)? -/
def tollgateLive (s : State) : Bool := s.tollgate.restarting != some 6

/-- The resets that have begun end where the Tollgate is at work (R372; the instant is the model's choice, log entry 17). -/
def State.finishResets (s : State) : State :=
  if !tollgateLive s then s
  else forEach (allStalls.filter fun i => (s.stall i).page.state == 1) s fun s i => s.endStallReset i

/-- STALL_RESET (R372): source 9. -/
def resetStall (i : Stall) (s : State) : State :=
  if (s.stall i).page.comp.owner.isNone then s else (s.resetCause 9 (BitVec.ofNat 4 i.val) 0).beginStallReset i

/-! ### Failover (R373 to R376) -/

/-- Ownership passes (R376). -/
def State.passOwnership (s : State) (i : Stall) : State :=
  (s.modPage i fun p => { p with swapped := !p.swapped, armed := false }).record
    { reason := 0x0C05, cls := clsInfo, stall := some i }

/-- The stalls that a link owns. -/
def ownedBy (s : State) (l : LinkId) : List Stall := allStalls.filter fun i => ownerLink (s.stall i).page == some l

/-- Does ownership pass when the owner link leaves L0 (R374)? -/
def passes (s : State) (i : Stall) : Bool :=
  (s.stall i).page.armed && (match altLink (s.stall i).page with | some a => inL0 s a | none => false)

/-- Reset the stalls of a link: source 4. -/
def State.resetLinkStalls (s : State) (l : LinkId) (l_ : List Stall) : State :=
  if l_.isEmpty then s
  else forEach l_ (s.resetCause 4 (BitVec.ofNat 4 l.val) 0) fun s i => s.beginStallReset i

/-- A link is down: its keys and an exchange in progress are discarded (R405). -/
def downHost (h : HostLink) : HostLink :=
  { h with
    rate := 0, width := 0, flit256 := false, cxl3 := false, mem := false, ideCm := false, ideIo := false
    secret := none, keys := none, l2 := false }

/-- The owner link leaves L0 (R374). -/
def State.linkDown (s : State) (l : LinkId) : State :=
  let s1 := s.modHost l downHost
  let mine := ownedBy s l
  let s2 := forEach (mine.filter fun i => passes s1 i) s1 fun s i => s.passOwnership i
  s2.resetLinkStalls l (mine.filter fun i => !passes s1 i)

/-! ### STANDBY (R442 to R444) -/

/-- Votes of the present stalls. -/
def votesAll (s : State) (ok : BitVec 2 → Bool) : Bool := (presentStalls s).all fun i => ok (s.power.vote.get i)

/-- Is every march EMPTY or READY? -/
def marchesQuiet (s : State) : Bool :=
  allStalls.all fun i => (s.stall i).march.state == .empty || (s.stall i).march.state == .ready

/-- The conditions of STANDBY but for the links (R444). -/
def standbyDue (s : State) : Bool :=
  (s.power.state == 2 || s.power.state == 3) && votesAll s (· == 2) && marchesQuiet s
    && (List.finRange 8).all fun e => (s.engine e).state.toNat ≤ 1 && (s.engine e).batch.isNone
      && (s.engine e).qhead == (s.engine e).qtail

/-- What the retention memory keeps of a stall (R444). -/
def keepOf (t : StallState) : Retained :=
  { march := t.march, ledger := t.ledger, tally := t.tally, step := t.settle.step, seed := t.lot.seed }

/-- The tiers in self-refresh. -/
def selfRefresh (t : Tiers) : Tiers :=
  { t with
    near := t.near.map fun x => { x with state := 3, scrubbing := false }
    serai := t.serai.map fun x => if x.state = 2 then { x with state := 3, scrubbing := false } else x }

/-- STANDBY is entered where every link that is up is in L2 (R444): state is saved, the tiers go to self-refresh, and
every rail but the memory rails is off. -/
def State.enterStandby (s : State) : State :=
  if !standbyDue s || (List.finRange 4).any fun l => inL0 s l then s
  else
    let kept := (s.stalls.map keepOf, s.cores.map fun x => x.chooserWritten)
    let dark := s.allDark
    { dark with
      tiers := selfRefresh s.tiers
      cores := s.cores.map (idleCore false)
      power := { dark.power with state := 4, bringup := 0, standbyAt := s.time, retained := some kept } }

/-- IDLE and ACTIVE follow the votes and the marches (R443). In IDLE no array is held: it ramps down to level 0 (R125, R121). -/
def State.settlePower (s : State) : State :=
  let quiet := votesAll s (fun v => v == 1 || v == 2) && marchesQuiet s
  if s.power.state = 2 ∧ quiet then
    { s with
      power := { s.power with state := 3 }
      cores := s.cores.map fun x => { x with da := x.da.map fun a => a.endHold (heldCycles x a s.time) } }
  else if s.power.state = 3 ∧ ¬ quiet then { s with power := { s.power with state := 2 } }
  else s

/-- CXL_LINK_DOWN (R374): the link leaves L0; where every other condition of STANDBY holds, it is the host that takes it
to L2, which is held (R444). -/
def execCxlLinkDown (l : LinkId) (s : State) : Host.Outcome State Fault Refusal :=
  if !inL0 s l then .next s
  else if standbyDue s then .next (s.modHost l fun h => { h with l2 := true }).enterStandby
  else .next (s.linkDown l)

/-- CXL_HOT_RESET (R374): every stall that the link owns is reset. -/
def execCxlHotReset (l : LinkId) (s : State) : Host.Outcome State Fault Refusal :=
  if !inL0 s l then .next s else .next (s.resetLinkStalls l (ownedBy s l))

/-! ### STALL_CTRL (Table 13-12) -/

/-- HEARTBEAT restarts the heartbeat time (R375). -/
def beat (i : Stall) (s : State) : State := s.modPage i fun p => { p with hbLast := s.time }

/-- A write of STALL_CTRL: HB_TIMEOUT, HEARTBEAT, ARM (a write of 1 is ignored without an ALT) and RESET. A new
HB_TIMEOUT restarts the heartbeat time too. -/
def writeStallCtrl (i : Stall) (v : Word) (s : State) : State :=
  let s1 := s.modPage i fun p => { p with
    armed := bit v 1 && (p.armed || (altLink p).isSome), hbTimeout := fld v 8 8
    hbLast := if bit v 2 || p.hbTimeout != fld v 8 8 then s.time else p.hbLast }
  if bit v 0 then resetStall i s1 else s1

/-- STALL_RESET (R372). -/
def execStallReset (r : Requester) (i : Stall) (s : State) : Host.Outcome State Fault Refusal :=
  .next (s.guardWrite r (stallOff i 4) (resetStall i))

/-- HEARTBEAT (R375). -/
def execHeartbeat (r : Requester) (i : Stall) (s : State) : Host.Outcome State Fault Refusal :=
  .next (s.guardWrite r (stallOff i 4) (beat i))

/-- ARM (R374): a write of STALL_CTRL. -/
def execArm (r : Requester) (i : Stall) (v : Word) (s : State) : Host.Outcome State Fault Refusal :=
  .next (s.guardWrite r (stallOff i 4) (writeStallCtrl i v))

/-! ### The arbiter (R377 to R380) -/

/-- Tenths of a byte that one share moves in a frame of 256 ns (R296, R378). -/
def shareTenths (s : State) (resource : Fin 6) : Nat :=
  if resource.val = 0 then 336 * 256 * 10
  else if resource.val = 1 then 54 * 256 * 10
  else
    let h := s.hosts.get ⟨(resource.val - 2) % 4, Nat.mod_lt _ (by decide)⟩
    linkLanes s.tollgate.mode * 512 * h.rate.toNat

/-- The tenths of a byte that a stall's shares of a resource move in a frame. -/
def ownTenths (s : State) (resource : Fin 6) (i : Stall) : Nat :=
  let p := (s.stall i).page
  let shares :=
    if resource.val = 0 then p.comp.nearShares.toNat
    else if resource.val = 1 then p.comp.seraiShares.toNat
    else if (ownerLink p).map (fun l => l.val + 2) = some resource.val then p.comp.cxlShares.toNat else 0
  shares * shareTenths s resource

/-- A request in a frame: what is left of it, and what moved on borrowed capacity. -/
structure FrameState where
  req : FrameRequest
  left : Nat
  lent : Nat := 0
  deriving DecidableEq, Repr

/-- Owners' requests first, within their shares; the second list holds what is left of each stall's shares. -/
def serveOwn : List FrameRequest → Vector Nat 8 → List FrameState × Vector Nat 8
  | [], own => ([], own)
  | q :: l, own =>
    let take := min (10 * q.bytes) (own.get q.stall)
    let (rest, left) := serveOwn l (own.set q.stall (own.get q.stall - take))
    (⟨q, 10 * q.bytes - take, 0⟩ :: rest, left)

/-- The stalls after `last`, in turn (R379). -/
def turnAfter (last : Stall) : List Stall :=
  (List.range 8).map fun k => ⟨(last.val + 1 + k) % 8, Nat.mod_lt _ (by decide)⟩

/-- The next borrower: the first in turn with a request that may borrow and is not finished. -/
def nextBorrower (fs : List FrameState) (last : Stall) : Option Stall :=
  (turnAfter last).find? fun i => fs.any fun f => decide (f.req.stall = i) && !f.req.charter && decide (0 < f.left)

/-- Give one sector of idle capacity to a stall's first waiting request. -/
def lend (n : Nat) (i : Stall) : List FrameState → List FrameState
  | [] => []
  | f :: l =>
    if f.req.stall = i ∧ ¬ f.req.charter ∧ 0 < f.left then
      { f with left := f.left - min n f.left, lent := f.lent + min n f.left } :: l
    else f :: lend n i l

/-- Lend idle capacity by sectors of 64 bytes, round-robin; the fuel is the number of sectors. -/
def lendAll : Nat → Nat → List FrameState → Stall → List FrameState × Stall
  | 0, _, fs, last => (fs, last)
  | n + 1, idle, fs, last =>
    if idle = 0 then (fs, last)
    else match nextBorrower fs last with
      | none => (fs, last)
      | some i => lendAll n (idle - min 640 idle) (lend (min 640 idle) i fs) i

/-- One resource's part of a frame. -/
def frameOf (s : State) (resource : Fin 6) (reqs : List FrameRequest) : List FrameState × Stall :=
  let own : Vector Nat 8 := Vector.ofFn fun i => ownTenths s resource i
  let (fs, left) := serveOwn (reqs.filter fun q => q.resource == resource) own
  let idle := left.toList.sum
  lendAll (idle / 640 + 1) idle fs (s.arbiter.get resource)

/-- ARBITER_FRAME (R379, R380): 256 ns pass; CXL.mem requests that borrowed are counted DEFERRED, and the frames in
which a stall's CXL.mem requests wait are counted. A host-queue batch is counted when it completes (R214). -/
def execArbiterFrame (reqs : List FrameRequest) (s : State) : Host.Outcome State Fault Refusal :=
  let all := (List.finRange 6).map fun k => (k, frameOf s k reqs)
  let fs := all.flatMap fun e => e.2.1
  let s1 := { s.atTime (s.time + 256) with
    arbiter := Vector.ofFn fun k => (frameOf s k reqs).2 }
  .next (forEach allStalls s1 fun s i => s.modPage i fun p =>
    let mine := fs.filter fun f => f.req.stall == i && f.req.cxlMem
    { p with
      deferred := satAdd p.deferred (mine.filter fun f => decide (0 < f.lent)).length
      wait := if mine.any fun f => decide (0 < f.left) then satAdd p.wait 1 else p.wait })

end Sys2Proof.Machine
end

