-- ==== Sys2Proof/Machine/Posts.lean ====
section
/-! DEFINITION. Posts (chapter 13): claims, SEND, acknowledgements, rejections, notices (R382 to R387, R392). -/

namespace Sys2Proof.Machine

/-- Is a post outbound (Table 13-8)? -/
def outbound (secure : Bool) (n : Nat) : Bool := if secure then decide (6 ≤ n) else decide (20 ≤ n)

/-- Has an inbound post no receiver (Table 13-8)? -/
def noReceiver (secure : Bool) (n : Nat) : Bool := secure && decide (3 ≤ n) && decide (n ≤ 5)

/-- Does a page hold post `n`: 24 non-secure, 8 secure? -/
def postExists (secure : Bool) (n : Fin 24) : Bool := !secure || decide (n.val < 8)

/-- Does another requester hold the claim of a post? -/
def claimedByOther (p : Post) (r : Requester) : Bool :=
  match r with
  | .link l => p.relayClaim || (match p.claim with | some k => k != l | none => false)
  | .relay _ => p.claim.isSome
  | _ => p.relayClaim || p.claim.isSome

/-- Claim a post for a writer (R383). -/
def claimFor (p : Post) (r : Requester) : Post :=
  match r with
  | .link l => { p with claim := some l }
  | .relay _ => { p with relayClaim := true }
  | _ => p

/-- The four bytes of a word in a buffer. -/
def putWord (buf : Vector Byte 256) (word : Nat) (v : Word) : Vector Byte 256 :=
  (List.range 4).foldl (fun b k => b.set! (4 * word + k) (fld v (8 * k) 8)) buf

/-- LEN as stored: above 256 is 256. -/
def storedLen (v : Word) : BitVec 9 := if 256 < (fld v 0 9).toNat then 256 else fld v 0 9

/-- SEND (R383): FULL, LEN, a new TAG; the claim is released and DONE clears. A post without receiver answers at once. -/
def sendPost (p : Post) (r : Requester) (v : Word) (lost : Bool) : Post :=
  let q := { p with
    len := storedLen v, tag := p.tag + 1, full := true, ackDone := false, sent := p.sent + 1
    sender := (match r with | .link l => some l | _ => none), claim := none, relayClaim := false }
  if lost then { q with full := false, ackDone := true, ackTag := q.tag, ackCode := 0x0601, replyLen := 0, acked := q.acked + 1 } else q

/-- A write of an inbound post that is rejected (R384): counted for a link; a bus error for the others. Whether ERR_COR
follows depends on configuration space, which no command writes: a free bit. -/
def State.rejectPost (s : State) (r : Requester) (i : Stall) (secure : Bool) (n : Fin 24) : State :=
  match r with
  | .link l =>
    let s1 := (s.modPost i secure n fun p => { p with reject := satAdd p.reject 1 }).modHost l fun h => { h with
      ca := satAdd h.ca 1, advisory := true }
    let (w, s2) := s1.drawWord
    if bit w 0 then s2.send (.errCor l) else s2
  | _ => s.send (.busError r)

/-- A write of POST_BUF word `word`, or of POST_CTRL where `word` is 64 (R383 to R385, Table 13-15). -/
def writePost (r : Requester) (i : Stall) (secure : Bool) (n : Fin 24) (word : Fin 65) (v : Word) (s : State) : State :=
  let p := s.post i secure n
  if !postExists secure n || (s.stall i).page.state == 1 then s
  else if outbound secure n then
    (if word.val = 64 && bit v 30 && p.full then s.modPost i secure n fun p => { p with full := false, acked := p.acked + 1 }
     else s)
  else if p.full || claimedByOther p r then s.rejectPost r i secure n
  else if word.val < 64 then
    s.modPost i secure n fun p => { claimFor p r with buf := putWord p.buf word.val v }
  else if bit v 31 then s.modPost i secure n fun p => sendPost p r v (noReceiver secure n)
  else s.modPost i secure n fun p => { claimFor p r with len := storedLen v }

/-- The offset of a written word within a post. -/
def postWordOff (word : Fin 65) : Nat := if word.val < 64 then 4 * word.val else 0x100

/-- POST_WRITE (R383). -/
def execPostWrite (r : Requester) (i : Stall) (secure : Bool) (n : Fin 24) (word : Fin 65) (v : Word) (s : State) :
    Host.Outcome State Fault Refusal :=
  .next (s.guardWrite r (postOff i secure n (postWordOff word)) (writePost r i secure n word v))

/-- POST_SEND (R383): a write of POST_CTRL with SEND = 1. -/
def execPostSend (r : Requester) (i : Stall) (secure : Bool) (n : Fin 24) (v : Word) (s : State) :
    Host.Outcome State Fault Refusal :=
  .next (s.guardWrite r (postOff i secure n 0x100) (writePost r i secure n 64 (setBit v 31)))

/-- POST_TAKE (R385): a write of POST_CTRL with TAKE = 1. -/
def execPostTake (r : Requester) (i : Stall) (secure : Bool) (n : Fin 24) (s : State) :
    Host.Outcome State Fault Refusal :=
  .next (s.guardWrite r (postOff i secure n 0x100) (writePost r i secure n 64 0x40000000))

/-- A buffer that holds some bytes from its start; the others stay. -/
def fillBuf (buf : Vector Byte 256) (bs : List Byte) : Vector Byte 256 :=
  Vector.ofFn fun k => if k.val < bs.length then bs.getD k.val 0 else buf.get k

/-- The receiver's acknowledgement (R383): the reply, DONE with the message's TAG and code; FULL clears. -/
def State.ackPost (s : State) (i : Stall) (secure : Bool) (n : Fin 24) (code : Reason) (reply : List Byte) : State :=
  s.modPost i secure n fun p => { p with
    buf := fillBuf p.buf reply, replyLen := BitVec.ofNat 9 (min reply.length 256), full := false
    ackDone := true, ackTag := p.tag, ackCode := code, sender := none, acked := p.acked + 1 }

/-- POST_ACK (R383): the receiver of an inbound post answers its message. -/
def execPostAck (i : Stall) (secure : Bool) (n : Fin 24) (code : Reason) (reply : List Byte) (s : State) :
    Host.Outcome State Fault Refusal :=
  let p := s.post i secure n
  if postExists secure n && !outbound secure n.val && p.full then .next (s.ackPost i secure n code reply) else .next s

/-- POST_NOTICE (R385): an on-module sender fills an outbound post; where it is FULL the sender gets a bus error and
keeps its notice. -/
def execPostNotice (i : Stall) (secure : Bool) (n : Fin 24) (msg : List Byte) (s : State) : Host.Outcome State Fault Refusal :=
  if !postExists secure n || !outbound secure n.val then .next s
  else if (s.post i secure n).full then .next (s.send (.busError .tollgate))
  else .next (s.modPost i secure n fun p => { p with
    buf := fillBuf p.buf msg, len := BitVec.ofNat 9 (min msg.length 256), tag := p.tag + 1, full := true, sent := p.sent + 1 })

/-- The bytes of a post's message. -/
def postBytes (p : Post) : List Byte := p.buf.toList.take p.len.toNat

/-- The number of a message's sender: its link, or 4 for the relay. -/
def senderIx (p : Post) : Nat := match p.sender with | some l => l.val | none => 4

/-- Does an inbound post hold a message with an OP for a Tollgate at work? -/
def hasMessage (s : State) (i : Stall) (secure : Bool) (n : Fin 24) (op : Nat) : Bool :=
  let p := s.post i secure n
  p.full && decide (1 ≤ p.len.toNat) && (p.buf.get ⟨0, by decide⟩).toNat == op && tollgateLive s && (s.stall i).page.state != 1

/-- A little-endian field of a message. -/
def msgNat (p : Post) (off n : Nat) : Nat := ofLe (slice p.buf.toList off n)

/-- CLAIM (R375): the alternate takes a stall whose owner's heartbeat has stopped, if it is armed. -/
def execClaim (l : LinkId) (i : Stall) (s : State) : Host.Outcome State Fault Refusal :=
  let p := (s.stall i).page
  if !hasMessage s i true 2 0x02 || (s.post i true 2).sender != some l then .next s
  else
    let late := p.hbTimeout != 0 && decide (p.hbLast.toNat + 1000000 * p.hbTimeout.toNat < s.time.toNat)
    if altLink p = some l ∧ p.armed ∧ late then .next ((s.passOwnership i).ackPost i true 2 0 [])
    else .next (s.ackPost i true 2 0x0C06 [])

end Sys2Proof.Machine
end

