-- ==== Sys2Proof/Machine/Audits.lean ====
section
/-! DEFINITION. The conservation audits that run at every tick (R200, R451), TICK, and customs denials of proved addresses
(R494). -/

namespace Sys2Proof.Machine

/-- Has a unit failed its audit, or met a denial, within the last second? The codes are the model's own. -/
def failedLately (s : State) (code : BitVec 16) : Bool :=
  s.log.auditFails.any fun e => e.1 == code && decide (s.time.toNat ≤ e.2.toNat + 1000000000)

/-- Note a failure of a unit. -/
def State.noteFailure (s : State) (code : BitVec 16) : State :=
  { s with log := { s.log with
    auditFails := s.log.auditFails.filter (fun (e : BitVec 16 × BitVec 64) => e.1 != code) ++ [(code, s.time)] } }

/-- The queue audit of one engine (R200, Table 16-2). -/
def State.queueAudit (s : State) (e : EngineId) : State :=
  let x := s.engine e
  if x.accepted = x.completed + queued x then s
  else
    let again := failedLately s (0x0509 + BitVec.ofNat 16 (0x1000 * e.val))
    let s1 := (s.modEngine e fun x => { x with accepted := x.completed + queued x }).noteFailure
      (0x0509 + BitVec.ofNat 16 (0x1000 * e.val))
    let s2 := s1.recordPause { reason := 0x0509, cls := clsAudit, stall := engineStall s e, kind := 8, unit := BitVec.ofNat 16 e.val }
    if again then s2.retireEngine e else s2

/-- The post audit of one post (R451, Table 16-2). -/
def State.postAudit (s : State) (i : Stall) (secure : Bool) (n : Fin 24) : State :=
  let p := s.post i secure n
  if p.sent = p.acked + (if p.full then 1 else 0) then s
  else
    (s.modPost i secure n fun p => { p with
      buf := Vector.replicate 256 0, full := false, claim := none, relayClaim := false, sender := none
      ackDone := true, ackTag := p.tag, ackCode := 0x0605, acked := p.sent }).record
        { reason := 0x0607, cls := clsAudit, stall := some i, kind := 10, unit := BitVec.ofNat 16 ((if secure then 32 else 0) + n.val) }

/-- Do a stall's token counts add up (R246): per neighbour, tokens granted are tokens returned plus those of segments
buffered, and the free buffers are the rest of 512? A segment in flight has not arrived, and its token is not counted
here. -/
def tokensAgree (l : Ledger) : Bool :=
  l.tokens.all (fun t => t.granted == t.returned + t.buffered)
    && l.free.toNat + (l.tokens.map fun t => t.buffered).sum == 512

/-- The token audit of a stall's ledger (R246, Table 16-2): REPEAT_FAULT with TOKEN_AUDIT, the segment buffers emptied
and the counts set from them; a second mismatch within 1 s is a MODULE fault. -/
def State.ledgerAudit (s : State) (i : Stall) : State :=
  let l := (s.stall i).ledger
  if tokensAgree l then s
  else
    let code : BitVec 16 := 0x030B + BitVec.ofNat 16 (0x1000 * i.val)
    let again := failedLately s code
    let rec_ : Rec := { reason := 0x030B, cls := if again then clsModule else clsAudit, stall := some i, kind := 9
                        unit := BitVec.ofNat 16 i.val }
    let s1 := (s.modLedger i fun l => { l with
      auditFail := true, free := 512
      tokens := l.tokens.map fun t => { t with granted := t.returned, buffered := 0 }
      runs := l.runs.map fun r => if r.own.isSome then r else { r with partials := [] } }).noteFailure code
    if again then s1.moduleFault rec_ else (s1.recordPause rec_).cause i vFault 0x030B

/-- What the ports of a stall do at a tick: each transmitter sends an AUDIT flit for every class (R314). -/
def State.portAudits (s : State) (i : Stall) : State :=
  forEach ((List.finRange 8).filter fun p => portStall s p == some i) s fun s p => s.sendAudits p

/-- The audits of a stall at a tick. -/
def State.audits (s : State) (i : Stall) : State :=
  let s0 := (s.ledgerAudit i).portAudits i
  let s1 := forEach ((List.finRange 8).filter fun e => engineStall s e == some i) s0 fun s e => s.queueAudit e
  let s2 := forEach (List.finRange 24) s1 fun s n => s.postAudit i false n
  forEach ((List.finRange 24).filter fun n => decide (n.val < 8)) s2 fun s n => s.postAudit i true n

/-- TICK (R47, R200, R246, R314, R451): the tick that ends the current leg fires, and the audits run. -/
def execTick (i : Stall) (s : State) : Host.Outcome State Fault Refusal :=
  match (s.stall i).charter.active with
  | some c => if ticking (s.stall i) && decide ((s.stall i).march.leg.toNat < c.legs.length)
      then .next ((s.audits i).fireTick i) else .next s
  | none => .next s

/-! ### Denials of proved addresses (R494) -/

/-- The physical core behind a logical core. -/
def pcOf (s : State) (k : CoreId) : Option (DieId × Fin 9) :=
  let d : DieId := ⟨k.val / 8, by omega⟩
  let pc := ((s.anatomy.dies.get d).map.get ⟨k.val % 8, Nat.mod_lt _ (by decide)⟩).toNat
  if h : pc < 9 then some (d, ⟨pc, h⟩) else none

/-- Is the caravan verdict of the stall's march held? -/
def verdictHeld (t : StallState) : Bool :=
  match t.march.state with
  | .settle | .held | .waitRepeat => true
  | .verdict => t.seq.sentVerdict
  | _ => false

/-- CUSTOMS_DENY (R494): units 0 to 159 belong to core `unit / 5`, 160 to 167 are the copy engines, 168 the ledger engine,
169 the settlement engine, 170 to 185 the route-port engines (Table 02-13). -/
def execCustomsDeny (i : Stall) (unit : BitVec 8) (cause : BitVec 4) (va : BitVec 48) (s : State) :
    Host.Outcome State Fault Refusal :=
  let u := unit.toNat
  let s1 := s.denied i u cause va.toNat
  let r : Rec := { reason := 0x0701, cls := clsRepeat, stall := some i, kind := 11
                   unit := (regionBelow (s.stall i).customs va.toNat).setWidth 16, detail := BitVec.ofNat 32 va.toNat }
  if h : u < 160 then
    match pcOf s1 ⟨u / 5, by omega⟩ with
    | some (d, pc) => .next (s1.coreFault d pc 0x0701)
    | none => .next s1
  else if 185 < u then .next (s1.record { r with cls := clsInfo })
  else
    let s2 :=
      if g : u < 168 then
        let e : EngineId := ⟨u - 160, by omega⟩
        let code : BitVec 16 := 0x0701 + BitVec.ofNat 16 (0x1000 * e.val)
        let rec_ : Rec := { r with kind := 8, unit := BitVec.ofNat 16 e.val }
        let a := (s1.record rec_).noteFailure code
        let b := if failedLately s1 code then a.retireEngine e else a
        if (s.engine e).batch.isSome && (s.engine e).state != 4 then b.stopBatch i e va.toNat
        else if verdictHeld (s.stall i) then b.moduleFault rec_ else b.cause i vFault 0x0701
      else
        let code : BitVec 16 := 0x8701 + BitVec.ofNat 16 i.val
        let a := if u = 168 then s1.noteFailure code else s1
        let b := if u = 168 ∧ failedLately s1 code then a.retireLedger i else a
        let rec_ : Rec := if u = 168 then { r with kind := 9, unit := BitVec.ofNat 16 i.val } else r
        if u = 169 ∨ verdictHeld (s.stall i) then b.moduleFault rec_
        else (b.record rec_).cause i vFault 0x0701
    .next s2

end Sys2Proof.Machine
end

