-- ==== Sys2Proof/Machine/Resets.lean ====
section
/-! DEFINITION. The resets that re-run bring-up (R422 to R425), failed starts and stranded mode (R430, R431), and alarms
(Table 15-14). -/

namespace Sys2Proof.Machine

/-- Latch bits of PWR_ALARM; ALERT_N is asserted while any is set (R436). -/
def State.raiseAlarm (s : State) (bits : BitVec 9) : State :=
  { s with
    power := { s.power with alarm := s.power.alarm ||| bits }
    pins := { s.pins with alertN := (s.power.alarm ||| bits) == 0 } }

/-- What no reset clears of the Tollgate: fuses, flash, the debug state FULL, which ends at power-on (R418, R423). -/
def keptTollgate (g : Tollgate) (newMode : Bool) : Tollgate :=
  { revoked := g.revoked, svnRaise := g.svnRaise, banks := g.banks, keys := g.keys, counter := g.counter
    identityErased := g.identityErased, debugFull := g.debugFull
    mode := if newMode then g.nextMode else g.mode, nextMode := g.nextMode, table := g.table, thresholds := g.thresholds }

/-- The Waystation through a reset that clears every other unit: counters, alarms, channels, votes and latch stay; PWR_THRESH
holds its reset values until step 3 (R410); what it measures by the timebase starts again. -/
def keptPower (p : Power) : Power :=
  { p with
    state := 1, bringup := 0, brace := false, interlock := false, coolMax := 45, haltC := 110, throttleC := 103
    capSince := none, capped := false, limited := false, slowSince := Vector.replicate 36 none, coolSince := none
    retained := none, waking := false, supplyDone := false, pumpReq := true, braceAt := 0 }

/-- The bytes of host memory, which no reset of the module touches. -/
def hostCells (m : List Host.Cell) : List Host.Cell := m.filter fun c => c.1 % 4 == 3

/-- What resets leave of the fabric: the plugs in the receptacles (R330). -/
def keptFabric (f : Fabric) : Fabric := { optics := f.optics.map fun o => { mated := o.mated } }

/-- A reset of source 2, 3, 7, 8 or 10 (Table 15-1): everything but the Waystation is cleared, with the timebase; what the
tiers held is undefined (R423; log entry 6). The bifurcation mode changes at PERST_N (R367). -/
def State.resetModule (s : State) (cause : BitVec 4) (channel : BitVec 8) : State :=
  { State.reset with
    pending := s.pending, out := s.out, free := s.free, data := s.data
    mem := hostCells s.mem
    anatomy := listedAnatomy s.log.retired
    fabric := keptFabric s.fabric
    tollgate := keptTollgate s.tollgate (cause == 3)
    starts := { s.starts with
      cause := if cause = 3 ∨ cause = 7 ∨ cause = 2 ∨ cause = 8 ∨ cause = 10 then cause else s.starts.cause
      scope := 0, channel := channel, waitImage := false
      t0 := if cause = 7 ∨ cause = 10 then 1000 else 0 }
    power := keptPower s.power
    pins := { s.pins with lasers := false }
    tap := s.tap
    log := { s.log with auditFails := [] } }

/-- Power-on, source 1: the Waystation is cleared too; flash, the retired list and the failed-start count stay (R423). -/
def State.powerUp (s : State) : State :=
  { State.reset with
    pending := s.pending, out := s.out, free := s.free, data := s.data
    mem := hostCells s.mem
    anatomy := listedAnatomy s.log.retired
    fabric := keptFabric s.fabric
    tollgate := { keptTollgate s.tollgate true with identityErased := false, debugFull := false }
    starts := { step := s.starts.step, lastFail := s.starts.lastFail, fails := s.starts.fails, installed := s.starts.installed }
    log := { retired := s.log.retired } }

/-- Stranded mode (R431): everything but the Waystation, the Tollgate's ROM, CXL.io and post 3 is off. -/
def State.strand (s : State) (why : BitVec 2) : State :=
  let s1 := forEach allStalls s fun s i => s.modPage i fun p => { p with state := 3 }
  { s1 with
    tollgate := { s1.tollgate with stranded := true }
    starts := { s1.starts with why := why }
    power := { s1.power with state := 5, bringup := 2 }
    pins := { s1.pins with faultN := false } }.record { reason := 0x0A05 }

/-- A start fails (R430): counted, FAULT_N asserted; the third leads to stranded mode. A failed wake loses its saved state
(R444). -/
def State.startFailed (s : State) (reason : Reason) (step : BitVec 4) : State :=
  let fails := if s.starts.fails = 3 then 3 else s.starts.fails + 1
  let s1 := s.record { reason := reason }
  let s2 := if s1.power.waking then
      { s1 with power := { s1.power with waking := false, retained := none } }.record { reason := 0x0A0D } else s1
  let s3 := { s2 with
    starts := { s2.starts with fails := fails, lastFail := fld reason 0 8, step := step }
    power := { s2.power with state := 1, bringup := step }
    pins := { s2.pins with faultN := false } }
  if fails = 3 then s3.strand 1 else s3

/-- Is a bring-up in progress: before READY, not failed, not waiting for an image? -/
def starting (s : State) : Bool :=
  s.power.aux && (s.power.state == 0 || s.power.state == 1 || s.power.state == 6) && s.power.bringup == 0

end Sys2Proof.Machine
end

