-- ==== Sys2Proof/Machine/Tollgate.lean ====
section
/-! DEFINITION. The Tollgate (chapter 14): watchdogs (R395, R396), images (R398 to R401, R404, R466), exchanges through its
posts (R403), IDE keys (R405), waybills (R406), service commands (R408 to R411, R418), and clock faults that reach it. -/

namespace Sys2Proof.Machine

/-! ### Images (R399, R400) -/

/-- The bytes of an image bank; a bank never written holds the factory image. -/
def bankBytes (g : Tollgate) (b : Bool) : List Byte :=
  let l := if b then g.banks.get 1 else g.banks.get 0
  if l.isEmpty then Config.factoryImage (if b then 1 else 0) else l

/-- A little-endian field of a byte string. -/
def leAt (bs : List Byte) (off n : Nat) : Nat := ofLe (slice bs off n)

/-- Is a range of bytes zero? -/
def zeroAt (bs : List Byte) (off n : Nat) : Bool := (slice bs off n).all (· == 0)

/-- REVOKE and SVN_MIN now (R397, R409). -/
def revokedKeys (g : Tollgate) : BitVec 4 := Config.revoke ||| g.revoked
def svnFloor (g : Tollgate) : Nat := max Config.svnMin.toNat g.svnRaise.toNat

/-- SHA3-256 of a vendor key against the fuses (R399, R408). -/
def vendorKeyOk (g : Tollgate) (k : Nat) (pk : List Byte) : Bool :=
  if h : k < 4 then sha3 pk == Config.vendorKey ⟨k, h⟩ && !bit (revokedKeys g) k else false

/-- Is a bank valid but for its SVN (R399)? -/
def imageSound (g : Tollgate) (bs : List Byte) : Bool :=
  let len := leAt bs 20 4
  let pk := slice bs (256 + len) 1312
  let digest := slice bs 64 32
  leAt bs 0 4 == 0x474D495A && leAt bs 4 2 == 1 && leAt bs 24 2 == 0x9640 && leAt bs 26 1 == 0x10
    && zeroAt bs 7 1 && zeroAt bs 27 5 && zeroAt bs 56 8 && zeroAt bs 96 160
    && decide (len % 256 = 0) && decide (len ≤ 33550336) && decide (leAt bs 16 4 ≤ 63)
    && vendorKeyOk g (leAt bs 6 1) pk
    && digest == bytes256 (sha3 (slice bs 0 64 ++ slice bs 256 len))
    && Config.mldsaVerify pk digest (slice bs (256 + len + 1312) 2420)

/-- The check of a bank (R399): IMAGE_INVALID, SVN_LOW or 0. -/
def bankCheck (g : Tollgate) (b : Bool) : Reason :=
  let bs := bankBytes g b
  if !imageSound g bs then 0x0706 else if leAt bs 16 4 < svnFloor g then 0x0707 else 0

/-- SEQ and SVN of a bank (Table 14-3). -/
def bankSeq (g : Tollgate) (b : Bool) : Nat := leAt (bankBytes g b) 8 8
def bankSvn (g : Tollgate) (b : Bool) : Nat := leAt (bankBytes g b) 16 4

/-- The measurement of a component of a bank (R400): pair 0 Tollgate, 1 Quartermaster, 2 Waystation. -/
def measure (g : Tollgate) (b : Bool) (pair : Nat) : Measure :=
  let bs := bankBytes g b
  { bank := b, digest := sha3 (slice bs (256 + leAt bs (32 + 8 * pair) 4) (leAt bs (36 + 8 * pair) 4))
    svn := BitVec.ofNat 8 (bankSvn g b), seq := BitVec.ofNat 64 (bankSeq g b) }

/-- The component of a place in the restart order of R466: 1 Waystation, 2 to 5 Quartermasters, 6 Tollgate. -/
def componentPair (k : Nat) : Nat := if k = 1 then 2 else if k = 6 then 0 else 1

/-- The bank that runs of two valid ones (R400): the higher SEQ, bank 0 where they are equal. -/
def higherBank (g : Tollgate) (v0 v1 : Bool) : Option Bool :=
  if v0 && v1 then some (decide (bankSeq g false < bankSeq g true))
  else if v0 then some false else if v1 then some true else none

/-- A bank runs: every component is measured from it. -/
def runBank (g : Tollgate) (b other : Bool) : Tollgate :=
  { g with
    bank := b, svn := BitVec.ofNat 8 (bankSvn g b), otherValid := other, restart := [], restarting := none
    comps := Vector.ofFn fun k => measure g b (componentPair (k.val + 1)) }

/-! ### Watchdogs (R395, R396) -/

/-- QM_WATCHDOG (R395, R430): before READY the start fails; in a staged restart the watchdog is held. -/
def execQmWatchdog (d : DieId) (s : State) : Host.Outcome State Fault Refusal :=
  if starting s then .next (s.startFailed 0x0A02 4)
  else if qmRestarting s d || (s.power.state != 2 && s.power.state != 3) then .next s
  else .next (((s.record { reason := 0x020B, cls := clsRepeat }).resetQm d).releaseFaults d)

/-- The Tollgate's watchdog expires (R396): every stall is reset, and image selection runs again. -/
def State.resetTollgate (s : State) : State :=
  let g := s.tollgate
  let v (b : Bool) := bankCheck g b == 0
  let b := (higherBank g (v false) (v true)).getD g.bank
  let g1 := { g with
    bank := b, svn := BitVec.ofNat 8 (bankSvn g b), otherValid := v (!b), restart := [], restarting := none
    comps := g.comps.set 5 (measure g b 0) }
  forEach (presentStalls s) ({ s with tollgate := g1 }.resetCause 6 0 0) fun s i => s.beginStallReset i

/-- TOLLGATE_WATCHDOG (R396, R430, R466). -/
def execTollgateWatchdog (s : State) : Host.Outcome State Fault Refusal :=
  if starting s then .next (s.startFailed 0x0A02 2)
  else if !tollgateLive s || (s.power.state != 2 && s.power.state != 3) then .next s
  else .next (s.record { reason := 0x020C, cls := clsModule }).resetTollgate

/-- PLL_LOCK_LOSS (R33): a core clock's loss is a core fault; any other domain's is a fault of the unit it clocks: the
links for XL, the Tollgate for TG. -/
def execPllLockLoss (domain : Fin 100) (s : State) : Host.Outcome State Fault Refusal :=
  let s1 := if domain.val < 32 then s else
    { s with anatomy := { s.anatomy with unlocked := if s.anatomy.unlocked.contains domain then s.anatomy.unlocked
        else s.anatomy.unlocked ++ [domain] } }
  if domain.val = 89 then .next (forEach ((List.finRange 4).filter fun l => inL0 s1 l) s1 fun s l => s.linkDown l)
  else if domain.val = 90 then .next (s1.record { reason := 0x020C, cls := clsModule, kind := 12, unit := 90 }).resetTollgate
  else .next (s1.domainLost domain.val)

/-! ### Exchange buffers (R403) -/

/-- The key of the buffers behind a post, by sender. -/
def xchgKey (p : Post) (secure : Bool) (n : Nat) : BitVec 8 := BitVec.ofNat 8 (8 * senderIx p + (if secure then 4 else 0) + n)

def State.xchg (s : State) (i : Stall) (k : BitVec 8) : Exchange :=
  match (s.stall i).xchg.find? fun e => e.1 == k with | some e => e.2 | none => {}

def State.setXchg (s : State) (i : Stall) (k : BitVec 8) (x : Exchange) : State :=
  s.modStall i fun t => { t with xchg := (t.xchg.filter fun e => e.1 != k) ++ [(k, x)] }

/-- Bytes put into a byte string at an offset; what it has not is zero. -/
def putBytes (l : List Byte) (off : Nat) (bs : List Byte) : List Byte :=
  l.take off ++ List.replicate (off - l.length) 0 ++ bs ++ l.drop (off + bs.length)

/-- Does a post have exchange buffers (R403)? -/
def hasXchg (n : Nat) : Bool := n == 1 || n == 2

/-- The answer of an operation: the output buffer, its length as the reply, the code. -/
def State.answer (s : State) (i : Stall) (secure : Bool) (n : Fin 24) (code : Reason) (out : List Byte) : State :=
  let k := xchgKey (s.post i secure n) secure n.val
  (s.setXchg i k { (s.xchg i k) with output := out }).ackPost i secure n code (leBytes 4 (BitVec.ofNat 32 out.length))

/-- The first V bytes of the input buffer, and whether V fits it. -/
def xchgInput (s : State) (i : Stall) (secure : Bool) (n : Fin 24) : List Byte × Bool :=
  let p := s.post i secure n
  let v := msgNat p 4 4
  let l := (s.xchg i (xchgKey p secure n.val)).input
  (l.take v ++ List.replicate (min v 8192 - l.length) 0, decide (8 ≤ p.len.toNat) && decide (v ≤ 8192))

/-- EXCHANGE_PUT (R403). -/
def execExchangePut (i : Stall) (secure : Bool) (n : Fin 24) (s : State) : Host.Outcome State Fault Refusal :=
  if !hasXchg n.val || !hasMessage s i secure n 0xF0 then .next s
  else
    let p := s.post i secure n
    let v := msgNat p 4 4
    let bs := (postBytes p).drop 8
    if p.len.toNat < 8 ∨ v % 4 ≠ 0 ∨ 8192 < v + bs.length then .next (s.ackPost i secure n 0x0602 [])
    else
      let k := xchgKey p secure n.val
      .next ((s.setXchg i k { input := putBytes (s.xchg i k).input v bs, output := [] }).ackPost i secure n 0 [])

/-- EXCHANGE_GET (R403). -/
def execExchangeGet (i : Stall) (secure : Bool) (n : Fin 24) (s : State) : Host.Outcome State Fault Refusal :=
  if !hasXchg n.val || !hasMessage s i secure n 0xF1 then .next s
  else
    let p := s.post i secure n
    let v := msgNat p 4 4
    let out := (s.xchg i (xchgKey p secure n.val)).output
    if p.len.toNat < 8 ∨ out.length ≤ v then .next (s.ackPost i secure n 0x0602 [])
    else .next (s.ackPost i secure n 0 (slice out v (min 256 (out.length - v))))

/-! ### Recovery (R404) -/

/-- RECOVERY_PUT (R404): message bytes into image bank 1. -/
def execRecoveryPut (i : Stall) (s : State) : Host.Outcome State Fault Refusal :=
  if !hasMessage s i false 3 0xF0 then .next s
  else
    let p := s.post i false 3
    let v := msgNat p 4 4
    let bs := (postBytes p).drop 8
    if p.len.toNat < 8 ∨ v % 4 ≠ 0 ∨ 2 ^ 25 < v + bs.length then .next (s.ackPost i false 3 0x0602 [])
    else
      let g := s.tollgate
      .next ({ s with tollgate := { g with banks := g.banks.set 1 (putBytes (bankBytes g true) v bs) } }.ackPost i false 3 0 [])

/-- INSTALL (R404, R432): bank 1 is checked; accepted, FAILS takes 0 and a software full reset follows. -/
def execInstall (i : Stall) (s : State) : Host.Outcome State Fault Refusal :=
  if !hasMessage s i false 3 0x01 then .next s
  else
    let code := bankCheck s.tollgate true
    if code ≠ 0 then .next (s.ackPost i false 3 code [])
    else
      let s1 := s.ackPost i false 3 0 []
      .next ({ s1 with starts := { s1.starts with fails := 0, installed := true } }.resetModule 7 0)

/-! ### Identity and IDE keys (R402, R405) -/

/-- A signature by the identity key. -/
def identitySign (m : List Byte) (draw : Nat) : List Byte := Config.mldsaSign identityKeySeed m draw

/-- KEX (R405). -/
def execKex (i : Stall) (s : State) : Host.Outcome State Fault Refusal :=
  if !hasMessage s i false 1 0x01 then .next s
  else
    let (inp, ok) := xchgInput s i false 1
    match (s.post i false 1).sender with
    | none => .next (s.answer i false 1 0x0604 [])
    | some l =>
      if s.tollgate.identityErased then .next (s.answer i false 1 0x070B [])
      else if !ok || inp.length != 1216 then .next (s.answer i false 1 0x0602 [])
      else
        let (ct, key) := Config.mlkemEncaps (inp.take 1184) s.free
        let m := bytes256 (sha3 (inp ++ ct ++ leBytes 8 identityTag ++ [BitVec.ofNat 8 l.val]))
        let s1 := { s with free := s.free + 2 }.modHost l fun h => { h with secret := some key }
        .next (s1.answer i false 1 0 (ct ++ identitySign m (s.free + 1)))

/-- COMMIT (R405): a matching confirmation installs the four keys and starts the IDE streams. -/
def execCommit (i : Stall) (s : State) : Host.Outcome State Fault Refusal :=
  if !hasMessage s i false 1 0x02 then .next s
  else
    let (inp, ok) := xchgInput s i false 1
    match (s.post i false 1).sender with
    | none => .next (s.answer i false 1 0x0604 [])
    | some l =>
      match (s.host l).secret with
      | none => .next (s.answer i false 1 0x0709 [])
      | some key =>
        if ok && inp == bytes256 (sha3 (bytes256 key ++ asciiBytes "ZG IDE commit")) then
          let keys := ofBytes 1024 (shake256 128 (bytes256 key ++ asciiBytes "ZG IDE" ++ [BitVec.ofNat 8 l.val]))
          .next ((s.modHost l fun h => { h with secret := none, keys := some keys, ideIo := true, ideCm := true }).answer
            i false 1 0 [])
        else .next ((s.modHost l fun h => { h with secret := none }).answer i false 1 0x0709 [])

/-! ### Waybills (R406, R407) -/

/-- A measurement entry (Table 14-5). -/
def waybillEntry (kind index : Nat) (version : BitVec 32) (seq : BitVec 64) (digest : BitVec 256) : List Byte :=
  [BitVec.ofNat 8 kind, BitVec.ofNat 8 index, 0, 0] ++ leBytes 4 version ++ leBytes 8 seq ++ bytes256 digest

/-- The DIGEST field of a slot's header (Table 12-1). -/
def slotDigest (s : State) (i : Stall) (slot : Bool) : BitVec 256 :=
  ofBytes 256 ((List.range 32).map fun k => slotByte s i slot (32 + k))

/-- A composition entry in the layout of Table 14-7. -/
def compositionBits (c : Composition) : BitVec 128 :=
  let owner : BitVec 3 := match c.owner with | none => 7 | some none => 4 | some (some l) => BitVec.ofNat 3 l.val
  let alt : BitVec 3 := match c.alt with | none => 7 | some l => BitVec.ofNat 3 l.val
  (0 : BitVec 2) ++ fld c.policy 4 4 ++ fld c.policy 0 1 ++ (0 : BitVec 17) ++ c.seraiCount ++ c.seraiFirst ++ c.nearCount
    ++ c.nearFirst ++ (0 : BitVec 11) ++ c.cxlShares ++ c.seraiShares ++ c.nearShares ++ BitVec.ofBool c.test
    ++ BitVec.ofBool c.ledger ++ c.ports ++ c.engines ++ c.groups ++ c.watchers ++ alt ++ owner

/-- The composition table as bytes, in the layout of a COMPOSE body (R411). -/
def compositionBytes (g : Tollgate) : List Byte :=
  leBytes 8 (g.nextMode.setWidth 64) ++ g.table.toList.flatMap fun c => leBytes 16 (compositionBits c)

/-- The measurement entries of a stall's waybill (R406). -/
def waybillEntries (s : State) (i : Stall) : List (List Byte) :=
  let g := s.tollgate
  let t := s.stall i
  let comp (kind index : Nat) (m : Measure) := waybillEntry kind index (m.svn.setWidth 32) m.seq m.digest
  [comp 1 0 (g.comps.get 5), comp 2 0 (g.comps.get 1), comp 2 1 (g.comps.get 2), comp 2 2 (g.comps.get 3),
    comp 2 3 (g.comps.get 4), comp 3 0 (g.comps.get 0),
    waybillEntry 4 0 (BitVec.ofNat 32 (svnFloor g)) 0
      (Config.fuseDigest ((List.finRange 4).map Config.vendorKey) (revokedKeys g) (BitVec.ofNat 6 (svnFloor g))),
    waybillEntry 5 0 0 (g.counter.setWidth 64) (Config.keyStoreDigest g.keys.toList g.counter),
    waybillEntry 6 0 0 0 (Config.compositionDigest (compositionBytes g)),
    waybillEntry 7 0 0 0 t.customs.digest,
    (match t.charter.active with
      | some c => waybillEntry 8 0 c.epoch c.seq (slotDigest s i t.charter.activeSlot)
      | none => waybillEntry 8 0 0 0 0)]
    ++ (match t.charter.pending with
      | some c => [waybillEntry 9 0 c.epoch c.seq (slotDigest s i t.charter.pendingSlot)]
      | none => [])

/-- The debug state of a stall (R418). -/
def debugState (s : State) (i : Stall) : Nat := if s.tollgate.debugFull then 2 else if (s.stall i).customs.debugOpen then 1 else 0

/-- A waybill up to its signature (Table 14-4). -/
def waybillBody (s : State) (i : Stall) (role : Nat) (nonce : List Byte) : List Byte :=
  let es := waybillEntries s i
  let state := debugState s i + (if (s.stall i).page.comp.test then 4 else 0) + 8 * role
  leBytes 4 (0x4C425957 : BitVec 32) ++ leBytes 2 (1 : BitVec 16) ++ [BitVec.ofNat 8 es.length, BitVec.ofNat 8 state]
    ++ leBytes 2 (0x9640 : BitVec 16) ++ [0x10, BitVec.ofNat 8 i.val]
    ++ leBytes 4 (BitVec.ofNat 32 (64 + 48 * es.length + 2420)) ++ leBytes 8 identityTag ++ leBytes 8 s.time ++ nonce
    ++ es.flatten

/-- WAYBILL_REQUEST (R406). -/
def execWaybillRequest (i : Stall) (s : State) : Host.Outcome State Fault Refusal :=
  if !hasMessage s i true 1 0x01 then .next s
  else
    let (nonce, ok) := xchgInput s i true 1
    let role := match (s.post i true 1).sender with | some l => (roleOf s l i).getD 0 | none => 0
    if s.tollgate.identityErased then .next (s.answer i true 1 0x070B [])
    else if !ok || nonce.length != 32 then .next (s.answer i true 1 0x0602 [])
    else
      let body := waybillBody s i role nonce
      let sig := identitySign (bytes256 (sha3 body)) s.free
      .next ({ s with free := s.free + 1 }.answer i true 1 0 (body ++ sig))

/-! ### Service commands (R408 to R411) -/

/-- Who may sign a command (Table 14-6). -/
inductive Signer where
  | owner0 | vendor | enrol | revoke
  deriving DecidableEq, Repr

/-- A signed command as it lies in the input buffer. -/
structure Signed where
  cmd : Nat
  key : Nat
  counter : Word
  target : BitVec 64
  header : List Byte
  body : List Byte
  vendorPk : List Byte
  sig : List Byte
  deriving DecidableEq, Repr

/-- Cut a signed command (R408); none where its lengths or reserved bytes are wrong. -/
def readSigned (bs : List Byte) : Option Signed :=
  let key := leAt bs 1 1
  let n := leAt bs 16 4
  let pk := if 0x80 ≤ key then 1312 else 0
  if bs.length = 32 + n + pk + 2420 ∧ zeroAt bs 2 2 ∧ zeroAt bs 20 12 then
    some { cmd := leAt bs 0 1, key := key, counter := BitVec.ofNat 32 (leAt bs 4 4), target := BitVec.ofNat 64 (leAt bs 8 8)
           header := bs.take 32, body := slice bs 32 n, vendorPk := slice bs (32 + n) pk, sig := bs.drop (32 + n + pk) }
  else none

/-- The public key that a command names, where it is enrolled or passes the vendor test. -/
def signerKey (g : Tollgate) (c : Signed) : Option (List Byte) :=
  if 0x80 ≤ c.key then (if vendorKeyOk g (c.key - 0x80) c.vendorPk then some c.vendorPk else none)
  else if h : c.key < 16 then (if (g.keys.get ⟨c.key, h⟩).isEmpty then none else some (g.keys.get ⟨c.key, h⟩)) else none

/-- Does Table 14-6 permit the key? -/
def signerAllowed (g : Tollgate) (c : Signed) : Signer → Bool
  | .owner0 => c.key == 0
  | .vendor => decide (0x80 ≤ c.key)
  | .enrol => if (g.keys.get ⟨0, by decide⟩).isEmpty then decide (0x80 ≤ c.key) else c.key == 0
  | .revoke => c.key == 0 || (decide (0x80 ≤ c.key) && leAt c.body 0 1 == 0)

/-- The checks of R408 in their order: a code, or 0. -/
def signedCode (g : Tollgate) (c : Signed) (who : Signer) : Reason :=
  match signerKey g c with
  | none => 0x0703
  | some pk =>
    if !signerAllowed g c who then 0x0703
    else if !Config.mldsaVerify pk (bytes256 (sha3 (c.header ++ c.body))) c.sig then 0x0703
    else if c.target ≠ identityTag then 0x0705
    else if c.counter.toNat ≤ g.counter.toNat then 0x0704
    else 0

/-- Run a service command on secure post 2 (R408): what is malformed is BAD_LEN; the counter takes COUNTER once every check
has passed; `effect` gives the state after the command and its code. -/
def State.service (s : State) (i : Stall) (cmd : Nat) (who : Signer) (effect : State → Signed → State × Reason) : State :=
  if !hasMessage s i true 2 0x01 then s
  else
    let (inp, ok) := xchgInput s i true 2
    if leAt inp 0 1 ≠ cmd then s
    else match (if ok then readSigned inp else none) with
      | none => s.answer i true 2 0x0602 []
      | some c =>
        let code := signedCode s.tollgate c who
        if code ≠ 0 then s.answer i true 2 code []
        else
          let (s1, r) := effect { s with tollgate := { s.tollgate with counter := c.counter } } c
          s1.answer i true 2 r []

/-- A composition entry read from its 128 bits; none where a code is reserved or a zero field is not zero (Table 14-7). -/
def readComposition (b : BitVec 128) : Option Composition :=
  let o := fldN b 0 3
  let a := fldN b 3 3
  let link (n : Nat) : Option LinkId := if h : n < 4 then some ⟨n, h⟩ else none
  if o = 5 ∨ o = 6 ∨ (4 ≤ a ∧ a ≤ 6) ∨ fldN b 53 11 ≠ 0 ∨ fldN b 104 17 ≠ 0 ∨ fldN b 126 2 ≠ 0 then none
  else some {
    owner := if o = 7 then none else if o = 4 then some none else some (link o), alt := link a
    watchers := fld b 6 4, groups := fld b 10 8, engines := fld b 18 8, ports := fld b 26 8
    ledger := bit b 34, test := bit b 35, nearShares := fld b 36 6, seraiShares := fld b 42 6, cxlShares := fld b 48 5
    nearFirst := fld b 64 10, nearCount := fld b 74 10, seraiFirst := fld b 84 10, seraiCount := fld b 94 10
    policy := (fld b 122 4) ++ (0 : BitVec 3) ++ fld b 121 1 }

/-- Are two ranges without a common bay? -/
def apart (a n b m : Nat) : Bool := decide (n = 0) || decide (m = 0) || decide (a + n ≤ b) || decide (b + m ≤ a)

/-- Does one entry keep the rules of Table 13-4? -/
def entryOk (mode : Nat) (c : Composition) : Bool :=
  match c.owner with
  | none => true
  | some o =>
    (match o with
      | some l => decide (l.val < modeLinks (BitVec.ofNat 2 mode)) && c.alt != some l && !bit c.watchers l.val
      | none => c.alt.isNone && c.watchers == 0)
    && (match c.alt with | some a => !bit c.watchers a.val | none => true)
    && decide (2 ≤ c.nearCount.toNat) && decide (c.nearFirst.toNat + c.nearCount.toNat ≤ 640)
    && decide (c.seraiFirst.toNat + c.seraiCount.toNat ≤ 992)
    && decide (c.nearShares.toNat ≤ 32) && decide (c.seraiShares.toNat ≤ 32) && decide (c.cxlShares.toNat ≤ 16)

/-- Do two present entries share nothing? -/
def entriesApart (a b : Composition) : Bool :=
  a.groups &&& b.groups == 0 && a.engines &&& b.engines == 0 && a.ports &&& b.ports == 0
    && apart a.nearFirst.toNat a.nearCount.toNat b.nearFirst.toNat b.nearCount.toNat
    && apart a.seraiFirst.toNat a.seraiCount.toNat b.seraiFirst.toNat b.seraiCount.toNat

/-- Are all pairs of a list in a relation? -/
def allPairs {α : Type} (f : α → α → Bool) : List α → Bool
  | [] => true
  | a :: l => l.all (f a) && allPairs f l

/-- Does a table keep the rules of Table 13-4? -/
def stepTableOk (mode : Nat) (l : List Composition) : Bool :=
  let here := l.filter fun c => c.owner.isSome
  decide (mode ≤ 2) && l.all (entryOk mode) && allPairs entriesApart here
    && decide ((here.map fun c => c.nearShares.toNat).sum ≤ 32) && decide ((here.map fun c => c.seraiShares.toNat).sum ≤ 32)
    && (List.finRange 4).all fun k =>
      decide (((here.filter fun c => c.owner == some (some k)).map fun c => c.cxlShares.toNat).sum ≤ 16)

/-- A COMPOSE body (R411): the mode and the table it gives. -/
def readCompose (body : List Byte) : Option (BitVec 2 × List Composition) :=
  if body.length ≠ 136 ∨ leAt body 0 8 / 4 ≠ 0 then none
  else
    let es := (List.range 8).map fun k => readComposition (ofBytes 128 (slice body (8 + 16 * k) 16))
    let l := es.filterMap id
    let mode := leAt body 0 8
    if l.length = 8 ∧ stepTableOk mode l then some (BitVec.ofNat 2 mode, l) else none

/-- COMPOSE (R369, R409, R411, R419). -/
def execCompose (i : Stall) (s : State) : Host.Outcome State Fault Refusal :=
  .next (s.service i 0x10 .owner0 fun s c =>
    if allStalls.any fun k => (s.stall k).page.state == 1 then (s, 0x0606)
    else match readCompose c.body with
      | none => (s, 0x070A)
      | some (mode, l) => ({ s with tollgate := { s.tollgate with nextMode := mode, table := Vector.ofFn fun k => l.getD k.val {} } }, 0))

/-- FULL_RESET (R409): acknowledged, then source 7. -/
def execFullReset (i : Stall) (s : State) : Host.Outcome State Fault Refusal :=
  let s1 := s.service i 0x11 .owner0 fun s _ => (s, 0)
  if s1.tollgate.counter = s.tollgate.counter then .next s1 else .next (s1.resetModule 7 0)

/-- The entries of a CLEAR_RETIRED body (R467); none where it is malformed. -/
def readClear (body : List Byte) : Option (List (Nat × Nat)) :=
  let n := leAt body 0 1
  let es := (List.range n).map fun k => (leAt body (4 + 4 * k) 1, leAt body (6 + 4 * k) 2)
  if 1 ≤ n ∧ n ≤ 64 ∧ body.length = 4 + 4 * n ∧ zeroAt body 1 3 ∧ es.all (fun e => [1, 2, 3, 4, 6, 7].contains e.1) then some es
  else none

/-- CLEAR_RETIRED (R409, R467). -/
def execClearRetired (i : Stall) (s : State) : Host.Outcome State Fault Refusal :=
  .next (s.service i 0x12 .owner0 fun s c =>
    match readClear c.body with
    | none => (s, 0x0602)
    | some es => ({ s with log := { s.log with
        retired := s.log.retired.filter fun r => !es.contains (r.kind.toNat, r.index.toNat) } }, 0))

/-- ENROL_KEY (R409). -/
def execEnrolKey (i : Stall) (s : State) : Host.Outcome State Fault Refusal :=
  .next (s.service i 0x13 .enrol fun s c =>
    let k := leAt c.body 0 1
    if h : k < 16 then
      if c.body.length = 1320 ∧ zeroAt c.body 1 7 then
        ({ s with tollgate := { s.tollgate with keys := s.tollgate.keys.set k (c.body.drop 8) } }, 0)
      else (s, 0x0602)
    else (s, 0x0602))

/-- REVOKE_KEY (R409). -/
def execRevokeKey (i : Stall) (s : State) : Host.Outcome State Fault Refusal :=
  .next (s.service i 0x14 .revoke fun s c =>
    let k := leAt c.body 0 1
    if h : k < 16 then
      (if c.body.isEmpty then (s, 0x0602)
       else ({ s with tollgate := { s.tollgate with keys := s.tollgate.keys.set k [] } }, 0))
    else (s, 0x0602))

/-- The first 64-byte piece of a range that customs refuses to the Tollgate's reads: its cause and address. -/
def tollgateDenied (s : State) (i : Stall) (va len : Nat) : Option (BitVec 4 × Nat) :=
  (List.range (ceilDiv len 64)).findSome? fun k =>
    (denyCause (s.stall i).customs .tollgate permRead (va + 64 * k) (min 64 (len - 64 * k))).map fun c => (c, va + 64 * k)

/-- IMAGE (R409, R466): stall memory is copied into the bank that does not run; valid, its components wait to be
restarted. -/
def execImage (i : Stall) (s : State) : Host.Outcome State Fault Refusal :=
  .next (s.service i 0x15 .owner0 fun s c =>
    let va := leAt c.body 0 8
    let len := leAt c.body 8 8
    if c.body.length ≠ 16 ∨ 2 ^ 25 < len then (s, 0x0602)
    else match tollgateDenied s i va len with
      | some (cause, a) => (s.denied i 187 cause a, 0x0701)
      | none =>
        let g := s.tollgate
        let b := !g.bank
        let g1 := { g with banks := g.banks.set! (if b then 1 else 0) (s.readBytes i va len) }
        let code := bankCheck g1 b
        if code = 0 then ({ s with tollgate := { g1 with restart := [1, 2, 3, 4, 5, 6] } }, 0)
        else ({ s with tollgate := g1 }, 0x0706))

/-- COMMIT_SVN (R409). -/
def execCommitSvn (i : Stall) (s : State) : Host.Outcome State Fault Refusal :=
  .next (s.service i 0x16 .owner0 fun s c =>
    let v := ofLe c.body
    if c.body.isEmpty ∨ 8 < c.body.length ∨ 63 < v then (s, 0x0602)
    else if s.tollgate.svn.toNat < v then (s, 0x0707)
    else ({ s with tollgate := { s.tollgate with svnRaise := maxU s.tollgate.svnRaise (BitVec.ofNat 7 v) } }, 0))

/-- DEBUG_STALL (R409, R417, R418). -/
def execDebugStall (i : Stall) (s : State) : Host.Outcome State Fault Refusal :=
  .next (s.service i 0x17 .owner0 fun s _ =>
    if (s.stall i).page.comp.test then (s.modCustoms i fun c => { c with debugOpen := true }, 0) else (s, 0x0708))

/-- DEBUG_FULL (R409, R418): every debug path opens, and the identity key is erased until the next power-on. -/
def execDebugFull (i : Stall) (s : State) : Host.Outcome State Fault Refusal :=
  .next (s.service i 0x18 .vendor fun s _ =>
    ({ s with tollgate := { s.tollgate with debugFull := true, identityErased := true } }, 0))

/-- SET_THRESH (R409): unit 0 to 7 is a near stack, 8 to 31 a Serai channel, in bytes 0 and 1; CE_LIMIT in bytes 2 and 3
(log entry 18). -/
def execSetThresh (i : Stall) (s : State) : Host.Outcome State Fault Refusal :=
  .next (s.service i 0x19 .owner0 fun s c =>
    let u := leAt c.body 0 2
    let v := BitVec.ofNat 16 (leAt c.body 2 2)
    if c.body.length ≠ 4 then (s, 0x0602)
    else if h : u < 8 then (s.modStack ⟨u, h⟩ fun t => { t with ceLimit := v }, 0)
    else if h : u - 8 < 24 then (s.modChannel ⟨u - 8, h⟩ fun t => { t with ceLimit := v }, 0)
    else (s, 0x0602))

/-- Would PWR_THRESH take the three thresholds (Table 15-14)? -/
def thresholdsOk (throttle halt : Nat) : Bool := decide (halt ≤ 112) && decide (throttle ≤ 105) && decide (throttle < halt)

/-- SET_POWER (R409, R410). -/
def execSetPower (i : Stall) (s : State) : Host.Outcome State Fault Refusal :=
  .next (s.service i 0x1A .owner0 fun s c =>
    let t : Byte := c.body.getD 0 0
    let h : Byte := c.body.getD 1 0
    let m : Byte := c.body.getD 2 0
    if c.body.length ≠ 4 then (s, 0x0602)
    else if !thresholdsOk t.toNat h.toNat || c.body.getD 3 0 != 0 then (s, 0x070A)
    else ({ s with
      tollgate := { s.tollgate with thresholds := some (t, h, m) }
      power := { s.power with throttleC := t, haltC := h, coolMax := m } }, 0))

/-! ### Staged restarts (R466) -/

/-- Nanoseconds within which a component reports ready (R466). -/
def restartLimit (k : BitVec 4) : Nat := if k = 1 then 5000000 else if k = 6 then 500000000 else 50000000

/-- COMPONENT_RESTART (R466): the next component of the new bank restarts at an instant with no stall in LEGS or VERDICT. -/
def execComponentRestart (s : State) : Host.Outcome State Fault Refusal :=
  match s.tollgate.restart, s.tollgate.restarting with
  | k :: _, none =>
    if allStalls.any fun i => (s.stall i).march.state == .legs || (s.stall i).march.state == .verdict then .next s
    else .next ({ s with tollgate := { s.tollgate with restarting := some k, restartAt := s.time } }.record
      { reason := 0x0215, detail := BitVec.ofNat 32 k.toNat })
  | _, _ => .next s

/-- A component is back: a Quartermaster acts on the faults held for its die. -/
def State.componentBack (s : State) (k : BitVec 4) : State :=
  let n := k.toNat
  if h : 2 ≤ n ∧ n ≤ 5 then s.releaseFaults ⟨n - 2, by omega⟩ else s

/-- The loads that have waited for the Tollgate run (R466). -/
def State.waitingLoads (s : State) : State :=
  forEach (allStalls.filter fun i => (s.stall i).charter.loader == 1) s fun s i => s.doLoad i

/-- COMPONENT_READY (R466): within its time the component reports ready and runs from the new bank; the last is the
Tollgate, with which the bank itself is the one that runs. -/
def execComponentReady (s : State) : Host.Outcome State Fault Refusal :=
  match s.tollgate.restarting with
  | none => .next s
  | some k =>
    let g := s.tollgate
    if g.restartAt.toNat + restartLimit k < s.time.toNat then .next s
    else
      let b := !g.bank
      let g1 := { g with
        restarting := none, restart := g.restart.drop 1
        comps := g.comps.set! (k.toNat - 1) (measure g b (componentPair k.toNat)) }
      let g2 := if k = 6 then { g1 with bank := b, svn := BitVec.ofNat 8 (bankSvn g b), otherValid := bankCheck g (!b) == 0 } else g1
      let s1 := { s with tollgate := g2 }.componentBack k
      .next (if k = 6 then s1.waitingLoads else s1)

/-- IMAGE_ROLLBACK (R466): a component has not reported ready in its time; the new bank's header is erased, the component
runs from the old bank, and no later one is restarted. -/
def execImageRollback (s : State) : Host.Outcome State Fault Refusal :=
  match s.tollgate.restarting with
  | none => .next s
  | some k =>
    let s0 := s.atTime (s.tollgate.restartAt + BitVec.ofNat 64 (restartLimit k))
    let g := s0.tollgate
    let b := !g.bank
    let erased := putBytes (bankBytes g b) 0 (List.replicate 256 0xFF)
    let s1 := { s0 with tollgate := { g with
      restarting := none, restart := [], otherValid := false, banks := g.banks.set! (if b then 1 else 0) erased } }
    let s2 := (s1.record { reason := 0x070C, detail := BitVec.ofNat 32 k.toNat }).componentBack k
    .next (if k = 6 then s2.waitingLoads else s2)

end Sys2Proof.Machine
end

