-- ==== Sys2Proof/Machine/Power.lean ====
section
/-! DEFINITION. Reset, start-up, power and the Waystation (chapter 15, R473 to R481): resets, straps, bring-up, sampled
channels and decisions, brace, and the power states. -/

namespace Sys2Proof.Machine

/-! ### Resets (R422 to R427, R438, R474) -/

/-- POWER_ON (R422): AUX3V3 rises, then 48 V. -/
def execPowerOn (s : State) : Host.Outcome State Fault Refusal := .next s.powerUp

/-- AUX3V3_LOSS (R474): every rail switches off, the Waystation with them; the next return is a power-on. -/
def execAux3v3Loss (s : State) : Host.Outcome State Fault Refusal :=
  let s1 := s.powerUp
  .next { s1 with power := { s1.power with state := 0, aux := false, pumpReq := false } }

/-- INPUT_RESET (R422, R439): VIN48 (channel 48), a rail other than a core segment (55 to 58) or PWROK (0xFF) is below its
reset level; with the trip latch set the source stays 8 (R445). -/
def execInputReset (channel : BitVec 8) (s : State) : Host.Outcome State Fault Refusal :=
  let n := channel.toNat
  if n ≠ 48 ∧ n ≠ 0xFF ∧ (n < 55 ∨ 58 < n) then .next s
  else
    let s1 := if s.power.tripLatch then s.resetModule 8 s.starts.channel else s.resetModule 2 channel
    let s2 := if n = 0xFF then { s1 with pins := { s1.pins with pwrok := false } } else s1
    let s3 := if n = 48 then { s2 with power := { s2.power with state := 0 } } else s2
    .next (if 55 ≤ n ∧ n ≤ 58 then s3.record { reason := 0x0A09, cls := clsModule, detail := channel.setWidth 32 } else s3)

/-- PERST_N low for `ns` nanoseconds (R424): shorter than 100 ns it is ignored. -/
def execPerstN (ns : Nat) (s : State) : Host.Outcome State Fault Refusal :=
  if ns < 100 then .next s else .next (s.resetModule 3 0)

/-- The channels of Table 15-5 that carry a temperature. -/
def isTemp (ch : Nat) : Bool := decide (ch < 48) || ch == 59

/-- The filtered value of a channel (R435): signed for temperatures. -/
def chanY (s : State) (ch : Fin 64) : Int :=
  let y := (s.power.channels.get ch).y
  if isTemp ch.val then y.toInt else y.toNat

/-- Are all temperature channels below a value in °C? -/
def allBelow (s : State) (c : Int) : Bool := (List.finRange 64).all fun ch => !isTemp ch.val || decide (chanY s ch < 64 * c)

/-- PWROK_RISE (R426, R427, R438): the straps are sampled, and a trip latch clears where every channel is below 70 °C. -/
def execPwrokRise (seatCode : BitVec 8) (bootsrc : BitVec 2) (clkmode : Bool) (s : State) :
    Host.Outcome State Fault Refusal :=
  if s.pins.pwrok || !s.power.aux then .next s
  else
    let marginal := seatCode.toNat % 16 == 0 || seatCode.toNat % 16 == 15
    let clears := s.power.tripLatch && allBelow s 70
    let s1 := { s with
      pins := { s.pins with pwrok := true, thermtripN := s.pins.thermtripN || clears }
      power := { s.power with tripLatch := s.power.tripLatch && !clears }
      starts := { s.starts with
        seatCode := seatCode, seat := fld seatCode 4 4, seatMarginal := marginal, bootsrc := bootsrc, clkmode := clkmode
        t0 := s.time } }
    .next (if marginal then s1.raiseAlarm 0x080 else s1)

/-- THERMAL_TRIP (R438): the latch and THERMTRIP_N are set, every source goes dark, and the rails are off: source 8. -/
def execThermalTrip (ch : Fin 64) (s : State) : Host.Outcome State Fault Refusal :=
  if 48 ≤ ch.val then .next s
  else
    let s1 := s.resetModule 8 (BitVec.ofNat 8 ch.val)
    let s2 := { s1 with power := { s1.power with tripLatch := true }, pins := { s1.pins with thermtripN := false } }
    .next (s2.record { reason := 0x0A08, cls := clsModule, detail := BitVec.ofNat 32 ch.val })

/-! ### Bring-up (R428 to R432) -/

/-- A die after its test (R16, R17, R19): the die of the retired list loses the cores whose test failed, the spare before any other, for a
spare that fails takes no number; each is REJECTED. -/
def testedDie (l : List Retired) (d : DieId) (failed : Fin 9 → Bool) : Die :=
  ((8 :: (List.finRange 8).map fun i => ⟨i.val, by omega⟩).filter failed).foldl (fun die pc => loseCore die pc 3)
    (listedDie l d)

/-- The test of the cores (R17): maps and states, and the rejections listed and recorded. -/
def State.testCores (s : State) (bad : List (DieId × Fin 9)) : State :=
  let s1 := { s with anatomy := { listedAnatomy s.log.retired with
    dies := Vector.ofFn fun d => testedDie s.log.retired d fun j => bad.contains (d, j) } }
  forEach (bad.filter fun e => !isRetired s 1 (16 * e.1.val + e.2.val)) s1 fun s e =>
    (s.record { reason := 0x020B, cls := clsRetired, kind := 1, unit := coreUnit e.1 e.2 }).retire 1 (coreUnit e.1 e.2)
      0x020B true

/-- The state of a parity group by its lost members (R288). -/
def trainedGroup (n : Nat) : BitVec 2 := if n = 0 then 0 else if n = 1 then 2 else 3

/-- The rebuild of a group after training (R288, R291): an UNPROTECTED group keeps the data of its lost member in the parity
slots of all its rows. -/
def trainedRebuild (group : BitVec 2) (lost : Option MemUnit) : Rebuild :=
  if group = 2 then { member := lost, whole := true } else {}

/-- Training (R288): listed units RETIRED, failing ones REJECTED, groups accordingly. -/
def State.trainMemory (s : State) (bad : List MemUnit) : State :=
  let pcSt (pc : Nat) : BitVec 2 :=
    if isRetired s 2 pc then 2 else if h : pc < 256 then (if bad.contains (.near ⟨pc, h⟩) then 3 else 0) else 0
  let chSt (ch : Nat) : BitVec 4 :=
    if isRetired s 3 ch then 4 else if h : ch < 24 then (if bad.contains (.serai ⟨ch, h⟩) then 5 else 2) else 2
  let lost (j : Nat) : Nat := ((List.range 256).filter fun pc => decide (pc % 16 = j) && pcSt pc != 0).length
  let groups : Vector (BitVec 2) 16 := Vector.ofFn fun j => trainedGroup (lost j.val)
  let failed := groups.toList.any (· == 3)
  let t := s.tiers
  let s1 := { s with tiers := { t with
    near := Vector.ofFn fun k => { (t.near.get k) with
      state := if failed then 4 else 2, pcs := Vector.ofFn fun p => pcSt (32 * k.val + p.val) }
    nearGroups := groups, nearTurn := 0
    nearRebuilds := Vector.ofFn fun j => trainedRebuild (groups.get j)
      (((List.finRange 256).find? fun pc => decide (pc.val % 16 = j.val) && pcSt pc.val != 0).map .near)
    serai := Vector.ofFn fun k => { (t.serai.get k) with state := chSt k.val }
    seraiGroup := trainedGroup ((List.range 24).filter fun ch => chSt ch != 2).length
    seraiRebuild := trainedRebuild (trainedGroup ((List.range 24).filter fun ch => chSt ch != 2).length)
      (((List.finRange 24).find? fun ch => chSt ch.val != 2).map .serai)
    repeatReads := [], failing := [], snoops := [] } }
  forEach (bad.filter fun u => !isRetired s (unitKind u) (unitIndex u).toNat) s1 fun s u =>
    ((s.unitErr u 0 0 0x07).record (unitRec u 0x0907 clsRetired)).retire (unitKind u) (unitIndex u) 0x0907 true

/-- Lanes and sources from the retired list (R325, R332). -/
def State.listedOptics (s : State) : State :=
  forEach (List.finRange 8) s fun s p =>
    let lane (rx : Nat) (k : Fin 18) : Bool := isRetired s 4 (64 * p.val + 32 * rx + k.val)
    let lanes (rx : Nat) (v : Vector (BitVec 2) 18) : Vector (BitVec 2) 18 :=
      lanesFix (Vector.ofFn fun k => if lane rx k then 2 else v.get k)
    (s.modPort p fun x => { x with state := 0, txLanes := lanes 0 x.txLanes, rxLanes := lanes 1 x.rxLanes }).modOptic p fun o => { o with
      sources := Vector.ofFn fun k => if isRetired s 7 (3 * p.val + k.val) then 3 else 0 }

/-- The links of a report train (R429); a second link on the common clock does not, and says so. -/
def State.trainLinks (s : State) (rep : BringupReport) : State :=
  let s1 := forEach (rep.linksUp.filter fun l => mayTrain s l) s fun s l =>
    s.trainLink l (if rep.links64.contains l then 2 else 1) (modeWidth s.tollgate.mode) (rep.links256.contains l)
      (rep.links256.contains l)
  if !s.starts.clkmode && s.tollgate.mode != 0 then (s1.raiseAlarm 0x100).record { reason := 0x0A0C } else s1

/-- The image that a start takes (R400, R401): a bank, or none where none is valid or an image is waited for. -/
def startBank (s : State) (valid : List (Fin 2)) : Option Bool :=
  let v0 := valid.contains 0
  let v1 := valid.contains 1
  if s.starts.bootsrc = 1 then (if s.starts.installed && v1 then some true else none)
  else higherBank s.tollgate v0 v1

/-- What the retention memory gives back to a stall before AUTOLOAD (R444): march number, t, seed, statistics, and the RW
fields of its MARCH, LEDGER and TALLY registers. -/
def giveBack (k : Retained) (t : StallState) : StallState :=
  { t with
    march := { t.march with num := k.march.num, repeatLimit := k.march.repeatLimit }
    ledger := { t.ledger with headroom := k.ledger.headroom, headroomUsed := k.ledger.headroomUsed }
    tally := { t.tally with
      holdEn := k.tally.holdEn, irqEn := k.tally.irqEn, vector := k.tally.vector, warm := k.tally.warm, a := k.tally.a
      used := k.tally.used, k := k.tally.k, skipLimit := k.tally.skipLimit
      mean := k.tally.mean, var := k.tally.var, samples := k.tally.samples }
    settle := { t.settle with step := k.step }
    lot := { t.lot with seed := k.seed, written := k.seed } }

/-- The composition is applied and the units of the present stalls are powered (R369, R371). -/
def State.composeAll (s : State) : State :=
  let s1 := forEach allStalls s fun s i => s.modPage i fun p =>
    { p with comp := s.tollgate.table.get i, state := if (s.tollgate.table.get i).owner.isSome then 2 else 0 }
  { s1 with
    cores := Vector.ofFn fun k => idleCore ((coreStall s1 k).isSome && !coreAbsent s1 k) (s1.cores.get k)
    engines := Vector.ofFn fun e => { (s1.engines.get e) with
      state := if (engineStall s1 e).isSome then 1 else 0 } }

/-- Bring-up from step 3 on, the image being chosen: tests, training, links, light, passes, READY. -/
def State.finishBringup (s : State) (rep : BringupReport) (b : Bool) : State :=
  let other := rep.banksValid.contains (if b then 0 else 1)
  let p := s.power
  let s1 := { s with
    tollgate := runBank s.tollgate b other
    starts := { s.starts with installed := false }
    power := match s.tollgate.thresholds with
      | some (t, h, m) => { p with throttleC := t, haltC := h, coolMax := m }
      | none => p }
  let s2 := (s1.testCores rep.failedCores).trainMemory rep.failedUnits
  if s2.tiers.nearGroups.toList.any (· == 3) || s2.tiers.seraiGroup == 3 then s2.startFailed 0x0A04 5
  else
    let s3 := (s2.listedOptics.trainLinks rep).composeAll
    let s4 := { s3 with
      fabric := { s3.fabric with optics := s3.fabric.optics.map fun o => { o with interlock := rep.interlock } }
      power := { s3.power with state := 2, bringup := 9, interlock := rep.interlock, waking := false }
      pins := { s3.pins with lasers := true, faultN := true }
      starts := { s3.starts with fails := 0 } }
    let s5 := match p.retained with
      | some (kept, choosers) =>
        { (forEach allStalls s4 fun s i => s.modStall i (giveBack (kept.get i))) with
          cores := Vector.ofFn fun k => { (s4.cores.get k) with chooser := choosers.get k, chooserWritten := choosers.get k }
          power := { s4.power with retained := none } }
      | none => s4
    forEach (presentStalls s5) s5 fun s i => s.tollgatePass i

/-- The state in which a wake's bring-up begins (R444): everything is cleared but the tiers and what is saved. -/
def wakeBase (s : State) : State :=
  { s.resetModule s.starts.cause s.starts.channel with
    mem := s.mem, tiers := s.tiers, power := s.power, starts := s.starts }

/-- Does bring-up wait for an image (R432)? -/
def waitsForImage (s : State) (rep : BringupReport) : Bool :=
  (startBank s rep.banksValid).isNone && (s.starts.bootsrc == 1 || s.starts.bootsrc == 2)

/-- BRINGUP (R428 to R432): the steps of Table 15-3 with what their tests and trainings find. -/
def execBringup (rep : BringupReport) (s : State) : Host.Outcome State Fault Refusal :=
  if !starting s || !s.pins.pwrok || !s.pins.perstN || s.power.tripLatch then .next s
  else
    let s0 := if s.power.waking then wakeBase s else { s with power := { s.power with state := 1 } }
    if s0.starts.fails = 3 then .next ((s0.strand 1).trainLinks rep)
    else if s0.starts.bootsrc = 3 then .next ((s0.strand 2).trainLinks rep)
    else match startBank s0 rep.banksValid with
      | some b => .next (s0.finishBringup rep b)
      | none =>
        if waitsForImage s0 rep then
          .next ({ s0 with
            starts := { s0.starts with waitImage := true }, tollgate := { s0.tollgate with stranded := true }
            power := { s0.power with bringup := 2 } }.trainLinks rep)
        else .next (s0.startFailed 0x0A01 2)

/-- START_TIMEOUT (R430): READY is not reached by t0 + 4 s; the step reported is 1, the first that has not ended. -/
def execStartTimeout (s : State) : Host.Outcome State Fault Refusal :=
  if starting s && s.pins.pwrok && !s.power.tripLatch then
    .next ((s.atTime (s.starts.t0 + 4000000000)).startFailed 0x0A03 1)
  else .next s

/-- START_RETRY (R430): 100 ms after a failed start, source 10. -/
def execStartRetry (s : State) : Host.Outcome State Fault Refusal :=
  if s.power.state == 1 && s.power.bringup != 0 && s.starts.fails != 0 && s.starts.fails != 3 && !s.starts.waitImage then
    .next (s.resetModule 10 0)
  else .next s

/-! ### Sampling and decisions (R434 to R437, R481) -/

/-- The shift k of the filter (R435). -/
def filterShift (ch : Nat) : Nat := if ch = 59 then 6 else if ch < 48 then 4 else 2

/-- Insert into a rising list. -/
def insertInt (a : Int) : List Int → List Int
  | [] => [a]
  | b :: l => if a ≤ b then a :: b :: l else b :: insertInt a l

/-- The median of the last samples of a channel. -/
def medianOf (ch : Nat) (l : List (BitVec 16)) : Int :=
  let v := (l.map fun x => if isTemp ch then x.toInt else (x.toNat : Int)).foldr insertInt []
  v.getD (v.length / 2) 0

/-- A channel after a sample: y moves by floor((m − y) / 2^k) (R435). -/
def sampled (ch : Nat) (c : Channel) (raw : BitVec 16) : Channel :=
  let samples := (raw :: c.samples).take 5
  let y : Int := if isTemp ch then c.y.toInt else c.y.toNat
  { y := BitVec.ofInt 16 (y + (medianOf ch samples - y) / 2 ^ filterShift ch), samples := samples, seen := true }

/-- The physical channel of a logical core (R434): none where it is absent. -/
def coreChannel (s : State) (k : CoreId) : Option Nat := (pcOf s k).map fun e => 9 * e.1.val + e.2.val

/-- Does a throttle act on a core (Table 15-6)? -/
def coreHot (s : State) (k : CoreId) : Bool :=
  (match coreChannel s k with | some ch => s.power.hotFlags.getD ch false | none => false)
    || (List.range 12).any (fun j => s.power.hotFlags.getD (36 + j) false) || s.power.hotFlags.getD 59 false

/-- Set a core's clock limits; the lower applies, within the range of R32. -/
def setClock (x : Core) (thr cap : Nat) : Core :=
  let t := max 18 (min 36 thr)
  let c := max 18 (min 36 cap)
  { x with thrClock := BitVec.ofNat 6 t, capClock := BitVec.ofNat 6 c, clock := BitVec.ofNat 6 (min t c) }

/-- A report of readiness of this member (R64, R437, R441), once it is in no brace and no thermal halt. -/
def State.reportReady (s : State) : State :=
  if s.power.brace || s.power.thermalHalt then s
  else forEach (presentStalls s) s fun s i =>
    let m := (s.stall i).march
    if m.lead then s.memberIsReady i m.member else if m.state == .empty then s else s.send (.ready i)

/-- PWR_HALTS: thermal halts below, HALT_SUPPLY halts above; each half saturates. -/
def addHalt (h : Word) (supply : Bool) : Word :=
  let lo := fld h 0 16
  let hi := fld h 16 16
  if supply then satAdd hi 1 ++ lo else hi ++ satAdd lo 1

/-- A thermal halt (R437): the member stops and its march ends REPEAT_FAULT; arrays at level 0, clocks at 0.9 GHz. -/
def State.thermalHalt (s : State) : State :=
  if s.power.thermalHalt then s
  else
    let s1 := { s with
      power := { s.power with thermalHalt := true, halts := addHalt s.power.halts false }
      cores := s.cores.map fun (x : Core) => setClock { x with da := x.da.map fun (a : DenseArray) => { a with target := 0, hold := false } } 18 x.capClock.toNat }
    let s2 := (s1.raiseAlarm 0x010).record { reason := 0x0A07, cls := clsModule }
    forEach (presentStalls s2) s2 fun s i => s.cause i vFault 0x0A07

/-- Input power in watts (R436): y[48] in mV times y[49] in 10 mA. -/
def inputWatts (s : State) : Nat := (chanY s 48 * chanY s 49).toNat / 100000

/-- The throttle flag of a temperature channel (Table 15-6, R481), with its alarms. -/
def State.decideThrottle (s : State) (ch : Fin 64) : State :=
  let y := chanY s ch
  let p := s.power
  let limit : Int := if ch.val = 59 then p.coolMax.toNat else p.throttleC.toNat
  let bad := decide (ch.val = 59) && (decide (y < 64 * (-20)) || decide (64 * 90 < y))
  let was := p.hotFlags.get ch
  let hot := bad || decide (64 * limit ≤ y) || (was && decide (64 * (limit - 3) ≤ y))
  let s1 := { s with power := { p with
    hotFlags := p.hotFlags.set ch hot, coolBad := if ch.val = 59 then bad else p.coolBad } }
  if ch.val = 59 then
    let s2 := if hot && !was then s1.raiseAlarm 0x048 else s1
    if bad && !p.coolBad then (s2.raiseAlarm 0x040).record { reason := 0x0A0E }
    else if hot && !was then s2.record { reason := 0x0A0B } else s2
  else if hot && !was then s1.raiseAlarm 0x008 else s1

/-- The logical core that works on the physical core of a channel. -/
def coreOfChannel (s : State) (ch : Nat) : Option CoreId := (List.finRange 32).find? fun k => coreChannel s k == some ch

/-- Thermal halt and cool-down (Table 15-6, R437). -/
def State.decideHalt (s : State) (ch : Fin 64) : State :=
  let y := chanY s ch
  let slow : Option (BitVec 64) :=
    match coreOfChannel s ch.val with
    | some k => if (s.core k).clock = 18 ∧ 64 * 105 ≤ y then some (((s.power.slowSince.getD ch.val none)).getD s.time) else none
    | none => none
  let cool : Option (BitVec 64) := if allBelow s 95 then some (s.power.coolSince.getD s.time) else none
  let s1 := { s with power := { s.power with
    slowSince := s.power.slowSince.setIfInBounds ch.val slow, coolSince := cool } }
  let long := match slow with | some t => decide (t.toNat + 10000000 ≤ s.time.toNat) | none => false
  if 64 * (s.power.haltC.toNat : Int) ≤ y || long then s1.thermalHalt else s1

/-- Power cap and power limit (Table 15-6): the limit acts at once. -/
def State.decidePower (s : State) : State :=
  let w := inputWatts s
  let p := s.power
  let s1 := { s with power := { p with
    capSince := if 3000 < w then some (p.capSince.getD s.time) else none
    capped := p.capped && decide (2900 ≤ w), limited := (p.limited || decide (3400 < w)) && decide (2900 ≤ w) } }
  if 3400 < w ∧ ¬ p.limited then
    ({ s1 with cores := s1.cores.map fun x => setClock x x.thrClock.toNat (x.capClock.toNat - 4) }.raiseAlarm 0x020).record
      { reason := 0x0A0A }
  else s1

/-- PUMP_REQ (Table 15-6): driven low only in STANDBY and OFF, once every temperature channel is below 45 °C. -/
def State.decidePump (s : State) : State :=
  let low := (s.power.state == 0 || s.power.state == 4) && allBelow s 45 && !s.power.tripLatch
  { s with power := { s.power with pumpReq := !low } }

/-- Is a sample beyond Table 17-7: a junction above 125 °C, AUX3V3 above 3.96 V (R486)? -/
def beyondTable (ch : Nat) (raw : BitVec 16) : Bool :=
  (decide (ch ≤ 41) && decide (64 * 125 < raw.toInt)) || (ch == 50 && decide (3960 < raw.toNat))

/-- CHANNEL_SAMPLE (R434 to R436): the filter and the decisions of Table 15-6 on the channel. -/
def execChannelSample (ch : Fin 64) (raw : BitVec 16) (s : State) : Host.Outcome State Fault Refusal :=
  if beyondTable ch.val raw then .fault .beyondRatings
  else if !s.power.aux then .next s
  else
    let s1 := { s with power := { s.power with
      channels := s.power.channels.set ch (sampled ch.val (s.power.channels.get ch) raw) } }
    let s2 := if isTemp ch.val then ((s1.decideThrottle ch).decideHalt ch).decidePump
      else if ch.val = 48 then s1.decidePower
      else if ch.val = 49 then
        let a := s1.decidePower
        { a with power := { a.power with means := (inputWatts a :: a.power.means).take 500 } }
      else s1
    .next s2

/-- THROTTLE_STEP (R32, R436): a core's next clock step. A throttle lowers it 50 MHz each 1 ms and the cap 100 MHz each
0.5 ms; without them it rises 50 MHz each 10 ms. In a thermal halt it stays at 0.9 GHz. -/
def execThrottleStep (k : CoreId) (s : State) : Host.Outcome State Fault Refusal :=
  let x := s.core k
  let hot := coreHot s k
  let capped := s.power.capped || s.power.limited
  if s.power.thermalHalt then .next s
  else
    let wait : Nat := if hot then 1000000 else if capped then 500000 else 10000000
    let s1 := s.atTime (x.stepAt + BitVec.ofNat 64 wait)
    let thr := if hot then x.thrClock.toNat - 1 else x.thrClock.toNat + 1
    let cap := if s.power.capped then x.capClock.toNat - (if hot then 4 else 2)
      else if capped then x.capClock.toNat else x.capClock.toNat + 1
    .next (s1.modCore k fun x => { setClock x thr cap with stepAt := s1.time })

/-- POWER_CAP (R436): input power has been above 3,000 W for 5 ms. -/
def execPowerCap (s : State) : Host.Outcome State Fault Refusal :=
  match s.power.capSince with
  | none => .next s
  | some t =>
    if s.power.capped then .next s
    else
      let s1 := s.atTime (t + 5000000)
      .next (({ s1 with
        power := { s1.power with capped := true }
        cores := s1.cores.map fun x => setClock x x.thrClock.toNat (x.capClock.toNat - 2) }.raiseAlarm 0x020).record
          { reason := 0x0A0A })

/-- THERMAL_HALT_END (R437): every temperature channel has stayed below 95 °C for 1 s; the member offers itself again. -/
def execThermalHaltEnd (s : State) : Host.Outcome State Fault Refusal :=
  match s.power.coolSince with
  | none => .next s
  | some t =>
    if !s.power.thermalHalt then .next s
    else
      let s1 := s.atTime (t + 1000000000)
      .next { s1 with power := { s1.power with thermalHalt := false } }.reportReady

/-! ### Brace and rails (R439 to R441, R489) -/

/-- BRACE (R440): VIN48 or a rail crosses its warning level. -/
def execBrace (rail : Bool) (s : State) : Host.Outcome State Fault Refusal :=
  if s.power.brace || (s.power.state != 2 && s.power.state != 3) then .next s
  else
    let s1 := { s with
      power := { s.power with
        brace := true, braces := satAdd s.power.braces 1, braceAt := s.time, supplyDone := false }
      cores := s.cores.map fun (x : Core) => { x with brace := true, da := x.da.map fun (a : DenseArray) => { a with braced := true } }
      tiers := { s.tiers with serai := s.tiers.serai.map fun (c : SeraiChannel) => if c.state = 2 then ({ c with braceHold := true } : SeraiChannel) else c } }
    .next ((s1.raiseAlarm (if rail then 0x005 else 0x001)).record { reason := 0x0A06 })

/-- BRACE_END (R441): the cap lifts, the buffers drain, and a member that waited reports ready. -/
def execBraceEnd (s : State) : Host.Outcome State Fault Refusal :=
  if !s.power.brace then .next s
  else
    let us := (s.time - s.power.braceAt).toNat / 1000
    let s1 := { s with
      power := { s.power with brace := false, braceLast := BitVec.ofNat 32 us, supplyDone := false }
      cores := s.cores.map fun (x : Core) => { x with brace := false, da := x.da.map fun (a : DenseArray) => { a with braced := false } } }
    let s2 := forEach (List.finRange 24) s1 fun s ch => if (s.tiers.serai.get ch).braceHold then s.drainChannel ch else s
    .next s2.reportReady

/-- HALT_SUPPLY (R441): a brace has lasted 2 ms. A march that has not halted halts; where one runs, halted or not, the supply
halt is recorded. -/
def execHaltSupply (s : State) : Host.Outcome State Fault Refusal :=
  if !s.power.brace || s.power.supplyDone then .next s
  else
    let s1 := s.atTime (s.power.braceAt + 2000000)
    let s2 := { s1 with power := { s1.power with supplyDone := true } }
    let runs := (presentStalls s2).filter fun i => match (s2.stall i).march.state with
      | .empty | .ready | .armed => false
      | _ => true
    let s3 := if runs.isEmpty then s2
      else { s2 with power := { s2.power with halts := addHalt s2.power.halts true } }.raiseAlarm 0x002
    .next (forEach (runs.filter fun i => (s3.stall i).march.state == .legs && !(s3.stall i).seq.haltKnown) s3
      fun s i => (s.record { reason := 0x0202, cls := clsRepeat, stall := some i }).causeNow i vSupply 0x0202)

/-- RAIL_FAULT (R439, R489): a core segment is below its reset level or over its current limit. -/
def execRailFault (d : DieId) (pc : Fin 9) (s : State) : Host.Outcome State Fault Refusal := .next (s.coreFault d pc 0x0A09)

/-! ### Power states (R443, R444) -/

/-- A wake event in STANDBY (R444). -/
def State.wake (s : State) : State :=
  if s.power.state != 4 then s
  else { s with
    power := { s.power with state := 6, bringup := 0, waking := true, pumpReq := true } }

/-- A write of PWR_VOTE_s (R443, Table 15-14): REQ 3 is ignored. In STANDBY a vote away from it wakes the module. -/
def writeVote (i : Stall) (v : Word) (s : State) : State :=
  let req := if fld v 0 2 = 3 then s.power.vote.get i else fld v 0 2
  let s1 := { s with power := { s.power with vote := s.power.vote.set i req, wake := s.power.wake.set i (fld v 16 16) } }
  if s.power.state = 4 then (if req = 2 then s1 else s1.wake) else s1.settlePower.enterStandby

/-- PWR_VOTE_WRITE (R443, R448). -/
def execPwrVoteWrite (r : Requester) (i : Stall) (v : Word) (s : State) : Host.Outcome State Fault Refusal :=
  .next (s.guardWrite r (voteOff i) (writeVote i v))

/-- WAKE_MESSAGE (R444): a WAKE message over MCTP. -/
def execWakeMessage (s : State) : Host.Outcome State Fault Refusal := .next s.wake

/-- WAKE_TIMER (R444): the earliest WAKE_S of a vote has run out. -/
def execWakeTimer (s : State) : Host.Outcome State Fault Refusal :=
  let l := (s.power.wake.toList.map BitVec.toNat).filter fun n => decide (0 < n)
  match l with
  | [] => .next s
  | n :: rest =>
    if s.power.state != 4 then .next s
    else .next (s.atTime (s.power.standbyAt + BitVec.ofNat 64 (1000000000 * minOf rest n))).wake

end Sys2Proof.Machine
end

