-- ==== Sys2Proof/Machine/RegRead.lean ====
section
/-! DEFINITION. The values that the registers of the control window read as, block by block, in the layouts of the
register tables. What is not in a table reads zero (R8). -/

namespace Sys2Proof.Machine

/-- Fields of two bits, the first in the lowest bits. -/
def packPairs : List (BitVec 2) → Word
  | [] => 0
  | b :: l => put b 0 ||| (packPairs l <<< 2)

/-- Fields of four bits, the first in the lowest bits. -/
def packNibbles : List (BitVec 4) → Word
  | [] => 0
  | b :: l => put b 0 ||| (packNibbles l <<< 4)

/-- Flags, the first in the lowest bit. -/
def packFlags : List Bool → Word
  | [] => 0
  | b :: l => putB b 0 ||| (packFlags l <<< 1)

/-- Bytes, the first in the lowest bits. -/
def packBytes (l : List Byte) : Word := ofBytes 32 l

/-! ### IDENT and the Quartermasters (Tables 01-5 to 01-12, 15-11, 15-12) -/

/-- IDENT. -/
def identValue (s : State) (o : Nat) : Word :=
  let t := s.starts
  match o with
  | 0x00 => 0x00019640
  | 0x04 => 0x10
  | 0x08 => put (36 : BitVec 6) 24 ||| put (24 : BitVec 5) 16 ||| put (8 : BitVec 4) 12 ||| put (8 : BitVec 4) 8 ||| 32
  | 0x0C => packFlags ((List.finRange 32).map fun k => (pcOf s k).isSome)
  | 0x10 => packFlags (s.anatomy.dies.toList.map fun d => (spareOf d).isSome)
  | 0x14 => put t.scope 16 ||| put t.channel 8 ||| put t.cause 0
  | 0x18 => putB (s.tollgate.stranded && !t.waitImage) 31 ||| put t.why 29 ||| putB t.waitImage 28 ||| put t.step 16
      ||| put t.lastFail 8 ||| put t.fails 0
  | 0x1C => put t.seatCode 8 ||| put t.seat 4 ||| putB t.seatMarginal 3 ||| put t.bootsrc 1 ||| putB t.clkmode 0
  | _ => 0

/-- QM_CORE_MAP and QM_CORE_STATE. -/
def dieValue (s : State) (d : DieId) (o : Nat) : Word :=
  let x := s.anatomy.dies.get d
  match o with
  | 0 => packNibbles x.map.toList
  | 4 => packPairs x.states.toList
  | _ => 0

/-! ### MARCH and CHARTER (Tables 02-6 to 02-14, 12-12, 12-13) -/

/-- State codes (Table 02-5). -/
def MarchState.code : MarchState → BitVec 4
  | .empty => 0
  | .ready => 1
  | .armed => 2
  | .legs => 3
  | .verdict => 4
  | .settle => 5
  | .held => 6
  | .waitRepeat => 7

/-- MARCH. -/
def marchValue (s : State) (i : Stall) (o : Nat) : Word :=
  let t := s.stall i
  let m := t.march
  match o with
  | 0x04 => put m.member 16 ||| putB m.synced 7 ||| putB m.cmdIgnored 6 ||| putB m.deputy 5 ||| putB m.lead 4 ||| put m.state.code 0
  | 0x08 => fld m.num 0 32
  | 0x0C => put (fld m.num 32 8) 0
  | 0x10 => loHalf s.time
  | 0x14 => hiHalf s.time
  | 0x18 => loHalf m.origin
  | 0x1C => hiHalf m.origin
  | 0x20 => put m.sinceStart 24 ||| put m.repeats 16 ||| put m.kind 8 ||| put m.leg 0
  | 0x24 => put m.verdict.reason 16 ||| put m.verdict.source 8 ||| put m.hostDecision 4 ||| put m.verdict.code 0
  | 0x28 => put m.verdict.causes 0 &&& 0x1FFE
  | 0x2C => put m.repeatLimit 0
  | 0x30 => m.guardOvr
  | 0x34 => m.guardMax
  | 0x38 => putB m.fitValid 31 ||| put m.fitEngine 16 ||| put m.fitLeg 0
  | 0x3C => m.fitExcess
  | 0x40 => putB t.sync.outOfStep 25 ||| putB t.sync.holdover 24 ||| put t.sync.hops 16 ||| put t.sync.offset 0
  | _ => 0

/-- The members whose word the lead lacks for its pending charter, or for its active one before the first START. -/
def swapMissing (t : StallState) : List Member :=
  if !t.march.lead then []
  else match t.charter.pending, t.charter.active with
    | some c, _ => missingWords t c
    | none, some c => if t.charter.assembled then [] else missingWords t c
    | none, none => []

/-- CHARTER. -/
def charterValue (s : State) (i : Stall) (o : Nat) : Word :=
  let t := s.stall i
  let p := t.charter
  let seqA := match p.active with | some c => c.seq | none => 0
  let seqP := match p.pending with | some c => c.seq | none => 0
  match o with
  | 0x00 => putB p.autoload 8
  | 0x04 => putB (slotLocked t true) 9 ||| putB (slotLocked t false) 8 ||| putB p.cmdIgnored 7 ||| putB p.pendingSlot 6
      ||| putB p.activeSlot 5 ||| putB p.active.isSome 4 ||| put p.loader 0
  | 0x08 => loHalf seqA
  | 0x0C => hiHalf seqA
  | 0x10 => loHalf seqP
  | 0x14 => hiHalf seqP
  | 0x18 => match p.active with | some c => c.epoch | none => 0
  | 0x1C => put p.refusalReason 16 ||| put p.refusalDetail 0
  | 0x20 => p.refusalAt
  | 0x24 => p.slotAStatus
  | 0x28 => p.slotBStatus
  | 0x2C => put p.keyIndex 4 ||| putB p.signedOnly 0
  | 0x30 => BitVec.ofNat 32 (slotVa false)
  | 0x34 => BitVec.ofNat 32 (slotVa false / 2 ^ 32)
  | 0x38 => BitVec.ofNat 32 (slotVa true)
  | 0x3C => BitVec.ofNat 32 (slotVa true / 2 ^ 32)
  | 0x40 => putB p.portSlot 31 ||| put p.portWord 0
  | 0x48 => p.loads
  | 0x4C => p.refusals
  | 0x50 => p.lockedWrites
  | 0x54 => putB p.scheduled 31 ||| put (BitVec.ofNat 7 (swapMissing t).length) 24 ||| put (lowest (swapMissing t)) 0
  | _ => 0

/-! ### LEDGER, SETTLE, TALLY, LOT (Tables 08-7 to 08-14, 09-9 to 09-15) -/

/-- LEDGER. -/
def ledgerValue (s : State) (i : Stall) (o : Nat) : Word :=
  let l := (s.stall i).ledger
  match o with
  | 0x00 => putB l.forgetPending 9 ||| putB l.headroomPending 4 ||| put l.headroom 0
  | 0x04 => BitVec.ofNat 32 (l.runs.filter fun r => !r.complete).length
  | 0x08 => put l.buckets 0
  | 0x0C => l.done
  | 0x10 => l.saturated
  | 0x14 => l.nonfinite
  | 0x18 => l.short
  | 0x1C => l.surveys
  | 0x20 => l.discarded
  | 0x24 => l.firstBad
  | 0x28 => packBytes l.shortMembers.toList
  | 0x2C => fld l.fences 0 32
  | 0x30 => fld l.fences 32 32
  | 0x34 => put (fld l.fences 64 4) 0
  | 0x38 => l.fallback
  | 0x3C => l.norm2
  | 0x40 => putB l.auditFail 31 ||| put l.free 0
  | 0x44 => put l.lastReason 16 ||| put l.lastBucket 0
  | _ => 0

/-- SETTLE. -/
def settleValue (s : State) (i : Stall) (o : Nat) : Word :=
  let x := (s.stall i).settle
  match o with
  | 0x00 => put x.entry 16 ||| putB x.compat 8 ||| put x.state 0
  | 0x04 => fld x.step 0 32
  | 0x08 => put (fld x.step 32 8) 0
  | 0x0C => x.clip
  | 0x10 => putB (!x.heldCoef.isEmpty) 0
  | 0x14 => loHalf x.elems
  | 0x18 => hiHalf x.elems
  | 0x1C => x.frozen
  | 0x20 => x.late
  | 0x24 => x.last
  | _ => 0

/-- TALLY. -/
def tallyValue (s : State) (i : Stall) (o : Nat) : Word :=
  let y := (s.stall i).tally
  match o with
  | 0x00 => tlyCtrl y
  | 0x04 => y.k
  | 0x08 => put y.skipLimit 0
  | 0x0C => put y.alarm 0
  | 0x10 => y.loss
  | 0x14 => y.mean
  | 0x18 => y.var
  | 0x1C => y.samples
  | 0x20 => y.skipSat
  | 0x24 => y.skipNf
  | 0x28 => y.repeats
  | 0x2C => y.nfLoss
  | 0x30 => y.skipRun
  | _ => if 0x400 ≤ o ∧ o < 0x800 ∧ o % 4 = 0 then y.groupNf.getD ((o - 0x400) / 4) 0 else 0

/-- LOT. -/
def lotValue (s : State) (i : Stall) (o : Nat) : Word :=
  let l := (s.stall i).lot
  match o with
  | 0x00 => loHalf l.seed
  | 0x04 => hiHalf l.seed
  | 0x08 => putB l.busy 1 ||| putB l.pending 0
  | 0x10 => loHalf l.testKey
  | 0x14 => hiHalf l.testKey
  | 0x18 => l.ctr[0]
  | 0x1C => l.ctr[1]
  | 0x20 => l.ctr[2]
  | 0x24 => l.ctr[3]
  | 0x28 => l.result[0]
  | 0x2C => l.result[1]
  | 0x30 => l.result[2]
  | 0x34 => l.result[3]
  | _ => 0

/-! ### COPY and CORE (Tables 07-8 to 07-12, 04-6 to 04-9, 05-9 to 05-11, 06-7 to 06-9) -/

/-- COPY. -/
def copyValue (s : State) (e : EngineId) (o : Nat) : Word :=
  let x := s.engine e
  match o with
  | 0x00 => put x.index 16 ||| putB x.source 5 ||| putB (x.qhead == x.qtail) 4 ||| put x.state 0
  | 0x04 => put x.vector 8 ||| putB x.qen 0
  | 0x08 => fld x.qbase 0 32
  | 0x0C => put (fld x.qbase 32 16) 0
  | 0x10 => fld x.cbase 0 32
  | 0x14 => put (fld x.cbase 32 16) 0
  | 0x18 => put x.log2 0
  | 0x1C => put x.qtail 0
  | 0x20 => put x.qhead 0
  | 0x24 => x.done
  | 0x28 => x.refused
  | 0x2C => x.deferred
  | 0x30 => loHalf x.bytes
  | 0x34 => hiHalf x.bytes
  | 0x38 => put x.lastReason 16 ||| put x.lastIndex 0
  | _ => 0

/-- The eight registers of a dense array. -/
def daValue (a : DenseArray) (o : Nat) : Word :=
  match o with
  | 0x00 => put a.op 16 ||| put a.pass 10 ||| putB a.braced 6 ||| putB a.bank 5 ||| put a.state 0
  | 0x04 => a.ops
  | 0x08 => loHalf a.busy
  | 0x0C => hiHalf a.busy
  | 0x10 => a.floor
  | 0x14 => a.ballast
  | 0x18 => a.wakes
  | 0x1C => a.bracedCount
  | _ => 0

/-- The eight registers of a gather-merge engine. -/
def gmeValue (g : Gme) (o : Nat) : Word :=
  match o with
  | 0x00 => put g.op 16 ||| put g.tile 6 ||| put g.state 0
  | 0x04 => g.ops
  | 0x08 => loHalf g.busy
  | 0x0C => hiHalf g.busy
  | 0x10 => g.heavy
  | 0x14 => g.segs
  | 0x18 => g.qwait
  | 0x1C => g.malformed
  | _ => 0

/-- Does a pending charter hold an update of a core's table slot, which waits for the swap (R176, R359)? -/
def swapTable (s : State) (k : CoreId) (slot : Nat) : Bool :=
  match coreStall s k with
  | none => false
  | some i => match (s.stall i).charter.pending with
    | some c => c.functions.any fun f => f.core.toNat == k.val && f.slot.toNat == slot
    | none => false

/-- CORE. -/
def coreValue (s : State) (k : CoreId) (o : Nat) : Word :=
  let x := s.core k
  if o < 0x20 then daValue x.da[0] o
  else if o < 0x40 then daValue x.da[1] (o - 0x20)
  else if 0x100 ≤ o ∧ o < 0x120 then gmeValue x.gme[0] (o - 0x100)
  else if 0x120 ≤ o ∧ o < 0x140 then gmeValue x.gme[1] (o - 0x120)
  else match o with
  | 0x040 => putB x.da[1].hold 18 ||| putB x.da[0].hold 17 ||| putB x.brace 16 ||| put x.da[1].level 8 ||| put x.da[0].level 0
  | 0x140 => putB x.chooserPending 16 ||| put x.chooserWritten 0
  | 0x144 => x.toDense
  | 0x148 => x.toGme
  | 0x14C => x.refused
  | 0x150 => x.deferred
  | 0x154 => x.assay
  | 0x200 => put x.vu.op 16 ||| put x.vu.opcode 8 ||| putB x.vu.recompute 4 ||| put x.vu.state 0
  | 0x204 => x.vu.ops
  | 0x208 => loHalf x.vu.busy
  | 0x20C => hiHalf x.vu.busy
  | 0x210 => x.vu.recomputes
  | 0x214 => x.vu.dropped
  | 0x218 => (packFlags ((List.range 16).map fun n => !(x.vu.heldTables.toList.getD n []).isEmpty || swapTable s k n) <<< 16)
      ||| packFlags (x.vu.tables.toList.map fun t => !t.isEmpty)
  | _ => 0

/-! ### ROUTE (Tables 11-5 to 11-10) -/

/-- RTE_NEIGHBOUR. -/
def neighbourValue : Option IdentMessage → Word
  | some m => putB true 31 ||| put m.member 24 ||| put m.caravan 18 ||| put m.port 15 ||| put m.seat 11 ||| put (fld m.tag 0 11) 0
  | none => put (0x7F : Member) 24 ||| put (0x3F : BitVec 6) 18

/-- The relay registers (R339). -/
def relayValue (s : State) (o : Nat) : Word :=
  let y := s.fabric.relay
  match o with
  | 0x8000 => put y.vector 26 ||| put y.len 17 ||| put y.member 9 ||| put y.op 0
  | 0x8004 => put y.target 2
  | 0x8008 => y.data
  | 0x800C => putB y.busy 31 ||| put y.statusMember 24 ||| put y.lost 16
      ||| (if (relayStall s).isSome then put y.result 0 else 4)
  | _ => if 0x8100 ≤ o ∧ o < 0x8200 ∧ o % 4 = 0 then packBytes (slice y.buf.toList (o - 0x8100) 4) else 0

/-- ROUTE. -/
def routeValue (s : State) (p : PortId) (o : Nat) : Word :=
  let x := s.port p
  let l := s.lnk p
  let e := s.optic p
  match o with
  | 0x00 => put x.recalSkipped 24 ||| putB x.banditDenied 18 ||| putB x.detour 17 ||| putB x.sideDir 16
      ||| put (BitVec.ofNat 5 (activeLanes x.rxLanes)) 11 ||| put (BitVec.ofNat 5 (activeLanes x.txLanes)) 6
      ||| put (portMode s p) 4 ||| put x.state 0
  | 0x04 => putB x.auto 8 ||| putB x.recalDir 6 ||| put x.recalLane 0
  | 0x08 => packPairs (x.txLanes.toList.take 16)
  | 0x0C => packPairs (x.txLanes.toList.drop 16)
  | 0x10 => packPairs (x.rxLanes.toList.take 16)
  | 0x14 => packPairs (x.rxLanes.toList.drop 16)
  | 0x18 => neighbourValue x.neighbour
  | 0x1C => x.delay
  | 0x20 => x.fecCe
  | 0x24 => x.fecUe
  | 0x28 => x.replays
  | 0x2C => putB x.auditFail 31 ||| put x.audits 0
  | 0x30 => putB e.interlock 9 ||| putB e.mated 8 ||| putB e.lightIn 7 ||| packPairs e.sources.toList
  | 0x34 => put x.lastReason 16 ||| putB x.lastDir 5 ||| put x.lastLane 0
  | 0x38 => loHalf x.tx
  | 0x3C => hiHalf x.tx
  | 0x40 => loHalf x.rx
  | 0x44 => hiHalf x.rx
  | 0x50 => put l.banditDelay 24 ||| put l.banditMask 16 ||| put l.banditAction 1 ||| putB l.banditEn 0
  | 0x54 => l.banditRate
  | 0x58 => loHalf l.banditSeed
  | 0x5C => hiHalf l.banditSeed
  | 0x60 => l.injected
  | _ => if p = 0 then relayValue s o else 0

/-! ### NEAR and SERAI (Tables 10-6 to 10-12) -/

/-- A rebuild cursor (Table 10-9); zero while no rebuild runs. Near memory shows floor(i ÷ 16) of its row and, of the groups
that rebuild, the next in turn; the Serai shows bits [13:0]. -/
def rebuildValue (s : State) (near : Bool) : Word :=
  if near then
    match nearTurnOf s with
    | some j => let r := s.tiers.nearRebuilds.get j; putB true 31 ||| put (BitVec.ofNat 4 j.val) 26 ||| put r.bay 16 ||| put (fld r.row 4 14) 0
    | none => 0
  else
    let r := s.tiers.seraiRebuild
    if r.active then putB true 31 ||| put r.bay 16 ||| put (fld r.row 0 14) 0 else 0

/-- NEAR. -/
def nearValue (s : State) (k : Fin 8) (o : Nat) : Word :=
  let n := s.tiers.near.get k
  match o with
  | 0x00 => putB n.scrubbing 4 ||| put n.state 0
  | 0x04 => packPairs (n.pcs.toList.take 16)
  | 0x08 => packPairs (n.pcs.toList.drop 16)
  | 0x0C => packPairs s.tiers.nearGroups.toList
  | 0x10 => rebuildValue s true
  | 0x14 => n.ce
  | 0x18 => n.ue
  | 0x1C => n.transient
  | 0x20 => loHalf n.err
  | 0x24 => hiHalf n.err
  | 0x28 => put n.passes 16 ||| put n.scrubBay 0
  | 0x2C => put n.ceLimit 0
  | 0x30 => loHalf n.bytes
  | 0x34 => hiHalf n.bytes
  | _ => 0

/-- SERAI. -/
def seraiValue (s : State) (k : Fin 24) (o : Nat) : Word :=
  let n := s.tiers.serai.get k
  match o with
  | 0x00 => putB n.scrubbing 9 ||| putB n.braceHold 8 ||| put s.tiers.seraiGroup 4 ||| put n.state 0
  | 0x04 => n.ce
  | 0x08 => n.ue
  | 0x0C => n.transient
  | 0x10 => loHalf n.err
  | 0x14 => hiHalf n.err
  | 0x18 => rebuildValue s false
  | 0x1C => if s.tiers.seraiRebuild.active then put (fld s.tiers.seraiRebuild.row 14 4) 0 else 0
  | 0x20 => n.dropped
  | 0x24 => n.held
  | 0x28 => put n.passes 16 ||| put n.scrubBay 0
  | 0x2C => put n.ceLimit 0
  | 0x30 => loHalf n.bytes
  | 0x34 => hiHalf n.bytes
  | _ => 0

/-! ### STALL, LINK and POST (Tables 13-11 to 13-15) -/

/-- A link number in a field, zero where there is none. -/
def linkBits : Option LinkId → BitVec 2
  | some l => BitVec.ofNat 2 l.val
  | none => 0

/-- STALL; ROLE is the reading link's. -/
def stallValue (s : State) (r : Requester) (i : Stall) (o : Nat) : Word :=
  let p := (s.stall i).page
  let c := p.comp
  let role : Nat := match r with | .link l => (roleOf s l i).getD 0 | _ => 0
  match o with
  | 0x00 => put p.state 16 ||| putB p.armed 15 ||| putB c.test 14 ||| put (BitVec.ofNat 2 role) 12 ||| put c.watchers 8
      ||| put (linkBits (altLink p)) 6 ||| putB (altLink p).isSome 5 ||| put (linkBits (ownerLink p)) 3 ||| BitVec.ofNat 32 i.val
  | 0x04 => put p.hbTimeout 8 ||| putB p.armed 1
  | 0x08 => putB c.ledger 24 ||| put c.ports 16 ||| put c.engines 8 ||| put c.groups 0
  | 0x0C => put c.cxlShares 16 ||| put c.seraiShares 8 ||| put c.nearShares 0
  | 0x10 => put c.nearCount 16 ||| put c.nearFirst 0
  | 0x14 => put c.seraiCount 16 ||| put c.seraiFirst 0
  | 0x18 => p.vec
  | 0x1C => put p.vecEn 0
  | 0x20 => p.deferred
  | 0x24 => p.refused
  | 0x28 => p.wait
  | 0x2C => p.last
  | 0x30 => p.resets
  | _ => 0

/-- LINK: each link sees its own page; no other requester has one. -/
def linkValue (s : State) (r : Requester) (o : Nat) : Word :=
  match r with
  | .link l =>
    let h := s.host l
    match o with
    | 0x00 =>
      (packFlags (allStalls.map fun i => match roleOf s l i with | some n => n != 0 | none => false) <<< 24)
        ||| (packFlags (allStalls.map fun i => roleOf s l i == some 0) <<< 16)
        ||| putB h.ideCm 11 ||| putB h.ideIo 10 ||| putB h.mem 9 ||| putB h.cxl3 8 ||| putB h.flit256 7 ||| put h.rate 5
        ||| put h.width 2 ||| BitVec.ofNat 32 l.val
    | 0x04 => h.foreign
    | 0x08 => h.foreignLast
    | 0x0C => h.ca
    | 0x10 => put s.tollgate.mode 0
    | _ => 0
  | _ => 0

/-- POST. -/
def postValue (s : State) (i : Stall) (secure : Bool) (n : Fin 24) (o : Nat) : Word :=
  let p := s.post i secure n
  if o < 0x100 ∧ o % 4 = 0 then packBytes (slice p.buf.toList o 4)
  else match o with
  | 0x100 => put p.len 0
  | 0x104 => put p.replyLen 16 ||| put p.tag 8 ||| putB p.claim.isSome 4 ||| put (linkBits p.claim) 2
      ||| putB (outbound secure n.val) 1 ||| putB p.full 0
  | 0x108 => putB p.ackDone 31 ||| put p.ackTag 16 ||| put p.ackCode 0
  | 0x10C => p.reject
  | _ => 0

/-! ### CUSTOMS (Tables 14-10 to 14-12) -/

/-- The debug state of R418 for a stall. -/
def debugCode (s : State) (i : Stall) : BitVec 2 :=
  if s.tollgate.debugFull then 2 else if (s.stall i).customs.debugOpen then 1 else 0

/-- CUSTOMS. -/
def customsValue (s : State) (i : Stall) (o : Nat) : Word :=
  let t := s.stall i
  let c := t.customs
  let g := s.tollgate
  if o < 0x8000 ∧ o % 4 = 0 then fld (regionEntry c (o / 32)) (8 * (o % 32)) 32
  else if 0x8020 ≤ o ∧ o < 0x8040 ∧ o % 4 = 0 then fld c.digest (8 * (o - 0x8020)) 32
  else match o with
  | 0x8000 => putB t.page.comp.test 20 ||| put (debugCode s i) 18 ||| putB c.pass 17 ||| putB c.locked 16
      ||| BitVec.ofNat 32 (c.regions.filter fun e => e.2.valid).length
  | 0x8004 => c.denied
  | 0x8008 => put c.lastCause 28 ||| put c.lastRegion 10 ||| put c.lastUnit 0
  | 0x800C => fld c.lastVa 0 32
  | 0x8010 => put (fld c.lastVa 32 16) 0
  | 0x8014 => put (if g.debugFull then (2 : BitVec 2) else 0) 16 ||| put (revokedKeys g) 12 ||| putB g.otherValid 9
      ||| putB g.bank 8 ||| put (BitVec.ofNat 6 (svnFloor g)) 0
  | 0x8018 => packFlags (g.keys.toList.map fun k => !k.isEmpty)
  | 0x801C => g.counter
  | _ => 0

/-! ### POWER/WAYSTATION (Tables 15-13, 15-14) -/

/-- The cores below 1.8 GHz. -/
def slowCores (s : State) : Word := packFlags (s.cores.toList.map fun x => decide (x.clock.toNat < 36))

/-- The hottest temperature channel, the lowest of equals. -/
def hottest (s : State) : Fin 64 :=
  ((List.finRange 64).filter fun ch => isTemp ch.val).foldl (fun a ch => if chanY s a < chanY s ch then ch else a) 0

/-- POWER/WAYSTATION. -/
def powerValue (s : State) (o : Nat) : Word :=
  let p := s.power
  match o with
  | 0x00 => putB (s.tollgate.stranded && !s.starts.waitImage) 15 ||| putB p.tripLatch 14 ||| putB p.interlock 13
      ||| putB p.pumpReq 12 ||| putB p.thermalHalt 11 ||| putB (slowCores s != 0) 10 ||| putB p.brace 9 ||| put p.bringup 4
      ||| put p.state 0
  | 0x04 => put p.alarm 0
  | 0x08 => p.braces
  | 0x0C => p.braceLast
  | 0x10 => put (BitVec.ofNat 16 ((chanY s 49).toNat / 10)) 16 ||| put (BitVec.ofNat 16 ((chanY s 48).toNat / 10)) 0
  | 0x14 => put (BitVec.ofNat 16 (p.means.sum / p.means.length)) 16 ||| put (BitVec.ofNat 16 (inputWatts s)) 0
  | 0x18 => put (BitVec.ofNat 6 (hottest s).val) 24 ||| put (p.channels.get (hottest s)).y 0
  | 0x1C => slowCores s
  | 0x20 => put p.coolMax 16 ||| put p.haltC 8 ||| put p.throttleC 0
  | 0x24 => p.halts
  | _ => if h : 0x100 ≤ o ∧ o < 0x200 ∧ o % 4 = 0 then put (p.channels.get ⟨(o - 0x100) / 4, by omega⟩).y 0 else 0

/-- PWR_VOTE. -/
def voteValue (s : State) (i : Stall) (o : Nat) : Word :=
  if o = 0 then put (s.power.wake.get i) 16 ||| put (s.power.vote.get i) 0 else 0

/-! ### FAULT (Tables 16-7, 16-11, 16-12) -/

/-- The record at a place of the ring (R468). -/
def ringRecord (s : State) (n : Nat) : BitVec 256 := (s.log.ring.find? fun r => fldN r 0 32 % 1024 == n).getD 0

/-- A measured quantity outside a range; a channel without a sample is in range. -/
def outside (s : State) (ch : Fin 64) (lo hi : Int) : Bool :=
  (s.power.channels.get ch).seen && (decide (chanY s ch < lo) || decide (hi < chanY s ch))

/-- A condition of C1 that fails (R456, R487): of Table 17-8, what the Waystation measures; a thermal halt, a trip, a brace
longer than 2 ms. -/
def environmentFails (s : State) : Bool :=
  let p := s.power
  outside s 48 42000 60000 || outside s 49 0 7000 || outside s 50 3135 3465 || outside s 59 (64 * 15) (64 * 40)
    || decide (3000 < p.means.sum / p.means.length) || decide (3400 < inputWatts s)
    || p.thermalHalt || p.tripLatch || p.supplyDone

/-- FLT_GUARANTEE (R457). -/
def guaranteeValue (s : State) : Word :=
  let t := s.tiers
  let belowFit := (List.finRange 32).any fun k =>
    match coreStall s k with
    | some i => (match (s.stall i).charter.active with
      | some c => bit c.cores k.val && decide ((s.core k).clock.toNat < c.fitClock)
      | none => false)
    | none => false
  let nofit := allStalls.any fun i => (s.stall i).march.state == .held && (s.stall i).march.verdict.code == vNofit
  putB (t.nearGroups.toList.any (· != 0) || t.seraiGroup != 0) 4 ||| putB belowFit 3 ||| putB nofit 2
    ||| putB ((List.finRange 8).any fun p => (s.lnk p).banditEn) 1 ||| putB (environmentFails s) 0

/-- FAULT, the part of the module. -/
def faultValue (s : State) (o : Nat) : Word :=
  if o < 0x8000 ∧ o % 4 = 0 then fld (ringRecord s (o / 32)) (8 * (o % 32)) 32
  else match o with
  | 0x8000 => s.log.newest
  | 0x8004 => s.log.injected
  | 0x8008 => guaranteeValue s
  | _ => 0

/-- FAULT, the page of a stall. -/
def faultPageValue (s : State) (i : Stall) (o : Nat) : Word :=
  let t := s.stall i
  let v := t.service
  match o with
  | 0x00 => put v.period 0
  | 0x04 => putB v.twoGen 4 ||| put v.ckptState 0
  | 0x08 => fld v.ckptMarch 0 32
  | 0x0C => put (fld v.ckptMarch 32 8) 0
  | 0x10 => fld v.ckptCommon 0 32
  | 0x14 => put (fld v.ckptCommon 32 8) 0
  | 0x18 => putB (v.mirrorCurrent && v.mirrorMarch == t.march.num) 31 ||| put v.mirrorMember 0
  | 0x1C => fld v.mirrorMarch 0 32
  | 0x20 => put (fld v.mirrorMarch 32 8) 0
  | 0x24 => put v.kind 30 ||| put v.standby 23 ||| put v.lost 16 ||| put v.wait 0
  | _ => 0

/-- The value that a register of the window reads as for a requester. -/
def regValue (s : State) (r : Requester) : Reg → Word
  | .ident o => identValue s o
  | .march i o => marchValue s i o
  | .charter i o => charterValue s i o
  | .ledger i o => ledgerValue s i o
  | .settle i o => settleValue s i o
  | .tally i o => tallyValue s i o
  | .lot i o => lotValue s i o
  | .copy e o => copyValue s e o
  | .core k o => coreValue s k o
  | .die d o => dieValue s d o
  | .route p o => routeValue s p o
  | .near k o => nearValue s k o
  | .serai k o => seraiValue s k o
  | .stall i o => stallValue s r i o
  | .link o => linkValue s r o
  | .post i secure n o => postValue s i secure n o
  | .customs i o => customsValue s i o
  | .power o => powerValue s o
  | .vote i o => voteValue s i o
  | .fault o => faultValue s o
  | .faultPage i o => faultPageValue s i o
  | .debug _ => 0
  | .hole => 0

end Sys2Proof.Machine
end

