-- ==== Sys2Proof/Machine/Updates.lean ====
section
/-! DEFINITION. Update posts (R176, R254, R361, Table 12-10): table and coefficient updates, checked and held. -/

namespace Sys2Proof.Machine

/-- An update that has passed its checks. -/
inductive Update where
  | function (core : CoreId) (slot : Fin 16) (table : List Byte)
  | coef (held : HeldCoef)
  deriving DecidableEq, Repr

/-- Are the bytes of a message that its OP does not use zero, and its fields legal (R361, Table 12-10)? -/
def updateFieldsOk (p : Post) : Bool :=
  let m := fun k => msgNat p k 1
  m 14 == 0 && m 15 == 0 &&
    (if m 0 == 1 then decide (m 2 < 16) && m 3 == 0 && msgNat p 4 4 == 0
     else m 0 == 2 && m 1 == 0 && m 2 == 0 && decide (m 3 ≤ 1) && decide (msgNat p 4 2 + msgNat p 6 2 ≤ 256))

/-- The bytes of data an update message names: a table (R174), or TAU and NSCALE where CLIP says so and the records. -/
def updateLength (p : Post) : Nat :=
  if msgNat p 0 1 = 1 then 3136 else 8 * msgNat p 3 1 + 64 * msgNat p 6 2

/-- The coefficient update that a message and its data give. -/
def coefUpdate (p : Post) (data : List Byte) : HeldCoef :=
  let clip := msgNat p 3 1 == 1
  { first := msgNat p 4 2
    records := (chunksOf 64 (msgNat p 6 2) (data.drop (if clip then 8 else 0))).map (ofBytes 512)
    clip := if clip then some (ofBytes 32 (data.take 4), ofBytes 32 (slice data 4 4)) else none }

/-- What the data of an update gives, or the code that refuses it (R361, Table 12-9). -/
def updateOf (s : State) (i : Stall) (p : Post) (data : List Byte) : Reason ⊕ Update :=
  if msgNat p 0 1 = 1 then
    if h : msgNat p 1 1 < 32 then
      if coreStall s ⟨msgNat p 1 1, h⟩ ≠ some i then .inl 0x010B
      else if tableOk data then .inr (.function ⟨msgNat p 1 1, h⟩ ⟨msgNat p 2 1 % 16, Nat.mod_lt _ (by decide)⟩ data)
      else .inl 0x0111
    else .inl 0x010B
  else if (coefUpdate p data).records.all coefOk then .inr (.coef (coefUpdate p data)) else .inl 0x0111

/-- Does a signature over the data follow it and the message come on the secure post, where the policy asks it (R361)? -/
def updateSigned (s : State) (i : Stall) (secure : Bool) (va len : Nat) : Bool :=
  !(s.stall i).charter.signedOnly
    || (secure && signatureOk s i (bytes256 (sha3 (s.readBytes i va len))) (s.readBytes i (va + len) 2420))

/-- The first piece of an update's bytes that customs refuses (R361, Table 14-8); the signature counts where it is read. -/
def updateDenied (s : State) (i : Stall) (secure : Bool) (va len : Nat) : Option (BitVec 4 × Nat) :=
  tollgateDenied s i va (if (s.stall i).charter.signedOnly && secure then len + 2420 else len)

/-- The checks of an update message: the length and fields of the message, customs, digest, signature, contents. -/
def checkUpdate (s : State) (i : Stall) (secure : Bool) : Reason ⊕ Update :=
  let p := s.post i secure 0
  let va := msgNat p 8 6
  let len := updateLength p
  if p.len ≠ 48 then .inl 0x0602
  else if !updateFieldsOk p then .inl 0x0109
  else if (updateDenied s i secure va len).isSome then .inl 0x0116
  else if bytes256 (sha3 (s.readBytes i va len)) != slice p.buf.toList 16 32 then .inl 0x0103
  else if !updateSigned s i secure va len then .inl 0x0104
  else updateOf s i p (s.readBytes i va len)

/-- Do the group ranges of two updates overlap? -/
def coefOverlap (a b : HeldCoef) : Bool :=
  decide (a.first < b.first + b.records.length) && decide (b.first < a.first + a.records.length)

/-- Hold an update (R176, R254); it replaces a held one of its slot, or of an overlapping group range. -/
def State.holdUpdate (s : State) (i : Stall) : Update → State
  | .function k n t => s.modCore k fun x => { x with vu := { x.vu with heldTables := x.vu.heldTables.set n t } }
  | .coef h => s.modSettle i fun x => { x with heldCoef := (x.heldCoef.filter fun o => !coefOverlap o h) ++ [h] }

/-- The update message in post 0 is checked; the update is held, or the message refused with a code. -/
def State.serveUpdate (s : State) (i : Stall) (secure : Bool) : State :=
  match checkUpdate s i secure with
  | .inr u => (s.holdUpdate i u).ackPost i secure 0 0 []
  | .inl code =>
    let p := s.post i secure 0
    let s1 := if code = 0x0116 then
        match updateDenied s i secure (msgNat p 8 6) (updateLength p) with
        | some (cause, va) => s.denied i 187 cause va
        | none => s
      else s
    s1.ackPost i secure 0 code []

/-- Does the update post hold a message, with OP 2 or with another? -/
def hasUpdate (s : State) (i : Stall) (secure coef : Bool) : Bool :=
  let op := msgNat (s.post i secure 0) 0 1
  hasMessage s i secure 0 op && (op == 2) == coef

/-- UPDATE_FUNCTION (R361): the update post holds a message with OP 1; one with a reserved OP is refused here too. -/
def execUpdateFunction (i : Stall) (secure : Bool) (s : State) : Host.Outcome State Fault Refusal :=
  .next (if hasUpdate s i secure false then s.serveUpdate i secure else s)

/-- UPDATE_COEF (R361): the update post holds a message with OP 2. -/
def execUpdateCoef (i : Stall) (secure : Bool) (s : State) : Host.Outcome State Fault Refusal :=
  .next (if hasUpdate s i secure true then s.serveUpdate i secure else s)

end Sys2Proof.Machine
end

