-- ==== Sys2Proof/Machine/HostRegs.lean ====
section
/-! DEFINITION. Writes and reads of the control window (R8 to R11): what each register does with a written value, the
halves of 64-bit pairs, counters that clear when read, and the requests of the relay and of SMBus. -/

namespace Sys2Proof.Machine

/-! ### Writes -/

/-- A write of CORE_CHOOSER (R137, Table 05-11): held until the next march origin. -/
def writeChooser (k : CoreId) (v : Word) (s : State) : State :=
  s.modCore k fun x => { x with chooserWritten := fld v 0 10, chooserPending := true }

/-- CORE_CHOOSER_WRITE (R137). -/
def execCoreChooserWrite (r : Requester) (k : CoreId) (v : Word) (s : State) : Host.Outcome State Fault Refusal :=
  .next (s.guardWrite r (coreOff k 0x140) (writeChooser k v))

/-- A write in the MARCH page. -/
def writeMarchReg (i : Stall) (o : Nat) (v : Word) (s : State) : State :=
  match o with
  | 0x00 => writeMarchCmd i (fld v 0 3) s
  | 0x04 => if bit v 6 then s.modMarch i fun m => { m with cmdIgnored := false } else s
  | 0x2C => s.modMarch i fun m => { m with repeatLimit := fld v 0 8 }
  | _ => s

/-- A write in the CHARTER page; CHT_POLICY takes Tollgate writes alone (R11). -/
def writeCharterReg (i : Stall) (o : Nat) (v : Word) (s : State) : State :=
  match o with
  | 0x00 => writeChtCtrl i v s
  | 0x04 => if bit v 7 then s.modCharter i fun p => { p with cmdIgnored := false } else s
  | 0x2C => s.modCharter i fun p => { p with keyIndex := fld v 4 4, signedOnly := bit v 0 }
  | 0x40 => s.modCharter i fun p => { p with portSlot := bit v 31, portWord := fld v 0 28 }
  | 0x44 => writePortData i v s
  | _ => s

/-- A write in the LEDGER page. -/
def writeLedgerReg (i : Stall) (o : Nat) (v : Word) (s : State) : State :=
  match o with
  | 0x00 => writeLdgCtrl i v s
  | 0x2C => writeFence i 0 v s
  | 0x30 => writeFence i 1 v s
  | 0x34 => writeFence i 2 v s
  | 0x40 => if bit v 31 then s.modLedger i fun l => { l with auditFail := false } else s
  | _ => s

/-- A write in the TALLY page; a write of 0 to A is ignored (Table 09-12). -/
def writeTallyReg (i : Stall) (o : Nat) (v : Word) (s : State) : State :=
  match o with
  | 0x00 => s.modTally i fun y => { y with
      holdEn := fld v 28 4, irqEn := fld v 24 4, vector := fld v 16 6, warm := fld v 8 8, a := if fld v 0 4 = 0 then y.a else fld v 0 4 }
  | 0x04 => writeK i v s
  | 0x08 => s.modTally i fun y => { y with skipLimit := fld v 0 8 }
  | 0x0C => s.modTally i fun y => { y with alarm := y.alarm &&& ~~~(fld v 0 4) }
  | 0x14 => writeStats i 0 v s
  | 0x18 => writeStats i 1 v s
  | 0x1C => writeStats i 2 v s
  | _ => s

/-- A write in the LOT page, the pairs apart. -/
def writeLotReg (i : Stall) (o : Nat) (v : Word) (s : State) : State :=
  match o with
  | 0x18 => writeTestCtr i 0 v s
  | 0x1C => writeTestCtr i 1 v s
  | 0x20 => writeTestCtr i 2 v s
  | 0x24 => writeTestCtr i 3 v s
  | _ => s

/-- A write in a copy engine's block, the pairs apart. -/
def writeCopyReg (e : EngineId) (o : Nat) (v : Word) (s : State) : State :=
  match o with
  | 0x04 => writeCpyCtrl e v s
  | 0x18 => writeQsize e v s
  | 0x1C => writeQtail e v s
  | _ => s

/-- A write of a relay register; they act on a lead in relay mode alone (R339). -/
def writeRelayReg (o : Nat) (v : Word) (s : State) : State :=
  if (relayStall s).isNone then s
  else match o with
  | 0x8000 => writeRelayCtrl v s
  | 0x8004 => s.modRelay fun y => { y with target := fld v 2 24 }
  | 0x8008 => s.modRelay fun y => { y with data := v }
  | _ => if 0x8100 ≤ o ∧ o < 0x8200 ∧ o % 4 = 0 then s.modRelay fun y => { y with buf := putWord y.buf ((o - 0x8100) / 4) v }
      else s

/-- A write in a route port's block, the pairs apart. -/
def writeRouteReg (p : PortId) (o : Nat) (v : Word) (s : State) : State :=
  match o with
  | 0x00 => if bit v 18 then s.modPort p fun x => { x with banditDenied := false } else s
  | 0x04 => writeRteCtrl p v s
  | 0x2C => if bit v 31 then s.modPort p fun x => { x with auditFail := false } else s
  | 0x50 => writeBandit p v s
  | 0x54 => s.modLnk p fun l => { l with banditRate := v }
  | _ => if p = 0 then writeRelayReg o v s else s

/-- A write in the STALL page. -/
def writeStallReg (i : Stall) (o : Nat) (v : Word) (s : State) : State :=
  match o with
  | 0x04 => writeStallCtrl i v s
  | 0x18 => s.modPage i fun p => { p with vec := v &&& 0x3F3F3F3F }
  | 0x1C => s.modPage i fun p => { p with vecEn := fld v 0 4 }
  | _ => s

/-- A write in a post. -/
def writePostReg (r : Requester) (i : Stall) (secure : Bool) (n : Fin 24) (o : Nat) (v : Word) (s : State) : State :=
  if h : o < 0x100 ∧ o % 4 = 0 then writePost r i secure n ⟨o / 4, by omega⟩ v s
  else if o = 0x100 then writePost r i secure n 64 v s else s

/-- A write of PWR_ALARM, and the Tollgate's of PWR_THRESH: each field under its own limit (Table 15-14). -/
def writePowerReg (o : Nat) (v : Word) (s : State) : State :=
  match o with
  | 0x04 =>
    let a := s.power.alarm &&& ~~~(fld v 0 9)
    { s with power := { s.power with alarm := a }, pins := { s.pins with alertN := a == 0 } }
  | 0x20 =>
    let halt : Byte := if 112 < (fld v 8 8).toNat then s.power.haltC else fld v 8 8
    let thr : Byte := if 105 < (fld v 0 8).toNat ∨ halt.toNat ≤ (fld v 0 8).toNat then s.power.throttleC else fld v 0 8
    { s with power := { s.power with coolMax := fld v 16 8, haltC := halt, throttleC := thr } }
  | _ => s

/-- A write of FLT_CKPT_CTRL (R461, R464, R472): RESTORE and PERIOD act at the lead alone, which relays the period. -/
def writeCkptCtrl (i : Stall) (v : Word) (s : State) : State :=
  if !(s.stall i).march.lead then s.ignored i
  else
    let p : BitVec 16 := fld v 0 16
    let s1 := (s.modService i fun x => { x with period := p }).send (.relayed i (.period p))
    if bit v 16 then writeRestore i s1 else s1

/-- A write in a stall's FAULT page (R472). -/
def writeFaultReg (i : Stall) (o : Nat) (v : Word) (s : State) : State :=
  match o with
  | 0x00 => writeCkptCtrl i v s
  | 0x18 => writeMirror i v s
  | 0x24 => if (s.stall i).march.lead then s.modService i fun x => { x with wait := fld v 0 16 } else s.ignored i
  | _ => s

/-- The high half of a 64-bit pair is written: both halves take effect (R9). -/
def commitPair (g : Reg) (v : BitVec 64) (s : State) : State :=
  match g with
  | .settle i 0x08 => writeStep i v s
  | .lot i 0x04 => writeSeed i v s
  | .lot i 0x14 => writeTestKey i v s
  | .copy e 0x0C => s.modEngine e fun x => { x with qbase := v.setWidth 48 &&& ~~~0x3F }
  | .copy e 0x14 => s.modEngine e fun x => { x with cbase := v.setWidth 48 &&& ~~~0xF }
  | .route p 0x5C => s.modLnk p fun l => { l with banditSeed := v }
  | _ => s

/-- Is a register the low half of a pair that can be written (R9)? -/
def writableLow : Reg → Bool
  | .settle _ o => o == 0x04
  | .lot _ o => o == 0x00 || o == 0x10
  | .copy _ o => o == 0x08 || o == 0x10
  | .route _ o => o == 0x58
  | _ => false

/-- Is a register the high half of a pair that can be written? -/
def writableHigh : Reg → Bool
  | .settle _ o => o == 0x08
  | .lot _ o => o == 0x04 || o == 0x14
  | .copy _ o => o == 0x0C || o == 0x14
  | .route _ o => o == 0x5C
  | _ => false

/-- What a register that stands alone does with a written value. -/
def writeAlone (r : Requester) (g : Reg) (v : Word) (s : State) : State :=
  match g with
  | .march i o => writeMarchReg i o v s
  | .charter i o => writeCharterReg i o v s
  | .ledger i o => writeLedgerReg i o v s
  | .tally i o => writeTallyReg i o v s
  | .lot i o => writeLotReg i o v s
  | .copy e o => writeCopyReg e o v s
  | .core k o => if o = 0x140 then writeChooser k v s else s
  | .route p o => writeRouteReg p o v s
  | .near k o => if o = 0x2C then s.modStack k fun t => { t with ceLimit := fld v 0 16 } else s
  | .serai k o => if o = 0x2C then s.modChannel k fun t => { t with ceLimit := fld v 0 16 } else s
  | .stall i o => writeStallReg i o v s
  | .post i secure n o => writePostReg r i secure n o v s
  | .power o => writePowerReg o v s
  | .vote i o => if o = 0 then writeVote i v s else s
  | .faultPage i o => writeFaultReg i o v s
  | .settle .. | .ident _ | .die _ _ | .link _ | .customs _ _ | .fault _ | .debug _ | .hole => s

/-- Does a running test call make a register ignore what is written (R278)? -/
def testBusy (s : State) : Reg → Bool
  | .lot i o => (s.stall i).lot.busy && decide (0x10 ≤ o)
  | _ => false

/-- What a register does with a written value: a low half is held, a high half commits the pair (R9); the LOT_TEST registers
take nothing during TEST_BUSY (R278). -/
def writeReg (r : Requester) (off : BitVec 26) (v : Word) (s : State) : State :=
  let g := regOf off
  if testBusy s g then s
  else if writableLow g then s.holdLow r off v
  else if writableHigh g then commitPair g (joinHalves (s.heldLow r (off - 4)) v) s
  else writeAlone r g v s

/-- A write of the window (R8, R11, R370, R381). -/
def State.hostWrite (s : State) (r : Requester) (off : BitVec 26) (v : Word) : State := s.guardWrite r off (writeReg r off v)

/-- Is the DEBUG block open to a requester (R418)? -/
def debugReach (s : State) : Requester → Bool
  | .link l => s.tollgate.debugFull || allStalls.any fun i => roleOf s l i == some 0 && (s.stall i).customs.debugOpen
  | .relay i => s.tollgate.debugFull || (relayOwns s i && (s.stall i).customs.debugOpen)
  | _ => s.tollgate.debugFull

/-- Does an access meet an open DEBUG block, of which no rule gives a register? -/
def meetsDebug (s : State) (r : Requester) (off : BitVec 26) : Bool :=
  match regOf off with
  | .debug _ => debugReach s r
  | _ => false

/-- REGISTER_WRITE (R8). -/
def execRegisterWrite (r : Requester) (off : BitVec 26) (v : Word) (s : State) : Host.Outcome State Fault Refusal :=
  if meetsDebug s r off then .refused .debugRegisters else .next (s.hostWrite r off v)

/-- WRITE_LOW_HALF (R9): the low half of a pair is held for its requester. -/
def execWriteLowHalf (r : Requester) (off : BitVec 26) (v : Word) (s : State) : Host.Outcome State Fault Refusal :=
  if meetsDebug s r off then .refused .debugRegisters else .next (s.hostWrite r off v)

/-- WRITE_HIGH_HALF (R9): the high half commits the pair. -/
def execWriteHighHalf (r : Requester) (off : BitVec 26) (v : Word) (s : State) : Host.Outcome State Fault Refusal :=
  if meetsDebug s r off then .refused .debugRegisters else .next (s.hostWrite r off v)

/-- Bits of W1C fields that the module sets in the same cycle (R11). -/
def setW1c (g : Reg) (sets : Word) (s : State) : State :=
  match g with
  | .march i 0x04 => if bit sets 6 then s.ignored i else s
  | .charter i 0x04 => if bit sets 7 then s.loaderIgnores i else s
  | .ledger i 0x2C => s.modLedger i fun l => { l with fences := l.fences ||| fenceMask 0 sets }
  | .ledger i 0x30 => s.modLedger i fun l => { l with fences := l.fences ||| fenceMask 1 sets }
  | .ledger i 0x34 => s.modLedger i fun l => { l with fences := l.fences ||| fenceMask 2 sets }
  | .ledger i 0x40 => if bit sets 31 then s.modLedger i fun l => { l with auditFail := true } else s
  | .tally i 0x0C => s.modTally i fun y => { y with alarm := y.alarm ||| fld sets 0 4 }
  | .route p 0x00 => if bit sets 18 then s.modPort p fun x => { x with banditDenied := true } else s
  | .route p 0x2C => if bit sets 31 then s.modPort p fun x => { x with auditFail := true } else s
  | .power 0x04 => s.raiseAlarm (fld sets 0 9)
  | _ => s

/-- W1C_WRITE (R11): written ones clear; what the module sets in the same cycle stays set. -/
def execW1cWrite (r : Requester) (off : BitVec 26) (v sets : Word) (s : State) : Host.Outcome State Fault Refusal :=
  if meetsDebug s r off then .refused .debugRegisters else .next (setW1c (regOf off) sets (s.hostWrite r off v))

/-! ### Reads -/

/-- Is a register the low half of a 64-bit pair (R10)? -/
def lowHalf : Reg → Bool
  | .march _ o => o == 0x08 || o == 0x10 || o == 0x18
  | .charter _ o => o == 0x08 || o == 0x10 || o == 0x30 || o == 0x38
  | .settle _ o => o == 0x04 || o == 0x14
  | .lot _ o => o == 0x00 || o == 0x10
  | .copy _ o => o == 0x08 || o == 0x10 || o == 0x30
  | .core _ o => o == 0x08 || o == 0x28 || o == 0x108 || o == 0x128 || o == 0x208
  | .route _ o => o == 0x38 || o == 0x40 || o == 0x58
  | .near _ o => o == 0x20 || o == 0x30
  | .serai _ o => o == 0x10 || o == 0x30
  | .customs _ o => o == 0x800C
  | .faultPage _ o => o == 0x08 || o == 0x10 || o == 0x1C
  | _ => false

/-- The value of a 64-bit pair from its low half. -/
def pairValue (s : State) (r : Requester) (off : BitVec 26) : BitVec 64 :=
  joinHalves (regValue s r (regOf off)) (regValue s r (regOf (off + 4)))

/-- The counters of the window that a read clears, set to a value (R11); the others stay. -/
def setDa (a : DenseArray) (o : Nat) (v : Word) : DenseArray :=
  match o with
  | 0x04 => { a with ops := v }
  | 0x10 => { a with floor := v }
  | 0x14 => { a with ballast := v }
  | 0x18 => { a with wakes := v }
  | 0x1C => { a with bracedCount := v }
  | _ => a

/-- The same for a gather-merge engine. -/
def setGme (g : Gme) (o : Nat) (v : Word) : Gme :=
  match o with
  | 0x04 => { g with ops := v }
  | 0x10 => { g with heavy := v }
  | 0x14 => { g with segs := v }
  | 0x18 => { g with qwait := v }
  | 0x1C => { g with malformed := v }
  | _ => g

/-- The same for a core. -/
def setCoreCounter (x : Core) (o : Nat) (v : Word) : Core :=
  if o < 0x20 then { x with da := x.da.set 0 (setDa x.da[0] o v) }
  else if o < 0x40 then { x with da := x.da.set 1 (setDa x.da[1] (o - 0x20) v) }
  else if 0x100 ≤ o ∧ o < 0x120 then { x with gme := x.gme.set 0 (setGme x.gme[0] (o - 0x100) v) }
  else if 0x120 ≤ o ∧ o < 0x140 then { x with gme := x.gme.set 1 (setGme x.gme[1] (o - 0x120) v) }
  else match o with
  | 0x144 => { x with toDense := v }
  | 0x148 => { x with toGme := v }
  | 0x14C => { x with refused := v }
  | 0x150 => { x with deferred := v }
  | 0x204 => { x with vu := { x.vu with ops := v } }
  | 0x210 => { x with vu := { x.vu with recomputes := v } }
  | 0x214 => { x with vu := { x.vu with dropped := v } }
  | _ => x

/-- The same for a ledger. -/
def setLedgerCounter (l : Ledger) (o : Nat) (v : Word) : Ledger :=
  match o with
  | 0x0C => { l with done := v }
  | 0x10 => { l with saturated := v }
  | 0x14 => { l with nonfinite := v }
  | 0x18 => { l with short := v }
  | 0x1C => { l with surveys := v }
  | 0x20 => { l with discarded := v }
  | _ => l

/-- The same for the tally counters. -/
def setTallyCounter (y : Tally) (o : Nat) (v : Word) : Tally :=
  match o with
  | 0x20 => { y with skipSat := v }
  | 0x24 => { y with skipNf := v }
  | 0x28 => { y with repeats := v }
  | 0x2C => { y with nfLoss := v }
  | _ => if 0x400 ≤ o ∧ o < 0x800 ∧ o % 4 = 0 then
      { y with groupNf := (List.range 256).map fun k => if k = (o - 0x400) / 4 then v else y.groupNf.getD k 0 } else y

/-- An RC counter takes a value: zero, or the events of the cycle in which it was read (R11). -/
def setCounter (r : Requester) (g : Reg) (v : Word) (s : State) : State :=
  match g with
  | .march i 0x30 => s.modMarch i fun m => { m with guardOvr := v }
  | .march i 0x34 => s.modMarch i fun m => { m with guardMax := v }
  | .charter i 0x48 => s.modCharter i fun p => { p with loads := v }
  | .charter i 0x4C => s.modCharter i fun p => { p with refusals := v }
  | .charter i 0x50 => s.modCharter i fun p => { p with lockedWrites := v }
  | .ledger i o => s.modLedger i fun l => setLedgerCounter l o v
  | .settle i 0x1C => s.modSettle i fun x => { x with frozen := v }
  | .settle i 0x20 => s.modSettle i fun x => { x with late := v }
  | .tally i o => s.modTally i fun y => setTallyCounter y o v
  | .copy e 0x24 => s.modEngine e fun x => { x with done := v }
  | .copy e 0x28 => s.modEngine e fun x => { x with refused := v }
  | .copy e 0x2C => s.modEngine e fun x => { x with deferred := v }
  | .core k o => s.modCore k fun x => setCoreCounter x o v
  | .route p 0x24 => s.modPort p fun x => { x with fecUe := v }
  | .route p 0x28 => s.modPort p fun x => { x with replays := v }
  | .route p 0x60 => s.modLnk p fun l => { l with injected := v }
  | .stall i 0x20 => s.modPage i fun p => { p with deferred := v }
  | .stall i 0x24 => s.modPage i fun p => { p with refused := v }
  | .stall i 0x28 => s.modPage i fun p => { p with wait := v }
  | .stall i 0x30 => s.modPage i fun p => { p with resets := v }
  | .link 0x04 => (match r with | .link l => s.modHost l fun h => { h with foreign := v } | _ => s)
  | .link 0x0C => (match r with | .link l => s.modHost l fun h => { h with ca := v } | _ => s)
  | .post i secure n 0x10C => s.modPost i secure n fun p => { p with reject := v }
  | .customs i 0x8004 => s.modCustoms i fun c => { c with denied := v }
  | _ => s

/-- A read that is not allowed: of a secure post page it counts as a foreign write (R386). -/
def State.readDenied (s : State) (r : Requester) (off : BitVec 26) : State :=
  match r, regOf off with
  | .link l, .post i true _ _ => if s.tollgate.stranded then s else s.foreignWrite l off 3
  | _, _ => s

/-- A read of the window: the value, with what the read does (R10, R11, R339, Table 11-7). `events` is what an RC counter
counts in the cycle of the read. -/
def readReg (s : State) (r : Requester) (off : BitVec 26) (events : Word) : Word × State :=
  let g := regOf off
  if !mayRead s r g then (0, s.readDenied r off)
  else if g = .route 0 0x8010 then takeRelayEvent s
  else if lowHalf g then
    (loHalf (pairValue s r off), s.capture r (off + 4) (hiHalf (pairValue s r off)))
  else if lowHalf (regOf (off - 4)) then
    match lookupKey (halfKey r off) s.caught with
    | some v => (v, { s with caught := eraseKey (halfKey r off) s.caught })
    | none => (hiHalf (pairValue s r (off - 4)), s)
  else
    let v := regValue s r g
    match g with
    | .route p 0x2C => (v, s.modPort p fun x => { x with audits := 0 })
    | _ => (v, setCounter r g events s)

/-- READ_LOW_HALF (R10): the high half is captured for the requester's next read of it. -/
def execReadLowHalf (r : Requester) (off : BitVec 26) (s : State) : Host.Outcome State Fault Refusal :=
  if meetsDebug s r off then .refused .debugRegisters
  else
    let (v, s1) := readReg s r off 0
    .next { s1 with data := v }

/-- RC_READ (R11): the value is returned and cleared; an event of the same cycle is counted after the clear. -/
def execRcRead (r : Requester) (off : BitVec 26) (events : Word) (s : State) : Host.Outcome State Fault Refusal :=
  if meetsDebug s r off then .refused .debugRegisters
  else
    let (v, s1) := readReg s r off events
    .next { s1 with data := v }

/-! ### The relay at its target (R322) -/

/-- The byte offset of a word offset in the window (Table 11-10). -/
def wordOff (w : BitVec 24) : BitVec 26 := w ++ (0 : BitVec 2)

/-- Would a post reject the relay's write (R322, R384)? -/
def relayRejected (s : State) (i : Stall) (off : BitVec 26) : Bool :=
  match regOf off with
  | .post j secure n o =>
    let p := s.post j secure n
    writeAccess s (.relay i) (regOf off) == .allow && postExists secure n && !outbound secure n.val && decide (o ≤ 0x100)
      && (s.stall j).page.state != 1 && (p.full || claimedByOther p (.relay i))
  | _ => false

/-- A relayed POST: the buffer and LEN are written into the named post, and the message is sent. -/
def relayPostTo (i : Stall) (off : BitVec 26) (len : BitVec 9) (buf : List Byte) (s : State) : State :=
  match regOf off with
  | .post j secure n _ =>
    let p := s.post j secure n
    if writeAccess s (.relay i) (regOf off) != .allow || !postExists secure n || outbound secure n.val
        || (s.stall j).page.state == 1 then s
    else if p.full || claimedByOther p (.relay i) then s.rejectPost (.relay i) j secure n
    else s.modPost j secure n fun p =>
      sendPost { p with buf := fillBuf (Vector.replicate 256 0) buf } (.relay i) (put len 0) (noReceiver secure n)
  | _ => s

/-- The target performs the request as a requester of the stall, and answers (R322). -/
def relayServe (i : Stall) (m : Member) (op : RelayOp) (s : State) : Host.Outcome State Fault Refusal :=
  match op with
  | .read32 w =>
    if meetsDebug s (.relay i) (wordOff w) then .refused .debugRegisters
    else
      let (v, s1) := readReg s (.relay i) (wordOff w) 0
      .next (s1.send (.relayResponse i m 0 v))
  | .write32 w v =>
    if meetsDebug s (.relay i) (wordOff w) then .refused .debugRegisters
    else .next ((s.hostWrite (.relay i) (wordOff w) v).send
      (.relayResponse i m (if relayRejected s i (wordOff w) then 1 else 0) 0))
  | .post w len buf =>
    .next ((relayPostTo i (wordOff w) len buf s).send (.relayResponse i m (if relayRejected s i (wordOff w) then 1 else 0) 0))

/-- RELAY_REQUEST (R322): its arrival returns the module to ACTIVE (R443), and the target serves it. -/
def execRelayRequest (i : Stall) (m : Member) (op : RelayOp) (s : State) : Host.Outcome State Fault Refusal :=
  relayServe i m op s.rouse

/-! ### SMBus (R479) -/

/-- SMBUS_MCTP (R448, R479, R444): the Waystation answers on AUX3V3 alone. What an answer to a base control message holds
is DMTF's, and a free value here. -/
def execSmbusMctp (q : MctpRequest) (s : State) : Host.Outcome State Fault Refusal :=
  if !s.power.aux then .next s
  else match q with
    | .readPower o => .next (s.send (.mctp (regValue s .waystation (regOf (0xB00000 + o.setWidth 26)))))
    | .readIdent o => .next (s.send (.mctp (identValue s o.toNat)))
    | .voteWrite i v => .next (writeVote i v s)
    | .control =>
      let (w, s1) := s.drawWord
      .next (s1.send (.mctp w))

end Sys2Proof.Machine
end

