-- ==== Sys2Proof/Machine/Tap.lean ====
section
/-! DEFINITION. The JTAG TAP (R418, R476): the controller of IEEE 1149.1, its mandatory instructions and IDCODE. -/

namespace Sys2Proof.Machine

/-- The next controller state on a rising edge of TCK, by TMS (IEEE 1149.1). -/
def TapState.next (t : TapState) (tms : Bool) : TapState :=
  match t, tms with
  | .reset, true => .reset
  | .reset, false => .idle
  | .idle, true => .selectDr
  | .idle, false => .idle
  | .selectDr, true => .selectIr
  | .selectDr, false => .captureDr
  | .captureDr, true => .exit1Dr
  | .captureDr, false => .shiftDr
  | .shiftDr, true => .exit1Dr
  | .shiftDr, false => .shiftDr
  | .exit1Dr, true => .updateDr
  | .exit1Dr, false => .pauseDr
  | .pauseDr, true => .exit2Dr
  | .pauseDr, false => .pauseDr
  | .exit2Dr, true => .updateDr
  | .exit2Dr, false => .shiftDr
  | .updateDr, true => .selectDr
  | .updateDr, false => .idle
  | .selectIr, true => .reset
  | .selectIr, false => .captureIr
  | .captureIr, true => .exit1Ir
  | .captureIr, false => .shiftIr
  | .shiftIr, true => .exit1Ir
  | .shiftIr, false => .shiftIr
  | .exit1Ir, true => .updateIr
  | .exit1Ir, false => .pauseIr
  | .pauseIr, true => .exit2Ir
  | .pauseIr, false => .pauseIr
  | .exit2Ir, true => .updateIr
  | .exit2Ir, false => .shiftIr
  | .updateIr, true => .selectDr
  | .updateIr, false => .idle

/-- A shift register after one shift: the first bit leaves, TDI enters behind the last. -/
def shiftIn (l : List Bool) (tdi : Bool) : List Bool := l.drop 1 ++ (if l.isEmpty then [] else [tdi])

/-- What an instruction's data register captures: BYPASS one zero, IDCODE its 32 bits from bit 0 up. -/
def captureDr (s : State) : List Bool :=
  match s.tap.instr.val with
  | 1 => (List.range 32).map fun k => bit (Config.idcode ++ (1 : BitVec 1)) k
  | 2 => Config.boundary s.free
  | _ => [false]

/-- The instruction of a code: all ones is BYPASS (IEEE 1149.1). -/
def instructionOf (l : List Bool) : Fin 4 := if l.all id then 0 else Config.tapInstruction l

/-- A rising edge of TCK: the action of the state that is left, then the transition. -/
def State.tapRise (s : State) (tms tdi : Bool) : State :=
  let t := s.tap
  let u := { t with tck := true, state := t.state.next tms }
  match t.state with
  | .captureDr => { s with free := s.free + 1, tap := { u with shift := captureDr s } }
  | .shiftDr => { s with tap := { u with shift := shiftIn t.shift tdi } }
  | .captureIr => { s with tap := { u with irShift := [true, false] ++ Config.tapCapture } }
  | .shiftIr => { s with tap := { u with irShift := shiftIn t.irShift tdi } }
  | _ => { s with tap := u }

/-- A falling edge of TCK: TDO changes, and Update-IR takes effect; TDO is driven in the shift states alone. -/
def State.tapFall (s : State) : State :=
  let t := s.tap
  let u := { t with
    tck := false
    tdo := match t.state with
      | .shiftDr => some (t.shift.headD false)
      | .shiftIr => some (t.irShift.headD false)
      | _ => none }
  match t.state with
  | .updateIr => { s with tap := { u with instr := instructionOf t.irShift } }
  | .reset => { s with tap := { u with instr := 1 } }
  | _ => { s with tap := u }

/-- JTAG_TAP (R418): the levels of TCK, TMS, TDI and TRST_N change. Any instruction beyond the mandatory ones and IDCODE
acts as BYPASS while the debug state is not FULL; in FULL no rule says what it does. -/
def execJtagTap (tck tms tdi trstN : Bool) (s : State) : Host.Outcome State Fault Refusal :=
  if !trstN then .next { s with tap := { s.tap with state := .reset, tck := tck, instr := 1, tdo := none } }
  else if tck && !s.tap.tck then
    (if s.tap.instr = 3 ∧ s.tollgate.debugFull ∧ s.tap.state = .captureDr then .refused .debugRegisters
     else .next (s.tapRise tms tdi))
  else if !tck && s.tap.tck then .next s.tapFall
  else .next s

end Sys2Proof.Machine
end

