-- ==== Sys2Proof/Machine/Dispatch.lean ====
section
/-! DEFINITION. What each command does: one arm for each command, each a call of its meaning. -/

namespace Sys2Proof.Machine

def exec (i : Instr) (s : State) : Host.Outcome State Fault Refusal :=
  match i with
  | .registerWrite r off v => Sys2Proof.Machine.execRegisterWrite r off v s
  | .writeLowHalf r off v => Sys2Proof.Machine.execWriteLowHalf r off v s
  | .writeHighHalf r off v => Sys2Proof.Machine.execWriteHighHalf r off v s
  | .readLowHalf r off => Sys2Proof.Machine.execReadLowHalf r off s
  | .w1cWrite r off v sets => Sys2Proof.Machine.execW1cWrite r off v sets s
  | .rcRead r off events => Sys2Proof.Machine.execRcRead r off events s
  | .permanentCoreFault d pc reason => Sys2Proof.Machine.execPermanentCoreFault d pc reason s
  | .spareReady st m => Sys2Proof.Machine.execSpareReady st m s
  | .d2dLinkRetire l => Sys2Proof.Machine.execD2dLinkRetire l s
  | .sourceFailover p src standbyLights => Sys2Proof.Machine.execSourceFailover p src standbyLights s
  | .standbySourceFailed p => Sys2Proof.Machine.execStandbySourceFailed p s
  | .interlockLost => Sys2Proof.Machine.execInterlockLost s
  | .pllLockLoss domain => Sys2Proof.Machine.execPllLockLoss domain s
  | .osc156Stop => Sys2Proof.Machine.execOsc156Stop s
  | .syncFlitSend st => Sys2Proof.Machine.execSyncFlitSend st s
  | .syncFlitReceive st p stamp hops => Sys2Proof.Machine.execSyncFlitReceive st p stamp hops s
  | .delayMeasure p ns => Sys2Proof.Machine.execDelayMeasure p ns s
  | .holdover st => Sys2Proof.Machine.execHoldover st s
  | .syncedLost st => Sys2Proof.Machine.execSyncedLost st s
  | .outOfStep st => Sys2Proof.Machine.execOutOfStep st s
  | .leadChange st => Sys2Proof.Machine.execLeadChange st s
  | .marchOrigin st => Sys2Proof.Machine.execMarchOrigin st s
  | .tick st => Sys2Proof.Machine.execTick st s
  | .entryComplete st e dt => Sys2Proof.Machine.execEntryComplete st e dt s
  | .settleLate st m time => Sys2Proof.Machine.execSettleLate st m time s
  | .haltFlit st m code reason => Sys2Proof.Machine.execHaltFlit st m code reason s
  | .haltBroadcast st => Sys2Proof.Machine.execHaltBroadcast st s
  | .verdictWord st w => Sys2Proof.Machine.execVerdictWord st w s
  | .verdictLost st => Sys2Proof.Machine.execVerdictLost st s
  | .federationWord st w => Sys2Proof.Machine.execFederationWord st w s
  | .federationWordTimeout st => Sys2Proof.Machine.execFederationWordTimeout st s
  | .caravanVerdict st v => Sys2Proof.Machine.execCaravanVerdict st v s
  | .decisionLost st => Sys2Proof.Machine.execDecisionLost st s
  | .start r st withStopNow => Sys2Proof.Machine.execStart r st withStopNow s
  | .single r st => Sys2Proof.Machine.execSingle r st s
  | .stop r st => Sys2Proof.Machine.execStop r st s
  | .stopNow r st => Sys2Proof.Machine.execStopNow r st s
  | .accept r st => Sys2Proof.Machine.execAccept r st s
  | .discard r st => Sys2Proof.Machine.execDiscard r st s
  | .commandRelay st c => Sys2Proof.Machine.execCommandRelay st c s
  | .matmul c index => Sys2Proof.Machine.execMatmul c index s
  | .governorStep c a => Sys2Proof.Machine.execGovernorStep c a s
  | .governorHoldExpire c a => Sys2Proof.Machine.execGovernorHoldExpire c a s
  | .spmm c index => Sys2Proof.Machine.execSpmm c index s
  | .ragged c index => Sys2Proof.Machine.execRagged c index s
  | .dispatchMain c index => Sys2Proof.Machine.execDispatchMain c index s
  | .dispatchSpill c index => Sys2Proof.Machine.execDispatchSpill c index s
  | .combine c index => Sys2Proof.Machine.execCombine c index s
  | .assay c index => Sys2Proof.Machine.execAssay c index s
  | .coreChooserWrite r c v => Sys2Proof.Machine.execCoreChooserWrite r c v s
  | .vmapCopy c index => Sys2Proof.Machine.execVmapCopy c index s
  | .vmapAdd c index => Sys2Proof.Machine.execVmapAdd c index s
  | .vmapMul c index => Sys2Proof.Machine.execVmapMul c index s
  | .vmapFma c index => Sys2Proof.Machine.execVmapFma c index s
  | .vmapMax c index => Sys2Proof.Machine.execVmapMax c index s
  | .vmapMin c index => Sys2Proof.Machine.execVmapMin c index s
  | .vmapScale c index => Sys2Proof.Machine.execVmapScale c index s
  | .vfunc c index => Sys2Proof.Machine.execVfunc c index s
  | .vderivTable c index => Sys2Proof.Machine.execVderivTable c index s
  | .vderivBits c index => Sys2Proof.Machine.execVderivBits c index s
  | .vdropForward c index => Sys2Proof.Machine.execVdropForward c index s
  | .vdropBackward c index => Sys2Proof.Machine.execVdropBackward c index s
  | .vsum c index => Sys2Proof.Machine.execVsum c index s
  | .copyEntry e index => Sys2Proof.Machine.execCopyEntry e index s
  | .copyBatchTake e borrowed => Sys2Proof.Machine.execCopyBatchTake e borrowed s
  | .copyBatchComplete e => Sys2Proof.Machine.execCopyBatchComplete e s
  | .cpyQtailWrite r e v => Sys2Proof.Machine.execCpyQtailWrite r e v s
  | .cpyQsizeWrite r e v => Sys2Proof.Machine.execCpyQsizeWrite r e v s
  | .cpyQreset r e v => Sys2Proof.Machine.execCpyQreset r e v s
  | .cpyQen r e v => Sys2Proof.Machine.execCpyQen r e v s
  | .contribute st index => Sys2Proof.Machine.execContribute st index s
  | .ledgerSendUp st bucket => Sys2Proof.Machine.execLedgerSendUp st bucket s
  | .ledgerSegment st g => Sys2Proof.Machine.execLedgerSegment st g s
  | .shortNotice st h => Sys2Proof.Machine.execShortNotice st h s
  | .ldgFenceWrite r st reg v => Sys2Proof.Machine.execLdgFenceWrite r st reg v s
  | .forget r st => Sys2Proof.Machine.execForget r st s
  | .ldgHeadroomWrite r st v => Sys2Proof.Machine.execLdgHeadroomWrite r st v s
  | .settle st index => Sys2Proof.Machine.execSettle st index s
  | .settled st m march step => Sys2Proof.Machine.execSettled st m march step s
  | .recordRequest st => Sys2Proof.Machine.execRecordRequest st s
  | .recordAnswer st m => Sys2Proof.Machine.execRecordAnswer st m s
  | .settleUnconfirmed st m => Sys2Proof.Machine.execSettleUnconfirmed st m s
  | .stlStepWrite r st v => Sys2Proof.Machine.execStlStepWrite r st v s
  | .tlyStatsWrite r st which v => Sys2Proof.Machine.execTlyStatsWrite r st which v s
  | .tlyKWrite r st v => Sys2Proof.Machine.execTlyKWrite r st v s
  | .lotSeedWrite r st v => Sys2Proof.Machine.execLotSeedWrite r st v s
  | .lotTestCall r st v => Sys2Proof.Machine.execLotTestCall r st v s
  | .lotTestDone st => Sys2Proof.Machine.execLotTestDone st s
  | .memCorrected u errors => Sys2Proof.Machine.execMemCorrected u errors s
  | .ceRate u => Sys2Proof.Machine.execCeRate u s
  | .memUncorrectable u bay row => Sys2Proof.Machine.execMemUncorrectable u bay row s
  | .memRepeatRead u bay row errors => Sys2Proof.Machine.execMemRepeatRead u bay row errors s
  | .patrolScrub u errors => Sys2Proof.Machine.execPatrolScrub u errors s
  | .rebuildRow serai => Sys2Proof.Machine.execRebuildRow serai s
  | .refit st => Sys2Proof.Machine.execRefit st s
  | .cxlMemRead l offset len uncorrectable => Sys2Proof.Machine.execCxlMemRead l offset len uncorrectable s
  | .cxlMemWrite l offset data => Sys2Proof.Machine.execCxlMemWrite l offset data s
  | .backInvalidateResponse w => Sys2Proof.Machine.execBackInvalidateResponse w s
  | .seraiHoldRoom ch => Sys2Proof.Machine.execSeraiHoldRoom ch s
  | .routeSend st index => Sys2Proof.Machine.execRouteSend st index s
  | .banditDelayExpire p => Sys2Proof.Machine.execBanditDelayExpire p s
  | .flitReceive p f ueLanes => Sys2Proof.Machine.execFlitReceive p f ueLanes s
  | .receivedTransfer st index => Sys2Proof.Machine.execReceivedTransfer st index s
  | .nak p ack => Sys2Proof.Machine.execNak p ack s
  | .replayTimeout p => Sys2Proof.Machine.execReplayTimeout p s
  | .auditFlit p cls granted spent held => Sys2Proof.Machine.execAuditFlit p cls granted spent held s
  | .retireMessage p lane seq => Sys2Proof.Machine.execRetireMessage p lane seq s
  | .identMessage p m => Sys2Proof.Machine.execIdentMessage p m s
  | .portReturn p => Sys2Proof.Machine.execPortReturn p s
  | .relayRead32 r ctrl => Sys2Proof.Machine.execRelayRead32 r ctrl s
  | .relayWrite32 r ctrl => Sys2Proof.Machine.execRelayWrite32 r ctrl s
  | .relayPost r ctrl => Sys2Proof.Machine.execRelayPost r ctrl s
  | .relayRequest st from_ op => Sys2Proof.Machine.execRelayRequest st from_ op s
  | .relayResponse result data => Sys2Proof.Machine.execRelayResponse result data s
  | .relayTimeout => Sys2Proof.Machine.execRelayTimeout s
  | .relayEvent st m vector => Sys2Proof.Machine.execRelayEvent st m vector s
  | .relayEventRead r => Sys2Proof.Machine.execRelayEventRead r s
  | .recalGo r p v => Sys2Proof.Machine.execRecalGo r p v s
  | .recalAuto p => Sys2Proof.Machine.execRecalAuto p s
  | .recalComplete p => Sys2Proof.Machine.execRecalComplete p s
  | .probeBurst p => Sys2Proof.Machine.execProbeBurst p s
  | .lightIn p => Sys2Proof.Machine.execLightIn p s
  | .portDark p => Sys2Proof.Machine.execPortDark p s
  | .mateOpen p => Sys2Proof.Machine.execMateOpen p s
  | .mateClose p => Sys2Proof.Machine.execMateClose p s
  | .rteBanditWrite r p v => Sys2Proof.Machine.execRteBanditWrite r p v s
  | .chtPortDataWrite r st v => Sys2Proof.Machine.execChtPortDataWrite r st v s
  | .load r st => Sys2Proof.Machine.execLoad r st s
  | .charterAccepted st => Sys2Proof.Machine.execCharterAccepted st s
  | .unload r st => Sys2Proof.Machine.execUnload r st s
  | .cancel r st => Sys2Proof.Machine.execCancel r st s
  | .acceptedWord st m epoch seq => Sys2Proof.Machine.execAcceptedWord st m epoch seq s
  | .withdraw st m => Sys2Proof.Machine.execWithdraw st m s
  | .updateFunction st secure => Sys2Proof.Machine.execUpdateFunction st secure s
  | .updateCoef st secure => Sys2Proof.Machine.execUpdateCoef st secure s
  | .cxlLinkDown l => Sys2Proof.Machine.execCxlLinkDown l s
  | .cxlHotReset l => Sys2Proof.Machine.execCxlHotReset l s
  | .stallReset r st => Sys2Proof.Machine.execStallReset r st s
  | .heartbeat r st => Sys2Proof.Machine.execHeartbeat r st s
  | .arm r st v => Sys2Proof.Machine.execArm r st v s
  | .claim l st => Sys2Proof.Machine.execClaim l st s
  | .arbiterFrame reqs => Sys2Proof.Machine.execArbiterFrame reqs s
  | .postWrite r st secure n word v => Sys2Proof.Machine.execPostWrite r st secure n word v s
  | .postSend r st secure n v => Sys2Proof.Machine.execPostSend r st secure n v s
  | .postAck st secure n code reply => Sys2Proof.Machine.execPostAck st secure n code reply s
  | .postTake r st secure n => Sys2Proof.Machine.execPostTake r st secure n s
  | .postNotice st secure n msg => Sys2Proof.Machine.execPostNotice st secure n msg s
  | .configRequest l => Sys2Proof.Machine.execConfigRequest l s
  | .qmWatchdog d => Sys2Proof.Machine.execQmWatchdog d s
  | .tollgateWatchdog => Sys2Proof.Machine.execTollgateWatchdog s
  | .exchangePut st secure n => Sys2Proof.Machine.execExchangePut st secure n s
  | .exchangeGet st secure n => Sys2Proof.Machine.execExchangeGet st secure n s
  | .recoveryPut st => Sys2Proof.Machine.execRecoveryPut st s
  | .install st => Sys2Proof.Machine.execInstall st s
  | .kex st => Sys2Proof.Machine.execKex st s
  | .commit st => Sys2Proof.Machine.execCommit st s
  | .waybillRequest st => Sys2Proof.Machine.execWaybillRequest st s
  | .compose st => Sys2Proof.Machine.execCompose st s
  | .fullReset st => Sys2Proof.Machine.execFullReset st s
  | .clearRetired st => Sys2Proof.Machine.execClearRetired st s
  | .enrolKey st => Sys2Proof.Machine.execEnrolKey st s
  | .revokeKey st => Sys2Proof.Machine.execRevokeKey st s
  | .image st => Sys2Proof.Machine.execImage st s
  | .commitSvn st => Sys2Proof.Machine.execCommitSvn st s
  | .debugStall st => Sys2Proof.Machine.execDebugStall st s
  | .debugFull st => Sys2Proof.Machine.execDebugFull st s
  | .setThresh st => Sys2Proof.Machine.execSetThresh st s
  | .setPower st => Sys2Proof.Machine.execSetPower st s
  | .customsDeny st unit cause va => Sys2Proof.Machine.execCustomsDeny st unit cause va s
  | .componentRestart => Sys2Proof.Machine.execComponentRestart s
  | .componentReady => Sys2Proof.Machine.execComponentReady s
  | .imageRollback => Sys2Proof.Machine.execImageRollback s
  | .powerOn => Sys2Proof.Machine.execPowerOn s
  | .inputReset channel => Sys2Proof.Machine.execInputReset channel s
  | .perstN ns => Sys2Proof.Machine.execPerstN ns s
  | .pwrokRise seatCode bootsrc clkmode => Sys2Proof.Machine.execPwrokRise seatCode bootsrc clkmode s
  | .bringup rep => Sys2Proof.Machine.execBringup rep s
  | .startTimeout => Sys2Proof.Machine.execStartTimeout s
  | .startRetry => Sys2Proof.Machine.execStartRetry s
  | .channelSample ch raw => Sys2Proof.Machine.execChannelSample ch raw s
  | .throttleStep c => Sys2Proof.Machine.execThrottleStep c s
  | .powerCap => Sys2Proof.Machine.execPowerCap s
  | .thermalHaltEnd => Sys2Proof.Machine.execThermalHaltEnd s
  | .thermalTrip ch => Sys2Proof.Machine.execThermalTrip ch s
  | .brace rail => Sys2Proof.Machine.execBrace rail s
  | .braceEnd => Sys2Proof.Machine.execBraceEnd s
  | .haltSupply => Sys2Proof.Machine.execHaltSupply s
  | .railFault d pc => Sys2Proof.Machine.execRailFault d pc s
  | .pwrVoteWrite r st v => Sys2Proof.Machine.execPwrVoteWrite r st v s
  | .wakeMessage => Sys2Proof.Machine.execWakeMessage s
  | .wakeTimer => Sys2Proof.Machine.execWakeTimer s
  | .smbusMctp q => Sys2Proof.Machine.execSmbusMctp q s
  | .aux3v3Loss => Sys2Proof.Machine.execAux3v3Loss s
  | .takeoverWait st => Sys2Proof.Machine.execTakeoverWait st s
  | .mirrorApply st march totals tariffs => Sys2Proof.Machine.execMirrorApply st march totals tariffs s
  | .ckptJobDone st => Sys2Proof.Machine.execCkptJobDone st s
  | .buddyCkptReceive st m header data => Sys2Proof.Machine.execBuddyCkptReceive st m header data s
  | .restore r st => Sys2Proof.Machine.execRestore r st s
  | .fltMirrorWrite r st v => Sys2Proof.Machine.execFltMirrorWrite r st v s
  | .cxlLinkTraining l rate width flit256 cxl3 => Sys2Proof.Machine.execCxlLinkTraining l rate width flit256 cxl3 s
  | .memberReady st m => Sys2Proof.Machine.execMemberReady st m s
  | .jtagTap tck tms tdi trstN => Sys2Proof.Machine.execJtagTap tck tms tdi trstN s

end Sys2Proof.Machine
end

