-- ==== Sys2Proof/Machine/Idle.lean ====
section
/-! DEFINITION. What the block does when no command waits (log entry 5). -/

namespace Sys2Proof.Machine

/-- One nanosecond passes on the timebase (R39); stall resets that have begun come to their end (R372, log entry 17), and
retirements reach their last step (R290); the power state follows the votes (R443, R444). -/
def State.idle (s : State) : State :=
  (({ s with time := s.time + 1 } : State).finishResets.finishRetirements.settlePower).enterStandby

end Sys2Proof.Machine
end

