-- ==== Sys2Proof/Safety.lean ====
section
/-! DEFINITION. What statements about the machine are said in: the invariant of its states, what a command leaves
unchanged, and when a command runs. -/

namespace Sys2Proof.Safety

open Sys2Proof.Machine

/-- The invariant of every state: the memory is in its canonical form, the fault log holds at most 1,024 records (R468)
and the relay's queue at most 64 events (R323). -/
def Sane (s : State) : Prop :=
  memWf s.mem = true ∧ s.log.ring.length ≤ 1024 ∧ s.fabric.relay.events.length ≤ 64

/-- An outcome that keeps the invariant: its state, if it is one, satisfies it. -/
def SaneOut : Host.Outcome State Fault Refusal → Prop
  | .next t => Sane t
  | _ => True

/-- A command runs from a state to a next state, of which something holds. -/
def Runs (c : Instr) (s : State) (post : State → Prop) : Prop := ∃ t, exec c s = .next t ∧ post t

/-- Where a command stops, and how (NOTES.md, Stops): an access to the DEBUG block while a debug path is open (R418), stress
beyond Table 17-7 (R486), the capture of a TAP instruction that no rule describes. -/
def stopOf (c : Instr) (s : State) : Option (Host.Outcome State Fault Refusal) :=
  let debug (b : Bool) : Option (Host.Outcome State Fault Refusal) := if b then some (.refused .debugRegisters) else none
  match c with
  | .registerWrite r off _ | .writeLowHalf r off _ | .writeHighHalf r off _ | .w1cWrite r off _ _
  | .readLowHalf r off | .rcRead r off _ => debug (meetsDebug s r off)
  | .relayRequest i _ (.read32 w) | .relayRequest i _ (.write32 w _) => debug (meetsDebug s (.relay i) (wordOff w))
  | .jtagTap tck _ _ trstN =>
    debug (trstN && tck && !s.tap.tck && s.tap.instr == 3 && s.tollgate.debugFull && s.tap.state == .captureDr)
  | .channelSample ch raw => if beyondTable ch.val raw then some (.fault .beyondRatings) else none
  | _ => none

/-- The window takes a requester's write at an offset (R370, R371). -/
def Allowed (s : State) (r : Requester) (off : BitVec 26) : Prop := writeAccess s r (regOf off) = .allow

/-! ### Frames -/

/-- The register groups of one stall. -/
inductive StallPart where
  | march | sync | seq | ledger | settle | tally | lot | charter | page | posts | secure | customs | service | xchg
  deriving DecidableEq, Repr

/-- The parts of the state that a frame speaks of. -/
inductive Part where
  | pending | out | free | time | data | held | caught | mem | anatomy
  | stall (i : Stall) (k : StallPart)
  | core (k : CoreId)
  | engine (e : EngineId)
  | stack (k : Fin 8)
  | channel (k : Fin 24)
  /-- the states and rebuilds of the parity groups, the repeat reads scheduled and the units that are FAILING -/
  | groups
  /-- the bytes that wait for a host's response -/
  | snoops
  | port (p : PortId)
  | optic (p : PortId)
  | lnk (p : PortId)
  | relay
  /-- the identities delivered in the attempt, and the bytes received for each entry -/
  | delivered
  /-- the messages that are not yet whole, and those counted as sent in the attempt -/
  | messages
  | host (l : LinkId)
  | arbiter | tollgate | starts | power | pins | tap | log
  deriving DecidableEq, Repr

/-- Two stalls agree in a group of registers. -/
def sameIn (a b : StallState) : StallPart → Prop
  | .march => b.march = a.march
  | .sync => b.sync = a.sync
  | .seq => b.seq = a.seq
  | .ledger => b.ledger = a.ledger
  | .settle => b.settle = a.settle
  | .tally => b.tally = a.tally
  | .lot => b.lot = a.lot
  | .charter => b.charter = a.charter
  | .page => b.page = a.page
  | .posts => b.posts = a.posts
  | .secure => b.secure = a.secure
  | .customs => b.customs = a.customs
  | .service => b.service = a.service
  | .xchg => b.xchg = a.xchg

/-- Two states agree in a part. -/
def sameAt (s t : State) : Part → Prop
  | .pending => t.pending = s.pending
  | .out => t.out = s.out
  | .free => t.free = s.free
  | .time => t.time = s.time
  | .data => t.data = s.data
  | .held => t.held = s.held
  | .caught => t.caught = s.caught
  | .mem => t.mem = s.mem
  | .anatomy => t.anatomy = s.anatomy
  | .stall i k => sameIn (s.stall i) (t.stall i) k
  | .core k => t.core k = s.core k
  | .engine e => t.engine e = s.engine e
  | .stack k => t.tiers.near[k] = s.tiers.near[k]
  | .channel k => t.tiers.serai[k] = s.tiers.serai[k]
  | .groups => t.tiers.nearGroups = s.tiers.nearGroups ∧ t.tiers.nearRebuilds = s.tiers.nearRebuilds
      ∧ t.tiers.nearTurn = s.tiers.nearTurn ∧ t.tiers.seraiGroup = s.tiers.seraiGroup
      ∧ t.tiers.seraiRebuild = s.tiers.seraiRebuild ∧ t.tiers.repeatReads = s.tiers.repeatReads
      ∧ t.tiers.failing = s.tiers.failing
  | .snoops => t.tiers.snoops = s.tiers.snoops
  | .port p => t.port p = s.port p
  | .optic p => t.optic p = s.optic p
  | .lnk p => t.lnk p = s.lnk p
  | .relay => t.fabric.relay = s.fabric.relay
  | .delivered => t.fabric.delivered = s.fabric.delivered ∧ t.fabric.got = s.fabric.got
  | .messages => t.fabric.inbound = s.fabric.inbound ∧ t.fabric.sentMsgs = s.fabric.sentMsgs
  | .host l => t.host l = s.host l
  | .arbiter => t.arbiter = s.arbiter
  | .tollgate => t.tollgate = s.tollgate
  | .starts => t.starts = s.starts
  | .power => t.power = s.power
  | .pins => t.pins = s.pins
  | .tap => t.tap = s.tap
  | .log => t.log = s.log

/-- From `s` to `t` nothing changes but the parts named. -/
def Unchanged (s t : State) (changed : List Part) : Prop := ∀ p, p ∉ changed → sameAt s t p

/-- Every group of registers of a stall. -/
def wholeStall (i : Stall) : List Part :=
  [.march, .sync, .seq, .ledger, .settle, .tally, .lot, .charter, .page, .posts, .secure, .customs, .service, .xchg].map (Part.stall i)

/-- The units of one kind. -/
def everyCore : List Part := (List.finRange 32).map Part.core
def everyEngine : List Part := (List.finRange 8).map Part.engine
def everyHost : List Part := (List.finRange 4).map Part.host
def everyPort : List Part := (List.finRange 8).flatMap fun p => [Part.port p, Part.optic p, Part.lnk p]
def everyStall : List Part := allStalls.flatMap wholeStall

/-- What a stored byte may change: the memory, and the channels that hold or count writes. -/
def tierParts : List Part :=
  .mem :: (List.finRange 8).map Part.stack ++ (List.finRange 24).map Part.channel

/-- What an engine's store may change: a byte of a host-visible line is held and its line snooped (R300). -/
def storeParts : List Part := .out :: .snoops :: tierParts

/-- The parts that a verdict and what follows from it may change: the registers of the march and of what a march ends
with, what the block sends, and the fault log. -/
def marchParts (i : Stall) : List Part :=
  [.out, .log] ++ ([.march, .seq, .ledger, .settle, .tally, .service] : List StallPart).map (Part.stall i)

/-- What a message that the module queues on a port may change (R309, R313, R335). -/
def queueParts : List Part := .out :: .log :: .messages :: everyPort

/-- The audits of a stall find no mismatch (R200, R246, R451). -/
def AuditsAgree (s : State) (i : Stall) : Prop :=
  tokensAgree (s.stall i).ledger = true
  ∧ (∀ e : EngineId, engineStall s e = some i → (s.engine e).accepted = (s.engine e).completed + queued (s.engine e))
  ∧ ∀ (secure : Bool) (n : Fin 24), (s.post i secure n).sent = (s.post i secure n).acked + (if (s.post i secure n).full then 1 else 0)

/-- A sync flit with its stamp and hops leaves for everyone that a member sends sync flits to (R41). -/
def SyncsTo (s t : State) (i : Stall) (c : Charter) (u : StallState) (stamp : BitVec 64) (hops : BitVec 8) : Prop :=
  ∀ x ∈ syncTargets u c, ∀ e, exitPort s c u x.1 x.2.1 none = some e →
    Out.sync i e.1 x.1 x.2.1 stamp (hops + BitVec.ofNat 8 x.2.2) ∈ t.out

/-! ### Stored bytes -/

/-- A place whose written bytes are read back at once: its unit serves it, or the parity of its row keeps its data; its
location holds no uncorrectable error; and no brace holds a write to its channel or to that of its row's parity. -/
def Plain (s : State) (p : Place) : Prop :=
  ∀ c, cellOf p = some c → keepsByte s.tiers c = true ∧ rawCell s.tiers c = false
    ∧ ∀ ch : Fin 24, .serai ch = c.unit ∨ .serai ch = parityUnit c.unit c.addr →
      (s.tiers.serai.get ch).braceHold = false ∧ (s.tiers.serai.get ch).buffer = [] ∧ (s.tiers.serai.get ch).waiting = []

/-- Two places that share no byte: their cells differ, and they do not take one Serai bay as a GUARDED and as a PLAIN bay
at once. -/
def Apart (p q : Place) : Prop :=
  placeKey p ≠ placeKey q ∧ ∀ b o g o' g', p = .serai b o g → q = .serai b o' g' → g = g'

/-- Addresses of a stall that are mapped to plain places, no two to one byte. -/
def PlainAt (s : State) (i : Stall) (addrs : Nat → Prop) : Prop :=
  (∀ a, addrs a → ∃ p, s.placeOf i a = some p ∧ Plain s p)
  ∧ ∀ a b p q, addrs a → addrs b → s.placeOf i a = some p → s.placeOf i b = some q → placeKey p = placeKey q → a = b

/-- Every byte but those at the given addresses of a stall reads as before. -/
def OnlyBytes (s t : State) (i : Stall) (addrs : Nat → Prop) : Prop :=
  ∀ q : Place, (∀ a p, addrs a → s.placeOf i a = some p → Apart p q) → t.readPlace q = s.readPlace q

/-- Is an address no pad position of a tensor (R197)? -/
def noPad (c : Charter) (ten : BitVec 512) (a : Nat) : Bool :=
  !(tPad ten && (match coordsOf ten (2 * a) with | some x => atPad c ten x | none => false))

/-- The addresses of codes of `n` bytes. -/
def codeAddrs (n : Nat) (l : List (Nat × Nat)) (a : Nat) : Prop := ∃ e ∈ l, e.1 ≤ a ∧ a < e.1 + n

/-- Codes of `n` bytes read back as they are listed, at the positions that are no pad position and no host-visible line. -/
def ReadBack (s t : State) (i : Stall) (c : Charter) (ten : BitVec 512) (n : Nat) (l : List (Nat × Nat)) : Prop :=
  ∀ e ∈ l, noPad c ten e.1 = true → (∀ b < n, hostVisible s i (e.1 + b) = false) → t.readNat i e.1 n = e.2 % 2 ^ (8 * n)

/-- The bytes of codes of `n` bytes at host-visible lines wait for the host, held for their writer (R300). -/
def HeldBack (s t : State) (w : Writer) (i : Stall) (c : Charter) (ten : BitVec 512) (n : Nat) (l : List (Nat × Nat)) : Prop :=
  ∀ e ∈ l, noPad c ten e.1 = true → ∀ b < n, hostVisible s i (e.1 + b) = true →
    (⟨w, i, e.1 + b, BitVec.ofNat 8 (e.2 / 256 ^ b)⟩ : HeldByte) ∈ t.tiers.snoops

/-- Codes of `n` bytes, listed with their addresses, are stored as elements of a tensor by a writer, and no other byte
changes. -/
def Stored (s t : State) (w : Writer) (i : Stall) (c : Charter) (ten : BitVec 512) (n : Nat) (l : List (Nat × Nat)) : Prop :=
  (PlainAt s i (codeAddrs n l) → l.Pairwise (fun x y => x.1 + n ≤ y.1 ∨ y.1 + n ≤ x.1) → ReadBack s t i c ten n l)
  ∧ HeldBack s t w i c ten n l
  ∧ OnlyBytes s t i (codeAddrs n l)

/-! ### Messages -/

/-- A flit stands in the queue of a port, or has been numbered and waits there for its acknowledgement (R311). -/
def Waits (s : State) (p : PortId) (f : Flit) : Prop :=
  (∃ q ∈ (s.lnk p).queue, q.flit = f)
  ∨ ∃ w ∈ (s.lnk p).window, numbered w.flit.header 0 0 false = f.header ∧ w.flit.payload = f.payload

/-- A message of a class leaves for a member: its flits wait on the port of its path (R308 to R310). -/
def Leaves (s t : State) (i : Stall) (c : Charter) (cls : Nat) (dst : Member × BitVec 6) (bs : List Byte) : Prop :=
  ∀ p b, exitPort s c (s.stall i) dst.1 dst.2 none = some (p, b) →
    ∃ n, ∀ f ∈ messageFlits cls dst (ownRole (s.stall i)) c.caravanIx n bs, Waits t p f

/-! ### Records and verdicts -/

/-- One more record stands in the fault log, with a reason (Table 16-7). -/
def Recorded (s t : State) (reason : Reason) : Prop :=
  t.log.newest = s.log.newest + 1 ∧ ∃ b : BitVec 256, t.log.ring = (b :: s.log.ring).take 1024 ∧ fld b 32 16 = reason

/-- A stall holds a caravan verdict and has acted on it (Tables 02-2 and 02-3). -/
def ActedOn (v : CaravanVerdict) (t : StallState) : Prop :=
  t.march.verdict = v
  ∧ (v.code = 1 → t.march.state = .settle ∧ t.seq.settles = true)
  ∧ (v.code = 3 ∨ v.code = 4 → t.march.state = .settle ∧ t.seq.noSettle = true)
  ∧ (v.code = 5 ∨ v.code = 6 ∨ v.code = 7 ∨ v.code = 8 → t.march.state = .waitRepeat)
  ∧ (v.code = 2 ∨ v.code = 9 ∨ v.code = 10 ∨ v.code = 11 ∨ v.code = 12 → t.march.state = .held)

/-! ### Registers that a read or a written one clears -/

/-- The part of the state that holds the counter of an RC register (Table 00-5) for a requester; none for a register
with another access code. The queue of relay events, which a read shortens, is not among them. -/
def rcHome (r : Requester) : Reg → Option Part
  | .march i o => if o = 0x30 ∨ o = 0x34 then some (.stall i .march) else none
  | .charter i o => if o = 0x48 ∨ o = 0x4C ∨ o = 0x50 then some (.stall i .charter) else none
  | .ledger i o =>
    if o = 0x0C ∨ o = 0x10 ∨ o = 0x14 ∨ o = 0x18 ∨ o = 0x1C ∨ o = 0x20 then some (.stall i .ledger) else none
  | .settle i o => if o = 0x1C ∨ o = 0x20 then some (.stall i .settle) else none
  | .tally i o =>
    if o = 0x20 ∨ o = 0x24 ∨ o = 0x28 ∨ o = 0x2C ∨ (0x400 ≤ o ∧ o < 0x800 ∧ o % 4 = 0) then some (.stall i .tally) else none
  | .copy e o => if o = 0x24 ∨ o = 0x28 ∨ o = 0x2C then some (.engine e) else none
  | .core k o =>
    if o = 0x04 ∨ o = 0x10 ∨ o = 0x14 ∨ o = 0x18 ∨ o = 0x1C ∨ o = 0x24 ∨ o = 0x30 ∨ o = 0x34 ∨ o = 0x38 ∨ o = 0x3C
      ∨ o = 0x104 ∨ o = 0x110 ∨ o = 0x114 ∨ o = 0x118 ∨ o = 0x11C ∨ o = 0x124 ∨ o = 0x130 ∨ o = 0x134 ∨ o = 0x138 ∨ o = 0x13C
      ∨ o = 0x144 ∨ o = 0x148 ∨ o = 0x14C ∨ o = 0x150 ∨ o = 0x204 ∨ o = 0x210 ∨ o = 0x214 then some (.core k) else none
  | .route p o => if o = 0x24 ∨ o = 0x28 then some (.port p) else if o = 0x60 then some (.lnk p) else none
  | .stall i o => if o = 0x20 ∨ o = 0x24 ∨ o = 0x28 ∨ o = 0x30 then some (.stall i .page) else none
  | .link o => match r with
    | .link l => if o = 0x04 ∨ o = 0x0C then some (.host l) else none
    | _ => none
  | .post i secure _ o => if o = 0x10C then some (.stall i (if secure then .secure else .posts)) else none
  | .customs i o => if o = 0x8004 then some (.stall i .customs) else none
  | _ => none

end Sys2Proof.Safety
end

