-- ==== Sys2Proof/Certificates/Slice0/Obligations.lean ====
section
/-! DEFINITION. The statements about the machine, for the provers: one for each family of commands and each kind of state,
each citing the rules of the spec it rests on. `Runs c s post` says that command `c` completes from `s` in a next state of
which `post` holds; `Unchanged s t l` is its frame. -/

open Sys2Proof Sys2Proof.Machine Sys2Proof.Safety

/-- A step runs the command at the front of the queue (95_what_each_step_holds.md). -/
def Obligations.StepServesFront : Prop :=
  ∀ (c : Instr) (rest : List Instr) (s : State), step { s with pending := c :: rest } = exec c { s with pending := rest }

/-- Every command completes in a next state, but for the named stops (R39, R418, R486, R476). -/
def Obligations.EveryCommandCompletes : Prop :=
  (∀ (c : Instr) (s : State), stopOf c s = none → ∃ t, exec c s = .next t)
  ∧ (∀ (c : Instr) (s : State) (o : Host.Outcome State Fault Refusal), stopOf c s = some o → exec c s = o)
  ∧ (∀ s : State, s.pending = [] → ∃ t, step s = .next t ∧ t.pending = [] ∧ t.time = s.time + 1)

/-- The state after reset satisfies the invariant (R468, R323). -/
def Obligations.ResetIsSane : Prop :=
  Sane State.reset ∧ State.reset.pending = []

/-- Every step keeps the invariant (R468, R323). -/
def Obligations.StepKeepsSane : Prop :=
  ∀ s t : State, Sane s → step s = .next t → Sane t

/-- The registers hold their reset values (Table 02-6, Table 08-6, Table 09-4, Table 12-13, Table 16-9, R338, R339,
R468). -/
def Obligations.ResetValues : Prop :=
  (∀ (r : Requester) (g : Reg) (p : Part), rcHome r g = some p → regValue State.reset r g = 0)
  ∧ (∀ i : Stall, (State.reset.stall i).march.state = .empty ∧ (State.reset.stall i).march.repeatLimit = 4
      ∧ (State.reset.stall i).ledger.headroom = 2 ∧ (State.reset.stall i).ledger.free = 512
      ∧ (State.reset.stall i).settle.step = 1
      ∧ regValue State.reset .tollgate (.tally i 0x00) = 0x00002006 ∧ (State.reset.stall i).tally.k = 0x40C00000
      ∧ (State.reset.stall i).tally.skipLimit = 3 ∧ (State.reset.stall i).charter.autoload = true
      ∧ (State.reset.stall i).service.mirrorMember = 0x7F ∧ (State.reset.stall i).service.wait = 10
      ∧ (State.reset.stall i).customs.lastRegion = 0x7FF)
  ∧ (∀ k : CoreId, (State.reset.core k).chooser = 350 ∧ (State.reset.core k).clock = 36)
  ∧ (∀ k : Fin 8, State.reset.tiers.near[k].ceLimit = 4096) ∧ (∀ k : Fin 24, State.reset.tiers.serai[k].ceLimit = 4096)
  ∧ (∀ p : PortId, (State.reset.port p).auto = true ∧ (State.reset.port p).state = 0
      ∧ regValue State.reset .tollgate (.route p 0x18) = 0x7FFC0000)
  ∧ State.reset.fabric.relay.member = 0x7F
  ∧ regValue State.reset .tollgate (.power 0x20) = 0x002D6E67
  ∧ State.reset.log.ring = [] ∧ State.reset.mem = []

/-- The low half of a pair is held for its requester; the high half commits both (R9). -/
def Obligations.PairsAreWrittenWhole : Prop :=
  ∀ (s : State) (r : Requester) (off : BitVec 26) (v : Word), Allowed s r off →
    (testBusy s (regOf off) = true → exec (.writeLowHalf r off v) s = .next s ∧ exec (.writeHighHalf r off v) s = .next s)
    ∧ (writableLow (regOf off) = true → testBusy s (regOf off) = false →
      Runs (.writeLowHalf r off v) s fun t =>
        t.heldLow r off = v
        ∧ (∀ (r' : Requester) (off' : BitVec 26), ¬(r' = r ∧ off' = off) → t.heldLow r' off' = s.heldLow r' off')
        ∧ Unchanged s t [.held])
    ∧ (writableHigh (regOf off) = true → testBusy s (regOf off) = false →
      exec (.writeHighHalf r off v) s = .next (commitPair (regOf off) (joinHalves (s.heldLow r (off - 4)) v) s))

/-- A low-then-high read of a pair returns one value (R10). -/
def Obligations.PairReadsAreConsistent : Prop :=
  ∀ (s : State) (r : Requester) (off : BitVec 26), lowHalf (regOf off) = true → mayRead s r (regOf off) = true →
    let pair := joinHalves (regValue s r (regOf off)) (regValue s r (regOf (off + 4)))
    Runs (.readLowHalf r off) s fun t =>
      t.data = loHalf pair ∧ Unchanged s t [.data, .caught]
      ∧ ∀ u : State, u.caught = t.caught → mayRead u r (regOf (off + 4)) = true →
          Runs (.readLowHalf r (off + 4)) u fun w => w.data = hiHalf pair ∧ Unchanged u w [.data, .caught]

/-- A read of an RC register answers its value and leaves the events of the same cycle (R11). -/
def Obligations.CountersClearWhenRead : Prop :=
  ∀ (s : State) (r : Requester) (off : BitVec 26) (events : Word) (p : Part),
    rcHome r (regOf off) = some p → mayRead s r (regOf off) = true →
    Runs (.rcRead r off events) s fun t =>
      t.data = regValue s r (regOf off) ∧ regValue t r (regOf off) = events ∧ Unchanged s t [.data, p]

/-- Writing one clears a W1C bit, and a setting in the same cycle wins (R11). -/
def Obligations.WrittenOnesClear : Prop :=
  ∀ (s : State) (r : Requester) (v sets : Word) (i : Stall) (p : PortId),
    (Allowed s r (marchOff i 0x04) → Runs (.w1cWrite r (marchOff i 0x04) v sets) s fun t =>
      (t.stall i).march.cmdIgnored = ((s.stall i).march.cmdIgnored && !bit v 6 || bit sets 6)
      ∧ Unchanged s t [.stall i .march])
    ∧ (Allowed s r (charterOff i 0x04) → Runs (.w1cWrite r (charterOff i 0x04) v sets) s fun t =>
      (t.stall i).charter.cmdIgnored = ((s.stall i).charter.cmdIgnored && !bit v 7 || bit sets 7)
      ∧ Unchanged s t [.stall i .charter])
    ∧ (Allowed s r (ledgerOff i 0x40) → Runs (.w1cWrite r (ledgerOff i 0x40) v sets) s fun t =>
      (t.stall i).ledger.auditFail = ((s.stall i).ledger.auditFail && !bit v 31 || bit sets 31)
      ∧ Unchanged s t [.stall i .ledger])
    ∧ (Allowed s r (tallyOff i 0x0C) → Runs (.w1cWrite r (tallyOff i 0x0C) v sets) s fun t =>
      (t.stall i).tally.alarm = ((s.stall i).tally.alarm &&& ~~~(fld v 0 4)) ||| fld sets 0 4
      ∧ Unchanged s t [.stall i .tally])
    ∧ (Allowed s r (routeOff p 0x00) → Runs (.w1cWrite r (routeOff p 0x00) v sets) s fun t =>
      (t.port p).banditDenied = ((s.port p).banditDenied && !bit v 18 || bit sets 18) ∧ Unchanged s t [.port p])
    ∧ (Allowed s r (routeOff p 0x2C) → Runs (.w1cWrite r (routeOff p 0x2C) v sets) s fun t =>
      (t.port p).auditFail = ((s.port p).auditFail && !bit v 31 || bit sets 31) ∧ Unchanged s t [.port p])
    ∧ (Allowed s r 0xB00004 → Runs (.w1cWrite r 0xB00004 v sets) s fun t =>
      t.power.alarm = (s.power.alarm &&& ~~~(fld v 0 9)) ||| fld sets 0 9
      ∧ t.pins.alertN = (t.power.alarm == 0) ∧ Unchanged s t [.power, .pins])

/-- A write of the window lands where it is allowed, and is dropped and counted where it is not (R8, R69, R370, R381,
R418). -/
def Obligations.WindowWritesAreGuarded : Prop :=
  ∀ (s : State) (r : Requester) (off : BitVec 26) (v : Word),
    (meetsDebug s r off = false → Allowed s r off → exec (.registerWrite r off v) s = .next (writeReg r off v s))
    ∧ (∀ (l : LinkId) (c : BitVec 4), r = .link l → meetsDebug s r off = false → writeAccess s r (regOf off) = .foreign c →
      c ≠ 3 → Runs (.registerWrite r off v) s fun t =>
        (t.host l).foreign = satAdd (s.host l).foreign 1
        ∧ (t.host l).foreignLast = put c 28 ||| put (fld off 2 24) 2 ∧ Unchanged s t [.host l])
    ∧ (∀ i : Stall, Allowed s r (marchOff i 0x2C) → Runs (.registerWrite r (marchOff i 0x2C) v) s fun t =>
        (t.stall i).march = { (s.stall i).march with repeatLimit := fld v 0 8 } ∧ Unchanged s t [.stall i .march])
    ∧ (∀ i : Stall, Allowed s r (stallOff i 0x1C) → Runs (.registerWrite r (stallOff i 0x1C) v) s fun t =>
        (t.stall i).page = { (s.stall i).page with vecEn := fld v 0 4 } ∧ Unchanged s t [.stall i .page])
    ∧ (∀ i : Stall, Allowed s r (settleOff i 0x0C) → exec (.registerWrite r (settleOff i 0x0C) v) s = .next s)
    ∧ (regOf off = .hole → Allowed s r off → exec (.registerWrite r off v) s = .next s)
    ∧ (meetsDebug s r off = true → exec (.registerWrite r off v) s = .refused .debugRegisters)

/-- Links train, answer configuration requests, and lose their stalls when they go down (R364, R365, R367, R368, R429,
R373, R374). -/
def Obligations.LinksTrainAndAnswer : Prop :=
  (∀ (s : State) (l : LinkId) (rate : BitVec 2) (width : BitVec 3) (flit256 cxl3 : Bool),
      (mayTrain s l = true → inL0 s l = false →
        Runs (.cxlLinkTraining l rate width flit256 cxl3) s fun t =>
          Unchanged s t [.host l]
          ∧ ((rate = 1 ∨ rate = 2 ∧ flit256 = true) ∧ width ≠ 0 ∧ width.toNat ≤ (modeWidth s.tollgate.mode).toNat →
              inL0 t l = true ∧ (t.host l).rate = rate ∧ (t.host l).width = width ∧ (t.host l).flit256 = flit256
              ∧ (t.host l).cxl3 = (cxl3 && flit256) ∧ (t.host l).mem = (flit256 && !s.tollgate.stranded))
          ∧ (rate = 0 ∨ rate = 2 ∧ flit256 = false → inL0 t l = false))
      ∧ (inL0 s l = true →
        Runs (.configRequest l) s fun t =>
          Unchanged s t [.out]
          ∧ t.out = s.out ++ [if s.power.state = 2 ∨ s.power.state = 3 ∨ s.tollgate.stranded = true then .configDone l
              else .configRetry l]))
  ∧ (∀ (s : State) (l : LinkId), inL0 s l = true →
      (standbyDue s = false →
        Runs (.cxlLinkDown l) s fun t =>
          inL0 t l = false ∧ (t.host l).keys = none ∧ (t.host l).secret = none ∧ (t.host l).ideIo = false
          ∧ (∀ i ∈ ownedBy s l, passes (s.modHost l downHost) i = false →
              (t.stall i).page.state = 1 ∧ (t.stall i).march = {} ∧ (t.stall i).settle = {})
          ∧ (∀ i ∈ ownedBy s l, passes (s.modHost l downHost) i = true →
              ownerLink (t.stall i).page = altLink (s.stall i).page ∧ (t.stall i).page.armed = false
              ∧ (t.stall i).march = (s.stall i).march)
          ∧ (∀ i, i ∉ ownedBy s l → t.stall i = s.stall i) ∧ t.mem = s.mem ∧ ∀ k, k ≠ l → t.host k = s.host k)
      ∧ Runs (.cxlHotReset l) s fun t =>
          (∀ i ∈ ownedBy s l, (t.stall i).page.state = 1 ∧ (t.stall i).march = {} ∧ (t.stall i).settle = {})
          ∧ (∀ i, i ∉ ownedBy s l → t.stall i = s.stall i) ∧ t.mem = s.mem ∧ ∀ k, t.host k = s.host k)

/-- A stall resets, beats and arms by its control register (R372, R374, R376, Table 13-11). -/
def Obligations.StallControl : Prop :=
  ∀ (s : State) (r : Requester) (i : Stall) (v : Word), Allowed s r (stallOff i 4) →
    ((s.stall i).page.comp.owner.isSome = true →
      Runs (.stallReset r i) s fun t =>
        (t.stall i).page.state = 1 ∧ (t.stall i).page.resetAt = some s.time ∧ (t.stall i).page.resets = (s.stall i).page.resets
        ∧ (t.stall i).march = {} ∧ (t.stall i).settle = {} ∧ (t.stall i).tally = {} ∧ (t.stall i).lot = {}
        ∧ (∀ secure n, t.post i secure n = {})
        ∧ (t.stall i).customs.regions = (s.stall i).customs.regions
        ∧ (∀ j, j ≠ i → t.stall j = s.stall j) ∧ t.mem = s.mem ∧ t.starts.cause = 9)
    ∧ (Runs (.heartbeat r i) s fun t =>
        (t.stall i).page = { (s.stall i).page with hbLast := s.time } ∧ Unchanged s t [.stall i .page])
    ∧ (bit v 0 = false →
      Runs (.arm r i v) s fun t =>
        (t.stall i).page.armed = (bit v 1 && ((s.stall i).page.armed || (altLink (s.stall i).page).isSome))
        ∧ (t.stall i).page.hbTimeout = fld v 8 8
        ∧ (bit v 2 = true → (t.stall i).page.hbLast = s.time) ∧ Unchanged s t [.stall i .page])

/-- A claim passes ownership only after the heartbeat has been silent (R375, R376). -/
def Obligations.ClaimNeedsSilence : Prop :=
  ∀ (s : State) (l : LinkId) (i : Stall), hasMessage s i true 2 0x02 = true → (s.post i true 2).sender = some l →
    let p := (s.stall i).page
    (altLink p = some l ∧ p.armed = true ∧ p.hbTimeout ≠ 0 ∧ p.hbLast.toNat + 1000000 * p.hbTimeout.toNat < s.time.toNat →
      Runs (.claim l i) s fun t =>
        ownerLink (t.stall i).page = some l ∧ (t.stall i).page.armed = false
        ∧ (t.post i true 2).full = false ∧ (t.post i true 2).ackDone = true ∧ (t.post i true 2).ackCode = 0
        ∧ Unchanged s t [.stall i .page, .stall i .secure, .log, .out])
    ∧ (¬(altLink p = some l ∧ p.armed = true ∧ p.hbTimeout ≠ 0
          ∧ p.hbLast.toNat + 1000000 * p.hbTimeout.toNat < s.time.toNat) →
      Runs (.claim l i) s fun t =>
        (t.post i true 2).full = false ∧ (t.post i true 2).ackCode = 0x0C06 ∧ Unchanged s t [.stall i .secure])

/-- Within its share a stall is not deferred (R377, R378, R379, R380). -/
def Obligations.FramesServeOwnersFirst : Prop :=
  ∀ (s : State) (reqs : List FrameRequest),
    Runs (.arbiterFrame reqs) s fun t =>
      t.time = maxU s.time (s.time + 256)
      ∧ Unchanged s t (.time :: .arbiter :: allStalls.map fun i => .stall i .page)
      ∧ ∀ i : Stall,
          (∀ k : Fin 6, ((reqs.filter fun q => q.resource == k && q.stall == i).map fun q => 10 * q.bytes).sum
            ≤ ownTenths s k i) →
          (t.stall i).page = (s.stall i).page

/-- A post takes one message, holds it, and is acknowledged (R382, R383, R384, R385). -/
def Obligations.PostsCarryMessages : Prop :=
  ∀ (s : State) (i : Stall) (secure : Bool) (n : Fin 24), postExists secure n = true →
    let p := s.post i secure n
    let part := Part.stall i (if secure then .secure else .posts)
    (outbound secure n.val = false →
      (∀ (l : LinkId) (word : Fin 64) (v : Word), Allowed s (.link l) (postOff i secure n (4 * word.val)) →
        (s.stall i).page.state ≠ 1 → p.full = false → claimedByOther p (.link l) = false →
        Runs (.postWrite (.link l) i secure n ⟨word.val, by omega⟩ v) s fun t =>
          (t.post i secure n).claim = some l ∧ regValue t .tollgate (.post i secure n (4 * word.val)) = v
          ∧ (∀ w : Fin 64, w ≠ word → regValue t .tollgate (.post i secure n (4 * w.val))
              = regValue s .tollgate (.post i secure n (4 * w.val)))
          ∧ (∀ m, m ≠ n → t.post i secure m = s.post i secure m) ∧ Unchanged s t [part])
      ∧ (∀ (l : LinkId) (v : Word), Allowed s (.link l) (postOff i secure n 0x100) → (s.stall i).page.state ≠ 1 →
        p.full = false → claimedByOther p (.link l) = false →
        Runs (.postSend (.link l) i secure n v) s fun t =>
          (t.post i secure n).len.toNat = min (fld v 0 9).toNat 256 ∧ (t.post i secure n).tag = p.tag + 1
          ∧ (t.post i secure n).claim = none
          ∧ (noReceiver secure n.val = false →
              (t.post i secure n).full = true ∧ (t.post i secure n).ackDone = false ∧ (t.post i secure n).sender = some l)
          ∧ (noReceiver secure n.val = true →
              (t.post i secure n).full = false ∧ (t.post i secure n).ackDone = true ∧ (t.post i secure n).ackCode = 0x0601)
          ∧ (∀ m, m ≠ n → t.post i secure m = s.post i secure m) ∧ Unchanged s t [part])
      ∧ (∀ (l : LinkId) (v : Word), Allowed s (.link l) (postOff i secure n 0x100) → (s.stall i).page.state ≠ 1 →
        p.full = true →
        Runs (.postSend (.link l) i secure n v) s fun t =>
          t.post i secure n = { p with reject := satAdd p.reject 1 } ∧ (t.host l).ca = satAdd (s.host l).ca 1
          ∧ Unchanged s t [part, .host l, .free, .out])
      ∧ (∀ (code : Reason) (reply : List Byte), p.full = true →
        Runs (.postAck i secure n code reply) s fun t =>
          (t.post i secure n).full = false ∧ (t.post i secure n).ackDone = true ∧ (t.post i secure n).ackTag = p.tag
          ∧ (t.post i secure n).ackCode = code ∧ (t.post i secure n).replyLen.toNat = min reply.length 256
          ∧ (∀ m, m ≠ n → t.post i secure m = s.post i secure m) ∧ Unchanged s t [part]))
    ∧ (outbound secure n.val = true →
      (∀ r : Requester, Allowed s r (postOff i secure n 0x100) → (s.stall i).page.state ≠ 1 → p.full = true →
        Runs (.postTake r i secure n) s fun t =>
          (t.post i secure n).full = false ∧ (t.post i secure n).buf = p.buf
          ∧ (∀ m, m ≠ n → t.post i secure m = s.post i secure m) ∧ Unchanged s t [part])
      ∧ ∀ msg : List Byte,
        (p.full = false → Runs (.postNotice i secure n msg) s fun t =>
          (t.post i secure n).full = true ∧ (t.post i secure n).tag = p.tag + 1
          ∧ (t.post i secure n).len.toNat = min msg.length 256
          ∧ (∀ k : Fin 256, k.val < msg.length → (t.post i secure n).buf.get k = msg.getD k.val 0)
          ∧ (∀ m, m ≠ n → t.post i secure m = s.post i secure m) ∧ Unchanged s t [part])
        ∧ (p.full = true → Runs (.postNotice i secure n msg) s fun t =>
          t.post i secure n = p ∧ t.out = s.out ++ [.busError .tollgate] ∧ Unchanged s t [.out]))

/-- Exchange buffers hold the bytes put into them; recovery writes image bank 1 (R403, R404, R431). -/
def Obligations.ExchangeBuffersHoldBytes : Prop :=
  (∀ (s : State) (i : Stall) (secure : Bool) (n : Fin 24), n = 1 ∨ n = 2 →
      let p := s.post i secure n
      let k := xchgKey p secure n.val
      let v := msgNat p 4 4
      let bs := (postBytes p).drop 8
      let post := Part.stall i (if secure then .secure else .posts)
      (hasMessage s i secure n 0xF0 = true →
        (8 ≤ p.len.toNat → v % 4 = 0 → v + bs.length ≤ 8192 →
          Runs (.exchangePut i secure n) s fun t =>
            (∀ m < bs.length, (t.xchg i k).input.getD (v + m) 0 = bs.getD m 0)
            ∧ (∀ m < v, (t.xchg i k).input.getD m 0 = (s.xchg i k).input.getD m 0)
            ∧ (t.xchg i k).output = [] ∧ (∀ k', k' ≠ k → t.xchg i k' = s.xchg i k')
            ∧ (t.post i secure n).full = false ∧ (t.post i secure n).ackCode = 0
            ∧ Unchanged s t [.stall i .xchg, post])
        ∧ (p.len.toNat < 8 ∨ v % 4 ≠ 0 ∨ 8192 < v + bs.length →
          Runs (.exchangePut i secure n) s fun t =>
            (t.post i secure n).full = false ∧ (t.post i secure n).ackCode = 0x0602 ∧ Unchanged s t [post]))
      ∧ (hasMessage s i secure n 0xF1 = true →
        (8 ≤ p.len.toNat → v < (s.xchg i k).output.length →
          Runs (.exchangeGet i secure n) s fun t =>
            (t.post i secure n).ackCode = 0
            ∧ (t.post i secure n).replyLen.toNat = min 256 ((s.xchg i k).output.length - v)
            ∧ (∀ m : Fin 256, v + m.val < (s.xchg i k).output.length →
                (t.post i secure n).buf.get m = (s.xchg i k).output.getD (v + m.val) 0)
            ∧ (t.post i secure n).full = false ∧ Unchanged s t [post])
        ∧ (p.len.toNat < 8 ∨ (s.xchg i k).output.length ≤ v →
          Runs (.exchangeGet i secure n) s fun t =>
            (t.post i secure n).full = false ∧ (t.post i secure n).ackCode = 0x0602 ∧ Unchanged s t [post])))
  ∧ (∀ (s : State) (i : Stall),
      let p := s.post i false 3
      let v := msgNat p 4 4
      let bs := (postBytes p).drop 8
      (hasMessage s i false 3 0xF0 = true → 8 ≤ p.len.toNat → v % 4 = 0 → v + bs.length ≤ 2 ^ 25 → bs ≠ [] →
        Runs (.recoveryPut i) s fun t =>
          (∀ m < bs.length, (bankBytes t.tollgate true).getD (v + m) 0 = bs.getD m 0)
          ∧ (∀ m < v, (bankBytes t.tollgate true).getD m 0 = (bankBytes s.tollgate true).getD m 0)
          ∧ bankBytes t.tollgate false = bankBytes s.tollgate false
          ∧ (t.post i false 3).full = false ∧ (t.post i false 3).ackCode = 0 ∧ Unchanged s t [.tollgate, .stall i .posts])
      ∧ (hasMessage s i false 3 0x01 = true →
        Runs (.install i) s fun t =>
          (bankCheck s.tollgate true ≠ 0 →
            (t.post i false 3).ackCode = bankCheck s.tollgate true ∧ (t.post i false 3).full = false
            ∧ Unchanged s t [.stall i .posts])
          ∧ (bankCheck s.tollgate true = 0 →
            t.starts.cause = 7 ∧ t.starts.fails = 0 ∧ t.starts.installed = true ∧ t.power.state = 1
            ∧ (∀ j, t.stall j = {}) ∧ t.tollgate.banks = s.tollgate.banks ∧ t.log.ring = s.log.ring)))

/-- Key exchange, commit and waybills answer through the exchange buffers (R405, R406, R408). -/
def Obligations.KeysAndWaybills : Prop :=
  ∀ (s : State) (i : Stall) (l : LinkId),
    let link := xchgKey (s.post i false 1) false 1
    let bill := xchgKey (s.post i true 1) true 1
    (hasMessage s i false 1 0x01 = true → (s.post i false 1).sender = some l → (xchgInput s i false 1).2 = true →
      (s.tollgate.identityErased = false → (xchgInput s i false 1).1.length = 1216 →
        Runs (.kex i) s fun t =>
          let sealed_ := Config.mlkemEncaps ((xchgInput s i false 1).1.take 1184) s.free
          (t.host l).secret = some sealed_.2 ∧ (t.host l).keys = (s.host l).keys
          ∧ (t.xchg i link).output.take sealed_.1.length = sealed_.1
          ∧ (t.post i false 1).full = false ∧ (t.post i false 1).ackCode = 0
          ∧ Unchanged s t [.free, .host l, .stall i .xchg, .stall i .posts])
      ∧ (s.tollgate.identityErased = true →
        Runs (.kex i) s fun t =>
          (t.post i false 1).ackCode = 0x070B ∧ (t.xchg i link).output = []
          ∧ Unchanged s t [.stall i .xchg, .stall i .posts]))
    ∧ (∀ key : BitVec 256, hasMessage s i false 1 0x02 = true → (s.post i false 1).sender = some l →
        (s.host l).secret = some key →
        Runs (.commit i) s fun t =>
          (t.host l).secret = none ∧ (t.post i false 1).full = false
          ∧ ((xchgInput s i false 1).2 = true
              ∧ (xchgInput s i false 1).1 = bytes256 (sha3 (bytes256 key ++ asciiBytes "ZG IDE commit")) →
              (t.post i false 1).ackCode = 0 ∧ (t.host l).ideIo = true ∧ (t.host l).ideCm = true
              ∧ (t.host l).keys
                = some (ofBytes 1024 (shake256 128 (bytes256 key ++ asciiBytes "ZG IDE" ++ [BitVec.ofNat 8 l.val]))))
          ∧ ((xchgInput s i false 1).2 = true
              ∧ (xchgInput s i false 1).1 ≠ bytes256 (sha3 (bytes256 key ++ asciiBytes "ZG IDE commit")) →
              (t.post i false 1).ackCode = 0x0709 ∧ (t.host l).keys = (s.host l).keys ∧ (t.host l).ideIo = (s.host l).ideIo)
          ∧ Unchanged s t [.host l, .stall i .xchg, .stall i .posts])
    ∧ (hasMessage s i true 1 0x01 = true → (xchgInput s i true 1).2 = true → (xchgInput s i true 1).1.length = 32 →
      s.tollgate.identityErased = false →
        Runs (.waybillRequest i) s fun t =>
          slice (t.xchg i bill).output 0 4 = leBytes 4 (0x4C425957 : BitVec 32)
          ∧ slice (t.xchg i bill).output 32 32 = (xchgInput s i true 1).1
          ∧ (t.post i true 1).full = false ∧ (t.post i true 1).ackCode = 0
          ∧ Unchanged s t [.free, .stall i .xchg, .stall i .secure])

/-- A service command that fails its checks changes nothing (R408, R409). -/
def Obligations.ServiceChecksComeFirst : Prop :=
  ∀ (s : State) (i : Stall) (c : Signed), hasMessage s i true 2 0x01 = true → (xchgInput s i true 2).2 = true →
    readSigned (xchgInput s i true 2).1 = some c →
    ∀ e ∈ [(Instr.compose i, 0x10, Signer.owner0), (.fullReset i, 0x11, .owner0), (.clearRetired i, 0x12, .owner0),
        (.enrolKey i, 0x13, .enrol), (.revokeKey i, 0x14, .revoke), (.image i, 0x15, .owner0), (.commitSvn i, 0x16, .owner0),
        (.debugStall i, 0x17, .owner0), (.debugFull i, 0x18, .vendor), (.setThresh i, 0x19, .owner0), (.setPower i, 0x1A, .owner0)],
      (c.cmd ≠ e.2.1 → exec e.1 s = .next s)
      ∧ (c.cmd = e.2.1 → Runs e.1 s fun t =>
          signedCode s.tollgate c e.2.2 ≠ 0 →
            (t.post i true 2).ackCode = signedCode s.tollgate c e.2.2 ∧ (t.post i true 2).full = false
            ∧ t.tollgate.counter = s.tollgate.counter ∧ Unchanged s t [.stall i .xchg, .stall i .secure])

/-- A service command that passes its checks has its effect (R397, R409, R410, R411, R417, R418, R466). -/
def Obligations.ServiceCommandsAct : Prop :=
  ∀ (s : State) (i : Stall) (c : Signed), hasMessage s i true 2 0x01 = true → (xchgInput s i true 2).2 = true →
    readSigned (xchgInput s i true 2).1 = some c →
    let ran (who : Signer) (t : State) (code : Reason) (parts : List Part) : Prop :=
      signedCode s.tollgate c who = 0 →
        t.tollgate.counter = c.counter ∧ (t.post i true 2).ackCode = code ∧ (t.post i true 2).full = false
        ∧ Unchanged s t ([.tollgate, .stall i .xchg, .stall i .secure] ++ parts)
    (c.cmd = 0x10 → (∀ k, (s.stall k).page.state ≠ 1) →
      (∀ mode l, readCompose c.body = some (mode, l) →
        Runs (.compose i) s fun t => ran .owner0 t 0 [] ∧ (signedCode s.tollgate c .owner0 = 0 →
          t.tollgate.nextMode = mode ∧ (∀ k : Fin 8, t.tollgate.table.get k = l.getD k.val {})
          ∧ t.tollgate.mode = s.tollgate.mode ∧ ∀ k, (t.stall k).page = (s.stall k).page))
      ∧ (readCompose c.body = none →
        Runs (.compose i) s fun t => ran .owner0 t 0x070A [] ∧ t.tollgate.table = s.tollgate.table))
    ∧ (c.cmd = 0x11 → Runs (.fullReset i) s fun t => signedCode s.tollgate c .owner0 = 0 →
        t.starts.cause = 7 ∧ t.tollgate.counter = c.counter ∧ t.power.state = 1 ∧ ∀ k, t.stall k = {})
    ∧ (c.cmd = 0x12 → ∀ es, readClear c.body = some es →
      Runs (.clearRetired i) s fun t => ran .owner0 t 0 [.log] ∧ (signedCode s.tollgate c .owner0 = 0 →
        ∀ r, r ∈ t.log.retired ↔ r ∈ s.log.retired ∧ (r.kind.toNat, r.index.toNat) ∉ es))
    ∧ (c.cmd = 0x13 → ∀ k : Fin 16, leAt c.body 0 1 = k.val → c.body.length = 1320 → zeroAt c.body 1 7 = true →
      Runs (.enrolKey i) s fun t => ran .enrol t 0 [] ∧ (signedCode s.tollgate c .enrol = 0 →
        t.tollgate.keys = s.tollgate.keys.set k (c.body.drop 8)))
    ∧ (c.cmd = 0x14 → ∀ k : Fin 16, leAt c.body 0 1 = k.val → c.body ≠ [] →
      Runs (.revokeKey i) s fun t => ran .revoke t 0 [] ∧ (signedCode s.tollgate c .revoke = 0 →
        t.tollgate.keys = s.tollgate.keys.set k []))
    ∧ (c.cmd = 0x15 → c.body.length = 16 → leAt c.body 8 8 ≤ 2 ^ 25 →
      tollgateDenied s i (leAt c.body 0 8) (leAt c.body 8 8) = none →
      Runs (.image i) s fun t => signedCode s.tollgate c .owner0 = 0 →
        t.tollgate.banks.get (if s.tollgate.bank then 0 else 1) = s.readBytes i (leAt c.body 0 8) (leAt c.body 8 8)
        ∧ t.tollgate.banks.get (if s.tollgate.bank then 1 else 0) = s.tollgate.banks.get (if s.tollgate.bank then 1 else 0)
        ∧ t.tollgate.bank = s.tollgate.bank
        ∧ (bankCheck t.tollgate (!s.tollgate.bank) = 0 →
            (t.post i true 2).ackCode = 0 ∧ t.tollgate.restart = [1, 2, 3, 4, 5, 6])
        ∧ (bankCheck t.tollgate (!s.tollgate.bank) ≠ 0 →
            (t.post i true 2).ackCode = 0x0706 ∧ t.tollgate.restart = s.tollgate.restart))
    ∧ (c.cmd = 0x16 → 1 ≤ c.body.length → c.body.length ≤ 8 → ofLe c.body ≤ 63 →
      Runs (.commitSvn i) s fun t =>
        (ofLe c.body ≤ s.tollgate.svn.toNat → ran .owner0 t 0 [] ∧ (signedCode s.tollgate c .owner0 = 0 →
          t.tollgate.svnRaise.toNat = max s.tollgate.svnRaise.toNat (ofLe c.body)))
        ∧ (s.tollgate.svn.toNat < ofLe c.body → ran .owner0 t 0x0707 [] ∧ t.tollgate.svnRaise = s.tollgate.svnRaise))
    ∧ (c.cmd = 0x17 → Runs (.debugStall i) s fun t =>
        ((s.stall i).page.comp.test = true → ran .owner0 t 0 [.stall i .customs] ∧ (signedCode s.tollgate c .owner0 = 0 →
          (t.stall i).customs.debugOpen = true))
        ∧ ((s.stall i).page.comp.test = false → ran .owner0 t 0x0708 []))
    ∧ (c.cmd = 0x18 → Runs (.debugFull i) s fun t => ran .vendor t 0 [] ∧ (signedCode s.tollgate c .vendor = 0 →
        t.tollgate.debugFull = true ∧ t.tollgate.identityErased = true))
    ∧ (c.cmd = 0x19 → c.body.length = 4 →
      (∀ u : Fin 8, leAt c.body 0 2 = u.val → Runs (.setThresh i) s fun t =>
        ran .owner0 t 0 [.stack u] ∧ (signedCode s.tollgate c .owner0 = 0 →
          t.tiers.near[u] = { s.tiers.near[u] with ceLimit := BitVec.ofNat 16 (leAt c.body 2 2) }))
      ∧ (∀ u : Fin 24, leAt c.body 0 2 = u.val + 8 → Runs (.setThresh i) s fun t =>
        ran .owner0 t 0 [.channel u] ∧ (signedCode s.tollgate c .owner0 = 0 →
          t.tiers.serai[u] = { s.tiers.serai[u] with ceLimit := BitVec.ofNat 16 (leAt c.body 2 2) })))
    ∧ (c.cmd = 0x1A → c.body.length = 4 → c.body.getD 3 0 = 0 → (c.body.getD 1 0).toNat ≤ 112 →
      (c.body.getD 0 0).toNat ≤ 105 → (c.body.getD 0 0).toNat < (c.body.getD 1 0).toNat →
      Runs (.setPower i) s fun t => ran .owner0 t 0 [.power] ∧ (signedCode s.tollgate c .owner0 = 0 →
        t.power = { s.power with throttleC := c.body.getD 0 0, haltC := c.body.getD 1 0, coolMax := c.body.getD 2 0 }
        ∧ t.tollgate.thresholds = some (c.body.getD 0 0, c.body.getD 1 0, c.body.getD 2 0)))

/-- Every reset of the module clears its registers and keeps what survives (R419, R420, R421, R422, R425, R434, R468). -/
def Obligations.ResetsClearTheModule : Prop :=
  let cleared (s t : State) : Prop :=
    (∀ i, t.stall i = {}) ∧ (∀ k, t.core k = {}) ∧ (∀ e, t.engine e = {}) ∧ t.tiers = {} ∧ (∀ p, t.port p = {} ∧ t.lnk p = {})
    ∧ (∀ p, t.optic p = { mated := (s.optic p).mated }) ∧ (∀ l, t.host l = {}) ∧ t.fabric.relay = {} ∧ t.held = []
    ∧ t.caught = [] ∧ t.pending = s.pending ∧ t.anatomy = listedAnatomy s.log.retired ∧ t.mem = hostCells s.mem
  let kept (s t : State) : Prop :=
    t.log.retired = s.log.retired ∧ t.tollgate.keys = s.tollgate.keys ∧ t.tollgate.banks = s.tollgate.banks
    ∧ t.tollgate.counter = s.tollgate.counter ∧ t.tollgate.table = s.tollgate.table
    ∧ t.tollgate.thresholds = s.tollgate.thresholds
  let survives (s t : State) : Prop :=
    t.log.ring = s.log.ring ∧ t.log.newest = s.log.newest ∧ t.power.braces = s.power.braces ∧ t.power.halts = s.power.halts
    ∧ t.power.alarm = s.power.alarm ∧ t.power.channels = s.power.channels ∧ t.power.vote = s.power.vote
  ∀ s : State,
    (Runs .powerOn s fun t => cleared s t ∧ kept s t ∧ t.starts.cause = 1 ∧ t.starts.fails = s.starts.fails ∧ t.log.ring = []
        ∧ t.power = {} ∧ t.tollgate.debugFull = false)
    ∧ (Runs .aux3v3Loss s fun t => cleared s t ∧ kept s t ∧ t.power.state = 0 ∧ t.power.aux = false ∧ t.power.pumpReq = false)
    ∧ (s.power.tripLatch = false →
        (Runs (.inputReset 48) s fun t => cleared s t ∧ kept s t ∧ survives s t ∧ t.starts.cause = 2 ∧ t.starts.channel = 48
          ∧ t.power.state = 0 ∧ t.tollgate.mode = s.tollgate.mode)
        ∧ (Runs (.inputReset 0xFF) s fun t => cleared s t ∧ kept s t ∧ survives s t ∧ t.starts.cause = 2 ∧ t.pins.pwrok = false)
        ∧ ∀ ch : BitVec 8, 55 ≤ ch.toNat → ch.toNat ≤ 58 → Runs (.inputReset ch) s fun t =>
            cleared s t ∧ kept s t ∧ t.starts.cause = 2 ∧ t.starts.channel = ch ∧ t.log.newest = s.log.newest + 1)
    ∧ (s.power.tripLatch = true → Runs (.inputReset 48) s fun t =>
        cleared s t ∧ t.starts.cause = 8 ∧ t.starts.channel = s.starts.channel)
    ∧ (∀ ns : Nat, (100 ≤ ns → Runs (.perstN ns) s fun t =>
          cleared s t ∧ kept s t ∧ survives s t ∧ t.starts.cause = 3 ∧ t.tollgate.mode = s.tollgate.nextMode)
        ∧ (ns < 100 → exec (.perstN ns) s = .next s))
    ∧ (s.power.state = 1 → s.power.bringup ≠ 0 → s.starts.fails ≠ 0 → s.starts.fails ≠ 3 → s.starts.waitImage = false →
        Runs .startRetry s fun t => cleared s t ∧ kept s t ∧ survives s t ∧ t.starts.cause = 10
          ∧ t.starts.fails = s.starts.fails ∧ t.power.bringup = 0)
    ∧ ∀ ch : Fin 64, ch.val < 48 → Runs (.thermalTrip ch) s fun t =>
        cleared s t ∧ kept s t ∧ t.power.tripLatch = true ∧ t.pins.thermtripN = false ∧ t.starts.cause = 8
        ∧ t.starts.channel = BitVec.ofNat 8 ch.val ∧ t.log.newest = s.log.newest + 1

/-- PWROK samples the straps, and a start that takes too long fails (R424, R427, R430, R431). -/
def Obligations.StartsAndStraps : Prop :=
  ∀ (s : State) (code : BitVec 8) (src : BitVec 2) (clk : Bool),
    (s.pins.pwrok = false → s.power.aux = true →
      Runs (.pwrokRise code src clk) s fun t =>
        t.pins.pwrok = true ∧ t.starts.seatCode = code ∧ t.starts.seat = fld code 4 4 ∧ t.starts.bootsrc = src
        ∧ t.starts.clkmode = clk ∧ t.starts.t0 = s.time
        ∧ t.starts.seatMarginal = (code.toNat % 16 == 0 || code.toNat % 16 == 15)
        ∧ (t.starts.seatMarginal = true → bit t.power.alarm 7 = true ∧ t.pins.alertN = false)
        ∧ (s.power.tripLatch = true → (t.power.tripLatch = false ↔ allBelow s 70 = true))
        ∧ Unchanged s t [.pins, .power, .starts])
    ∧ (starting s = true → s.pins.pwrok = true → s.power.tripLatch = false → s.power.waking = false →
      Runs .startTimeout s fun t =>
        t.time = maxU s.time (s.starts.t0 + 4000000000) ∧ t.starts.lastFail = 0x03 ∧ t.pins.faultN = false
        ∧ t.starts.fails.toNat = min 3 (s.starts.fails.toNat + 1)
        ∧ (t.starts.fails = 3 → t.power.state = 5 ∧ t.tollgate.stranded = true ∧ t.starts.why = 1
            ∧ ∀ i, (t.stall i).page.state = 3)
        ∧ (t.starts.fails ≠ 3 → t.power.state = 1 ∧ Unchanged s t [.time, .starts, .pins, .power, .log])
        ∧ t.mem = s.mem)

/-- Bring-up ends in READY or says where it failed (R399, R400, R425, R428, R429, R430). -/
def Obligations.BringupReachesReady : Prop :=
  ∀ (s : State) (rep : BringupReport), starting s = true → s.pins.pwrok = true → s.pins.perstN = true →
    s.power.tripLatch = false → s.power.waking = false → s.starts.fails ≠ 3 → s.starts.bootsrc ≠ 3 →
    (∀ b, startBank s rep.banksValid = some b → rep.failedUnits = [] → s.log.retired = [] →
      Runs (.bringup rep) s fun t =>
        t.power.state = 2 ∧ t.power.bringup = 9 ∧ t.starts.fails = 0 ∧ t.tollgate.bank = b ∧ t.pins.faultN = true
        ∧ (∀ i : Stall, (t.stall i).page.comp = s.tollgate.table.get i
            ∧ ((t.stall i).page.state = 2 ↔ (s.tollgate.table.get i).owner.isSome = true))
        ∧ (∀ k : Fin 16, t.tiers.nearGroups.get k = 0) ∧ t.tiers.seraiGroup = 0)
    ∧ (startBank s rep.banksValid = none → waitsForImage s rep = false →
      Runs (.bringup rep) s fun t =>
        t.starts.lastFail = 0x01 ∧ t.starts.step = 2 ∧ t.pins.faultN = false
        ∧ t.starts.fails = s.starts.fails + 1 ∧ t.mem = s.mem)

/-- A sample moves its filtered channel and what is judged from it (R432, R433, R434, R435, R436, R437, R438, R441). -/
def Obligations.ChannelsAreFilteredAndJudged : Prop :=
  ∀ (s : State) (ch : Fin 64) (raw : BitVec 16),
    (beyondTable ch.val raw = true → exec (.channelSample ch raw) s = .fault .beyondRatings)
    ∧ (beyondTable ch.val raw = false → s.power.aux = true →
      Runs (.channelSample ch raw) s fun t =>
        let m := medianOf ch.val ((raw :: (s.power.channels.get ch).samples).take 5)
        (t.power.channels.get ch).y = BitVec.ofInt 16 (chanY s ch + (m - chanY s ch) / 2 ^ filterShift ch.val)
        ∧ (∀ k, k ≠ ch → t.power.channels.get k = s.power.channels.get k)
        ∧ (ch.val < 48 →
            t.power.hotFlags.get ch = (decide (64 * (s.power.throttleC.toNat : Int) ≤ chanY t ch)
              || (s.power.hotFlags.get ch && decide (64 * ((s.power.throttleC.toNat : Int) - 3) ≤ chanY t ch)))
            ∧ (64 * (s.power.haltC.toNat : Int) ≤ chanY t ch → t.power.thermalHalt = true))
        ∧ (ch.val = 48 → (3000 < inputWatts t → t.power.capSince = some (s.power.capSince.getD s.time))
            ∧ (inputWatts t < 2900 → t.power.capped = false ∧ t.power.limited = false))
        ∧ Unchanged s t ([.power, .pins, .log, .out] ++ everyCore ++ everyStall))

/-- Core clocks follow the throttle and the power cap between 0.9 and 1.8 GHz (R436, R438, R439). -/
def Obligations.ClocksFollowTheLimits : Prop :=
  ∀ (s : State) (k : CoreId), s.power.thermalHalt = false → (s.core k).thrClock.toNat ≤ 36 → (s.core k).capClock.toNat ≤ 36 →
    (Runs (.throttleStep k) s fun t =>
      (t.core k).clock.toNat = min (t.core k).thrClock.toNat (t.core k).capClock.toNat
      ∧ 18 ≤ (t.core k).clock.toNat ∧ (t.core k).clock.toNat ≤ 36
      ∧ (coreHot s k = true → (t.core k).thrClock.toNat = max 18 ((s.core k).thrClock.toNat - 1)
          ∧ t.time = maxU s.time ((s.core k).stepAt + 1000000))
      ∧ (coreHot s k = false → (t.core k).thrClock.toNat = max 18 (min 36 ((s.core k).thrClock.toNat + 1)))
      ∧ (coreHot s k = false → s.power.capped = true → (t.core k).capClock.toNat = max 18 ((s.core k).capClock.toNat - 2)
          ∧ t.time = maxU s.time ((s.core k).stepAt + 500000))
      ∧ (s.power.capped = false → s.power.limited = false →
          (t.core k).capClock.toNat = max 18 (min 36 ((s.core k).capClock.toNat + 1)))
      ∧ (t.core k).da = (s.core k).da ∧ Unchanged s t [.time, .core k])
    ∧ (∀ t0, s.power.capSince = some t0 → s.power.capped = false →
      Runs .powerCap s fun t =>
        t.power.capped = true ∧ bit t.power.alarm 5 = true ∧ t.time = maxU s.time (t0 + 5000000)
        ∧ (t.core k).clock.toNat ≤ max 18 ((s.core k).capClock.toNat - 2) ∧ t.log.newest = s.log.newest + 1
        ∧ Unchanged s t ([.time, .power, .pins, .log] ++ everyCore))

/-- Brace stops the cores and holds Serai writes, and a long brace halts the march (R440, R441, R442, R446). -/
def Obligations.BraceHoldsWrites : Prop :=
  ∀ s : State,
    (∀ rail : Bool, s.power.brace = false → s.power.state = 2 ∨ s.power.state = 3 →
      Runs (.brace rail) s fun t =>
        t.power.brace = true ∧ t.power.braces = satAdd s.power.braces 1 ∧ t.power.braceAt = s.time
        ∧ (∀ k, (t.core k).brace = true ∧ (t.core k).da = (s.core k).da.map fun a => { a with braced := true })
        ∧ (∀ ch : Fin 24, t.tiers.serai[ch].braceHold = (s.tiers.serai[ch].braceHold || s.tiers.serai[ch].state == 2))
        ∧ bit t.power.alarm 0 = true ∧ t.pins.alertN = false ∧ t.log.newest = s.log.newest + 1
        ∧ t.mem = s.mem ∧ t.fabric = s.fabric ∧ t.engines = s.engines ∧ t.stalls = s.stalls ∧ t.time = s.time)
    ∧ (s.power.brace = true →
      (Runs .braceEnd s fun t =>
        t.power.brace = false ∧ t.power.braceLast = BitVec.ofNat 32 ((s.time - s.power.braceAt).toNat / 1000)
        ∧ (∀ k, (t.core k).brace = false ∧ (t.core k).da = (s.core k).da.map fun a => { a with braced := false })
        ∧ ∀ ch : Fin 24, t.tiers.serai[ch].braceHold = false)
      ∧ (s.power.supplyDone = false → ∀ i ∈ presentStalls s, (s.stall i).march.state = .legs →
          (s.stall i).seq.haltKnown = false →
          Runs .haltSupply s fun t =>
            t.time = maxU s.time (s.power.braceAt + 2000000) ∧ (t.stall i).seq.haltKnown = true
            ∧ (t.stall i).seq.stopped = true ∧ bit (t.stall i).seq.causes 8 = true ∧ t.power.brace = true
            ∧ fld t.power.halts 16 16 = satAdd (fld s.power.halts 16 16) 1 ∧ bit t.power.alarm 1 = true
            ∧ t.mem = s.mem))

/-- The power state follows the votes of all present stalls (R443, R444, R437). -/
def Obligations.PowerStatesFollowVotes : Prop :=
  ∀ s : State,
    (∀ (r : Requester) (i : Stall) (v : Word), Allowed s r (voteOff i) → fld v 0 2 ≠ 3 → s.power.state = 2 ∨ s.power.state = 3 →
      Runs (.pwrVoteWrite r i v) s fun t =>
        t.power.vote.get i = fld v 0 2 ∧ t.power.wake.get i = fld v 16 16
        ∧ (∀ j, j ≠ i → t.power.vote.get j = s.power.vote.get j)
        ∧ (t.power.state = 3 ∨ t.power.state = 4 → ∀ j ∈ presentStalls s, t.power.vote.get j = 1 ∨ t.power.vote.get j = 2)
        ∧ (t.power.state = 4 → ∀ l, inL0 s l = false)
        ∧ (t.power.state ≠ 4 → t.mem = s.mem ∧ t.stalls = s.stalls ∧ t.fabric = s.fabric))
    ∧ (s.power.state = 4 →
      (Runs .wakeMessage s fun t =>
        t.power.state = 6 ∧ t.power.bringup = 0 ∧ t.power.waking = true ∧ t.power.retained = s.power.retained
        ∧ Unchanged s t [.power])
      ∧ (∀ i : Stall, s.power.wake.get i ≠ 0 →
          (∀ j, s.power.wake.get j = 0 ∨ (s.power.wake.get i).toNat ≤ (s.power.wake.get j).toNat) →
          Runs .wakeTimer s fun t =>
            t.power.state = 6 ∧ t.power.waking = true ∧ Unchanged s t [.time, .power]
            ∧ t.time = maxU s.time (s.power.standbyAt + BitVec.ofNat 64 (1000000000 * (s.power.wake.get i).toNat))))
    ∧ (∀ t0, s.power.coolSince = some t0 → s.power.thermalHalt = true →
      Runs .thermalHaltEnd s fun t =>
        t.power.thermalHalt = false ∧ maxU s.time (t0 + 1000000000) = t.time ∧ t.mem = s.mem ∧ t.cores = s.cores)

/-- Members follow the time of their lead, and its deputy takes over (R41, R42, R43, R44, R45). -/
def Obligations.TimebasesFollowTheLead : Prop :=
  ∀ (s : State) (i : Stall) (c : Charter), (s.stall i).charter.active = some c →
    let t0 := s.stall i
    let y := t0.sync
    let lead := t0.march.lead
    (lead = true → furtherLead t0 = false →
      Runs (.syncFlitSend i) s fun t =>
        t.time = maxU s.time (y.last + 50000) ∧ (t.stall i).sync.last = t.time ∧ (t.stall i).sync.hops = 0
        ∧ SyncsTo s t i c t0 t.time 0 ∧ Unchanged s t [.time, .stall i .sync, .out])
    ∧ (∀ (p : PortId) (stamp : BitVec 64) (hops : BitVec 8), lead = false ∨ furtherLead t0 = true →
      let off : Int := ((stamp.toNat : Int) + (s.port p).delay.toNat) - s.time.toNat
      let bound : Nat := if lead then 100 else 20
      Runs (.syncFlitReceive i p stamp hops) s fun t =>
        (t.stall i).sync.holdover = false ∧ (t.stall i).sync.last = t.time ∧ (t.stall i).sync.hops = hops
        ∧ ((∃ j, marching (s.stall j) = true) →
            ∃ d : Int, d.natAbs ≤ (s.time.toNat - y.last.toNat) / 10000 ∧ t.time = s.time + BitVec.ofInt 64 d)
        ∧ ((∀ j, marching (s.stall j) = false) → 1000 < off.natAbs → t.time = stamp + (s.port p).delay.setWidth 64)
        ∧ (off.natAbs ≤ bound → (t.stall i).march.synced = true ∧ (t.stall i).sync.outOfStep = false)
        ∧ (bound < off.natAbs →
            (t.stall i).march.synced = t0.march.synced ∧ (t.stall i).sync.outOfStep = y.outOfStep)
        ∧ SyncsTo s t i c t0 t.time hops
        ∧ Unchanged s t [.time, .stall i .sync, .stall i .march, .out])
    ∧ (lead = false ∨ furtherLead t0 = true →
      (Runs (.holdover i) s fun t =>
        t.time = maxU s.time (y.last + 50000) ∧ (t.stall i).sync = { y with holdover := true }
        ∧ Unchanged s t [.time, .stall i .sync])
      ∧ (Runs (.syncedLost i) s fun t =>
        t.time = maxU s.time (y.last + 200000) ∧ (t.stall i).sync = { y with holdover := true }
        ∧ (t.stall i).march = { t0.march with synced := false } ∧ Unchanged s t [.time, .stall i .sync, .stall i .march])
      ∧ (y.outOfStep = false → Runs (.outOfStep i) s fun t =>
        t.time = maxU s.time (y.last + 1000000) ∧ (t.stall i).sync = { y with holdover := false, outOfStep := true }
        ∧ (t.stall i).march = { t0.march with synced := false }
        ∧ (t0.march.state = .legs → bit (t.stall i).seq.causes 6 = true ∧ (t.stall i).seq.haltKnown = true
            ∧ Out.halt i 6 0x0206 ∈ t.out)
        ∧ (t0.march.state = .armed → bit (t.stall i).seq.nextCauses 6 = true)
        ∧ Unchanged s t [.time, .out, .stall i .sync, .stall i .march, .stall i .seq]))
    ∧ (∀ (p : PortId) (ns : BitVec 32), Runs (.delayMeasure p ns) s fun t =>
        t.port p = { s.port p with delay := ns } ∧ Unchanged s t [.port p])
    ∧ (lead = false → t0.march.deputy = true → t0.seq.finished = false →
      Runs (.leadChange i) s fun t =>
        t.time = maxU s.time (y.last + 200000) ∧ (t.stall i).march.lead = true ∧ (t.stall i).march.deputy = false
        ∧ (t.stall i).sync.holdover = false ∧ (t.stall i).sync.last = t.time ∧ SyncsTo s t i c (t.stall i) t.time 0
        ∧ Out.resendWords i ∈ t.out ∧ Recorded s t 0x020A
        ∧ (t0.march.state = .legs → bit (t.stall i).seq.causes 6 = true ∧ ∃ e ∈ (t.stall i).seq.missing, e.1 = c.lead)
        ∧ Unchanged s t [.time, .out, .log, .stall i .march, .stall i .sync, .stall i .charter, .stall i .seq])

/-- A march begins at its origin and moves on with its ticks (R46, R47, R57, R58, R59, R61, R62, R66). -/
def Obligations.MarchesRunOnTicks : Prop :=
  ∀ (s : State) (i : Stall) (c : Charter), (s.stall i).charter.active = some c → (s.stall i).seq.left = false →
    let t0 := s.stall i
    let m := t0.march
    let q := t0.seq
    let k := m.leg.toNat
    let tickTime := maxU s.time (m.origin + BitVec.ofNat 64 (c.legOffset (k + 1)))
    let known := q.haltKnown = true ∨ t0.sync.outOfStep = true
    let totals := ∀ r ∈ t0.ledger.runs, bkDeadline (c.bucket r.bucket.toNat) = k → r.complete = true
    (m.state = .armed ∨ m.state = .waitRepeat → q.repeatAt.isSome = true → t0.charter.swapAt ≠ some m.origin →
      Runs (.marchOrigin i) s fun t =>
        t.time = maxU s.time m.origin ∧ (t.stall i).march.state = .legs ∧ (t.stall i).march.leg = 0
        ∧ (t.stall i).march.kind = kindOf c 0 ∧ (t.stall i).march.num = m.num ∧ (t.stall i).march.repeats = m.repeats
        ∧ (t.stall i).seq.boundary = m.origin + BitVec.ofNat 64 c.marchLength
        ∧ (t.stall i).seq.done = [] ∧ (t.stall i).seq.ran = [] ∧ (t.stall i).seq.nextCauses = 0
        ∧ (∀ n, n ≠ 11 ∨ (∀ p, portStall s p = some i → (s.lnk p).returning = false) →
            bit (t.stall i).seq.causes n = (bit q.nextCauses n || (n == 6 && t0.sync.outOfStep)))
        ∧ (t0.ledger.forgetPending = false → t.mem = s.mem)
        ∧ Unchanged s t ([.time, .delivered, .messages] ++ storeParts ++ everyCore ++ everyEngine ++ everyPort
            ++ ([.march, .seq, .ledger, .settle, .tally, .lot, .charter] : List StallPart).map (Part.stall i)))
    ∧ (AuditsAgree s i →
      (m.state = .legs → k < c.legs.length → totals → ¬known → q.stopped = false →
        (k ≠ c.lastReduce → (∀ e ∈ marchEntries t0 c k, unfinishedAt t0 (endTick t0 c k) e = false) →
          Runs (.tick i) s fun t =>
            t.time = tickTime ∧ (t.stall i).march.state = .legs ∧ (t.stall i).march.leg = m.leg + 1
            ∧ (t.stall i).march.kind = kindOf c (k + 1) ∧ (t.stall i).seq.causes = q.causes
            ∧ (∀ p, portStall s p = some i → portUp s p = true → ∀ n : Fin 5,
                ∃ granted spent held, Out.audit p n granted spent held ∈ t.out)
            ∧ Unchanged s t [.time, .out, .stall i .march, .stall i .seq])
        ∧ ((∃ e ∈ marchEntries t0 c k, unfinishedAt t0 (endTick t0 c k) e = true) →
          Runs (.tick i) s fun t =>
            t.time = tickTime ∧ (∀ n < 13, bit (t.stall i).seq.causes n = (bit q.causes n || n == 7))
            ∧ (t.stall i).seq.stopped = true ∧ (m.lead = false → Recorded s t 0x0201)
            ∧ Unchanged s t (.time :: marchParts i)))
      ∧ (m.state = .legs → k < c.legs.length → k = c.lastReduce ∨ known → m.lead = false →
        Runs (.tick i) s fun t =>
          t.time = tickTime ∧ (t.stall i).march.state = .verdict
          ∧ (t.stall i).seq.verdictTick = BitVec.ofNat 64 (endTick t0 c k) ∧ (t.stall i).seq.stopped = true
          ∧ (selfFenced t0 = false →
              ∃ w : VerdictWord, w.member = m.member ∧ Out.verdictWord i w ∈ t.out ∧ w.step = t0.settle.step)
          ∧ (selfFenced t0 = true → ∀ w, Out.verdictWord i w ∈ t.out → Out.verdictWord i w ∈ s.out)
          ∧ Unchanged s t ([.time, .stall i .march, .stall i .seq, .stall i .ledger] ++ queueParts))
      ∧ (m.state = .settle ∨ m.state = .held → ticking t0 = true → k + 1 < c.legs.length →
        Runs (.tick i) s fun t =>
          t.time = tickTime ∧ (t.stall i).march.state = m.state ∧ (t.stall i).march.leg = m.leg + 1
          ∧ (t.stall i).march.kind = kindNow t0 c (k + 1) ∧ Unchanged s t [.time, .out, .stall i .march, .stall i .seq])
      ∧ (m.state = .settle → q.ended = false → k + 1 = c.legs.length → q.finished = false →
        (∀ n < c.legs.length, ∀ e ∈ marchEntries t0 c n, isDone t0 e = true) →
        Runs (.tick i) s fun t =>
          t.time = tickTime ∧ (t.stall i).seq.ended = true ∧ (t.stall i).seq.finished = true
          ∧ (t.stall i).march.num = m.num + 1 ∧ (t.stall i).march.repeats = 0 ∧ (t.stall i).march.sinceStart = 0
          ∧ (t.stall i).settle.step = t0.settle.step + (if q.settles then 1 else 0)
          ∧ (∀ j, j ≠ i → t.stall j = s.stall j)))

/-- The caravan verdict is the highest cause, and names the lowest member that reported it (R60, R64). -/
def Obligations.HighestCauseWins : Prop :=
  ∀ (reports : List Report) (lost : List Member) (leadStep : BitVec 40) (alarms holdEn : BitVec 4) (norm2 loss : Word)
    (leadMember : Member) (sinceStart limit : BitVec 8),
    let v := combine reports lost leadStep alarms holdEn norm2 loss leadMember sinceStart limit
    (∀ r ∈ reports, ∀ k < 13, bit r.causes k = true → bit v.causes k = true)
    ∧ (∀ k < 13, bit v.causes k = true → k ≤ v.code.toNat)
    ∧ (v.causes ≠ 0 → bit v.causes v.code.toNat = true)
    ∧ ((∃ r ∈ reports, bit r.causes v.code.toNat = true) → v.code ≠ 12 → (∀ r ∈ reports, r.step = leadStep) →
        ∃ r ∈ reports, r.member = v.source ∧ bit r.causes v.code.toNat = true
          ∧ ∀ r' ∈ reports, bit r'.causes v.code.toNat = true → v.source.toNat ≤ r'.member.toNat)
    ∧ (repeats v.code = true → sinceStart.toNat + 1 ≤ limit.toNat)

/-- The lead forms the verdict once it holds every word, or counts those that are missing (R62, R64, R243). -/
def Obligations.VerdictsAreFormedAtTheLead : Prop :=
  ∀ (s : State) (i : Stall) (c : Charter), (s.stall i).charter.active = some c → (s.stall i).march.lead = true →
    (s.stall i).seq.sentVerdict = false →
    let t0 := s.stall i
    let verdict (words : List VerdictWord) (far : List FederationWord) (lost gone : List Member) : CaravanVerdict :=
      let loss := chunkRound (far.foldl (fun k w => chunkJoin k w.loss) (lossAcc (words.map fun w => w.loss)))
      combine ((words.map fun w => ⟨w.member, w.causes, w.reason, w.step⟩) ++ far.map fun w => ⟨w.source, w.causes, w.reason, w.step⟩)
        (lost ++ gone) t0.settle.step (leadAlarms t0.tally c.lossEn loss) (fld t0.tally.used 28 4)
        (normSum ((words.map fun w => w.norm) ++ far.map fun w => w.norm)) loss t0.march.member t0.march.sinceStart t0.march.repeatLimit
    (∀ w : VerdictWord, isFenced t0 w.member = false →
      let words := (t0.seq.words.filter fun x => x.member != w.member) ++ [w]
      (t0.march.state = .legs ∨ t0.march.state = .verdict ∧ (∃ m ∈ liveMembers t0 c, ∀ x ∈ words, x.member ≠ m) →
        Runs (.verdictWord i w) s fun t =>
          (t.stall i).seq = { t0.seq with words := words } ∧ Unchanged s t [.stall i .seq])
      ∧ (t0.march.state = .verdict → c.federated = false → (∀ m ∈ liveMembers t0 c, ∃ x ∈ words, x.member = m) →
        Runs (.verdictWord i w) s fun t =>
          ActedOn (verdict words [] [] []) (t.stall i) ∧ Out.caravanVerdict i (verdict words [] [] []) ∈ t.out
          ∧ (t.stall i).seq.sentVerdict = true ∧ Unchanged s t (marchParts i))
      ∧ (t0.march.state = .verdict → c.federated = true → c.caravanIx ≠ 0 → (∀ m ∈ liveMembers t0 c, ∃ x ∈ words, x.member = m) →
        Runs (.verdictWord i w) s fun t =>
          (∃ f : FederationWord, t.out = s.out ++ [.federationWord i f] ∧ f.caravan = c.caravanIx ∧ f.step = t0.settle.step
            ∧ ∀ x ∈ words, ∀ k < 13, bit x.causes k = true → bit f.causes k = true)
          ∧ (t.stall i).seq = { t0.seq with words := words, sentVerdict := true } ∧ Unchanged s t [.out, .stall i .seq, .stall i .ledger]))
    ∧ (t0.march.state = .verdict → c.federated = false →
      let lost := (liveMembers t0 c).filter fun m => !t0.seq.words.any fun w => w.member == m
      Runs (.verdictLost i) s fun t =>
        let v := verdict t0.seq.words [] lost []
        t.time = maxU s.time (t0.seq.verdictTick + 10000) ∧ ActedOn v (t.stall i) ∧ Out.caravanVerdict i v ∈ t.out
        ∧ (lost ≠ [] → bit v.causes 6 = true) ∧ Unchanged s t (.time :: marchParts i))
    ∧ (c.federated = true → c.caravanIx = 0 →
      (∀ w : FederationWord,
        let far := (t0.seq.fedWords.filter fun x => x.caravan != w.caravan) ++ [w]
        let lost := (liveMembers t0 c).filter fun m => !t0.seq.words.any fun x => x.member == m
        (t0.march.state ≠ .verdict ∨ lost ≠ [] ∧ s.time.toNat < t0.seq.verdictTick.toNat + 10000
            ∨ (∃ k ∈ otherCaravans c, ∀ x ∈ far, x.caravan ≠ k) →
          Runs (.federationWord i w) s fun t =>
            (t.stall i).seq = { t0.seq with fedWords := far } ∧ Unchanged s t [.stall i .seq])
        ∧ (t0.march.state = .verdict → lost = [] ∨ t0.seq.verdictTick.toNat + 10000 ≤ s.time.toNat →
          (∀ k ∈ otherCaravans c, ∃ x ∈ far, x.caravan = k) →
          Runs (.federationWord i w) s fun t =>
            ActedOn (verdict t0.seq.words far lost []) (t.stall i) ∧ Out.caravanVerdict i (verdict t0.seq.words far lost []) ∈ t.out
            ∧ (lost ≠ [] → bit (verdict t0.seq.words far lost []).causes 6 = true) ∧ Unchanged s t (marchParts i)))
      ∧ (t0.march.state = .verdict →
        let lost := (liveMembers t0 c).filter fun m => !t0.seq.words.any fun w => w.member == m
        let absent := (otherCaravans c).filter fun k => !t0.seq.fedWords.any fun w => w.caravan == k
        Runs (.federationWordTimeout i) s fun t =>
          let v := verdict t0.seq.words t0.seq.fedWords lost (absent.map fun _ => 0x7F)
          t.time = maxU s.time (t0.seq.verdictTick + 11000) ∧ ActedOn v (t.stall i) ∧ Out.caravanVerdict i v ∈ t.out
          ∧ (absent ≠ [] → bit v.causes 6 = true) ∧ Unchanged s t (.time :: marchParts i)))

/-- Halts reach every member, every member acts on the verdict, and one that missed it asks for its record (R61, R62,
R63, R68, R262, R263, R264, R265). -/
def Obligations.MembersActOnTheVerdict : Prop :=
  (∀ (s : State) (i : Stall) (c : Charter), (s.stall i).charter.active = some c →
      let t0 := s.stall i
      (∀ v : CaravanVerdict, t0.march.state = .verdict →
        t0.march.lead = false ∨ furtherLead t0 = true →
        (selfFenced t0 = true → exec (.caravanVerdict i v) s = .next s)
        ∧ (selfFenced t0 = false → Runs (.caravanVerdict i v) s fun t =>
          ActedOn v (t.stall i) ∧ (t.stall i).march.hostDecision = 0 ∧ (t.stall i).ledger.norm2 = v.norm2
          ∧ (t0.march.lead = true → Out.caravanVerdict i v ∈ t.out) ∧ Unchanged s t (marchParts i)))
      ∧ (t0.march.state = .verdict → t0.march.lead = false ∨ furtherLead t0 = true →
        Runs (.decisionLost i) s fun t =>
          t.time = maxU s.time (t0.seq.verdictTick + 16000) ∧ heldFor (t.stall i) 0x0208 = true
          ∧ (t.stall i).march.verdict.reason = 0x0208 ∧ (t.stall i).settle.state = 4
          ∧ (t.stall i).settle.step = t0.settle.step
          ∧ Unchanged s t [.time, .out, .stall i .march, .stall i .settle, .stall i .seq])
      ∧ (heldFor t0 0x0208 = true →
        (Runs (.recordRequest i) s fun t =>
          t.out = s.out ++ [.recordRequest i] ∧ Unchanged s t [.time, .out, .stall i .settle]
          ∧ t.time = maxU s.time (t0.seq.verdictTick + 16000
              + BitVec.ofNat 64 (10000 * (match t0.settle.asked with | some n => n + 1 | none => 0))))
        ∧ (t0.march.lead = false → Runs (.commandRelay i .accept) s fun t =>
            (t.stall i).march.state ≠ .held ∧ (t.stall i).seq.settles = true ∧ ∀ j, j ≠ i → t.stall j = s.stall j))
      ∧ (∀ (m : Member) (r : VerdictRecord), t0.march.lead = true → t0.settle.record = some r →
        Runs (.recordAnswer i m) s fun t =>
          Out.recordAnswer i m r ∈ t.out ∧ m ∈ (t.stall i).settle.requests
          ∧ (r.verdict.code = 1 ∨ r.verdict.code = 2 ∧ r.hostDecision = 1 → Out.relayed i .accept ∈ t.out)
          ∧ (r.verdict.code = 3 ∨ r.verdict.code = 4 ∨ r.verdict.code = 2 ∧ r.hostDecision = 2 → Out.relayed i .discard ∈ t.out)
          ∧ (r.verdict.code = 5 ∨ r.verdict.code = 6 ∨ r.verdict.code = 7 ∨ r.verdict.code = 8 →
              Out.relayed i (.start t0.seq.repeatAt) ∈ t.out)
          ∧ Unchanged s t [.out, .stall i .settle])
      ∧ (∀ (m : Member) (step : BitVec 40), t0.march.lead = true ∨ t0.march.deputy = true → isFenced t0 m = false →
        t0.settle.settledWords.contains m = false → t0.seq.finished = false →
        Runs (.settled i m (match t0.settle.record with | some r => r.march | none => t0.march.num) step) s fun t =>
          (t.stall i).settle = { t0.settle with settledWords := t0.settle.settledWords ++ [m] }
          ∧ Unchanged s t [.stall i .settle]))
  ∧ (∀ (s : State) (i : Stall), (s.stall i).march.state = .legs →
      let told (t : State) : Prop := (t.stall i).seq.haltKnown = true ∧ (t.stall i).seq.stopped = (s.stall i).seq.stopped
      (∀ (m : Member) (code : BitVec 4) (reason : Reason), (s.stall i).march.lead = true → isFenced (s.stall i) m = false →
        code = 6 ∨ code = 7 ∨ code = 8 ∨ code = 9 ∨ code = 11 →
        Runs (.haltFlit i m code reason) s fun t =>
          told t ∧ (t.stall i).seq.causes = (s.stall i).seq.causes
          ∧ t.out = (if (s.stall i).seq.haltKnown then s.out else s.out ++ [.haltBroadcast i])
          ∧ Unchanged s t [.stall i .seq, .out])
      ∧ (Runs (.haltBroadcast i) s fun t =>
          told t ∧ (t.stall i).seq.causes = (s.stall i).seq.causes ∧ Unchanged s t [.stall i .seq])
      ∧ ∀ r : Requester, Allowed s r (marchOff i 0) → (s.stall i).march.lead = true →
        Runs (.stopNow r i) s fun t =>
          (t.stall i).seq.haltKnown = true ∧ (t.stall i).seq.stopped = true
          ∧ (∀ k < 13, bit (t.stall i).seq.causes k = (bit (s.stall i).seq.causes k || k == 9))
          ∧ Out.halt i 9 0x0204 ∈ t.out ∧ Unchanged s t [.stall i .seq, .out])

/-- The host moves the march by the commands of its lead (R67, R68, R358). -/
def Obligations.HostCommandsMoveTheMarch : Prop :=
  ∀ (s : State) (r : Requester) (i : Stall) (c : Charter), Allowed s r (marchOff i 0) → (s.stall i).charter.active = some c →
    let t0 := s.stall i
    let m := t0.march
    (m.lead = false → ∀ cmd ∈ [Instr.start r i false, .single r i, .stop r i, .stopNow r i, .accept r i, .discard r i],
      Runs cmd s fun t => (t.stall i).march = { m with cmdIgnored := true } ∧ Unchanged s t [.stall i .march])
    ∧ (m.lead = true →
      (exec (.start r i true) s = exec (.stopNow r i) s)
      ∧ (m.state = .ready → t0.charter.assembled = true ∨ missingWords t0 c = [] →
        let power : List Part := if s.power.state = 3 then [.power] else []
        let armed (on : Bool) (t : State) : Prop :=
          (t.stall i).march = { m with state := .armed, origin := s.time + 100000, sinceStart := 0 }
          ∧ (t.stall i).seq.continuous = on ∧ (t.stall i).seq.repeatAt = some (s.time + 100000)
          ∧ t.power.state ≠ 3
          ∧ Unchanged s t ([.out, .stall i .march, .stall i .seq, .stall i .charter] ++ power)
        (Runs (.start r i false) s fun t => armed true t ∧ t.out = s.out ++ [.relayed i (.start (some (s.time + 100000)))])
        ∧ Runs (.single r i) s fun t => armed false t ∧ t.out = s.out ++ [.relayed i (.single (s.time + 100000))])
      ∧ (m.state = .ready → t0.charter.assembled = false → missingWords t0 c ≠ [] →
        Runs (.start r i false) s fun t =>
          (t.stall i).march = { m with cmdIgnored := true } ∧ Unchanged s t [.stall i .march])
      ∧ (m.state = .held →
          t0.seq.hold = 0 ∧ (m.verdict.code = 9 ∨ m.verdict.code = 10 ∨ m.verdict.code = 12) ∨ t0.seq.hold = 0x0210 →
        let o := BitVec.ofNat 64 (max (s.time.toNat + 116000) s.time.toNat)
        Runs (.start r i false) s fun t =>
          (t.stall i).march.state = .waitRepeat ∧ (t.stall i).march.sinceStart = 0
          ∧ (t.stall i).march.repeats = satAdd m.repeats 1 ∧ (t.stall i).march.num = m.num
          ∧ (t.stall i).seq.continuous = true ∧ Out.relayed i (.start none) ∈ t.out
          ∧ (t0.seq.waiting = [] → (t.stall i).march.origin = o ∧ (t.stall i).seq.repeatAt = some o
              ∧ Out.relayed i (.origin o) ∈ t.out)
          ∧ (t0.seq.waiting ≠ [] → (t.stall i).seq.repeatAt = none)
          ∧ Unchanged s t [.out, .stall i .march, .stall i .seq, .stall i .tally])
      ∧ (m.state ≠ .empty → m.state ≠ .ready → t0.seq.continuous = true →
        Runs (.stop r i) s fun t =>
          (t.stall i).seq = { t0.seq with continuous := false } ∧ t.out = s.out ++ [.relayed i .stop]
          ∧ Unchanged s t [.out, .stall i .seq])
      ∧ (m.state = .verdict ∨ m.state = .settle → exec (.stopNow r i) s = exec (.stop r i) s)
      ∧ (m.state = .held → t0.seq.hold = 0 → m.verdict.code = 2 → m.hostDecision = 0 →
        (Runs (.accept r i) s fun t =>
          (t.stall i).march.hostDecision = 1 ∧ (t.stall i).march.state ≠ .held ∧ (t.stall i).seq.settles = true
          ∧ (t.stall i).march.verdict.code = 2 ∧ Out.relayed i .accept ∈ t.out ∧ ∀ j, j ≠ i → t.stall j = s.stall j)
        ∧ (t0.seq.ended = false → Runs (.discard r i) s fun t =>
          (t.stall i).march = { m with hostDecision := 2, kind := if c.lastReduce < m.leg.toNat then 0 else m.kind }
          ∧ (t.stall i).settle.step = t0.settle.step ∧ (t.stall i).seq.noSettle = true
          ∧ t.out = s.out ++ [.relayed i .discard] ∧ Unchanged s t [.out, .stall i .march, .stall i .settle, .stall i .seq]))
      ∧ (m.state = .held → t0.seq.hold = 0 → m.verdict.code = 10 → m.hostDecision = 0 →
        Runs (.discard r i) s fun t =>
          (t.stall i).march = { m with state := .ready, hostDecision := 2 } ∧ (t.stall i).seq.continuous = false
          ∧ t.out = s.out ++ [.relayed i .discard] ∧ Unchanged s t [.out, .stall i .march, .stall i .seq]))

/-- A relayed command acts at a member as its lead has acted (R68, R241, R242, R358, R461). -/
def Obligations.RelayedCommandsAct : Prop :=
  ∀ (s : State) (i : Stall) (c : Charter), (s.stall i).charter.active = some c → (s.stall i).march.lead = false →
    let t0 := s.stall i
    (∀ o : BitVec 64,
      (t0.march.state = .ready → ∀ e ∈ [(RelayedCommand.start (some o), true), (.single o, false)],
        Runs (.commandRelay i e.1) s fun t =>
          (t.stall i).march = { t0.march with state := .armed, origin := o, sinceStart := 0 }
          ∧ (t.stall i).seq = { t0.seq with continuous := e.2, repeatAt := some o, hold := 0 }
          ∧ Unchanged s t ([.stall i .march, .stall i .seq] ++ if s.power.state = 3 then [.power] else []))
      ∧ (t0.march.state = .held → t0.march.hostDecision ≠ 2 →
        Runs (.commandRelay i (.start (some o))) s fun t =>
          (t.stall i).march.state = .waitRepeat ∧ (t.stall i).march.origin = o ∧ (t.stall i).seq.repeatAt = some o
          ∧ (t.stall i).march.repeats = satAdd t0.march.repeats 1 ∧ (t.stall i).march.num = t0.march.num
          ∧ (t.stall i).seq.continuous = true ∧ Unchanged s t [.stall i .march, .stall i .seq, .stall i .tally])
      ∧ (t0.march.state = .held → t0.march.hostDecision = 2 →
        Runs (.commandRelay i (.start (some o))) s fun t =>
          (t.stall i).seq = { t0.seq with continuous := true, repeatAt := some o } ∧ Unchanged s t [.stall i .seq])
      ∧ (t0.march.state = .armed ∨ t0.march.state = .waitRepeat →
        Runs (.commandRelay i (.origin o)) s fun t =>
          (t.stall i).march = { t0.march with origin := o } ∧ (t.stall i).seq = { t0.seq with repeatAt := some o }
          ∧ Unchanged s t [.stall i .march, .stall i .seq])
      ∧ ∀ p : Charter, t0.charter.pending = some p →
        (t0.march.state = .ready ∨ t0.march.state = .held →
          Runs (.commandRelay i (.swap o)) s fun t =>
            (t.stall i).charter.active = some p ∧ (t.stall i).charter.pending = none ∧ (t.stall i).march.state = .ready
            ∧ (t.stall i).settle.coef = p.groups ∧ t.mem = s.mem)
        ∧ (t0.march.state = .armed →
          Runs (.commandRelay i (.swap o)) s fun t =>
            (t.stall i).charter.swapAt = some o ∧ (t.stall i).charter.active = some c ∧ (t.stall i).march.origin = o
            ∧ Unchanged s t [.stall i .march, .stall i .seq, .stall i .charter]))
    ∧ (Runs (.commandRelay i .stop) s fun t =>
        (t.stall i).seq = { t0.seq with continuous := false } ∧ Unchanged s t [.stall i .seq])
    ∧ (t0.march.state = .legs → Runs (.commandRelay i .stopNow) s fun t =>
        (t.stall i).seq = { t0.seq with haltKnown := true } ∧ Unchanged s t [.stall i .seq])
    ∧ (t0.march.state = .held → t0.seq.hold = 0 → t0.march.verdict.code = 10 →
        Runs (.commandRelay i .discard) s fun t =>
          (t.stall i).march.state = .ready ∧ (t.stall i).march.num = t0.march.num
          ∧ Unchanged s t [.stall i .march, .stall i .seq])
    ∧ (∀ f : BitVec 68, Runs (.commandRelay i (.lift f)) s fun t =>
        (t.stall i).ledger = { t0.ledger with lifts := t0.ledger.lifts ||| (f &&& t0.ledger.fences) }
        ∧ Unchanged s t [.stall i .ledger])
    ∧ (∀ (car : BitVec 6) (m sb : Member),
      (car ≠ c.caravanIx → exec (.commandRelay i (.fence car m sb)) s = .next s)
      ∧ (car = c.caravanIx → Runs (.commandRelay i (.fence car m sb)) s fun t =>
        (t.stall i).ledger = { t0.ledger with
          fences := setBit t0.ledger.fences m.toNat, subst := (t0.ledger.subst.filter fun e => e.1 != m) ++ [(m, sb)] }
        ∧ (t0.march.state = .verdict ∨ t0.march.state = .waitRepeat →
            s.power.brace = false → s.power.thermalHalt = false → Out.ready i ∈ t.out)
        ∧ (t0.march.state ≠ .verdict → t0.march.state ≠ .waitRepeat → t0.march.member.toNat < 64 →
            Unchanged s t [.stall i .ledger])
        ∧ (∀ x, t0.march.state = .settle → 64 ≤ t0.march.member.toNat → t0.march.member = sb → t0.settle.settled = false →
            mirrorSettled t0 = some x → Out.settled i x.1 x.2 ∈ t.out ∧ (t.stall i).settle.settled = true)
        ∧ Unchanged s t ([.out, .log] ++ ([.march, .seq, .ledger, .settle, .charter, .service] : List StallPart).map (Part.stall i))))
    ∧ (∀ p : BitVec 16, Runs (.commandRelay i (.period p)) s fun t =>
        (t.stall i).service = { t0.service with period := p } ∧ Unchanged s t [.stall i .service])

/-- Work completes, the last settlement is reported, and late or missing reports are acted on (R57, R59, R262, R265). -/
def Obligations.WorkCompletesAndMayBeLate : Prop :=
  ∀ (s : State) (i : Stall) (c : Charter), (s.stall i).charter.active = some c →
    let t0 := s.stall i
    (∀ (e : EntryRef) (dt : BitVec 64), completable s i e = true → (∀ n, e ≠ .settle n) → t0.march.state = .legs →
      (∀ x, c.sched e = some x → x.leg.toNat ≤ c.lastReduce) →
      Runs (.entryComplete i e dt) s fun t =>
        t.time = maxU s.time (s.time + dt) ∧ (t.stall i).seq = { t0.seq with done := t0.seq.done ++ [⟨e, t.time⟩] }
        ∧ (∀ n k, e = .copy n k → (t.engine n).state = (if (s.engine n).batch.isSome then 3 else 1)) ∧ t.mem = s.mem
        ∧ Unchanged s t ([.time, .stall i .seq] ++ tierParts ++ match e with | .copy n _ => [.engine n] | _ => []))
    ∧ (∀ (n : Nat) (dt : BitVec 64), completable s i (.settle n) = true → t0.march.state = .settle → t0.seq.ended = false →
      (∀ k < c.settle.length, k = n ∨ isDone t0 (.settle k) = true) → t0.settle.settled = false → t0.march.lead = false →
      Runs (.entryComplete i (.settle n) dt) s fun t =>
        (t.stall i).settle.settled = true ∧ Out.settled i t0.march.num t0.settle.step ∈ t.out
        ∧ isDone (t.stall i) (.settle n) = true ∧ (t.stall i).march.state = .settle
        ∧ t.mem = s.mem
        ∧ Unchanged s t ([.time, .out, .stall i .march, .stall i .seq, .stall i .settle] ++ tierParts))
    ∧ (t0.march.lead = true → ∀ (m : Member) (time : BitVec 64),
      let o := BitVec.ofNat 64 (toMicro (time.toNat + 10000))
      (t0.march.state = .armed → t0.march.origin.toNat < o.toNat →
        Runs (.settleLate i m time) s fun t =>
          (t.stall i).march = { t0.march with origin := o } ∧ (t.stall i).seq.repeatAt = some o
          ∧ Out.relayed i (.origin o) ∈ t.out ∧ Recorded s t 0x0209
          ∧ Unchanged s t [.out, .log, .stall i .march, .stall i .seq])
      ∧ (t0.march.state ≠ .armed →
        Runs (.settleLate i m time) s fun t =>
          (t.stall i).seq = { t0.seq with late := maxU t0.seq.late time } ∧ Unchanged s t [.stall i .seq]))
    ∧ (t0.march.lead = true → t0.march.state = .settle → t0.seq.settles = true → ∀ m ∈ settlingMembers t0 c,
      t0.settle.settledWords.contains m = false → t0.settle.requests.contains m = false →
      (∀ sb, standbyFor t0 m = some sb → t0.seq.finished = false →
        Runs (.settleUnconfirmed i m) s fun t =>
          t.time = maxU s.time (t0.seq.verdictTick + 1000000) ∧ (t.stall i).ledger.fences = setBit t0.ledger.fences m.toNat
          ∧ (m, sb) ∈ (t.stall i).ledger.subst ∧ Out.relayed i (.fence c.caravanIx m sb) ∈ t.out ∧ Recorded s t 0x0403
          ∧ Unchanged s t [.time, .out, .log, .stall i .ledger, .stall i .settle])
      ∧ (standbyFor t0 m = none → t0.seq.finished = true →
        Runs (.settleUnconfirmed i m) s fun t =>
          t.time = maxU s.time (t0.seq.verdictTick + 1000000) ∧ heldFor (t.stall i) 0x0402 = true ∧ Recorded s t 0x0402
          ∧ (t.stall i).settle.step = t0.settle.step
          ∧ Unchanged s t [.time, .out, .log, .stall i .march, .stall i .seq, .stall i .settle]))

/-- A repeat waits for its members, and a missing member is replaced by its standby (R64, R241, R242, R458, R460). -/
def Obligations.MissingMembersAreReplaced : Prop :=
  ∀ (s : State) (i : Stall) (c : Charter) (m : Member), (s.stall i).charter.active = some c →
    (s.stall i).march.lead = true → (s.stall i).march.state = .waitRepeat →
    let t0 := s.stall i
    (isFenced t0 m = false → t0.seq.repeatAt = none → ∀ cmd ∈ [Instr.memberReady i m, .spareReady i m],
      ((∀ x ∈ t0.seq.waiting, x = m) →
        Runs cmd s fun t =>
          (t.stall i).march.origin = BitVec.ofNat 64 (max (t0.seq.verdictTick.toNat + 116000) s.time.toNat)
          ∧ (t.stall i).seq.repeatAt = some (t.stall i).march.origin ∧ (t.stall i).seq.waiting = []
          ∧ t.out = s.out ++ [.relayed i (.origin (t.stall i).march.origin)]
          ∧ (t.stall i).march.num = t0.march.num ∧ Unchanged s t [.out, .stall i .march, .stall i .seq])
      ∧ ((∃ x ∈ t0.seq.waiting, x ≠ m) →
        Runs cmd s fun t =>
          (t.stall i).seq = { t0.seq with waiting := t0.seq.waiting.filter fun x => x != m } ∧ Unchanged s t [.stall i .seq]))
    ∧ (missingPeers t0 = [m] →
      let waited := maxU s.time (t0.seq.verdictTick + 16000 + BitVec.ofNat 64 (1000000 * t0.service.wait.toNat))
      let reported := (t0.seq.missing.any fun e => e.1 == m && e.2 == 0x020C)
        || t0.seq.words.any fun w => w.member == m && w.reason == 0x020C
      (∀ sb, standbyFor t0 m = some sb →
        Runs (.takeoverWait i) s fun t =>
          t.time = (if reported then s.time else waited)
          ∧ (t.stall i).ledger.fences = setBit t0.ledger.fences m.toNat ∧ (m, sb) ∈ (t.stall i).ledger.subst
          ∧ (t.stall i).service.lost = m ∧ (t.stall i).service.standby = sb ∧ (t.stall i).service.kind = 1
          ∧ (t.stall i).seq.waiting = (if s.power.brace || s.power.thermalHalt then liveMembers (t.stall i) c
              else (liveMembers (t.stall i) c).filter fun x => x != t0.march.member)
          ∧ Out.relayed i (.fence c.caravanIx m sb) ∈ t.out ∧ (t0.service.ckptState ≠ 1 → Recorded s t 0x020E)
          ∧ Unchanged s t ([.time, .out, .log]
            ++ ([.march, .seq, .ledger, .charter, .service] : List StallPart).map (Part.stall i)))
      ∧ (standbyFor t0 m = none →
        Runs (.takeoverWait i) s fun t =>
          t.time = (if reported then s.time else waited) ∧ heldFor (t.stall i) 0x0210 = true ∧ Recorded s t 0x0210
          ∧ (t.stall i).ledger = t0.ledger ∧ Unchanged s t [.time, .out, .log, .stall i .march, .stall i .seq]))

/-- A dense tile op stores the reference product of its tiles (R98, R99, R100, R103, R110, R118, R126). -/
def Obligations.DenseTileOpsMultiply : Prop :=
  ∀ (s : State) (k : CoreId) (index : Nat) (i : Stall) (c : Charter) (e : StreamEntry), Sane s →
    dueStream s k index [0x10] = some (i, c, e) →
    let d := e.desc
    let f := arithFmt (mmFmtC d)
    let ten := c.tensor (mmTensorC d)
    let a := mmEngine d
    let code (rn : Nat × Nat) : Nat :=
      if mmPresent e rn.1 then
        storeCode (s.stall i) ten f (mmStochastic d) (mmStream d) (mmDest (drawDesc c k index d) f rn.1 rn.2)
          (reference (chunkLen (arithFmt (mmFmtA d)) (arithFmt (mmFmtB d))) (mmInit s i d f rn.1 rn.2) (mmProducts s i c d rn.1 rn.2))
      else 0
    let written := (mmElements d).filter fun rn => mmPresent e rn.1 || !mmPreserve d
    Runs (.matmul k index) s fun t =>
      hasRun (t.stall i) (.stream k index) = true ∧ ((t.core k).da[a]).ops = satAdd ((s.core k).da[a]).ops 1
      ∧ ((t.core k).da[a]).op = opIndex c k index
      ∧ (∀ b, b ≠ a → (t.core k).da[b] = (s.core k).da[b])
      ∧ (mmEmpty d = false → Stored s t (.core k) i c ten (fmtBytes f) (written.map fun rn => (mmDest d f rn.1 rn.2, code rn)))
      ∧ (mmEmpty d = false → mmPasses e ≠ 0 → ((t.core k).da[a]).hold = true
          ∧ let streamed := streamCycles (s.core k).brace (mmPasses e * mmStreamLen d)
              (workLevel (s.core k) (s.core k).da[a] (mmLevel e)) (mmLevel e)
            ((t.core k).da[a]).level.toNat = streamed.2 % 128
            ∧ ((t.core k).da[a]).busy = ((s.core k).da[a]).busy + BitVec.ofNat 64 streamed.1)
      ∧ (mmEmpty d = true → t.mem = s.mem ∧ t.tiers = s.tiers)
      ∧ Unchanged s t ([.free, .core k, .stall i .seq] ++ storeParts)

/-- Sparse products follow the reference order, by either engine (R138, R140, R141, R143, R146, R151). -/
def Obligations.SparseProductsFollowTheReference : Prop :=
  ∀ (s : State) (k : CoreId) (index : Nat) (i : Stall) (c : Charter) (e : StreamEntry), Sane s →
    let d := e.desc
    let g := gmEngine d
    let fc := arithFmt (gmFmtC d)
    let ten := c.tensor (gmTensorC d)
    let code (r n : Nat) (v : Word) : Nat :=
      storeCode (s.stall i) ten fc (gmStochastic d) (gmStream d) (gmDest (drawDesc c k index d) fc r n) v
    let empty := gmRows d = 0 ∨ gmCols d = 0 ∨ gmKLen d = 0
    let ran (t : State) : Prop := hasRun (t.stall i) (.stream k index) = true
      ∧ ((t.core k).gme[g]).ops = satAdd ((s.core k).gme[g]).ops 1 ∧ (empty → t.mem = s.mem ∧ t.tiers = s.tiers)
    (dueStream s k index [0x20] = some (i, c, e) →
      let f := sparseForm c (c.tensor (gmTensorA d)) (gmTurnA d)
      Runs (.spmm k index) s fun t =>
        ran t
        ∧ (¬empty → Stored s t (.core k) i c ten (fmtBytes fc) ((spmmElements d f).map fun (j, r, n) =>
            (gmDest d fc (128 * j + r) n, code (128 * j + r) n
              (spmmValue s i c d f (gmFirstTile d + j) r n (gmInit s i d (128 * j + r) n) (spmmBlocks d f)))))
        ∧ (¬empty → let way (t : Nat × Nat) : Nat :=
              chooseTile (s.core k).chooser.toNat (dirEntry s i f (t.1 * f.kt + t.2)) (f.tileRows t.1) (f.tileK t.2)
            (t.core k).toDense = satAdd (s.core k).toDense ((spmmTiles d f).filter fun t => way t == 1).length
            ∧ (t.core k).toGme = satAdd (s.core k).toGme ((spmmTiles d f).filter fun t => way t == 2).length)
        ∧ Unchanged s t ([.free, .out, .log, .core k, .stall i .seq] ++ storeParts))
    ∧ (dueStream s k index [0x21] = some (i, c, e) →
      Runs (.ragged k index) s fun t =>
        ran t
        ∧ (¬empty → Stored s t (.core k) i c ten (fmtBytes fc)
            (((List.range (gmRows d)).flatMap fun r => (List.range (gmCols d)).map fun n => (r, n)).map fun (r, n) =>
              (gmDest d fc r n, code r n (reference (gmChunk d) (gmInit s i d r n) (raggedProducts s i c d r n)))))
        ∧ Unchanged s t ([.free, .core k, .stall i .seq] ++ storeParts))

/-- A router gives its slots by rank, and its verdicts say where each row went (R153, R154, R155, R156, R157, R158). -/
def Obligations.RoutersServeTheirRanks : Prop :=
  ∀ (s : State) (k : CoreId) (index : Nat) (i : Stall) (c : Charter) (e : StreamEntry), Sane s →
    let d := e.desc
    let g := gmEngine d
    let f := arithFmt (dpFmt d)
    let fb := fmtBytes f
    let ts := c.tensor (dpTensorSrc d)
    let td := c.tensor (dpTensorDst d)
    let slots (base a : Nat) : Prop := base ≤ a ∧ a < base + dpDests d * dpSlots d * dpRowBytes d
    let lists (a : Nat) : Prop := dpVerdict d ≤ a ∧ a < dpVerdict d + 8 * dpCount d + 4 * dpDests d
    -- the elements of the row of entry n's token in a slot, and a slot of zeros
    let rowIn (n dest slot : Nat) : List (Nat × Nat) := (List.range (dpRowLen d)).map fun x =>
      (slotAddr d (dpDst d) dest slot + x * fb, codeAt s i c ts (dpSrc d + n / dpTopk d * dpRowBytes d + x * fb))
    let zeroIn (dest slot : Nat) : List (Nat × Nat) := (List.range (dpRowLen d)).map fun x =>
      (slotAddr d (dpDst d) dest slot + x * fb, 0)
    let ran (t : State) : Prop := hasRun (t.stall i) (.stream k index) = true
      ∧ ((t.core k).gme[g]).ops = satAdd ((s.core k).gme[g]).ops 1 ∧ (dpEmpty d = true → t.mem = s.mem ∧ t.tiers = s.tiers)
    (∀ (l : List RouterEntry) (dests topk m n : Nat) (hm : m < l.length) (hn : n < l.length), ranked l dests topk m = true →
      ranked l dests topk n = true → l[m].dest = l[n].dest → m ≠ n → rankOf l dests topk m ≠ rankOf l dests topk n)
    ∧ (dueStream s k index [0x22] = some (i, c, e) → dpSpill d = false → dpMain d ≤ dpSlots d →
      let l := routerList s i d
      let v (n : Nat) := dispatchVerdict l (dpDests d) (dpTopk d) (dpSlots d) (dpMain d) n
      Runs (.dispatchMain k index) s fun t =>
        ran t
        ∧ (dpEmpty d = false →
            (t.core k).refused = satAdd (s.core k).refused ((List.range (dpCount d)).filter fun n => (v n).1 == 2).length
            ∧ (t.core k).deferred = satAdd (s.core k).deferred ((List.range (dpCount d)).filter fun n => (v n).1 == 1).length
            ∧ OnlyBytes s t i (fun a => slots (dpDst d) a ∨ lists a))
        ∧ (dpEmpty d = false →
            (∀ n < dpCount d, ∀ h : n < l.length,
              HeldBack s t (.core k) i c 0 8 [(dpVerdict d + 8 * n, (verdictEntry (v n) l[n].dest).toNat)]
              ∧ ((v n).1 = 0 → HeldBack s t (.core k) i c td fb (rowIn n l[n].dest (v n).2.2)))
            ∧ (∀ a < dpDests d, ∀ b < dpSlots d,
                (∀ n < dpCount d, ∀ h : n < l.length, ¬((v n).1 < 2 ∧ l[n].dest = a ∧ (v n).2.2 = b)) →
                HeldBack s t (.core k) i c td fb (zeroIn a b)))
        ∧ (dpEmpty d = false → PlainAt s i (fun a => slots (dpDst d) a ∨ lists a) → (∀ a, ¬(slots (dpDst d) a ∧ lists a)) →
            (∀ n < dpCount d, ∀ h : n < l.length,
              ReadBack s t i c 0 8 [(dpVerdict d + 8 * n, (verdictEntry (v n) l[n].dest).toNat)]
              ∧ ((v n).1 = 0 → ReadBack s t i c td fb (rowIn n l[n].dest (v n).2.2)))
            ∧ (∀ a < dpDests d, ∀ b < dpSlots d,
                (∀ n < dpCount d, ∀ h : n < l.length, ¬((v n).1 < 2 ∧ l[n].dest = a ∧ (v n).2.2 = b)) →
                ReadBack s t i c td fb (zeroIn a b)))
        ∧ Unchanged s t ([.free, .core k, .stall i .seq] ++ storeParts))
    ∧ (dueStream s k index [0x22] = some (i, c, e) → dpSpill d = true →
      Runs (.dispatchSpill k index) s fun t =>
        ran t
        ∧ (dpEmpty d = false → OnlyBytes s t i (slots (dpDst d)))
        ∧ (dpEmpty d = false → ∀ n < dpCount d,
            let v (m : Nat) := readVerdict s i (linkVerdict c k d) m
            (v n).1 = 1 → (v n).2.2 < dpDests d → dpMain d ≤ (v n).2.1 → (v n).2.1 < dpSlots d → (∀ m < n, v m ≠ v n) →
            HeldBack s t (.core k) i c td fb (rowIn n (v n).2.2 (v n).2.1)
            ∧ (PlainAt s i (slots (dpDst d)) → ReadBack s t i c td fb (rowIn n (v n).2.2 (v n).2.1)))
        ∧ Unchanged s t ([.free, .out, .log, .core k, .stall i .seq] ++ storeParts))
    ∧ (dueStream s k index [0x23] = some (i, c, e) →
      Runs (.combine k index) s fun t =>
        ran t
        ∧ (dpEmpty d = false → OnlyBytes s t i fun a => dpDst d ≤ a ∧ a < dpDst d + 4 * (dpTokens d * dpRowLen d))
        ∧ (dpEmpty d = false → PlainAt s i (fun a => dpDst d ≤ a ∧ a < dpDst d + 4 * (dpTokens d * dpRowLen d)) →
            s.waits (.core k) = false →
            let v (m : Nat) := readVerdict s i (linkVerdict c k d) m
            ∀ n < dpCount d, ∀ x < dpRowLen d,
              let o := dpDst d + n / dpTopk d * dpRowLen d * 4 + 4 * x
              let old := s.readNat i o 4
              noPad c td o = true →
              ((∀ m < dpCount d, m / dpTopk d = n / dpTopk d → 2 ≤ (v m).1) → t.readNat i o 4 = old)
              ∧ ((v n).1 < 2 → (v n).2.2 < dpDests d → (v n).2.1 < dpSlots d →
                  (∀ m < dpCount d, m ≠ n → ¬((v m).1 < 2 ∧ (v m).2 = (v n).2)) →
                  (∀ m < dpCount d, m ≠ n → m / dpTopk d = n / dpTopk d → 2 ≤ (v m).1) →
                  let sum := fma32 (BitVec.ofNat 32 (s.readNat i (dpWeight d + 4 * n) 4))
                    (toF32 f (codeAt s i c ts (slotAddr d (dpSrc d) (v n).2.2 (v n).2.1 + x * fb)))
                    (BitVec.ofNat 32 (codeAt s i c td o))
                  ReadBack s t i c td 4 [(o, sum.toNat)] ∧ HeldBack s t (.core k) i c td 4 [(o, sum.toNat)]))
        ∧ Unchanged s t ([.free, .out, .log, .core k, .stall i .seq] ++ storeParts))

/-- An assay rewrites the tiles it covers by the mask of its phase (R160, R161, R162, R163, R164, R165). -/
def Obligations.AssayRewritesItsTiles : Prop :=
  ∀ (s : State) (k : CoreId) (index : Nat) (i : Stall) (c : Charter) (e : StreamEntry), Sane s →
    dueStream s k index [0x24] = some (i, c, e) →
    let d := e.desc
    let ts := c.tensor (asTensorS d)
    let f := sparseForm c ts false
    let ft := sparseForm c ts true
    let num := (s.stall i).march.num
    let tile (g : SparseForm) (ix a : Nat) : Prop :=
      (g.slotAddr ix ≤ a ∧ a < g.slotAddr ix + g.slot) ∨ (g.dirAddr ix ≤ a ∧ a < g.dirAddr ix + 16)
    let covered (ix : Nat) : Prop := ∃ a < asRowTiles d, ∃ b < asKTiles d, ix = (asFirstRow d + a) * f.kt + asFirstK d + b
    Runs (.assay k index) s fun t =>
      hasRun (t.stall i) (.stream k index) = true
      ∧ (asRowTiles d ≠ 0 → asKTiles d ≠ 0 →
          (t.core k).assay = (if num.toNat % asPeriod d = asPhase d then num.setWidth 32 else (s.core k).assay))
      ∧ (asRowTiles d = 0 ∨ asKTiles d = 0 → t.mem = s.mem ∧ t.tiers = s.tiers)
      ∧ (asTurned d = false → f.tk % 16 = 0 → OnlyBytes s t i fun a => ∃ ix, covered ix ∧ tile f ix a)
      ∧ (f.tk % 16 = 0 → ft.tk % 16 = 0 →
          OnlyBytes s t i fun a => (∃ ix, covered ix ∧ tile f ix a) ∨ ∃ ix < ceilDiv ft.rows 128 * ft.kt, tile ft ix a)
      ∧ (asTurned d = false → f.tk % 16 = 0 → asFirstK d + asKTiles d ≤ f.kt →
          PlainAt s i (fun a => ∃ ix, covered ix ∧ tile f ix a) →
          (∀ ix a, covered ix → tile f ix a → hostVisible s i a = false) →
          (∀ x y a, covered x → covered y → f.dirAddr x ≤ a → a < f.dirAddr x + 16 →
            ¬(f.slotAddr y ≤ a ∧ a < f.slotAddr y + f.slot)) →
          ∀ a < asRowTiles d, ∀ b < asKTiles d,
            let rt := asFirstRow d + a
            let kb := asFirstK d + b
            ∃ rows : TileRows,
              dirEntry t i f (rt * f.kt + kb) = dirFor f rows (num.toNat % 2 ^ 32)
              ∧ ∀ r < min 128 (f.tileRows rt), ∀ q < f.tileK kb, ∀ code,
                  (q, code) ∈ rows.getD r [] ↔ assayMask s i c d (num.toNat % asPeriod d == asPhase d) (128 * rt + r) (f.tk * kb + q) = true
                    ∧ code = assayCode s i c (c.tensor (asTensorW d)) (128 * rt + r) (f.tk * kb + q))
      ∧ Unchanged s t ([.core k, .stall i .seq] ++ storeParts)

/-- A vector op stores its function of every element (R167, R168, R169, R170, R171, R172, R173). -/
def Obligations.VectorOpsComputeTheirElements : Prop :=
  ∀ (s : State) (k : CoreId) (index : Nat) (i : Stall) (c : Charter) (e : StreamEntry), Sane s →
    let d := e.desc
    let f := fmtCode (vuFmtD d)
    let ten := c.tensor (vuTensorD d)
    let o := drawDesc c k index d
    let a := vuReadA s i d
    let b := vuReadB s i d
    let dest (n : Nat) : Nat := vuD d + n * fmtBytes f
    let results (count : Nat) (value : Nat → Word) : List (Nat × Nat) :=
      (List.range count).map fun n => (dest n,
        storeCode (s.stall i) ten f (vuStochastic d) (vuStream d) (vuD o + n * fmtBytes f) (value n))
    let frame (t : State) : Prop := hasRun (t.stall i) (.stream k index) = true
      ∧ (t.core k).vu.ops = satAdd (s.core k).vu.ops 1 ∧ (t.core k).vu.opcode = BitVec.ofNat 8 (opcodeOf d)
      ∧ (t.core k).da = (s.core k).da ∧ (t.core k).gme = (s.core k).gme ∧ (t.core k).vu.tables = (s.core k).vu.tables
      ∧ Unchanged s t ([.free, .core k, .stall i .seq] ++ storeParts)
    let computes (cmd : Instr) (value : Nat → Word) : Prop :=
      Runs cmd s fun t => frame t ∧ Stored s t (.core k) i c ten (fmtBytes f) (results (vuCount d) value)
    (dueStream s k index [0x30] = some (i, c, e) →
      (vuFunc d = 0 → computes (.vmapCopy k index) fun n => rne32 (val32 (a n)))
      ∧ (vuFunc d = 1 → computes (.vmapAdd k index) fun n => add32 (a n) (b n))
      ∧ (vuFunc d = 2 → computes (.vmapMul k index) fun n => mul32 (a n) (b n))
      ∧ (vuFunc d = 3 → computes (.vmapFma k index) fun n => fma32 (a n) (b n) (vuReadC s i d n))
      ∧ (vuFunc d = 4 → computes (.vmapMax k index) fun n => max32 (a n) (b n))
      ∧ (vuFunc d = 5 → computes (.vmapMin k index) fun n => min32 (a n) (b n))
      ∧ (vuFunc d = 6 → computes (.vmapScale k index) fun n => mul32 (a n) (vuScalar0 d)))
    ∧ (dueStream s k index [0x31] = some (i, c, e) →
      let table := slotTable s k (vuFunc d)
      (vuBits d = 0 → computes (.vfunc k index) fun n => tableEval table (a n))
      ∧ (vuBits d ≠ 0 → Runs (.vfunc k index) s fun t =>
          let elems := results (vuCount d) fun n => tableEval table (a n)
          let plane (x : Nat) : Prop := ∃ n < vuCount d, x = (planeBit c d n).1
          frame t
          ∧ (PlainAt s i (fun x => codeAddrs (fmtBytes f) elems x ∨ plane x) →
              (∀ x, ¬(codeAddrs (fmtBytes f) elems x ∧ plane x)) → s.waits (.core k) = false →
              ReadBack s t i c ten (fmtBytes f) elems
              ∧ ((∀ x, plane x → hostVisible s i x = false) → (∀ m < vuCount d, ∀ n < vuCount d, planeBit c d m = planeBit c d n → m = n) →
                  ∀ n < vuCount d, (t.readVa i (planeBit c d n).1).getLsbD (planeBit c d n).2 = funcBit (vuBits d) (a n)))
          ∧ HeldBack s t (.core k) i c ten (fmtBytes f) elems
          ∧ OnlyBytes s t i fun x => codeAddrs (fmtBytes f) elems x ∨ plane x))
    ∧ (dueStream s k index [0x32] = some (i, c, e) →
      (vuBits d = 0 → computes (.vderivTable k index) fun n => mul32 (b n) (tableEval (slotTable s k (vuFunc d)) (a n)))
      ∧ (vuBits d = 1 → computes (.vderivBits k index) fun n =>
          mul32 (b n) (if (s.readVa i (planeBit c d n).1).getLsbD (planeBit c d n).2 then vuScalar1 d else vuScalar0 d)))
    ∧ (dueStream s k index [0x33] = some (i, c, e) →
      (vuFunc d = 0 → computes (.vdropForward k index) fun n =>
          if dropped s i c d o n then 0 else mul32 (a n) (vuScalar0 d))
      ∧ (vuFunc d = 1 → computes (.vdropBackward k index) fun n =>
          if dropped s i c d (drawDesc c k (vuLink d) d) n then 0 else mul32 (a n) (vuScalar0 d)))
    ∧ (dueStream s k index [0x34] = some (i, c, e) →
      Runs (.vsum k index) s fun t =>
        frame t ∧ Stored s t (.core k) i c ten (fmtBytes f) (results (vuCount d / vuAux d) (rowSum s i d)))

/-- Governors step by one, hold and expire; table and coefficient updates wait for the boundary (R111, R112, R113, R152,
R174, R267). -/
def Obligations.CoresFollowTheirControls : Prop :=
  ∀ s : State,
    (∀ (k : CoreId) (a : Fin 2),
      let x := (s.core k).da[a]
      (Runs (.governorStep k a) s fun t =>
        let y := (t.core k).da[a]
        (x.level.toNat < governorTarget (s.core k) x → y.level.toNat = x.level.toNat + 1 ∧ y.ballast = x.ballast)
        ∧ (governorTarget (s.core k) x < x.level.toNat → y.level.toNat + 1 = x.level.toNat
            ∧ y.ballast = if x.hold then x.ballast else satAdd x.ballast 46)
        ∧ (x.level.toNat = governorTarget (s.core k) x → t.core k = s.core k)
        ∧ (∀ b, b ≠ a → (t.core k).da[b] = (s.core k).da[b]) ∧ Unchanged s t [.core k])
      ∧ Runs (.governorHoldExpire k a) s fun t =>
        let y := (t.core k).da[a]
        (x.hold = true → y.hold = false ∧ y.target = 0 ∧ y.level = x.level ∧ y.ballast = satAdd x.ballast 3600)
        ∧ (x.hold = false → t.core k = s.core k)
        ∧ (∀ b, b ≠ a → (t.core k).da[b] = (s.core k).da[b]) ∧ Unchanged s t [.core k])
    ∧ (∀ (r : Requester) (k : CoreId) (v : Word), Allowed s r (coreOff k 0x140) →
      Runs (.coreChooserWrite r k v) s fun t =>
        (t.core k).chooserWritten = fld v 0 10 ∧ (t.core k).chooser = (s.core k).chooser ∧ Unchanged s t [.core k])
    ∧ ∀ (i : Stall) (secure : Bool),
      let p := s.post i secure 0
      let part := Part.stall i (if secure then .secure else .posts)
      (∀ coef : Bool, hasUpdate s i secure coef = true →
        let cmd := if coef then Instr.updateCoef i secure else Instr.updateFunction i secure
        (∀ code, checkUpdate s i secure = .inl code →
          Runs cmd s fun t =>
            (t.post i secure 0).ackCode = code ∧ (t.post i secure 0).full = false ∧ t.cores = s.cores
            ∧ Unchanged s t [part, .stall i .customs])
        ∧ (∀ k n table, checkUpdate s i secure = .inr (.function k n table) →
          Runs cmd s fun t =>
            (t.core k).vu.heldTables = (s.core k).vu.heldTables.set n table ∧ (t.core k).vu.tables = (s.core k).vu.tables
            ∧ (t.post i secure 0).ackCode = 0 ∧ (t.post i secure 0).full = false ∧ Unchanged s t [part, .core k])
        ∧ (∀ h, checkUpdate s i secure = .inr (.coef h) →
          Runs cmd s fun t =>
            h ∈ (t.stall i).settle.heldCoef ∧ (t.stall i).settle.coef = (s.stall i).settle.coef
            ∧ (∀ o ∈ (s.stall i).settle.heldCoef, coefOverlap o h = false → o ∈ (t.stall i).settle.heldCoef)
            ∧ (t.post i secure 0).ackCode = 0 ∧ (t.post i secure 0).full = false
            ∧ Unchanged s t [part, .stall i .settle]))
      ∧ (p.len ≠ 48 → checkUpdate s i secure = .inl 0x0602)
      ∧ (p.len = 48 → updateFieldsOk p = false → checkUpdate s i secure = .inl 0x0109)

/-- A copy entry moves its elements, or none of them (R181, R186, R187, R188, R191, R494). -/
def Obligations.CopiesMoveTheirElements : Prop :=
  ∀ (s : State) (e : EngineId) (index : Nat) (i : Stall) (c : Charter) (x : Sched), Sane s →
    engineStall s e = some i → (s.stall i).charter.active = some c → (c.copies.getD e.val {}).entries[index]? = some x →
    due (s.stall i) c (.copy e index) = true → (s.engine e).retired = false →
    let k := s.engine e
    let v := s.seen (.copy e)
    let ops := batchFrom (c.copies.getD e.val {}) x.item.toNat
    let ix := BitVec.ofNat 16 index
    (∀ reason, listCheck v i c ops = some reason →
      Runs (.copyEntry e index) s fun t =>
        (t.engine e).refused = satAdd k.refused 1 ∧ (t.engine e).lastReason = reason ∧ (t.engine e).lastIndex = ix
        ∧ (t.engine e).done = k.done ∧ (t.engine e).bytes = k.bytes ∧ (t.engine e).batch = k.batch
        ∧ (k.batch = none → (t.engine e).state = 1 ∧ (t.engine e).index = ix ∧ (t.engine e).source = false)
        ∧ (∀ b, k.batch = some b → (t.engine e).state = 3 ∧ (t.engine e).source = true)
        ∧ Recorded s t reason ∧ hasRun (t.stall i) (.copy e index) = true
        ∧ Unchanged s t [.out, .log, .engine e, .stall i .seq])
    ∧ (listCheck v i c ops = none →
      Runs (.copyEntry e index) s fun t =>
        (t.engine e).done = satAdd k.done 1 ∧ (t.engine e).refused = k.refused ∧ (t.engine e).batch = k.batch
        ∧ (t.engine e).index = ix ∧ (t.engine e).source = false ∧ (t.engine e).state = (if k.batch.isSome then 4 else 3)
        ∧ hasRun (t.stall i) (.copy e index) = true ∧ Unchanged s t ([.engine e, .stall i .seq] ++ storeParts)
        ∧ ∀ o, ops = [o] →
          let ws := copyWrites v i c o (scanBoxes v i o)
          let bytes (a : Nat) : Prop := ∃ w ∈ ws, w.dst ≤ a ∧ a < w.dst + w.bytes.length
          (t.engine e).bytes = k.bytes + BitVec.ofNat 64 (ws.map fun w => w.bytes.length).sum
          ∧ OnlyBytes s t i bytes
          ∧ (PlainAt s i bytes →
              ws.Pairwise (fun p q => p.dst + p.bytes.length ≤ q.dst ∨ q.dst + q.bytes.length ≤ p.dst) →
              ∀ w ∈ ws, (∀ b < w.bytes.length, hostVisible s i (w.dst + b) = false) →
                t.readBytes i w.dst w.bytes.length = w.bytes)
          ∧ ∀ w ∈ ws, ∀ b < w.bytes.length, hostVisible s i (w.dst + b) = true →
              (⟨.copy e, i, w.dst + b, w.bytes.getD b 0⟩ : HeldByte) ∈ t.tiers.snoops)

/-- A queue takes, runs and completes whole batches (R200, R201, R204, R206, R207, R208, R210, R211, R214, R380). -/
def Obligations.QueuesMoveWholeBatches : Prop :=
  ∀ (s : State) (e : EngineId) (i : Stall), Sane s → engineStall s e = some i →
    let k := s.engine e
    let cu := (s.stall i).customs
    (∀ (n : Nat) (tooLong borrowed : Bool), k.qen = true → k.retired = false → k.batch = none → k.state ≠ 3 →
      (s.stall i).page.state = 2 → headBatch s i k = some (n, tooLong) →
      let ctrs := (List.range n).map fun j => k.qhead.toNat + j
      let open_ := ∀ q ∈ ctrs, denyCause cu .copy permWrite (recordSlot k k.cbase q) 16 = none
      let readable := ∀ q ∈ ctrs, denyCause cu .copy permRead (queueSlot k q) 64 = none
      let ops : List CopyOp := ctrs.map fun q =>
        ⟨queueDesc s i k q, if cpEmpty (queueDesc s i k q) then 0 else BitVec.ofNat 640 (s.readNat i (cpShape (queueDesc s i k q)) 80)⟩
      (¬open_ → Runs (.copyBatchTake e borrowed) s fun t =>
        (t.engine e).qen = false ∧ (t.engine e).lastReason = 0x0701 ∧ (t.engine e).batch = none ∧ Recorded s t 0x0701
        ∧ Unchanged s t [.out, .log, .engine e, .stall i .customs])
      ∧ (open_ → Runs (.copyBatchTake e borrowed) s fun t =>
        ∃ b, (t.engine e).batch = some b ∧ b.first = k.qhead ∧ b.cbase = k.cbase ∧ b.counts.length = n ∧ b.tags.length = n
          ∧ b.recorded = false ∧ (t.engine e).qhead = k.qhead ∧ (t.engine e).done = k.done ∧ (t.engine e).state = 3
          ∧ (b.verdict = 2 → t.mem = s.mem ∧ t.tiers = s.tiers)
          ∧ (tooLong = true → b.verdict = 2 ∧ b.reason = 0x0507)
          ∧ (tooLong = false → ¬readable → b.verdict = 2 ∧ b.reason = 0x0701)
          ∧ (tooLong = false → readable → (s.stall i).charter.active = none →
              ((∃ o ∈ ops, cpEmpty o.d = false ∨ cpReservedOk o.d = false) → b.verdict = 2 ∧ b.reason = 0x0507)
              ∧ ((∀ o ∈ ops, cpEmpty o.d = true ∧ cpReservedOk o.d = true) → b.verdict = 0 ∧ t.mem = s.mem))
          ∧ (tooLong = false → readable → ∀ c, (s.stall i).charter.active = some c →
              (∀ r, batchCheck s i c ops true = some r → b.verdict = 2 ∧ b.reason = r)
              ∧ (batchCheck s i c ops true = none →
                  noShare s i ((ops.filter fun o => !cpEmpty o.d).flatMap fun o => [cpSrc o.d, cpDst o.d]) = false →
                  listCheck s i c ops = none → b.verdict = if borrowed then 1 else 0))
          ∧ Unchanged s t ([.engine e, .stall i .customs] ++ storeParts)))
    ∧ (∀ b : Batch, k.batch = some b → s.waits (.copy e) = false → k.state ≠ 4 → b.counts.length ≤ ringSize k →
      let n := b.counts.length
      let slot (j : Nat) : Nat := recordSlot k b.cbase (b.first.toNat + j)
      let slots (a : Nat) : Prop := ∃ j < n, slot j ≤ a ∧ a < slot j + 16
      let open_ := ∀ j < n, denyCause cu .copy permWrite (slot j) 16 = none
      let ended (t : State) : Prop :=
        (t.engine e).batch = none ∧ (t.engine e).state = 1
        ∧ (t.engine e).qhead = BitVec.ofNat 17 ((b.first.toNat + n) % (2 * ringSize k))
        ∧ (t.engine e).done = (if b.verdict = 2 then k.done else satAdd k.done 1)
        ∧ (t.engine e).deferred = (if b.verdict = 1 then satAdd k.deferred 1 else k.deferred)
        ∧ (t.engine e).refused = (if b.verdict = 2 then satAdd k.refused 1 else k.refused)
        ∧ (b.notify = false → t.out = s.out)
      (b.recorded = true → Runs (.copyBatchComplete e) s fun t => ended t ∧ Unchanged s t [.out, .engine e, .stall i .page])
      ∧ (b.recorded = false → ¬open_ → Runs (.copyBatchComplete e) s fun t =>
        (t.engine e).batch = none ∧ (t.engine e).qen = false ∧ (t.engine e).lastReason = 0x0701
        ∧ (t.engine e).qhead = k.qhead ∧ (t.engine e).done = k.done ∧ Recorded s t 0x0701
        ∧ Unchanged s t [.out, .log, .engine e, .stall i .customs])
      ∧ (b.recorded = false → open_ → Runs (.copyBatchComplete e) s fun t =>
        ((∀ a, slots a → hostVisible s i a = false) → ended t
          ∧ (PlainAt s i slots → ∀ j < n, t.readNat i (slot j) 16 = (completionRecord k b j).toNat))
        ∧ ((∃ a, slots a ∧ hostVisible s i a = true) →
            (t.engine e).batch = some { b with recorded := true } ∧ (t.engine e).qhead = k.qhead)
        ∧ (∀ j < n, HeldBack s t (.copy e) i {} 0 16 [(slot j, (completionRecord k b j).toNat)])
        ∧ OnlyBytes s t i slots ∧ Unchanged s t ([.engine e, .stall i .page] ++ storeParts)))
    ∧ (∀ (w : Writer) (h : HeldByte), s.tiers.snoops.find? (fun x => x.writer == w) = some h →
      let mine := s.tiers.snoops.filter fun x => x.writer == w && x.stall == h.stall && x.va / 64 == h.va / 64
      let bytes (a : Nat) : Prop := ∃ x ∈ mine, x.va = a
      Runs (.backInvalidateResponse w) s fun t =>
        t.tiers.snoops = s.tiers.snoops.filter (fun x => !(x.writer == w && x.stall == h.stall && x.va / 64 == h.va / 64))
        ∧ OnlyBytes s t h.stall bytes
        ∧ (PlainAt s h.stall bytes → mine.Pairwise (fun x y => x.va ≠ y.va) →
            ∀ x ∈ mine, t.readVa h.stall x.va = x.byte)
        ∧ Unchanged s t (.snoops :: tierParts))

/-- Queue, ledger, settlement, tally and lot registers take writes by their rules (R202, R203, R237, R242, R255, R256,
R263, R274, R278, R279). -/
def Obligations.RegistersKeepTheirRules : Prop :=
  (∀ (s : State) (r : Requester) (e : EngineId) (v : Word),
      let k := s.engine e
      (∀ i, Allowed s r (copyOff e 0x1C) → engineStall s e = some i →
        let m := 2 * ringSize k
        let new := v.toNat % 2 ^ 17 % m
        let pending := (new + m - k.qhead.toNat) % m
        (((s.stall i).page.state ≠ 1 → pending ≤ ringSize k →
          Runs (.cpyQtailWrite r e v) s fun t =>
            (t.engine e).qtail = BitVec.ofNat 17 new ∧ (t.engine e).qhead = k.qhead ∧ Unchanged s t [.engine e]))
        ∧ ((s.stall i).page.state ≠ 1 → ringSize k < pending →
          Runs (.cpyQtailWrite r e v) s fun t =>
            (t.stall i).page = { (s.stall i).page with
              refused := satAdd (s.stall i).page.refused 1, last := (0x0C01 : Reason) ++ BitVec.ofNat 16 e.val }
            ∧ Unchanged s t [.stall i .page])
        ∧ ((s.stall i).page.state = 1 →
          Runs (.cpyQtailWrite r e v) s fun t =>
            (t.stall i).page = { (s.stall i).page with
              refused := satAdd (s.stall i).page.refused 1, last := (0x0C03 : Reason) ++ BitVec.ofNat 16 e.val }
            ∧ Unchanged s t [.stall i .page]))
      ∧ (Allowed s r (copyOff e 0x18) →
        (k.qen = false → 4 ≤ (fld v 0 5).toNat → (fld v 0 5).toNat ≤ 16 →
          Runs (.cpyQsizeWrite r e v) s fun t => t.engine e = { k with log2 := fld v 0 5 } ∧ Unchanged s t [.engine e])
        ∧ (k.qen = true ∨ (fld v 0 5).toNat < 4 ∨ 16 < (fld v 0 5).toNat →
          Runs (.cpyQsizeWrite r e v) s fun t => t.engine e = k ∧ Unchanged s t []))
      ∧ (Allowed s r (copyOff e 0x04) → ∀ cmd ∈ [Instr.cpyQreset r e v, .cpyQen r e v],
        Runs cmd s fun t =>
          (t.engine e).qen = bit v 0 ∧ (t.engine e).vector = fld v 8 6
          ∧ (bit v 1 = true → k.qen = false → (t.engine e).qhead = 0 ∧ (t.engine e).qtail = 0)
          ∧ (bit v 1 = false ∨ k.qen = true → (t.engine e).qhead = k.qhead ∧ (t.engine e).qtail = k.qtail)
          ∧ (t.engine e).batch = k.batch ∧ (t.engine e).done = k.done ∧ Unchanged s t [.engine e]))
  ∧ (∀ (s : State) (r : Requester) (i : Stall) (v : Word),
      let l := (s.stall i).ledger
      (∀ reg : Fin 3, Allowed s r (ledgerOff i (0x2C + 4 * reg.val)) →
        let m := fenceMask reg v &&& l.fences
        ((s.stall i).march.lead = true → Runs (.ldgFenceWrite r i reg v) s fun t =>
          (t.stall i).ledger = { l with lifts := l.lifts ||| m }
          ∧ t.out = (if m = 0 then s.out else s.out ++ [.relayed i (.lift m)]) ∧ Unchanged s t [.out, .stall i .ledger])
        ∧ ((s.stall i).march.lead = false → Runs (.ldgFenceWrite r i reg v) s fun t =>
          (t.stall i).march = { (s.stall i).march with cmdIgnored := true } ∧ Unchanged s t [.stall i .march]))
      ∧ (Allowed s r (ledgerOff i 0) →
        (Runs (.forget r i) s fun t =>
          (t.stall i).ledger = { l with forgetPending := true } ∧ Unchanged s t [.stall i .ledger])
        ∧ Runs (.ldgHeadroomWrite r i v) s fun t =>
          (t.stall i).ledger.headroom = fld v 0 4 ∧ (t.stall i).ledger.headroomUsed = l.headroomUsed
          ∧ (t.stall i).ledger.forgetPending = (l.forgetPending || bit v 8) ∧ (t.stall i).ledger.runs = l.runs
          ∧ Unchanged s t [.stall i .ledger]))
  ∧ (∀ (s : State) (r : Requester) (i : Stall) (v : Word) (d : BitVec 64),
      let m := (s.stall i).march
      let y := (s.stall i).tally
      let l := (s.stall i).lot
      (Allowed s r (settleOff i 8) →
        (m.state = .ready ∨ m.state = .held ∧ m.verdict.code = 10 → Runs (.stlStepWrite r i d) s fun t =>
          (t.stall i).settle = { (s.stall i).settle with step := d.setWidth 40 } ∧ Unchanged s t [.stall i .settle])
        ∧ (¬(m.state = .ready ∨ m.state = .held ∧ m.verdict.code = 10) → Runs (.stlStepWrite r i d) s fun t =>
          (t.stall i).march = { m with cmdIgnored := true } ∧ Unchanged s t [.stall i .march]))
      ∧ (∀ which : Fin 3, Allowed s r (tallyOff i (0x14 + 4 * which.val)) →
        (m.state = .ready → Runs (.tlyStatsWrite r i which v) s fun t =>
          (t.stall i).tally = (if which = 0 then { y with mean := v } else if which = 1 then { y with var := v }
            else { y with samples := v }) ∧ Unchanged s t [.stall i .tally])
        ∧ (m.state ≠ .ready → exec (.tlyStatsWrite r i which v) s = .next s))
      ∧ (Allowed s r (tallyOff i 4) →
        (nonFinite32 v = false → ltVal (.fin false 0 0) (val32 v) = true → Runs (.tlyKWrite r i v) s fun t =>
          (t.stall i).tally = { y with k := v } ∧ Unchanged s t [.stall i .tally])
        ∧ (nonFinite32 v = true ∨ ltVal (.fin false 0 0) (val32 v) = false → exec (.tlyKWrite r i v) s = .next s))
      ∧ (Allowed s r (lotOff i 4) → Runs (.lotSeedWrite r i d) s fun t =>
          (t.stall i).lot = { l with written := d, pending := true } ∧ Unchanged s t [.stall i .lot])
      ∧ (Allowed s r (lotOff i 0x24) →
        (l.busy = false → Runs (.lotTestCall r i v) s fun t =>
          (t.stall i).lot.busy = true ∧ (t.stall i).lot.seed = l.seed ∧ (t.stall i).lot.ctr = l.ctr.set 3 v
          ∧ (let o := lotWords l.testKey (l.ctr.get 0) (l.ctr.get 1) (l.ctr.get 2) v
             (t.stall i).lot.result = #v[fld o 0 32, fld o 32 32, fld o 64 32, fld o 96 32])
          ∧ Unchanged s t [.stall i .lot])
        ∧ (l.busy = true → Runs (.lotTestCall r i v) s fun t => (t.stall i).lot = l ∧ Unchanged s t []))
      ∧ (l.busy = true → Runs (.lotTestDone i) s fun t =>
          t.time = s.time + 8 ∧ (t.stall i).lot = { l with busy := false } ∧ Unchanged s t [.time, .stall i .lot]))

/-- Quantised contributions of a bucket never overflow its 48-bit sums (R223, R224, R225, R226). -/
def Obligations.LedgerSumsNeverWrap : Prop :=
  ∀ (n : Nat) (e : Int) (xs : List Val), 1 ≤ n → n < 2 ^ 13 → xs.length ≤ n →
    let qs := xs.map fun x => quantise x e (contributionWidth n)
    (∀ q ∈ qs, q.nonfinite = false ∧ q.saturated = false) →
    (∀ q ∈ qs, q.q.toInt.natAbs ≤ 2 ^ (contributionWidth n - 1))
    ∧ (qs.foldl (fun acc q => acc + q.q) (0 : BitVec 48)).toInt = (qs.map fun q => q.q.toInt).sum

/-- Ledger entries quantise, add up and come back down (R222, R228, R229, R230, R231, R232, R233, R239). -/
def Obligations.LedgerEntriesAddUp : Prop :=
  ∀ (s : State) (i : Stall) (c : Charter), Sane s → (s.stall i).charter.active = some c →
    let t0 := s.stall i
    let changed := [Part.out, .power, .stall i .ledger, .stall i .seq]
    -- a contribution is scanned or quantised, and what waited for it is added
    (∀ (index : Nat) (e : LedgerRec), c.ledger[index]? = some e → due t0 c (.ledger index) = true → t0.ledger.retired = false →
      selfFenced t0 = false → quantiseBlocked t0 c index = false →
      (runOf t0 (leBucket e.raw) = none → Runs (.contribute i index) s fun t =>
        hasRun (t.stall i) (.ledger index) = true ∧ isDone (t.stall i) (.ledger index) = true ∧ Unchanged s t [.stall i .seq])
      ∧ (∀ r, runOf t0 (leBucket e.raw) = some r → bucketOpen t0 c (leBucket e.raw) = true →
        let xs := contribution s i c (leBucket e.raw)
        Runs (.contribute i index) s fun t =>
          hasRun (t.stall i) (.ledger index) = true
          ∧ runOf (t.stall i) (leBucket e.raw)
            = some (if r.known then { r.quantised xs with
                  scanned := some (maxExpOf xs), partials := r.partials.map fun q => { q with waiting := 0 } }
                else { r with scanned := some (maxExpOf xs) })
          ∧ (r.known = true → ∀ q ∈ r.partials, q.waiting ≠ 0 → Out.token i q.member q.caravan q.waiting ∈ t.out)
          ∧ Unchanged s t [.out, .stall i .ledger, .stall i .seq]))
    -- the sum of a member and its children goes up, and the root's total is stored and goes down
    ∧ (∀ (bucket : BitVec 20) (r : BucketRun), runOf t0 bucket.toNat = some r → bucketOpen t0 c bucket.toNat = true →
      r.sent = false → r.complete = false → r.known = true → selfFenced t0 = false → addBlocked t0 c r = false →
      ∀ own, r.own = some own →
      let b := bucket.toNat
      let kids := c.children (bkTree (c.bucket b)) (ownRole t0)
      let ps := kids.filterMap (partialOf r)
      let sum := partialSum (segmentHeader t0 c r) own ps
      let e := sum.1.tariff.toInt
      let w := sum.1.width.toNat
      ps.length = kids.length →
      (∀ p, parentOf t0 c b = some p → Runs (.ledgerSendUp i bucket) s fun t =>
        Leaves s t i c 1 p ((segmentsOf sum.1 sum.2).flatMap segmentBytes)
        ∧ runOf (t.stall i) b = some { r with sent := true }
        ∧ Unchanged s t ([.stall i .ledger, .stall i .seq] ++ queueParts))
      ∧ (parentOf t0 c b = none → Runs (.ledgerSendUp i bucket) s fun t =>
        (∃ r', runOf (t.stall i) b = some r' ∧ r'.sent = true ∧ (sum.1.count.toNat = bkN (c.bucket b) →
          r'.complete = true ∧ r'.saturated = sum.1.saturated))
        ∧ (sum.1.count.toNat = bkN (c.bucket b) → (t.stall i).ledger.done = satAdd t0.ledger.done 1
          ∧ Stored s t (.ledger i) i c (c.tensor (bkDstTensor (c.bucket b))) 4
              ((List.range sum.2.length).map fun n => (bkDst (c.bucket b) + 4 * n, (dequantise (sum.2.getD n 0) e w).toNat)))
        ∧ (sum.1.count.toNat ≠ bkN (c.bucket b) → t.mem = s.mem ∧ (t.stall i).ledger.done = t0.ledger.done)
        ∧ (∀ ch ∈ kids, Leaves s t i c 1 ch ((segmentsOf { sum.1 with down := true } sum.2).flatMap segmentBytes))
        ∧ Unchanged s t ([.stall i .ledger, .stall i .seq] ++ queueParts ++ storeParts)))
    -- a segment that fails a check is discarded, and its token goes back
    ∧ (∀ (g : Segment) (reason : Reason), segmentRefusal t0 c g.header = some reason →
      let src := senderOf t0 c g.header
      Runs (.ledgerSegment i g) s fun t =>
        (t.stall i).ledger = { t0.ledger.setTokens { tokensOf t0.ledger src with
            granted := (tokensOf t0.ledger src).granted + 1, returned := (tokensOf t0.ledger src).returned + 1 } with
          discarded := satAdd t0.ledger.discarded 1, lastReason := reason, lastBucket := g.header.bucket.setWidth 16 }
        ∧ t.out = s.out ++ [.token i src.1 src.2 1]
        ∧ (reason ≠ 0x0306 → Unchanged s t [.out, .power, .stall i .ledger])
        ∧ (t0.march.state = .legs → reason = 0x0306 → bit (t.stall i).seq.causes 10 = true)
        ∧ Unchanged s t changed)
    -- a child's segment is kept, in a buffer while the own values are missing
    ∧ (∀ (g : Segment) (r : BucketRun), segmentRefusal t0 c g.header = none → g.header.short = false → g.header.down = false →
      headerOnlySurvey g.header = false → runOf t0 g.header.bucket.toNat = some r →
      let src := senderOf t0 c g.header
      let k := tokensOf t0.ledger src
      Runs (.ledgerSegment i g) s fun t =>
        runOf (t.stall i) g.header.bucket.toNat = some (addPartial c r src g)
        ∧ (r.own = none → tokensOf (t.stall i).ledger src = { k with granted := k.granted + 1, buffered := k.buffered + 1 }
            ∧ (t.stall i).ledger.free = t0.ledger.free - 1)
        ∧ (r.own.isSome = true → tokensOf (t.stall i).ledger src = { k with granted := k.granted + 1, returned := k.returned + 1 }
            ∧ (t.stall i).ledger.free = t0.ledger.free ∧ Out.token i src.1 src.2 1 ∈ t.out)
        ∧ (t0.march.state = .legs → g.header.step ≠ t0.settle.step → bit (t.stall i).seq.causes 10 = true)
        ∧ (g.header.step = t0.settle.step → Unchanged s t [.out, .power, .stall i .ledger])
        ∧ Unchanged s t changed)
    -- SHORT is kept and passed on
    ∧ (∀ (h : SegmentHeader) (r : BucketRun), segmentRefusal t0 c { h with short := true, segElems := 0, segment := 0 } = none →
      runOf t0 h.bucket.toNat = some r → h.step = t0.settle.step →
      let passed : SegmentHeader := { h with
        short := true, segElems := 0, segment := 0, source := t0.march.member, sourceCaravan := c.caravanIx, step := t0.settle.step }
      Runs (.shortNotice i h) s fun t =>
        runOf (t.stall i) h.bucket.toNat = some { r with short := r.short || !r.complete }
        ∧ (t.stall i).ledger.short = (if r.short || r.complete then t0.ledger.short else satAdd t0.ledger.short 1)
        ∧ (∀ ch ∈ c.children (bkTree (c.bucket h.bucket.toNat)) (ownRole t0),
            Leaves s t i c 1 ch (segmentBytes { header := passed, elems := [] }))
        ∧ Unchanged s t ([.power, .stall i .ledger, .stall i .seq] ++ queueParts))
    -- at its deadline tick a bucket is complete or SHORT
    ∧ (t0.march.state = .legs → t0.seq.left = false → t0.march.leg.toNat < c.legs.length →
      Runs (.tick i) s fun t =>
        ∀ r ∈ (t.stall i).ledger.runs, bkDeadline (c.bucket r.bucket.toNat) = t0.march.leg.toNat → r.complete = true ∨ r.short = true)

/-- A settlement entry updates its elements once (R257, R258, R259, R260, R261). -/
def Obligations.SettlementUpdatesItsElements : Prop :=
  ∀ (s : State) (i : Stall) (index : Nat) (c : Charter) (x : SettleRec), Sane s →
    (s.stall i).charter.active = some c → c.settle[index]? = some x → due (s.stall i) c (.settle index) = true →
    (s.stall i).march.state = .settle → (s.stall i).seq.settles = true →
    let t0 := s.stall i
    let e := x.raw
    let fw : Fmt := if seCompat e then .f32 else .h16
    let fs : Fmt := if seCompat e then .f32 else .g16
    let bw := fmtBytes fw
    let bs := fmtBytes fs
    let clip := if t0.settle.started then t0.settle.clip else clipFactor t0.settle.tau t0.settle.nscale t0.march.verdict.norm2
    let g := t0.settle.coef.getD (seGroup e) 0
    let next (n : Nat) := settleElem g (prologue g t0.settle.step clip) (regionElem s i c (c.tensor (seWTensor e)) (seW e) n fw)
      (regionElem s i c (c.tensor (seSTensor e)) (seS e) n fs) (regionElem s i c (c.tensor (seGTensor e)) (seG e) n .f32)
    let inW (a : Nat) : Prop := seW e ≤ a ∧ a < seW e + bw * seCount e
    let inS (a : Nat) : Prop := seS e ≤ a ∧ a < seS e + bs * seCount e
    let inH (a : Nat) : Prop := seCompat e = true ∧ seH e ≤ a ∧ a < seH e + 2 * seCount e
    let read (a : Nat) : Prop := (seG e ≤ a ∧ a < seG e + 4 * seCount e) ∨ (seFreeze e = 2 ∧ sePlane e ≤ a ∧ a ≤ sePlane e + seCount e / 8)
    let written (a : Nat) : Prop := inW a ∨ inS a ∨ inH a
    let draw (stream : BitVec 24) (ten : BitVec 512) (base n : Nat) (f : Fmt) : Nat :=
      lotDraw t0.lot.seed stream t0.march.num (settleIndex ten base n f)
    let codeW (n : Nat) : Nat := if seCompat e then encodeRne .f32 (val32 (next n).1)
      else encodeStochastic .h16 (draw (seLotW e) (c.tensor (seWTensor e)) (seW e) n fw) (val32 (next n).1)
    let codeS (n : Nat) : Nat := if seCompat e then encodeRne .f32 (val32 (next n).2)
      else encodeStochastic .g16 (draw (seLotS e) (c.tensor (seSTensor e)) (seS e) n fs) (val32 (next n).2)
    Runs (.settle i index) s fun t =>
      let kept (ten : BitVec 512) (n : Nat) (l : List (Nat × Nat)) : Prop :=
        ReadBack s t i c ten n l ∧ HeldBack s t (.settle i) i c ten n l
      hasRun (t.stall i) (.settle index) = true ∧ (t.stall i).settle.clip = clip ∧ (t.stall i).settle.started = true
      ∧ (t.stall i).settle.step = t0.settle.step ∧ (t.stall i).settle.state = 2
      ∧ (t.stall i).settle.entry = BitVec.ofNat 16 index
      ∧ OnlyBytes s t i written
      ∧ (PlainAt s i (fun a => written a ∨ read a) → (∀ a, written a → ¬read a) →
          (∀ a, ¬(inW a ∧ inS a) ∧ ¬(inW a ∧ inH a) ∧ ¬(inS a ∧ inH a)) → s.waits (.settle i) = false →
          ∀ n < seCount e,
            (frozenElem s i e n = true → t.readNat i (seW e + n * bw) bw = s.readNat i (seW e + n * bw) bw
              ∧ t.readNat i (seS e + n * bs) bs = s.readNat i (seS e + n * bs) bs)
            ∧ (frozenElem s i e n = false → kept (c.tensor (seWTensor e)) bw [(seW e + n * bw, codeW n)]
                ∧ kept (c.tensor (seSTensor e)) bs [(seS e + n * bs, codeS n)]
                ∧ (seCompat e = true → kept (c.tensor (seHTensor e)) 2 [(seH e + 2 * n, encodeRne .h16 (val32 (next n).1))])))
      ∧ Unchanged s t ([.log, .stall i .settle, .stall i .seq, .stall i .tally] ++ storeParts)

/-- Corrected errors are counted, and an uncorrectable read is repeated once (R284, R285, R286, R287, R288). -/
def Obligations.ErrorsAreCountedAndRepeated : Prop :=
  ∀ (s : State) (e : SymbolErrors),
    (∀ (u : MemUnit) (bay : BitVec 10) (row : BitVec 18),
      (unitServes s u = false → exec (.memCorrected u e) s = .next s ∧ exec (.patrolScrub u e) s = .next s
        ∧ exec (.memUncorrectable u bay ⟨row, e⟩) s = .next s)
      ∧ (classify u e ≠ .correctable → exec (.memCorrected u e) s = .next s)
      ∧ (classify u e ≠ .uncorrectable → exec (.memUncorrectable u bay ⟨row, e⟩) s = .next s))
    ∧ (∀ (pc : Fin 256), unitServes s (.near pc) = true →
      let u := MemUnit.near pc
      let k := stackOf pc
      let x := s.tiers.near[k]
      (classify u e = .correctable → Runs (.memCorrected u e) s fun t =>
        t.tiers.near[k].ce = satAdd x.ce e.length ∧ t.tiers.near[k].ue = x.ue ∧ Unchanged s t [.stack k])
      ∧ (∀ (bay : BitVec 10) (row : BitVec 18), classify u e = .uncorrectable → (u, bay, row) ∉ s.tiers.repeatReads →
          Runs (.memUncorrectable u bay ⟨row, e⟩) s fun t =>
            t.tiers.near[k] = { x with ue := satAdd x.ue 1 }
            ∧ t.tiers.repeatReads = s.tiers.repeatReads ++ [(u, bay, row)] ∧ Unchanged s t [.stack k, .groups])
      ∧ (unitGroup s u ≠ 3 → Runs (.patrolScrub u e) s fun t =>
          let y := t.tiers.near[k]
          y.scrubs.get (inStack pc) = x.scrubs.get (inStack pc) + 1 ∧ y.scrubbing = true ∧ y.scrubBay = (scrubRow s u).1
          ∧ y.pcs = x.pcs ∧ y.ce = (if classify u e = .correctable then satAdd x.ce e.length else x.ce)
          ∧ y.ue = (if classify u e = .uncorrectable then satAdd x.ue 1 else x.ue)
          ∧ (classify u e = .uncorrectable → (u, (scrubRow s u).1, (scrubRow s u).2) ∈ t.tiers.repeatReads)
          ∧ (classify u e ≠ .uncorrectable → t.tiers.repeatReads = s.tiers.repeatReads)
          ∧ Unchanged s t [.stack k, .groups]))
    ∧ (∀ (ch : Fin 24), unitServes s (.serai ch) = true →
      let u := MemUnit.serai ch
      let x := s.tiers.serai[ch]
      (classify u e = .correctable → Runs (.memCorrected u e) s fun t =>
        t.tiers.serai[ch].ce = satAdd x.ce e.length ∧ t.tiers.serai[ch].ue = x.ue ∧ Unchanged s t [.channel ch])
      ∧ (∀ (bay : BitVec 10) (row : BitVec 18), classify u e = .uncorrectable → (u, bay, row) ∉ s.tiers.repeatReads →
          Runs (.memUncorrectable u bay ⟨row, e⟩) s fun t =>
            t.tiers.serai[ch] = { x with ue := satAdd x.ue 1 }
            ∧ t.tiers.repeatReads = s.tiers.repeatReads ++ [(u, bay, row)] ∧ Unchanged s t [.channel ch, .groups])
      ∧ (unitGroup s u ≠ 3 → Runs (.patrolScrub u e) s fun t =>
          let y := t.tiers.serai[ch]
          y.scrubs = x.scrubs + 1 ∧ y.scrubbing = true ∧ y.scrubBay = (scrubRow s u).1 ∧ y.state = x.state
          ∧ y.ce = (if classify u e = .correctable then satAdd x.ce e.length else x.ce)
          ∧ y.ue = (if classify u e = .uncorrectable then satAdd x.ue 1 else x.ue)
          ∧ (classify u e = .uncorrectable → (u, (scrubRow s u).1, (scrubRow s u).2) ∈ t.tiers.repeatReads)
          ∧ (classify u e ≠ .uncorrectable → t.tiers.repeatReads = s.tiers.repeatReads)
          ∧ Unchanged s t [.channel ch, .groups]))
    ∧ ∀ (u : MemUnit) (bay : BitVec 10) (row : BitVec 18), (u, bay, row) ∈ s.tiers.repeatReads → classify u e ≠ .uncorrectable →
        Runs (.memRepeatRead u bay row e) s fun t =>
          t.time = maxU s.time (s.time + 200) ∧ t.tiers.repeatReads = s.tiers.repeatReads.erase (u, bay, row)
          ∧ (∀ pc, u = .near pc → t.tiers.near[stackOf pc].transient = satAdd s.tiers.near[stackOf pc].transient 1
              ∧ fld t.tiers.near[stackOf pc].err 48 8 = 0x02
              ∧ Unchanged s t [.time, .free, .out, .log, .groups, .stack (stackOf pc)])
          ∧ (∀ ch, u = .serai ch → t.tiers.serai[ch].transient = satAdd s.tiers.serai[ch].transient 1
              ∧ fld t.tiers.serai[ch].err 48 8 = 0x02
              ∧ Unchanged s t [.time, .free, .out, .log, .groups, .channel ch])
          ∧ Recorded s t 0x0902 ∧ unitGroup t u = unitGroup s u

/-- A unit that fails is retired and its group rebuilds (R288, R289, R290, R291). -/
def Obligations.FailingUnitsAreRetired : Prop :=
  ∀ (s : State) (u : MemUnit),
    (unitServes s u = true →
      let failing (t : State) (bay : BitVec 10) (row : BitVec 18) (reason : Reason) : Prop :=
        unitServes t u = false ∧ unitGroup t u = (if unitGroup s u = 0 then 1 else 3)
        ∧ t.tiers.failing = [⟨u, bay, row, reason⟩] ∧ isRetired t (unitKind u) (unitIndex u).toNat = isRetired s (unitKind u) (unitIndex u).toNat
        ∧ t.mem = s.mem ∧ t.engines = s.engines ∧ t.cores = s.cores ∧ t.fabric = s.fabric ∧ t.hosts = s.hosts
        ∧ ∀ i, (t.stall i).customs = (s.stall i).customs ∧ (t.stall i).ledger = (s.stall i).ledger
            ∧ (t.stall i).settle = (s.stall i).settle
      ((recentSymbols s u).2 ≠ 0 → (recentSymbols s u).2 < (recentSymbols s u).1 → s.tiers.failing = [] →
        Runs (.ceRate u) s fun t => failing t 0 0 0x0901 ∧ t.time = s.time)
      ∧ ((recentSymbols s u).2 = 0 ∨ (recentSymbols s u).1 ≤ (recentSymbols s u).2 → exec (.ceRate u) s = .next s)
      ∧ ∀ (bay : BitVec 10) (row : BitVec 18) (e : SymbolErrors), (u, bay, row) ∈ s.tiers.repeatReads →
          classify u e = .uncorrectable → s.tiers.failing = [] →
          Runs (.memRepeatRead u bay row e) s fun t =>
            failing t bay row 0x0903 ∧ t.time = maxU s.time (s.time + 200)
            ∧ t.tiers.repeatReads = s.tiers.repeatReads.erase (u, bay, row)
            ∧ (rawRow s u bay = true → unitGroup s u ≠ 3 → ∃ b ∈ t.log.ring, fld b 32 16 = 0x0908))
    -- the last step of a retirement
    ∧ ∀ f : FailingUnit, f.unit = u → s.tiers.failing = [f] → s.pending = [] → (∀ i, (s.stall i).page.state ≠ 1) →
        ∃ t, step s = .next t ∧ ((t.power.state = 4 → s.power.state = 4) →
          unitServes t u = false ∧ t.tiers.failing = [] ∧ isRetired t (unitKind u) (unitIndex u).toNat = true ∧ t.mem = s.mem
          ∧ (unitGroup s u = 1 → (rebuildOf t.tiers u).active = true ∧ (rebuildOf t.tiers u).member = some u)
          ∧ (unitGroup s u ≠ 1 → t.tiers.nearRebuilds = s.tiers.nearRebuilds ∧ t.tiers.seraiRebuild = s.tiers.seraiRebuild))

/-- A rebuild passes over its rows and ends; held writes drain in order; a lost fit halts (R291, R292, R293, R294, R56). -/
def Obligations.RebuildsRunToTheEnd : Prop :=
  ∀ s : State, Sane s →
    -- a row of a rebuild is written into its parity slot, and nothing else changes in memory
    let moved (t : State) (u : MemUnit) (bay row : Nat) : Prop :=
      let a := rowAddr u bay row
      let par := parityUnit u a
      (par ≠ u → ∀ k < 256, memGet (unitKey par (a + k)) t.mem = reconstruct s.mem u (a + k))
      ∧ ∀ key, (∀ k < 256, par ≠ u → key ≠ unitKey par (a + k)) → memGet key t.mem = memGet key s.mem
    (nearTurnOf s = none → exec (.rebuildRow false) s = .next s)
    ∧ (s.tiers.seraiRebuild.active = false → exec (.rebuildRow true) s = .next s)
    ∧ (∀ (j : Fin 16) (pc : Fin 256), nearTurnOf s = some j → (s.tiers.nearRebuilds.get j).member = some (.near pc) →
      groupOf pc = j →
      let r := s.tiers.nearRebuilds.get j
      Runs (.rebuildRow false) s fun t =>
        moved t (.near pc) r.bay.toNat r.row.toNat ∧ t.tiers.nearTurn = j + 1
        ∧ (∀ g, g ≠ j → t.tiers.nearRebuilds.get g = s.tiers.nearRebuilds.get g
            ∧ t.tiers.nearGroups.get g = s.tiers.nearGroups.get g)
        ∧ (r.row.toNat + 16 < 262144 → t.tiers.nearRebuilds.get j = { r with row := r.row + 16 }
            ∧ t.tiers.nearGroups = s.tiers.nearGroups ∧ Unchanged s t [.mem, .groups])
        ∧ (262144 ≤ r.row.toNat + 16 → r.bay.toNat < 639 →
            t.tiers.nearRebuilds.get j = { r with bay := r.bay + 1, row := BitVec.ofNat 18 j.val }
            ∧ t.tiers.nearGroups = s.tiers.nearGroups ∧ Unchanged s t [.mem, .groups])
        ∧ (262144 ≤ r.row.toNat + 16 → 639 ≤ r.bay.toNat →
            t.tiers.nearRebuilds.get j = { member := some (.near pc), whole := true } ∧ t.tiers.nearGroups.get j = 2
            ∧ Recorded s t 0x0904 ∧ Unchanged s t [.mem, .groups, .stack (stackOf pc), .out, .log]))
    ∧ (∀ ch : Fin 24, s.tiers.seraiRebuild.active = true → s.tiers.seraiRebuild.member = some (.serai ch) →
      let r := s.tiers.seraiRebuild
      bayGuarded s r.bay.toNat = true →
      Runs (.rebuildRow true) s fun t =>
        moved t (.serai ch) r.bay.toNat r.row.toNat
        ∧ (r.row.toNat < 262143 → t.tiers.seraiRebuild = { r with row := r.row + 1 } ∧ t.tiers.seraiGroup = s.tiers.seraiGroup
            ∧ Unchanged s t [.mem, .groups])
        ∧ (r.row.toNat = 262143 → ∀ b, (guardedBays s).find? (fun b => decide (r.bay.toNat < b)) = some b →
            t.tiers.seraiRebuild = { r with bay := BitVec.ofNat 10 b, row := 0 } ∧ Unchanged s t [.mem, .groups])
        ∧ (r.row.toNat = 262143 → (∀ b ∈ guardedBays s, b ≤ r.bay.toNat) →
            t.tiers.seraiRebuild = { member := some (.serai ch), whole := true } ∧ t.tiers.seraiGroup = 2
            ∧ Recorded s t 0x0904 ∧ Unchanged s t [.mem, .groups, .channel ch, .out, .log]))
    -- held writes drain in order
    ∧ (∀ ch : Fin 24,
      let x := s.tiers.serai[ch]
      (x.waiting ≠ [] → x.braceHold = true → Runs (.seraiHoldRoom ch) s fun t =>
        t.tiers.serai[ch].buffer ++ t.tiers.serai[ch].waiting = x.buffer ++ x.waiting
        ∧ (x.buffer.length ≤ braceBufferBytes →
            t.tiers.serai[ch].buffer.length = min braceBufferBytes (x.buffer.length + x.waiting.length))
        ∧ t.tiers.serai[ch].braceHold = true ∧ Unchanged s t [.channel ch])
      ∧ (x.waiting ≠ [] → x.braceHold = false → Runs (.seraiHoldRoom ch) s fun t =>
        t.tiers.serai[ch] = { x with waiting := [] }
        ∧ (∀ p v, x.waiting = [(p, v)] → Plain t p → t.readPlace p = v)
        ∧ (∀ q, (∀ e ∈ x.waiting, Apart e.1 q) → t.readPlace q = s.readPlace q)
        ∧ Unchanged s t [.mem, .channel ch]))
    -- a proof repeated
    ∧ ∀ (i : Stall) (c : Charter), (s.stall i).charter.active = some c → (s.stall i).charter.pending = none →
        (fitProof s i c = none → usesLost s i c = false → overBandwidth s i c = false → Runs (.refit i) s fun t =>
          bit (t.stall i).seq.nextCauses 11 = false ∧ (t.stall i).seq.causes = (s.stall i).seq.causes
          ∧ (t.stall i).march.state = (s.stall i).march.state ∧ Unchanged s t [.stall i .march, .stall i .seq])
        ∧ (fitProof s i c ≠ none ∨ usesLost s i c = true ∨ overBandwidth s i c = true →
          (s.stall i).march.state = .ready ∨ (s.stall i).march.state = .legs → Runs (.refit i) s fun t =>
          ((s.stall i).march.state = .ready → bit (t.stall i).seq.nextCauses 11 = true)
          ∧ ((s.stall i).march.state = .legs → bit (t.stall i).seq.causes 11 = true ∧ (t.stall i).seq.stopped = true)
          ∧ t.mem = s.mem ∧ t.tiers = s.tiers)

/-- A link's memory window reads and writes its own stall (R366, R369, R387, R414, R421). -/
def Obligations.HostWindowsReachTheirStall : Prop :=
  ∀ (s : State) (l : LinkId) (offset : BitVec 48) (i : Stall) (va : Nat), Sane s → windowAt s l offset = some (i, va) →
    (∀ (len : Fin 65) (ue : Bool),
      (cxlRefusal s l i (permRead ||| permHost) va len.val = none →
        (∀ p, s.placeOf i va = some p → ue = true → rawPlace s p = false) →
        Runs (.cxlMemRead l offset len ue) s fun t =>
          t.out = s.out ++ [.memData l (s.readBytes i va len.val)] ∧ t.mem = s.mem ∧ Unchanged s t (.out :: tierParts))
      ∧ (cxlRefusal s l i (permRead ||| permHost) va len.val ≠ none →
        Runs (.cxlMemRead l offset len ue) s fun t =>
          Out.memData l (List.replicate len.val 0) ∈ t.out
          ∧ Unchanged s t [.out, .log, .stall i .customs, .stall i .page])
      ∧ (∀ p c, cxlRefusal s l i (permRead ||| permHost) va len.val = none → s.placeOf i va = some p → ue = true →
          rawPlace s p = true → cellOf p = some c →
        let meets := c.striped && unitGroup s c.unit == 1 && !serves s.tiers c.unit
        Runs (.cxlMemRead l offset len ue) s fun t =>
          (∃ bs : List Byte, bs.length = len.val ∧ Out.memData l bs ∈ t.out) ∧ t.mem = s.mem
          ∧ (meets = true → unitGroup t c.unit = 3 ∧ Recorded s t 0x0905)
          ∧ (meets = false → unitGroup t c.unit = unitGroup s c.unit ∧ (unitGroup s c.unit ≠ 3 → Recorded s t 0x0908)
              ∧ Unchanged s t ([.out, .log, .free] ++ tierParts))))
    ∧ ∀ data : List Byte,
      let bytes (a : Nat) : Prop := va ≤ a ∧ a < va + data.length
      (cxlRefusal s l i (permWrite ||| permHost) va data.length = none →
        (∀ slot, slotOf va = some slot → slotLocked (s.stall i) slot = false) →
        Runs (.cxlMemWrite l offset data) s fun t =>
          (PlainAt s i bytes → t.readBytes i va data.length = data) ∧ OnlyBytes s t i bytes ∧ Unchanged s t tierParts)
      ∧ (∀ slot, cxlRefusal s l i (permWrite ||| permHost) va data.length = none → slotOf va = some slot →
          slotLocked (s.stall i) slot = true →
        Runs (.cxlMemWrite l offset data) s fun t =>
          (t.stall i).charter = { (s.stall i).charter with lockedWrites := satAdd (s.stall i).charter.lockedWrites 1 }
          ∧ Unchanged s t [.stall i .charter])
      ∧ (cxlRefusal s l i (permWrite ||| permHost) va data.length ≠ none →
        Runs (.cxlMemWrite l offset data) s fun t => Unchanged s t [.out, .log, .stall i .customs, .stall i .page])

/-- Flits are taken once and in order, and resent until acknowledged (R308, R311, R313, R314, R327, R334, R310). -/
def Obligations.FlitsAreNumberedAndResent : Prop :=
  ∀ (s : State) (p : PortId),
    let l := s.lnk p
    -- a discarded flit asks for a resend
    (∀ f : Flit, f.crc ≠ flitCrc f.header f.payload ∨ 6 ≤ flClass f.header
        ∨ flClass f.header ≠ 5 ∧ portUp s p = true ∧ flSeq f.header ≠ l.rxSeq →
      Runs (.flitReceive p f []) s fun t =>
        t.lnk p = { l with nakPending := true }
        ∧ (∃ g : Flit, t.out = s.out ++ [.flit p g] ∧ flClass g.header = 5 ∧ flNak g.header = true
            ∧ flAck g.header = l.rxSeq - 1)
        ∧ Unchanged s t [.lnk p, .out])
    ∧ (∀ (f : Flit) (lanes : List (Fin 18)), lanes ≠ [] → (∀ lane ∈ lanes, l.laneUe.get lane + 1 < 8) →
        Runs (.flitReceive p f lanes) s fun t =>
          (t.lnk p).nakPending = true ∧ (t.port p).fecUe = satAdd (s.port p).fecUe 1
          ∧ (∀ lane : Fin 18, (t.lnk p).laneUe.get lane = if lane ∉ lanes then l.laneUe.get lane
              else if (l.laneUeAt.get lane).toNat + 1000000000 < s.time.toNat then 1 else l.laneUe.get lane + 1)
          ∧ Unchanged s t [.port p, .lnk p, .out])
    -- a flit in order is taken once
    ∧ (∀ (f : Flit) (i : Stall) (c : Charter), f.crc = flitCrc f.header f.payload → flClass f.header < 5 →
        portUp s p = true → flSeq f.header = l.rxSeq → flNak f.header = false → portCharter s p = some (i, c) →
        let self := (s.stall i).march.member
        let known (t : State) : Bool := t.fabric.delivered.any fun e => e.1 == i && e.2 == flitIdentity f.header
        let taken (t : State) : Prop := (t.lnk p).rxSeq = l.rxSeq + 1
          ∧ (t.port p).rx = (s.port p).rx + BitVec.ofNat 64 (flLen f.header)
        let mine : Prop := (flDst f.header = self ∨ flDst f.header = ownRole (s.stall i)) ∧ flDstCaravan f.header = c.caravanIx
        (mine → Runs (.flitReceive p f []) s fun t =>
          taken t ∧ (flLen f.header ≠ 0 → known t = true)
          ∧ (known s = true ∨ flLen f.header = 0 ∨ 2 ≤ flClass f.header →
              t.mem = s.mem ∧ t.tiers = s.tiers ∧ t.fabric.got = s.fabric.got ∧ t.fabric.inbound = s.fabric.inbound)
          ∧ (∀ k r, known s = false → flLen f.header ≠ 0 → flClass f.header = 0 → c.recvs[k]? = some r →
              rtMember r.raw = flSrc f.header → rtCaravan r.raw = flSrcCaravan f.header → rtMsg r.raw = flMsg f.header →
              (∀ j r', j < k → c.recvs[j]? = some r' →
                ¬(rtMember r'.raw = flSrc f.header ∧ rtCaravan r'.raw = flSrcCaravan f.header ∧ rtMsg r'.raw = flMsg f.header)) →
              let va := rtAddr r.raw + 256 * flIndex f.header
              let bs := f.payload.take (min (flLen f.header) (rtBytes r.raw - 256 * flIndex f.header))
              let bytes (a : Nat) : Prop := va ≤ a ∧ a < va + bs.length
              (PlainAt s i bytes → ∀ n < bs.length, hostVisible s i (va + n) = false →
                t.readNat i (va + n) 1 = (bs.getD n 0).toNat)
              ∧ (∀ n < bs.length, hostVisible s i (va + n) = true → ⟨.route, i, va + n, bs.getD n 0⟩ ∈ t.tiers.snoops)
              ∧ OnlyBytes s t i bytes ∧ gotBytes t i k = gotBytes s i k + bs.length)
          ∧ (flClass f.header ≠ 1 → Unchanged s t ([.delivered, .power] ++ storeParts ++ queueParts))
          ∧ Unchanged s t ([.delivered, .power, .stall i .ledger, .stall i .seq] ++ storeParts ++ queueParts))
        ∧ (∀ (q : PortId) (b : Bool), ¬mine →
            exitPort s c (s.stall i) (flDst f.header) (flDstCaravan f.header) (some p) = some (q, b) →
            let h := f.header
            let plain := flitHeader (flClass h) (bit h 39) (flLen h) (flDst h) (flDstCaravan h) (flSrc h) (flSrcCaravan h) (flMsg h)
              (flIndex h)
            Runs (.flitReceive p f []) s fun t =>
              taken t ∧ Waits t q { f with header := plain }
              ∧ (q ≠ p → (t.lnk q).window.length + (t.lnk q).queue.length
                = (s.lnk q).window.length + (s.lnk q).queue.length + 1)
              ∧ Unchanged s t ([.out, .log] ++ everyPort)))
    -- flits that are not acknowledged are sent again, in order
    ∧ (∀ (ack : BitVec 12) (n : Nat), (l.window.findIdx? fun w => w.seq == ack) = some n → Runs (.nak p ack) s fun t =>
        let w := l.window.drop (n + 1)
        t.lnk p = { l with window := w.map fun x => { x with time := s.time }, stuck := if w = [] then 0 else 1 }
        ∧ t.out = s.out ++ w.map (fun x => .flit p x.flit)
        ∧ (w ≠ [] → (t.port p).replays = satAdd (s.port p).replays w.length) ∧ Unchanged s t [.port p, .lnk p, .out])
    ∧ (∀ (w : SentFlit) (ws : List SentFlit), l.window = w :: ws →
        (l.stuck + 1 < 64 → Runs (.replayTimeout p) s fun t =>
          t.time = maxU s.time (w.time + 4000) ∧ t.out = s.out ++ l.window.map (fun x => .flit p x.flit)
          ∧ (t.lnk p).stuck = l.stuck + 1 ∧ (t.lnk p).window.length = l.window.length
          ∧ (t.port p).replays = satAdd (s.port p).replays l.window.length ∧ Unchanged s t [.time, .port p, .lnk p, .out])
        ∧ (64 ≤ l.stuck + 1 → Runs (.replayTimeout p) s fun t =>
          (t.port p).state = 4 ∧ t.mem = s.mem ∧ t.engines = s.engines ∧ t.tiers = s.tiers ∧ t.hosts = s.hosts))
    -- the credits of a class are conserved
    ∧ (∀ (k : Fin 5) (granted spent held : Nat),
        let ok := granted = l.granted.get k - classBuffers k.val + l.occupied.get k + held
        let code := BitVec.ofNat 16 (0x0500 + p.val)
        let lately := s.log.auditFails.any fun e => e.1 == code && decide (s.time.toNat ≤ e.2.toNat + 1000000000)
        (ok → Runs (.auditFlit p k granted spent held) s fun t =>
          t.port p = { s.port p with audits := satAdd (s.port p).audits 1 } ∧ Unchanged s t [.port p])
        ∧ (¬ok → lately = false → l.stuck + 1 < 64 → Runs (.auditFlit p k granted spent held) s fun t =>
          (t.port p).auditFail = true ∧ Recorded s t 0x0803
          ∧ (∀ j : Fin 5, (t.lnk p).credits.get j = classBuffers j.val ∧ (t.lnk p).granted.get j = classBuffers j.val)
          ∧ (t.lnk p).occupied = l.occupied ∧ (t.lnk p).spent = l.occupied
          ∧ Unchanged s t [.free, .log, .out, .port p, .lnk p])
        ∧ (¬ok → lately = true → Runs (.auditFlit p k granted spent held) s fun t =>
          (t.port p).auditFail = true ∧ (t.port p).state = 4 ∧ t.mem = s.mem))
    -- flits that a delay of the bandit has held go out first
    ∧ (∀ (f : Flit) (fs : List Flit), l.heldFlits = f :: fs → l.reordered = none → Runs (.banditDelayExpire p) s fun t =>
        t.time = maxU s.time l.heldUntil ∧ (∃ rest : List Out, t.out = s.out ++ l.heldFlits.map (Out.flit p) ++ rest)
        ∧ (t.lnk p).window.length + (t.lnk p).queue.length = l.window.length + l.queue.length
        ∧ Unchanged s t ([.time, .out, .log] ++ everyPort))

/-- A transfer leaves as numbered flits and is done when all its bytes are there (R53, R54, R308, R310, R316, R328). -/
def Obligations.TransfersLeaveAsFlits : Prop :=
  ∀ (s : State) (i : Stall) (c : Charter) (n : Nat), (s.stall i).charter.active = some c →
    let m := (s.stall i).march
    (∀ r, c.sends[n]? = some r → due (s.stall i) c (.send n) = true →
      (rtBytes r.raw = 0 → Runs (.routeSend i n) s fun t =>
        isDone (t.stall i) (.send n) = true ∧ t.out = s.out ∧ Unchanged s t [.stall i .seq])
      ∧ (∀ (p : PortId) (b : Bool), 0 < rtBytes r.raw → exitPort s c (s.stall i) (rtMember r.raw) (rtCaravan r.raw) none = some (p, b) →
        sendBlocked s i c n p = false → Runs (.routeSend i n) s fun t =>
          t.mem = s.mem ∧ (∀ f ∈ transferFlits s i c r.raw n, Waits t p f)
          ∧ (t.lnk p).window.length + (t.lnk p).queue.length
            = (s.lnk p).window.length + (s.lnk p).queue.length + (rtBytes r.raw + 255) / 256
          ∧ isDone (t.stall i) (.send n) = isDone (s.stall i) (.send n)
          ∧ Unchanged s t ([.out, .log, .stall i .seq] ++ everyPort ++ tierParts))
      ∧ (0 < rtBytes r.raw → exitPort s c (s.stall i) (rtMember r.raw) (rtCaravan r.raw) none = none → m.state = .legs →
        Runs (.routeSend i n) s fun t =>
          bit (t.stall i).seq.causes 6 = true ∧ (∃ e ∈ (t.stall i).seq.missing, e.1 = rtMember r.raw)
          ∧ (t.stall i).seq.stopped = true ∧ Unchanged s t [.out, .stall i .seq]))
    ∧ (∀ (r : BitVec 256) (k : Nat) (f : Flit), n < 65536 → rtBytes r ≤ 1073741824 → (transferFlits s i c r n)[k]? = some f →
        256 * k < rtBytes r
        ∧ flClass f.header = 0 ∧ flMsg f.header = n ∧ flIndex f.header = k ∧ flLen f.header = min 256 (rtBytes r - 256 * k)
        ∧ flDst f.header = rtMember r ∧ flDstCaravan f.header = rtCaravan r ∧ flSrc f.header = ownRole (s.stall i)
        ∧ flSrcCaravan f.header = c.caravanIx ∧ bit f.header 39 = decide (rtBytes r ≤ 256 * (k + 1))
        ∧ f.payload.length = 256 ∧ f.payload.take (flLen f.header) = s.readBytes i (rtAddr r + 256 * k) (flLen f.header))
    ∧ ∀ r, c.recvs[n]? = some r → issuing (s.stall i) = true → s.waits .route = false → isDone (s.stall i) (.recv n) = false →
        (rtBytes r.raw ≤ gotBytes s i n → Runs (.receivedTransfer i n) s fun t =>
          isDone (t.stall i) (.recv n) = true ∧ (∀ k, k ≠ .recv n → isDone (t.stall i) k = isDone (s.stall i) k)
          ∧ Unchanged s t [.stall i .seq])
        ∧ (gotBytes s i n < rtBytes r.raw → exec (.receivedTransfer i n) s = .next s)

/-- Lanes retire, recalibrate and return; neighbours are checked (R312, R319, R320, R324, R326, R327, R333). -/
def Obligations.LanesRetireAndRecalibrate : Prop :=
  ∀ (s : State) (p : PortId),
    let x := s.port p
    let l := s.lnk p
    let lanes (y : Port) (rx : Bool) := if rx then y.rxLanes else y.txLanes
    -- a retired lane is left at the announced flit
    (∀ (lane : Fin 18) (seq : BitVec 12), (txLanesSoon s p).get lane ≠ 2 → l.recalOf false = none →
      13 ≤ workingLanes (txLanesSoon s p) →
      Runs (.retireMessage p lane seq) s fun t =>
        (l.txSeq = seq → (t.port p).txLanes.get lane = 2 ∧ (seq, lane) ∉ (t.lnk p).switches)
        ∧ (l.txSeq ≠ seq → (∀ e ∈ l.switches, e.1 ≠ l.txSeq) →
            (t.port p).txLanes = x.txLanes ∧ (t.lnk p).switches = l.switches ++ [(seq, lane)])
        ∧ (txLanesSoon t p).get lane = 2
        ∧ (∃ e ∈ t.log.retired, e.kind = 4 ∧ e.index.toNat = 64 * p.val + lane.val) ∧ Recorded s t 0x0801
        ∧ (t.port p).state = x.state
        ∧ (portCapacity t p = portCapacity s p → Unchanged s t [.free, .log, .out, .port p, .lnk p])
        ∧ Unchanged s t ([.free, .log, .out, .port p, .lnk p]
            ++ allStalls.flatMap fun j => ([.march, .seq, .charter] : List StallPart).map (Part.stall j)))
    ∧ (∀ (lane : Fin 18) (seq : BitVec 12), (txLanesSoon s p).get lane = 2 → exec (.retireMessage p lane seq) s = .next s)
    -- recalibration
    ∧ (∀ (r : Requester) (v : Word) (h : fldN v 0 5 < 18), Allowed s r (routeOff p 4) → bit v 7 = true → l.recalOf (bit v 6) = none →
        let lane : Fin 18 := ⟨fldN v 0 5, h⟩
        let rx := bit v 6
        (lanes x rx).get lane ≠ 2 →
        (1 ∈ (lanes x rx).toList → Runs (.recalGo r p v) s fun t =>
          (lanes (t.port p) rx).get lane = 3 ∧ t.lnk p = l.setRecal rx (some lane) ∧ lanes (t.port p) (!rx) = lanes x (!rx)
          ∧ (t.port p).auto = bit v 8 ∧ Unchanged s t [.port p, .lnk p])
        ∧ (1 ∉ (lanes x rx).toList → Runs (.recalGo r p v) s fun t =>
          (t.port p).recalSkipped = satAdd x.recalSkipped 1 ∧ (t.port p).rxLanes = x.rxLanes ∧ (t.port p).txLanes = x.txLanes
          ∧ Unchanged s t [.port p]))
    ∧ (x.auto = true →
        let lane : Fin 18 := ⟨l.recalNext.val % 18, Nat.mod_lt _ (by decide)⟩
        let rx := decide (18 ≤ l.recalNext.val)
        l.recalOf rx = none →
        (lanes x rx).get lane ≠ 2 →
        (1 ∈ (lanes x rx).toList → Runs (.recalAuto p) s fun t =>
          (t.lnk p).recalNext = l.recalNext + 1 ∧ (lanes (t.port p) rx).get lane = 3 ∧ (t.lnk p).recalOf rx = some lane
          ∧ (t.lnk p).recalOf (!rx) = l.recalOf (!rx) ∧ lanes (t.port p) (!rx) = lanes x (!rx)
          ∧ Unchanged s t [.port p, .lnk p])
        ∧ (1 ∉ (lanes x rx).toList → Runs (.recalAuto p) s fun t =>
          (t.lnk p).recalNext = l.recalNext + 1 ∧ t.port p = { x with recalSkipped := satAdd x.recalSkipped 1 }
          ∧ Unchanged s t [.port p, .lnk p]))
    ∧ (∀ (lane : Fin 18) (rx : Bool), l.recalOf rx = some lane → Runs (.recalComplete ⟨p, rx⟩) s fun t =>
        t.lnk p = l.setRecal rx none
        ∧ ((lanes (t.port p) rx).get lane = 0 ∨ (lanes (t.port p) rx).get lane = 1)
        ∧ (∀ k, (lanes x rx).get k = 2 → k ≠ lane → (lanes (t.port p) rx).get k = 2)
        ∧ lanes (t.port p) (!rx) = lanes x (!rx) ∧ Unchanged s t [.port p, .lnk p])
    -- bandit mode
    ∧ (∀ (r : Requester) (v : Word), Allowed s r (routeOff p 0x50) →
        let test := match portStall s p with | some i => (s.stall i).page.comp.test | none => false
        (test = true → Runs (.rteBanditWrite r p v) s fun t =>
          t.lnk p = { l with banditDelay := fld v 24 8, banditMask := fld v 16 5, banditAction := fld v 1 2
                             banditEn := bit v 0, offered := if bit v 0 then 0 else l.offered }
          ∧ Unchanged s t [.lnk p])
        ∧ (test = false → Runs (.rteBanditWrite r p v) s fun t =>
          t.port p = { x with banditDenied := true } ∧ Unchanged s t [.port p]))
    -- neighbours
    ∧ (∀ m : IdentMessage,
        (x.state = 0 ∨ x.state = 1 → exec (.identMessage p m) s = .next s)
        ∧ (x.state = 2 → x.delay.toNat ≤ delayLimit s p → wrongNeighbour s p m = false → Runs (.identMessage p m) s fun t =>
          t.port p = { x with neighbour := some m, state := 3 } ∧ (t.lnk p).txSeq = 0 ∧ (t.lnk p).rxSeq = 0
          ∧ (t.lnk p).window = [] ∧ (∀ j : Fin 5, (t.lnk p).credits.get j = classBuffers j.val)
          ∧ Unchanged s t [.port p, .lnk p])
        ∧ (x.state = 4 → x.delay.toNat ≤ delayLimit s p → wrongNeighbour s p m = false → Runs (.identMessage p m) s fun t =>
          t.port p = { x with neighbour := some m } ∧ (t.lnk p).window = [] ∧ Unchanged s t [.port p, .lnk p])
        ∧ (x.state = 2 ∨ x.state = 3 ∨ x.state = 4 → delayLimit s p < x.delay.toNat → Runs (.identMessage p m) s fun t =>
          (t.port p).state = x.state ∧ (t.port p).neighbour = some m ∧ Recorded s t 0x0805
          ∧ Unchanged s t [.log, .out, .port p])
        ∧ (x.state = 2 ∨ x.state = 3 → x.delay.toNat ≤ delayLimit s p → wrongNeighbour s p m = true →
          Runs (.identMessage p m) s fun t =>
          (t.port p).state = 4 ∧ (t.port p).neighbour = some m ∧ t.mem = s.mem ∧ t.engines = s.engines))
    ∧ (x.state = 4 → (s.optic p).lightIn = true → 12 ≤ workingLanes x.txLanes → 12 ≤ workingLanes x.rxLanes →
        x.delay.toNat ≤ delayLimit s p → (∃ m, x.neighbour = some m ∧ wrongNeighbour s p m = false) → Runs (.portReturn p) s fun t =>
          t.lnk p = { l with returning := true } ∧ Unchanged s t [.lnk p])

/-- An engine emits light only where its interlocks allow it (R27, R28, R329, R330, R331, R332). -/
def Obligations.LightFollowsItsInterlocks : Prop :=
  ∀ (s : State) (p : PortId),
    let x := s.port p
    let o := s.optic p
    let dark (t : State) (q : PortId) : Prop :=
      (t.optic q).lightIn = false ∧ ∀ k, (t.optic q).sources.get k = 0 ∨ (t.optic q).sources.get k = 3
    let lit (t : State) (v : BitVec 2) : Prop :=
      ∀ k : Fin 3, k.val < 2 → (t.optic p).sources.get k = if o.sources.get k = 3 then 3 else v
    (mayEmit s p = true → o.lightIn = false → Runs (.probeBurst p) s fun t =>
        lit t 1 ∧ (t.port p).state = (if x.state = 0 then 1 else x.state) ∧ t.out = s.out ++ [.probe p]
        ∧ Unchanged s t [.out, .port p, .optic p])
    ∧ (mayEmit s p = false ∨ o.lightIn = true → exec (.probeBurst p) s = .next s)
    ∧ (mayEmit s p = true → Runs (.lightIn p) s fun t =>
        lit t 2 ∧ (t.optic p).lightIn = true ∧ (t.port p).state = (if x.state = 3 ∨ x.state = 4 then x.state else 2)
        ∧ (∃ m : IdentMessage, t.out = s.out ++ [.ident p m] ∧ m.tag = identityTag ∧ m.seat = s.starts.seat
            ∧ m.port.toNat = p.val
            ∧ (∀ i c, portCharter s p = some (i, c) →
                m.timeDomain = c.timeDomain ∧ m.member = (s.stall i).march.member ∧ m.caravan = c.caravanIx)
            ∧ (portCharter s p = none → m.member = 0x7F ∧ m.caravan = 0x3F))
        ∧ Unchanged s t [.out, .free, .port p, .optic p])
    ∧ (mayEmit s p = false → Runs (.lightIn p) s fun t =>
        t.optic p = { o with lightIn := true } ∧ Unchanged s t [.optic p])
    ∧ (Runs (.portDark p) s fun t =>
        (t.optic p).lightIn = false ∧ lit t (if mayEmit s p then 1 else 0)
        ∧ (t.port p).state = (if x.state = 2 ∨ x.state = 3 then 4 else x.state)
        ∧ (x.state ≠ 2 → x.state ≠ 3 → Unchanged s t [.optic p])
        ∧ t.mem = s.mem ∧ t.engines = s.engines ∧ t.cores = s.cores ∧ t.tiers = s.tiers ∧ t.hosts = s.hosts)
    ∧ (Runs (.mateOpen p) s fun t =>
        dark t p ∧ (t.optic p).mated = false ∧ mayEmit t p = false
        ∧ (t.port p).state = (if x.state = 2 ∨ x.state = 3 then 4 else if x.state = 1 then 0 else x.state)
        ∧ (x.state ≠ 2 → x.state ≠ 3 → Unchanged s t [.optic p, .port p])
        ∧ t.mem = s.mem ∧ t.engines = s.engines ∧ t.cores = s.cores ∧ t.tiers = s.tiers ∧ t.hosts = s.hosts)
    ∧ (Runs (.mateClose p) s fun t => t.optic p = { o with mated := true } ∧ Unchanged s t [.optic p])
    ∧ (∀ src : Fin 2, o.sources.get ⟨src.val, by omega⟩ = 2 →
        (o.sources.get 2 ≠ 3 → o.onStandby = none → Runs (.sourceFailover p src true) s fun t =>
          (t.optic p).sources.get ⟨src.val, by omega⟩ = 3 ∧ (t.optic p).sources.get 2 = 2 ∧ (t.optic p).onStandby = some src
          ∧ (t.port p).state = x.state ∧ (t.port p).txLanes = x.txLanes ∧ Recorded s t 0x0807
          ∧ (∃ e ∈ t.log.retired, e.kind = 7 ∧ e.index.toNat = 3 * p.val + src.val)
          ∧ Unchanged s t [.free, .log, .out, .port p, .optic p])
        ∧ (∀ lights : Bool, lights = false ∨ o.sources.get 2 = 3 ∨ o.onStandby.isSome = true →
          Runs (.sourceFailover p src lights) s fun t =>
          (t.optic p).sources.get ⟨src.val, by omega⟩ = 3 ∧ (t.port p).state = 4
          ∧ (∀ k : Fin 18, k.val / 9 = src.val → (t.port p).txLanes.get k = 2)
          ∧ t.mem = s.mem ∧ t.engines = s.engines ∧ t.cores = s.cores ∧ t.tiers = s.tiers ∧ t.hosts = s.hosts))
    ∧ (o.onStandby = none → o.sources.get 2 ≠ 3 → Runs (.standbySourceFailed p) s fun t =>
        t.optic p = { o with sources := o.sources.set 2 3 } ∧ Recorded s t 0x080E
        ∧ (∃ e ∈ t.log.retired, e.kind = 7 ∧ e.index.toNat = 3 * p.val + 2)
        ∧ Unchanged s t [.log, .out, .port p, .optic p])
    ∧ (s.power.interlock = true → Runs .interlockLost s fun t =>
        (∀ q, dark t q ∧ mayEmit t q = false ∧ portUp t q = false) ∧ t.power.interlock = false ∧ t.pins.lasers = false
        ∧ Recorded s t 0x0809
        ∧ Unchanged s t ([.power, .pins, .log, .out] ++ everyPort ++ allStalls.map (Part.stall · .seq)))

/-- The relay issues one request at a time and its target performs it (R322, R323, R339). -/
def Obligations.RelayedAccessesReachTheirMember : Prop :=
  ∀ (s : State),
    let y := s.fabric.relay
    let asked (r : Requester) (v : Word) (c : Charter) (i : Stall) : Prop :=
      Allowed s r (routeOff 0 0x8000) ∧ relayStall s = some (i, c) ∧ bit v 2 = true ∧ y.busy = false
    let reachable (v : Word) (c : Charter) (i : Stall) : Prop :=
      fld v 9 7 ∈ c.members ∧ exitPort s c (s.stall i) (fld v 9 7) c.caravanIx none ≠ none
    let issued (v : Word) (op : RelayOp) (t : State) : Prop :=
      t.out = s.out ++ [.relayRequest (fld v 9 7) op] ∧ t.fabric.relay.busy = true ∧ t.fabric.relay.statusMember = fld v 9 7
      ∧ t.fabric.relay.issuedAt = s.time ∧ t.fabric.relay.result = y.result ∧ Unchanged s t [.out, .relay]
    (∀ (r : Requester) (v : Word) (c : Charter) (i : Stall), asked r v c i → reachable v c i →
      (fld v 0 2 = 0 → Runs (.relayRead32 r v) s (issued v (.read32 (y.target.setWidth 24))))
      ∧ (fld v 0 2 = 1 → Runs (.relayWrite32 r v) s (issued v (.write32 (y.target.setWidth 24) y.data)))
      ∧ (fld v 0 2 = 2 → Runs (.relayPost r v) s
          (issued v (.post (y.target.setWidth 24) (fld v 17 9) (y.buf.toList.take (fldN v 17 9))))))
    ∧ (∀ (r : Requester) (v : Word) (c : Charter) (i : Stall), asked r v c i → ¬reachable v c i → fld v 0 2 ≠ 3 →
      Runs (.relayRead32 r v) s fun t =>
        t.fabric.relay.busy = false ∧ t.fabric.relay.result = 3 ∧ t.fabric.relay.statusMember = fld v 9 7
        ∧ Recorded s t 0x080D ∧ Unchanged s t [.log, .out, .relay])
    ∧ (∀ (result : BitVec 3) (data : Word), y.busy = true → Runs (.relayResponse result data) s fun t =>
        t.fabric.relay = { y with busy := false, result := result, data := if y.op = 0 ∧ result = 0 then data else y.data }
        ∧ Unchanged s t [.relay])
    ∧ (y.busy = true → Runs .relayTimeout s fun t =>
        t.time = maxU s.time (y.issuedAt + 100000) ∧ t.fabric.relay = { y with busy := false, result := 2 }
        ∧ Recorded s t 0x080C ∧ Unchanged s t [.time, .log, .out, .relay])
    ∧ (∀ (i : Stall) (c : Charter) (m : Member) (vec : BitVec 6), relayStall s = some (i, c) →
      (y.events.length < 64 → Runs (.relayEvent i m vec) s fun t =>
        t.fabric.relay = { y with events := y.events ++ [(m, vec)] } ∧ Unchanged s t [.out, .relay]
        ∧ (∀ l k, (s.stall i).page.comp.owner = some (some k) → ownerLink (s.stall i).page = some l →
            t.out = s.out ++ [.msix l (64 * stallRank s l i + y.vector.toNat)]))
      ∧ (64 ≤ y.events.length → Runs (.relayEvent i m vec) s fun t =>
        t.fabric.relay = { y with lost := satAdd y.lost 1 } ∧ Unchanged s t [.relay]))
    ∧ (∀ r : Requester, mayRead s r (.route 0 0x8010) = true →
      (∀ m vec rest, y.events = (m, vec) :: rest → Runs (.relayEventRead r) s fun t =>
        bit t.data 31 = true ∧ fld t.data 7 7 = m ∧ fld t.data 0 6 = vec ∧ t.fabric.relay = { y with events := rest }
        ∧ Unchanged s t [.data, .relay])
      ∧ (y.events = [] → Runs (.relayEventRead r) s fun t => t.data = 0 ∧ Unchanged s t [.data]))
    ∧ (∀ (i : Stall) (m : Member) (w : BitVec 24),
      (wordOff w = marchOff i 0x2C → relayOwns s i = true → Runs (.relayRequest i m (.read32 w)) s fun t =>
        t.out = s.out ++ [.relayResponse i m 0 ((s.stall i).march.repeatLimit.setWidth 32)]
        ∧ (s.power.state = 3 → t.power.state = 2) ∧ Unchanged s t [.out, .power])
      ∧ (∀ v : Word, wordOff w = marchOff i 0x2C → relayOwns s i = true → Runs (.relayRequest i m (.write32 w v)) s fun t =>
        (t.stall i).march.repeatLimit = fld v 0 8 ∧ t.out = s.out ++ [.relayResponse i m 0 0]
        ∧ (s.power.state = 3 → t.power.state = 2) ∧ Unchanged s t [.out, .power, .stall i .march])
      ∧ ∀ (n : Fin 24) (o : Nat) (len : BitVec 9) (buf : List Byte), regOf (wordOff w) = .post i false n o →
        writeAccess s (.relay i) (regOf (wordOff w)) = .allow → outbound false n.val = false → o ≤ 0x100 →
        let q := s.post i false n
        (s.stall i).page.state ≠ 1 →
        (q.full = false → claimedByOther q (.relay i) = false → Runs (.relayRequest i m (.post w len buf)) s fun t =>
          (t.post i false n).full = true ∧ t.out = s.out ++ [.relayResponse i m 0 0]
          ∧ Unchanged s t [.out, .power, .stall i .posts])
        ∧ (q.full = true ∨ claimedByOther q (.relay i) = true → Runs (.relayRequest i m (.post w len buf)) s fun t =>
          t.out = s.out ++ [.busError (.relay i), .relayResponse i m 1 0] ∧ Unchanged s t [.out, .power]))

/-- A charter runs only after its checks (R341, R344, R347, R353, R354, R355, R357, R358, R359, R360). -/
def Obligations.ChartersAreCheckedBeforeTheyRun : Prop :=
  ∀ (s : State) (r : Requester) (i : Stall),
    let t0 := s.stall i
    let p := t0.charter
    -- LOAD
    (Allowed s r (charterOff i 0) →
      (p.loader = 0 → p.pending = none → s.tollgate.restarting ≠ some 6 →
        (∀ code detail, (s.chooseSlot i).1 = .refuse code detail → Runs (.load r i) s fun t =>
          (t.stall i).charter.refusalReason = code ∧ (t.stall i).charter.refusalDetail = detail
          ∧ (t.stall i).charter.refusals = satAdd p.refusals 1 ∧ (t.stall i).charter.loader = 0
          ∧ (t.stall i).charter.active = p.active ∧ (s.power.state = 3 → t.power.state = 2)
          ∧ Unchanged s t [.out, .power, .stall i .charter])
        ∧ (∀ slot, (s.chooseSlot i).1 = .winner slot → Runs (.load r i) s fun t =>
          (t.stall i).charter.loader = 3 ∧ (t.stall i).charter.checking = some (slotCharter s i slot)
          ∧ (t.stall i).charter.active = p.active ∧ (t.stall i).charter.pending = none
          ∧ (s.power.state = 3 → t.power.state = 2)
          ∧ (t0.march.state ≠ .empty → Unchanged s t [.power, .stall i .charter])
          ∧ (t0.march.state = .empty → Unchanged s t [.power, .stall i .charter, .stall i .customs])))
      ∧ (p.loader ≠ 0 ∨ p.pending ≠ none → Runs (.load r i) s fun t =>
          (t.stall i).charter = { p with cmdIgnored := true } ∧ Unchanged s t [.stall i .charter])
      ∧ (p.loader = 0 → p.pending = none → s.tollgate.restarting = some 6 → Runs (.load r i) s fun t =>
          (t.stall i).charter = { p with loader := 1 } ∧ Unchanged s t [.power, .stall i .charter])
      -- UNLOAD
      ∧ (t0.march.state = .ready ∨ t0.march.state = .held → Runs (.unload r i) s fun t =>
          (t.stall i).march.state = .empty ∧ (t.stall i).charter.active = none ∧ (t.stall i).charter.pending = none
          ∧ (t.stall i).charter.slotAStatus = p.slotAStatus ∧ (t.stall i).charter.slotBStatus = p.slotBStatus
          ∧ slotLocked (t.stall i) false = false ∧ slotLocked (t.stall i) true = false
          ∧ (t.stall i).ledger.buckets = 0
          ∧ Unchanged s t [.stall i .march, .stall i .charter, .stall i .ledger, .stall i .settle])
      ∧ (t0.march.state ≠ .ready → t0.march.state ≠ .held → Runs (.unload r i) s fun t =>
          (t.stall i).charter = { p with cmdIgnored := true } ∧ Unchanged s t [.stall i .charter])
      -- CANCEL
      ∧ (p.pending.isSome = true → p.scheduled = false → p.swapAt = none → Runs (.cancel r i) s fun t =>
          (t.stall i).charter.pending = none ∧ (t.stall i).charter.loader = 0 ∧ (t.stall i).charter.active = p.active
          ∧ (t0.march.lead = true → (∀ e ∈ (t.stall i).charter.epochs, e.1 ≠ t0.march.member) ∧ t.out = s.out)
          ∧ (t0.march.lead = false → t.out = s.out ++ [.withdraw i]) ∧ Unchanged s t [.out, .stall i .charter])
      ∧ (p.pending = none ∨ p.scheduled = true ∨ p.swapAt ≠ none → Runs (.cancel r i) s fun t =>
          (t.stall i).charter = { p with cmdIgnored := true } ∧ Unchanged s t [.stall i .charter]))
    -- the checks end
    ∧ (∀ c0 : Charter, p.loader = 3 → p.checking = some c0 →
        (t0.march.state = .empty → regionsDiffer t0 c0 = false ∨ recordsOk s i c0 = false) →
        let c := captureCharter s i c0
        (∀ f, checkCharter s i p.oddFields c = some f → Runs (.charterAccepted i) s fun t =>
          (t.stall i).charter.loader = 0 ∧ (t.stall i).charter.checking = none ∧ (t.stall i).charter.active = p.active
          ∧ (t.stall i).charter.pending = p.pending
          ∧ (t.stall i).charter.refusalReason = f.code ∧ (t.stall i).charter.refusalDetail = f.detail
          ∧ (t.stall i).charter.refusals = satAdd p.refusals 1 ∧ (t.stall i).march.state = t0.march.state
          ∧ Unchanged s t [.out, .stall i .march, .stall i .charter])
        ∧ (checkCharter s i p.oddFields c = none → t0.march.state = .empty →
          Runs (.charterAccepted i) s fun t =>
          (t.stall i).march.state = .ready ∧ (t.stall i).charter.active = some c ∧ (t.stall i).charter.loader = 0
          ∧ (t.stall i).march.member = c.member ∧ (t.stall i).march.lead = (c.member == c.lead)
          ∧ (t.stall i).march.deputy = (c.member == c.deputy) ∧ (t.stall i).march.num = t0.march.num
          ∧ (t.stall i).settle.step = t0.settle.step ∧ (t.stall i).lot.seed = t0.lot.seed
          ∧ (t.stall i).settle.coef = c.groups ∧ (c.dirInit = false → t.mem = s.mem)
          ∧ ∀ j, j ≠ i → t.stall j = s.stall j)
        ∧ (checkCharter s i p.oddFields c = none → t0.march.state ≠ .empty → t0.march.lead = false →
          Runs (.charterAccepted i) s fun t =>
          (t.stall i).march.state = t0.march.state ∧ (t.stall i).charter.active = p.active
          ∧ (t.stall i).charter.pending = some c ∧ (t.stall i).charter.loader = 4
          ∧ Out.accepted i c.epoch c.seq ∈ t.out ∧ Unchanged s t [.out, .stall i .march, .stall i .charter]))
    -- the words of the members
    ∧ (∀ (m : Member) (epoch : Word) (seq : BitVec 64),
        let kept (t : State) : Prop := (m, epoch, seq) ∈ (t.stall i).charter.epochs
          ∧ (∀ e ∈ (t.stall i).charter.epochs, e.1 = m → e = (m, epoch, seq))
          ∧ ∀ e ∈ p.epochs, e.1 ≠ m → e ∈ (t.stall i).charter.epochs
        (t0.march.lead = false ∨ p.pending = none ∨ t0.march.state ≠ .ready ∧ t0.march.state ≠ .held →
          Runs (.acceptedWord i m epoch seq) s fun t => kept t ∧ Unchanged s t [.stall i .charter])
        ∧ (∀ c : Charter, t0.march.lead = true → p.pending = some c → t0.march.state = .ready ∨ t0.march.state = .held →
          (∀ m' ∈ c.members, isFenced t0 m' = false →
            m' = m ∧ epoch = c.epoch ∨ m' ≠ m ∧ ∃ e ∈ p.epochs, e.1 = m' ∧ e.2.1 = c.epoch) →
          Runs (.acceptedWord i m epoch seq) s fun t =>
            kept t ∧ (t.stall i).charter.active = some c ∧ (t.stall i).charter.pending = none
            ∧ (t.stall i).march.state = .ready ∧ t.out = s.out ++ [.relayed i (.swap s.time)] ∧ t.mem = s.mem
            ∧ ∀ j, j ≠ i → t.stall j = s.stall j))
    ∧ (∀ m : Member, Runs (.withdraw i m) s fun t =>
        (t.stall i).charter = { p with epochs := p.epochs.filter fun e => e.1 != m } ∧ Unchanged s t [.stall i .charter])
    -- the slot port
    ∧ (∀ v : Word, Allowed s r (charterOff i 0x44) →
        let w := p.portWord.toNat
        let bay := t0.page.comp.nearFirst.toNat + (if p.portSlot then 1 else 0)
        (slotLocked t0 p.portSlot = true ∨ slotWords ≤ w → Runs (.chtPortDataWrite r i v) s fun t =>
          (t.stall i).charter = { p with portWord := p.portWord + 1, lockedWrites := satAdd p.lockedWrites 1 }
          ∧ Unchanged s t [.stall i .charter])
        ∧ (slotLocked t0 p.portSlot = false → w < slotWords → Runs (.chtPortDataWrite r i v) s fun t =>
          (t.stall i).charter = { p with portWord := p.portWord + 1 }
          ∧ (∀ k < 4, Plain s (.near bay (4 * w + k)) → t.readPlace (.near bay (4 * w + k)) = fld v (8 * k) 8)
          ∧ (∀ q : Place, (∀ k < 4, placeKey q ≠ placeKey (.near bay (4 * w + k))) → t.readPlace q = s.readPlace q)
          ∧ Unchanged s t (.stall i .charter :: tierParts)))

/-- A checkpoint is written whole and restored from its header (R458, R459, R461, R462, R463, R464, R472). -/
def Obligations.CheckpointsAreWrittenAndRestored : Prop :=
  ∀ (s : State) (i : Stall) (c : Charter), (s.stall i).charter.active = some c →
    let t0 := s.stall i
    let v := t0.service
    let space (a : Nat) : Prop := ∃ o, concatAddr (spaceRegions c) o = some a
    let sound : Prop := PlainAt s i space ∧ (∀ a, space a → hostVisible s i a = false)
      ∧ ∀ o o' a, concatAddr (spaceRegions c) o = some a → concatAddr (spaceRegions c) o' = some a → o = o'
    let only (t : State) (off n : Nat) : Prop :=
      OnlyBytes s t i fun a => ∃ o, off ≤ o ∧ o < off + n ∧ concatAddr (spaceRegions c) o = some a
    -- state bytes put back: the bytes given, and the validity of the tariff records that they lack
    let lacks (n b : Nat) : Prop := b < c.buckets.length
      ∧ ∃ o, concatOffset (stateRegions c) (tariffAddr c b) = some o ∧ n < o + 16
    let putBack (t : State) (n : Nat) : Prop :=
      OnlyBytes s t i fun a => (∃ o, o < n ∧ concatAddr (stateRegions c) o = some a)
        ∨ ∃ b, lacks n b ∧ tariffAddr c b ≤ a ∧ a < tariffAddr c b + 16
    -- the member's own generation
    (v.ckptState = 1 → oneGeneration c = true →
      let off := generationOffset c false v.gen
      let bs := stateBytes s i c
      Runs (.ckptJobDone i) s fun t =>
        (sound → generationMarch t i c off = some t0.march.num
          ∧ (∀ k < bs.length, off + 4096 + k < regionsSize (spaceRegions c) → spaceByte t i c (off + 4096 + k) = bs.getD k 0)
          ∧ ∀ k < 88, spaceByte t i c (off + k) = (ckptHeader s i c bs).getD k 0)
        ∧ (∀ k < bs.length, ∀ a, concatAddr (spaceRegions c) (off + 4096 + k) = some a → hostVisible s i a = true →
            ⟨ckptWriter s i, i, a, bs.getD k 0⟩ ∈ t.tiers.snoops)
        ∧ only t off (4096 + bs.length)
        ∧ (t.stall i).service = { v with
            ckptState := 0, ckptMarch := t0.march.num, gen := if twoGenerations c then !v.gen else v.gen }
        ∧ Unchanged s t (.stall i .service :: storeParts))
    ∧ (v.ckptState ≠ 1 → exec (.ckptJobDone i) s = .next s)
    -- a buddy's
    ∧ (∀ (m : Member) (header data : List Byte),
        (v.mirrorMember = m → 64 ≤ t0.march.member.toNat → Runs (.buddyCkptReceive i m header data) s fun t =>
          (t.stall i).service = { v with mirrorMarch := BitVec.ofNat 40 (headerNat header 8 8), mirrorCurrent := true }
          ∧ putBack t data.length ∧ Unchanged s t (.stall i .service :: storeParts))
        ∧ (v.mirrorMember ≠ m ∨ t0.march.member.toNat < 64 → oneGeneration c = true → header.length = 88 →
          Runs (.buddyCkptReceive i m header data) s fun t =>
          (∃ off ∈ generations c true, only t off (4096 + data.length)
            ∧ (sound → off + 4096 + data.length ≤ regionsSize (spaceRegions c) →
              (∀ k < data.length, spaceByte t i c (off + 4096 + k) = data.getD k 0)
              ∧ (∀ k < 88, k ≠ 4 → spaceByte t i c (off + k) = header.getD k 0) ∧ spaceByte t i c (off + 4) = 1))
          ∧ Unchanged s t storeParts)
        ∧ (v.mirrorMember ≠ m ∨ t0.march.member.toNat < 64 → oneGeneration c = false →
          exec (.buddyCkptReceive i m header data) s = .next s))
    -- RESTORE
    ∧ (∀ r : Requester, Allowed s r (faultOff i 0) →
        let may := t0.march.lead = true ∧ (∀ j, (s.stall j).march.state ≠ .legs)
          ∧ (t0.march.state = .ready ∨ heldFor t0 0x0210 = true)
        let told (t : State) : Prop := Out.relayed i (.restore v.ckptCommon) ∈ t.out
        (¬may → Runs (.restore r i) s fun t =>
          (t.stall i).march = { t0.march with cmdIgnored := true } ∧ Unchanged s t [.stall i .march])
        ∧ (may → restoreFrom s i c v.ckptCommon = none → Runs (.restore r i) s fun t =>
          told t ∧ Recorded s t 0x0214 ∧ Unchanged s t [.out, .log])
        ∧ (∀ h bs, may → restoreFrom s i c v.ckptCommon = some (h, bs) → Runs (.restore r i) s fun t =>
          told t ∧ (v.ckptState ≠ 1 → Recorded s t 0x020F) ∧ (t.stall i).march.state = .ready ∧ (t.stall i).march.num = v.ckptCommon
          ∧ (t.stall i).settle.step = BitVec.ofNat 40 (headerNat h 16 8)
          ∧ (t.stall i).lot.seed = BitVec.ofNat 64 (headerNat h 24 8)
          ∧ (t.stall i).tally.samples = BitVec.ofNat 32 (headerNat h 44 4)
          ∧ putBack t bs.length ∧ Unchanged s t ([.out, .log] ++ storeParts
              ++ ([.march, .seq, .settle, .lot, .tally, .service] : List StallPart).map (Part.stall i))))
    -- mirrors
    ∧ (∀ (march : BitVec 40) (totals : List (List (BitVec 32))) (tariffs : List (BitVec 128)),
        let settling := t0.march.num = march ∧ t0.seq.settles = true ∧ t0.seq.finished = false
        let settled := t0.march.num = march + 1 ∧ (t0.seq.finished = true ∨ t0.settle.started = false)
        let may := 64 ≤ t0.march.member.toNat ∧ v.mirrorMember ≠ 0x7F ∧ v.mirrorCurrent = true ∧ v.mirrorMarch = march
          ∧ (settling ∨ settled)
          ∧ (idleStandby t0 = true ∨ t0.seq.settles = true ∧ ∀ n < c.settle.length, hasRun t0 (.settle n) = false)
        (¬may → exec (.mirrorApply i march totals tariffs) s = .next s)
        ∧ (may → Runs (.mirrorApply i march totals tariffs) s fun t =>
          (t.stall i).service.mirrorMarch = march + 1
          ∧ (settling → ∀ n < c.settle.length, isDone (t.stall i) (.settle n) = true)
          ∧ (settled ∨ t0.seq.ended = false →
            (t.stall i).service = { v with mirrorMarch := march + 1 } ∧ (t.stall i).settle.step = t0.settle.step
            ∧ (t.stall i).march = t0.march ∧ (t.stall i).lot = t0.lot ∧ t.engines = s.engines ∧ t.cores = s.cores)
          ∧ ∀ j, j ≠ i → t.stall j = s.stall j))
    ∧ (∀ (r : Requester) (w : Word), Allowed s r (faultOff i 0x18) →
        (t0.march.state = .ready → Runs (.fltMirrorWrite r i w) s fun t =>
          (t.stall i).service.mirrorMember = fld w 0 7
          ∧ (t.stall i).service.mirrorCurrent = (v.mirrorCurrent && v.mirrorMember == fld w 0 7)
          ∧ Unchanged s t [.stall i .service])
        ∧ (t0.march.state ≠ .ready → exec (.fltMirrorWrite r i w) s = .next s))

/-- Failed cores, links and clocks are replaced by their spares or lost (R18, R19, R20, R24, R33, R395, R466, R494). -/
def Obligations.FailedUnitsAreReplacedOrLost : Prop :=
  ∀ s : State,
    let seqs : List Part := allStalls.map (Part.stall · .seq)
    -- cores
    (∀ (d : DieId) (pc : Fin 9) (reason : Reason) (cmd : Instr),
      cmd = .permanentCoreFault d pc reason ∨ cmd = .railFault d pc ∧ reason = 0x0A09 →
      let die := s.anatomy.dies.get d
      (qmRestarting s d = true → Runs cmd s fun t =>
        t.anatomy = { s.anatomy with heldFaults := s.anatomy.heldFaults ++ [(d, pc, reason)] } ∧ Unchanged s t [.anatomy])
      ∧ (qmRestarting s d = false → slotOfPc die pc = none → exec cmd s = .next s)
      ∧ (∀ slot, qmRestarting s d = false → slotOfPc die pc = some slot →
        let k := slotCore d slot
        Runs cmd s fun t =>
          (∃ e ∈ t.log.retired, e.kind = 1 ∧ e.index = coreUnit d pc) ∧ Recorded s t reason
          ∧ (∀ j, spareOf die = some j → j ≠ pc →
              (t.anatomy.dies.get d).map.get slot = BitVec.ofNat 4 j.val ∧ (t.anatomy.dies.get d).states.get pc = 2
              ∧ (t.anatomy.dies.get d).states.get j = 0)
          ∧ (spareOf die = none → (t.anatomy.dies.get d).map.get slot = 0xF ∧ (t.anatomy.dies.get d).states.get pc = 2)
          ∧ (∀ d', d' ≠ d → t.anatomy.dies.get d' = s.anatomy.dies.get d')
          ∧ (∀ a ∈ (t.core k).da.toList, a.level = 0 ∧ a.state = if (spareOf die).isSome then 1 else 0)
          ∧ (∀ i c, coreStall s k = some i → (s.stall i).charter.active = some c → bit c.cores k.val = true →
              (s.stall i).march.state = .legs → bit (t.stall i).seq.causes 6 = true ∧ (t.stall i).seq.stopped = true
                ∧ (spareOf die = none → bit (t.stall i).seq.nextCauses 11 = true))
          ∧ (∀ k', k' ≠ k → t.core k' = s.core k') ∧ t.engines = s.engines ∧ t.tiers = s.tiers ∧ t.fabric = s.fabric
          ∧ t.hosts = s.hosts))
    -- die-to-die links
    ∧ (∀ l : Fin 12,
      (s.anatomy.d2d.get l = true → exec (.d2dLinkRetire l) s = .next s)
      ∧ (s.anatomy.d2d.get l = false → Runs (.d2dLinkRetire l) s fun t =>
        t.anatomy = { s.anatomy with d2d := s.anatomy.d2d.set l true } ∧ Recorded s t 0x0211
        ∧ (∃ e ∈ t.log.retired, e.kind = 6 ∧ e.index.toNat = l.val)
        ∧ Unchanged s t ([.free, .log, .out, .anatomy] ++ seqs ++ allStalls.map (Part.stall · .march)
            ++ allStalls.map (Part.stall · .charter))))
    -- clocks
    ∧ (∀ (n : Fin 100) (d : DieId) (slot : Fin 8) (pc : Fin 9), n.val = 8 * d.val + slot.val →
        (s.anatomy.dies.get d).map.get slot = BitVec.ofNat 4 pc.val →
        exec (.pllLockLoss n) s = exec (.permanentCoreFault d pc 0x020B) s)
    ∧ (∀ n : Fin 100, 32 ≤ n.val ∧ n.val < 36 ∨ n.val = 88 ∨ 91 ≤ n.val ∧ n.val < 94 ∨ 98 ≤ n.val → Runs (.pllLockLoss n) s fun t =>
        n ∈ t.anatomy.unlocked ∧ Recorded s t 0x020C
        ∧ (∀ i, (s.stall i).page.comp.owner.isSome = true → (s.stall i).march.state = .legs →
            bit (t.stall i).seq.causes 6 = true)
        ∧ Unchanged s t ([.anatomy, .log, .out] ++ seqs))
    ∧ (∀ (n : Fin 100) (p : PortId), n.val = 80 + p.val → Runs (.pllLockLoss n) s fun t =>
        n ∈ t.anatomy.unlocked ∧ (t.port p).state = 4 ∧ t.mem = s.mem ∧ t.engines = s.engines ∧ t.hosts = s.hosts)
    ∧ (∀ n : Fin 100, n.val = 95 → Runs (.pllLockLoss n) s fun t =>
        n ∈ t.anatomy.unlocked ∧ (∀ i, (s.stall i).page.comp.owner.isSome = true → (t.stall i).ledger.retired = true)
        ∧ ((∃ i, (s.stall i).page.comp.owner.isSome = true) → t.log.newest ≠ s.log.newest ∧ ∃ b ∈ t.log.ring, fld b 32 16 = 0x020C)
        ∧ t.mem = s.mem ∧ t.engines = s.engines ∧ t.cores = s.cores ∧ t.fabric = s.fabric)
    ∧ (∀ n : Fin 100, n.val = 96 ∨ n.val = 97 → Runs (.pllLockLoss n) s fun t =>
        n ∈ t.anatomy.unlocked
        ∧ (∀ e : EngineId, e.val / 4 = n.val - 96 → t.engine e = { s.engine e with retired := true, state := 0, qen := false })
        ∧ (∀ e : EngineId, e.val / 4 ≠ n.val - 96 → t.engine e = s.engine e)
        ∧ t.mem = s.mem ∧ t.cores = s.cores ∧ t.fabric = s.fabric ∧ t.tiers = s.tiers)
    ∧ (s.anatomy.osc156 = true → Runs .osc156Stop s fun t =>
        t.anatomy = { s.anatomy with osc156 := false } ∧ t.pins.lasers = false ∧ Recorded s t 0x020C
        ∧ (∀ p, (t.optic p).lightIn = false ∧ mayEmit t p = false ∧ portUp t p = false) ∧ (∀ i, (t.stall i).seq.left = true)
        ∧ Unchanged s t ([.anatomy, .log, .out, .power, .pins] ++ everyPort ++ seqs))
    -- a Quartermaster
    ∧ (∀ d : DieId,
      (starting s = false → s.power.state = 2 ∨ s.power.state = 3 → qmRestarting s d = false →
        (∀ e ∈ s.anatomy.heldFaults, e.1 ≠ d) → Runs (.qmWatchdog d) s fun t =>
          Recorded s t 0x020B ∧ t.starts.cause = 5 ∧ t.starts.scope = BitVec.ofNat 4 d.val
          ∧ (∀ slot, ∀ a ∈ (t.core (slotCore d slot)).da.toList, a.level = 0 ∧ a.state = 1)
          ∧ (∀ i (n : Fin 24), 4 + 4 * d.val ≤ n.val → n.val < 8 + 4 * d.val → (s.post i false n).full = true →
              (t.post i false n).full = false ∧ (t.post i false n).ackDone = true ∧ (t.post i false n).ackCode = 0x0605)
          ∧ (∀ i c slot, coreStall s (slotCore d slot) = some i → (s.stall i).charter.active = some c →
              bit c.cores (slotCore d slot).val = true → (s.stall i).march.state = .legs →
              bit (t.stall i).seq.causes 6 = true)
          ∧ Unchanged s t ([.log, .out, .starts, .mem] ++ (List.finRange 8).map (fun slot => Part.core (slotCore d slot))
              ++ seqs ++ allStalls.map (Part.stall · .posts)))
      ∧ (starting s = false → qmRestarting s d = true → exec (.qmWatchdog d) s = .next s))
    -- denials
    ∧ (∀ (i : Stall) (unit : BitVec 8) (cause : BitVec 4) (va : BitVec 48),
      let counted (t : State) : Prop := (t.stall i).customs = { (s.stall i).customs with
        denied := satAdd (s.stall i).customs.denied 1, lastCause := cause, lastUnit := unit, lastVa := va
        lastRegion := regionBelow (s.stall i).customs va.toNat }
      (∀ (e : EngineId) (b : Batch), unit.toNat = 160 + e.val → (s.engine e).batch = some b → (s.engine e).state ≠ 4 →
        b.recorded = false → b.verdict ≠ 2 → failedLately s (0x0701 + BitVec.ofNat 16 (0x1000 * e.val)) = false →
        let n := (b.moved.findIdx? fun m => m.touches va.toNat).getD 0
        let undone := b.moved.drop n
        let within (a : Nat) : Prop := ∃ m ∈ undone, m.dst ≤ a ∧ a < m.dst + m.old.length
        Runs (.customsDeny i unit cause va) s fun t =>
          counted t ∧ Recorded s t 0x0701
          ∧ (∃ b', (t.engine e).batch = some b' ∧ b'.verdict = 2 ∧ b'.reason = 0x0701 ∧ b'.moved = b.moved.take n ∧ b'.first = b.first)
          -- the bytes of the denied write and of the later ones keep what they held
          ∧ (∀ h ∈ t.tiers.snoops, h.writer = .copy e → h.stall = i → ¬within h.va)
          ∧ (PlainAt s i within → ∀ k m, undone[k]? = some m →
              (∀ m' ∈ undone.take k, m'.dst + m'.old.length ≤ m.dst ∨ m.dst + m.old.length ≤ m'.dst) →
              t.readBytes i m.dst m.old.length = m.old)
          ∧ OnlyBytes s t i within ∧ Unchanged s t ([.log, .out, .engine e, .stall i .customs, .snoops] ++ tierParts))
      ∧ (∀ e : EngineId, unit.toNat = 160 + e.val → (s.engine e).batch = none → (s.stall i).march.state = .legs →
        failedLately s (0x0701 + BitVec.ofNat 16 (0x1000 * e.val)) = false →
        Runs (.customsDeny i unit cause va) s fun t =>
          counted t ∧ Recorded s t 0x0701 ∧ bit (t.stall i).seq.causes 6 = true ∧ (t.stall i).seq.stopped = true
          ∧ Unchanged s t [.log, .out, .stall i .customs, .stall i .seq])
      ∧ (170 ≤ unit.toNat → unit.toNat ≤ 185 → (s.stall i).march.state = .legs →
        Runs (.customsDeny i unit cause va) s fun t =>
          counted t ∧ Recorded s t 0x0701 ∧ bit (t.stall i).seq.causes 6 = true ∧ (t.stall i).seq.stopped = true
          ∧ Unchanged s t [.log, .out, .stall i .customs, .stall i .seq])
      ∧ (185 < unit.toNat → Runs (.customsDeny i unit cause va) s fun t =>
          counted t ∧ Recorded s t 0x0701 ∧ Unchanged s t [.log, .out, .stall i .customs]))

/-- Components restart in turn or roll back; the TAP and the SMBus answer (R396, R418, R430, R448, R466, R476, R479). -/
def Obligations.ComponentsRestartInTurn : Prop :=
  ∀ s : State,
    let g := s.tollgate
    (∀ k ks, g.restart = k :: ks → g.restarting = none →
      ((∀ i, (s.stall i).march.state ≠ .legs ∧ (s.stall i).march.state ≠ .verdict) → Runs .componentRestart s fun t =>
        t.tollgate = { g with restarting := some k, restartAt := s.time } ∧ Recorded s t 0x0215
        ∧ Unchanged s t [.log, .tollgate])
      ∧ ((∃ i, (s.stall i).march.state = .legs ∨ (s.stall i).march.state = .verdict) → exec .componentRestart s = .next s))
    ∧ (g.restart = [] ∨ g.restarting.isSome = true → exec .componentRestart s = .next s)
    ∧ (∀ k : BitVec 4, g.restarting = some k → 1 ≤ k.toNat → k.toNat ≤ 6 →
        (∀ e ∈ s.anatomy.heldFaults, k.toNat ≠ e.1.val + 2) → (k = 6 → ∀ i, (s.stall i).charter.loader ≠ 1) →
        (s.time.toNat ≤ g.restartAt.toNat + restartLimit k → Runs .componentReady s fun t =>
          t.tollgate.restarting = none ∧ t.tollgate.restart = g.restart.drop 1
          ∧ (t.tollgate.comps[k.toNat - 1]? = some (measure g (!g.bank) (componentPair k.toNat)))
          ∧ t.tollgate.bank = (if k = 6 then !g.bank else g.bank) ∧ t.tollgate.banks = g.banks
          ∧ Unchanged s t [.tollgate])
        ∧ (g.restartAt.toNat + restartLimit k < s.time.toNat → exec .componentReady s = .next s)
        ∧ (Runs .imageRollback s fun t =>
          t.time = maxU s.time (g.restartAt + BitVec.ofNat 64 (restartLimit k))
          ∧ t.tollgate.restarting = none ∧ t.tollgate.restart = [] ∧ t.tollgate.otherValid = false
          ∧ t.tollgate.bank = g.bank ∧ bankBytes t.tollgate g.bank = bankBytes g g.bank ∧ bankCheck t.tollgate (!g.bank) = 0x0706
          ∧ Recorded s t 0x070C ∧ Unchanged s t [.time, .log, .tollgate]))
    ∧ (starting s = true → Runs .tollgateWatchdog s fun t =>
        t.pins.faultN = false ∧ t.starts.lastFail = 0x02 ∧ t.starts.fails.toNat = min 3 (s.starts.fails.toNat + 1)
        ∧ t.mem = s.mem ∧ t.tiers = s.tiers)
    ∧ (starting s = false → g.restarting ≠ some 6 → s.power.state = 2 ∨ s.power.state = 3 → Runs .tollgateWatchdog s fun t =>
        Recorded s t 0x020C ∧ t.starts.cause = 6 ∧ t.tollgate.restart = [] ∧ t.tollgate.restarting = none
        ∧ (∀ i, (s.stall i).page.comp.owner.isSome = true →
            (t.stall i).page.state = 1 ∧ (t.stall i).march.state = .empty ∧ (t.stall i).charter.active = none)
        ∧ (∀ i, (s.stall i).page.comp.owner = none → t.stall i = s.stall i)
        ∧ t.mem = s.mem ∧ t.tiers = s.tiers ∧ t.hosts = s.hosts ∧ t.power = s.power)
    -- JTAG
    ∧ (∀ tck tms tdi : Bool,
      (Runs (.jtagTap tck tms tdi false) s fun t =>
        t.tap = { s.tap with state := .reset, tck := tck, instr := 1, tdo := none } ∧ Unchanged s t [.tap])
      ∧ (tck = true → s.tap.tck = false → ¬(s.tap.instr = 3 ∧ g.debugFull = true ∧ s.tap.state = .captureDr) →
        Runs (.jtagTap tck tms tdi true) s fun t =>
          t.tap.state = s.tap.state.next tms ∧ t.tap.tck = true ∧ t.tap.instr = s.tap.instr
          ∧ (s.tap.state = .shiftDr → s.tap.shift ≠ [] → t.tap.shift = s.tap.shift.drop 1 ++ [tdi])
          ∧ (s.tap.state = .captureDr → s.tap.instr = 0 ∨ s.tap.instr = 3 → t.tap.shift = [false])
          ∧ Unchanged s t [.tap, .free])
      ∧ (tck = false → s.tap.tck = true → Runs (.jtagTap tck tms tdi true) s fun t =>
          t.tap.state = s.tap.state ∧ t.tap.tck = false ∧ (t.tap.tdo.isSome = true ↔ s.tap.state = .shiftDr ∨ s.tap.state = .shiftIr)
          ∧ (s.tap.state = .updateIr → (∀ b ∈ s.tap.irShift, b = true) → t.tap.instr = 0)
          ∧ (s.tap.state ≠ .updateIr → s.tap.state ≠ .reset → t.tap.instr = s.tap.instr) ∧ Unchanged s t [.tap])
      ∧ (tck = s.tap.tck → exec (.jtagTap tck tms tdi true) s = .next s)
      ∧ (tck = true → s.tap.tck = false → s.tap.instr = 3 → g.debugFull = true → s.tap.state = .captureDr →
        exec (.jtagTap tck tms tdi true) s = .refused .debugRegisters))
    -- SMBus
    ∧ (s.power.aux = false → ∀ q, exec (.smbusMctp q) s = .next s)
    ∧ (s.power.aux = true →
      (∀ o, Runs (.smbusMctp (.readPower o)) s fun t =>
        t.out = s.out ++ [.mctp (regValue s .waystation (regOf (0xB00000 + o.setWidth 26)))] ∧ Unchanged s t [.out])
      ∧ (∀ o, Runs (.smbusMctp (.readIdent o)) s fun t =>
        t.out = s.out ++ [.mctp (identValue s o.toNat)] ∧ Unchanged s t [.out])
      ∧ (∀ i v, exec (.smbusMctp (.voteWrite i v)) s = exec (.pwrVoteWrite .waystation i v) s)
      ∧ Runs (.smbusMctp .control) s fun t => (∃ w, t.out = s.out ++ [.mctp w]) ∧ Unchanged s t [.out, .free])
end

