-- ==== Sys2Proof/Laws/Memory.lean ====
section
/-! SUPPORT. The laws of the memory: a write keeps the canonical form, is read back at its own address and is not seen at
any other; equal memories are equal lists. -/

namespace Sys2Proof.Machine

/-- A canonical list whose first address is above `a` does not list `a`. -/
theorem memGet_below (a : Nat) (l : List Host.Cell) (h : memWf l = true)
    (hb : ∀ c ∈ l.head?, a < c.1) : memGet a l = 0 := by
  induction l with
  | nil => rfl
  | cons c l ih =>
    obtain ⟨b, v⟩ := c
    have hab : a < b := hb (b, v) rfl
    have hne : a ≠ b := by omega
    cases l with
    | nil => simp [memGet, hne]
    | cons d m =>
      obtain ⟨e, w⟩ := d
      simp only [memWf, Bool.and_eq_true, decide_eq_true_eq] at h
      have := ih h.2 (by intro c hc; simp only [List.head?_cons, Option.mem_def, Option.some.injEq] at hc; subst hc; simp; omega)
      simpa [memGet, hne] using this

/-- What is left of a canonical list behind its first cell is canonical. -/
theorem memWf_tail (c : Host.Cell) (l : List Host.Cell) (h : memWf (c :: l) = true) : memWf l = true := by
  cases l with
  | nil => rfl
  | cons d m => simp only [memWf, Bool.and_eq_true] at h; exact h.2

/-- A cell of a value not zero stands in front of a canonical list of higher addresses. -/
theorem memWf_cons (a : Nat) (v : Byte) (l : List Host.Cell) (hv : v ≠ 0#8) (h : memWf l = true)
    (hb : ∀ c ∈ l.head?, a < c.1) : memWf ((a, v) :: l) = true := by
  cases l with
  | nil => simp [memWf, hv]
  | cons d m =>
    obtain ⟨b, w⟩ := d
    have : a < b := hb (b, w) rfl
    simp [memWf, hv, this, h]

/-- The first address after a write is the written one or the old first one. -/
theorem memPut_head (a : Nat) (v : Byte) (l : List Host.Cell) (b : Nat) (hab : b < a) (h : ∀ c ∈ l.head?, b < c.1)
    (hw : memWf l = true) : ∀ c ∈ (memPut a v l).head?, b < c.1 := by
  intro c hc
  cases l with
  | nil =>
    by_cases hv : v = 0#8
    · simp [memPut, hv] at hc
    · simp [memPut, hv] at hc; subst hc; exact hab
  | cons d m =>
    obtain ⟨e, w⟩ := d
    have hbe : b < e := h (e, w) rfl
    by_cases h1 : a < e
    · by_cases hv : v = 0#8
      · simp [memPut, h1, hv] at hc; subst hc; exact hbe
      · simp [memPut, h1, hv] at hc; subst hc; exact hab
    · by_cases h2 : a = e
      · subst h2
        by_cases hv : v = 0#8
        · simp [memPut, hv] at hc
          cases m with
          | nil => simp at hc
          | cons f m =>
            obtain ⟨g, x⟩ := f
            simp only [memWf, Bool.and_eq_true, decide_eq_true_eq] at hw
            simp at hc; subst hc; simp; omega
        · simp [memPut, hv] at hc; subst hc; exact hbe
      · simp [memPut, h1, h2] at hc; subst hc; exact hbe

/-- Every address behind the first of a canonical list is above it. -/
theorem memWf_above (a : Nat) (v : Byte) (l : List Host.Cell) (h : memWf ((a, v) :: l) = true) : ∀ c ∈ l, a < c.1 := by
  induction l generalizing a v with
  | nil => simp
  | cons d m ih =>
    obtain ⟨e, w⟩ := d
    simp only [memWf, Bool.and_eq_true, decide_eq_true_eq] at h
    intro c hc
    rcases List.mem_cons.1 hc with rfl | hc
    · exact h.1.2
    · exact Nat.lt_trans h.1.2 (ih e w h.2 c hc)

/-- Leaving cells out keeps the canonical form. -/
theorem memWf_filter (p : Host.Cell → Bool) (l : List Host.Cell) (h : memWf l = true) : memWf (l.filter p) = true := by
  induction l with
  | nil => rfl
  | cons c l ih =>
    obtain ⟨a, v⟩ := c
    have ht := ih (memWf_tail _ _ h)
    by_cases hp : p (a, v)
    · rw [List.filter_cons_of_pos hp]
      have hv : v ≠ 0#8 := by
        cases l with
        | nil => simpa [memWf] using h
        | cons d m => obtain ⟨e, w⟩ := d; simp only [memWf, Bool.and_eq_true] at h; simpa using h.1.1
      refine memWf_cons a v _ hv ht fun c hc => memWf_above a v l h c ?_
      exact List.mem_of_mem_filter (List.mem_of_mem_head? hc)
    · rw [List.filter_cons_of_neg hp]; exact ht

/-- A write keeps the canonical form. -/
@[simp] theorem memPut_wf (a : Nat) (v : Byte) (l : List Host.Cell) (h : memWf l = true) : memWf (memPut a v l) = true := by
  induction l with
  | nil => by_cases hv : v = 0#8 <;> simp [memPut, hv, memWf]
  | cons c l ih =>
    obtain ⟨b, w⟩ := c
    have ht := memWf_tail _ _ h
    by_cases h1 : a < b
    · by_cases hv : v = 0#8
      · simpa [memPut, h1, hv] using h
      · have hv' : ¬v = 0 := hv
        simp only [memPut, h1, hv', if_true, if_false]
        exact memWf_cons _ _ _ hv h (by intro c hc; simp at hc; subst hc; exact h1)
    · by_cases h2 : a = b
      · subst h2
        by_cases hv : v = 0#8
        · simpa [memPut, hv] using ht
        · have hv' : ¬v = 0 := hv
          simp only [memPut, hv', lt_irrefl, if_true, if_false]
          refine memWf_cons _ _ _ hv ht ?_
          intro c hc
          cases l with
          | nil => simp at hc
          | cons d m =>
            obtain ⟨e, x⟩ := d
            simp only [memWf, Bool.and_eq_true, decide_eq_true_eq] at h
            simp at hc; subst hc; exact h.1.2
      · simp only [memPut, h1, h2, if_false]
        have hw : w ≠ 0#8 := by
          cases l with
          | nil => simpa [memWf] using h
          | cons d m => obtain ⟨e, x⟩ := d; simp only [memWf, Bool.and_eq_true] at h; simpa using h.1.1
        refine memWf_cons _ _ _ hw (ih ht) (memPut_head a v l b (by omega) ?_ ht)
        intro c hc
        cases l with
        | nil => simp at hc
        | cons d m =>
          obtain ⟨e, x⟩ := d
          simp only [memWf, Bool.and_eq_true, decide_eq_true_eq] at h
          simp at hc; subst hc; exact h.1.2

/-- A written byte is read back. -/
@[simp] theorem memGet_memPut_self (a : Nat) (v : Byte) (l : List Host.Cell) (h : memWf l = true) :
    memGet a (memPut a v l) = v := by
  induction l with
  | nil => by_cases hv : v = 0#8 <;> simp [memPut, hv, memGet]
  | cons c l ih =>
    obtain ⟨b, w⟩ := c
    have ht := memWf_tail _ _ h
    by_cases h1 : a < b
    · have hne : a ≠ b := by omega
      by_cases hv : v = 0#8
      · subst hv
        simp only [memPut, h1, if_true]
        exact memGet_below a _ h (by intro c hc; simp at hc; subst hc; exact h1)
      · simp [memPut, h1, hv, memGet]
    · by_cases h2 : a = b
      · subst h2
        by_cases hv : v = 0#8
        · subst hv
          simp only [memPut, lt_irrefl, if_false, if_true]
          refine memGet_below a _ ht ?_
          intro c hc
          cases l with
          | nil => simp at hc
          | cons d m =>
            obtain ⟨e, x⟩ := d
            simp only [memWf, Bool.and_eq_true, decide_eq_true_eq] at h
            simp at hc; subst hc; exact h.1.2
        · simp [memPut, hv, memGet]
      · simpa [memPut, h1, h2, memGet] using ih ht

/-- A write is not seen at another address. -/
theorem memGet_memPut_other (a b : Nat) (v : Byte) (l : List Host.Cell) (h : memWf l = true) (hab : b ≠ a) :
    memGet b (memPut a v l) = memGet b l := by
  induction l with
  | nil => by_cases hv : v = 0#8 <;> simp [memPut, hv, memGet, hab]
  | cons c l ih =>
    obtain ⟨e, w⟩ := c
    have ht := memWf_tail _ _ h
    by_cases h1 : a < e
    · by_cases hv : v = 0#8
      · simp [memPut, h1, hv]
      · simp [memPut, h1, hv, memGet, hab]
    · by_cases h2 : a = e
      · subst h2
        by_cases hv : v = 0#8
        · simp [memPut, hv, memGet, hab]
        · simp [memPut, hv, memGet, hab]
      · have := ih ht
        by_cases hbe : b = e
        · simp [memPut, h1, h2, memGet, hbe]
        · simp [memPut, h1, h2, memGet, hbe, this]

/-- Canonical memories that read alike at every address are equal. -/
theorem memory_ext (l m : List Host.Cell) (hl : memWf l = true) (hm : memWf m = true)
    (h : ∀ a, memGet a l = memGet a m) : l = m := by
  have nz : ∀ (c : Host.Cell) (k : List Host.Cell), memWf (c :: k) = true → c.2 ≠ 0#8 := by
    intro c k hk
    obtain ⟨e, x⟩ := c
    cases k with
    | nil => simpa [memWf] using hk
    | cons d n => obtain ⟨f, y⟩ := d; simp only [memWf, Bool.and_eq_true] at hk; simpa using hk.1.1
  have above : ∀ (c : Host.Cell) (k : List Host.Cell), memWf (c :: k) = true → ∀ d ∈ k.head?, c.1 < d.1 := by
    intro c k hk d hd
    obtain ⟨e, x⟩ := c
    cases k with
    | nil => simp at hd
    | cons d n =>
      obtain ⟨f, y⟩ := d
      simp only [memWf, Bool.and_eq_true, decide_eq_true_eq] at hk
      simp at hd; subst hd; exact hk.1.2
  induction l generalizing m with
  | nil =>
    cases m with
    | nil => rfl
    | cons c m =>
      have := h c.1
      simp [memGet] at this
      exact absurd this.symm (nz c m hm)
  | cons c l ih =>
    obtain ⟨a, v⟩ := c
    cases m with
    | nil => have := h a; simp [memGet] at this; exact absurd this (nz _ _ hl)
    | cons d m =>
      obtain ⟨b, w⟩ := d
      have hv := nz _ _ hl
      have hw := nz _ _ hm
      have hab : a = b := by
        rcases Nat.lt_trichotomy a b with hlt | heq | hgt
        · have h1 := h a
          have : memGet a ((b, w) :: m) = 0 :=
            memGet_below a _ hm (by intro c hc; simp at hc; subst hc; exact hlt)
          rw [this] at h1
          simp [memGet] at h1
          exact absurd h1 hv
        · exact heq
        · have h1 := h b
          have : memGet b ((a, v) :: l) = 0 :=
            memGet_below b _ hl (by intro c hc; simp at hc; subst hc; exact hgt)
          rw [this] at h1
          simp [memGet] at h1
          exact absurd h1.symm hw
      subst hab
      have hvw : v = w := by have := h a; simpa [memGet] using this
      subst hvw
      have key : ∀ e, memGet e l = memGet e m := by
        intro e
        by_cases he : e = a
        · subst he
          rw [memGet_below e l (memWf_tail _ _ hl) (above _ _ hl), memGet_below e m (memWf_tail _ _ hm) (above _ _ hm)]
        · have := h e
          simpa [memGet, he] using this
      rw [ih m (memWf_tail _ _ hl) (memWf_tail _ _ hm) key]

end Sys2Proof.Machine
end

