-- ==== Sys2Proof/Laws/Cells.lean ====
section
/-! SUPPORT. The laws of places: a byte written to a plain place is read back, and no place apart from it reads otherwise,
whatever units have failed (R281 to R294). -/

namespace Sys2Proof.Machine

open Sys2Proof.Safety

/-! ### Keys -/

/-- A key of the memory names one byte of one unit. -/
theorem unitKey_inj (u v : MemUnit) (a b : Nat) : unitKey u a = unitKey v b ↔ u = v ∧ a = b := by
  cases u with
  | near p =>
    have := p.isLt
    cases v with
    | near q =>
      have := q.isLt
      simp only [unitKey, MemUnit.near.injEq, Fin.ext_iff]; omega
    | serai c =>
      have := c.isLt
      simp only [unitKey, reduceCtorEq, false_and, iff_false]; omega
  | serai p =>
    have := p.isLt
    cases v with
    | near q =>
      have := q.isLt
      simp only [unitKey, reduceCtorEq, false_and, iff_false]; omega
    | serai c =>
      have := c.isLt
      simp only [unitKey, MemUnit.serai.injEq, Fin.ext_iff]; omega

/-- The parity unit of a near address. -/
theorem parityUnit_near (pc : Fin 256) (a : Nat) : ∃ q : Fin 256, parityUnit (.near pc) a = .near q
    ∧ q.val = 32 * (a / 256 % 16 / 2) + pc.val % 16 + 16 * (a / 256 % 16 % 2) := by
  refine ⟨_, rfl, ?_⟩
  simp only [Fin.ofNat]
  omega

/-- The parity unit of a Serai address. -/
theorem parityUnit_serai (ch : Fin 24) (a : Nat) : ∃ q : Fin 24, parityUnit (.serai ch) a = .serai q
    ∧ q.val = a % 2 ^ 26 / 256 % 24 := by
  refine ⟨_, rfl, ?_⟩
  simp only [Fin.ofNat]
  omega

/-! ### Groups -/

/-- Is a unit of another's group? -/
theorem mem_groupUnits (u v : MemUnit) : v ∈ groupUnits u ↔
    match u, v with
    | .near p, .near q => q.val % 16 = p.val % 16
    | .serai _, .serai _ => True
    | _, _ => False := by
  cases u <;> cases v <;> simp [groupUnits]

theorem mem_groupUnits_self (u : MemUnit) : u ∈ groupUnits u := by
  rw [mem_groupUnits]; cases u <;> trivial

theorem groupUnits_nodup (u : MemUnit) : (groupUnits u).Nodup := by
  cases u with
  | near p =>
    refine List.Nodup.map (fun a b h => by simpa using h) ?_
    exact (List.nodup_finRange 256).filter _
  | serai p => exact List.Nodup.map (fun a b h => by simpa using h) (List.nodup_finRange 24)

/-- What a group has in common: its units, its rows, its parity, its rebuild and its state. -/
theorem group_common (u v : MemUnit) (h : v ∈ groupUnits u) (t : Tiers) (a : Nat) :
    groupUnits v = groupUnits u ∧ parityUnit v a = parityUnit u a ∧ rowMoved t v a = rowMoved t u a
      ∧ rebuildOf t v = rebuildOf t u ∧ groupState t v = groupState t u := by
  rw [mem_groupUnits] at h
  cases u with
  | near p =>
    cases v with
    | near q =>
      have hq : q.val % 16 = p.val % 16 := h
      have hb : rebuildOf t (.near q) = rebuildOf t (.near p) := by simp only [rebuildOf, hq]
      have hr : rowOf (.near q) a = rowOf (.near p) a := by simp only [rowOf, hq]
      refine ⟨?_, ?_, ?_, hb, ?_⟩
      · simp only [groupUnits, hq]
      · simp only [parityUnit, hq]
      · simp only [rowMoved, hb, hr]
      · simp only [groupState, hq]
    | serai c => exact absurd h id
  | serai p =>
    cases v with
    | near q => exact absurd h id
    | serai c => exact ⟨rfl, rfl, rfl, rfl, rfl⟩

/-- The parity of a row stands in the row's group. -/
theorem parityUnit_mem (u : MemUnit) (a : Nat) : parityUnit u a ∈ groupUnits u := by
  rw [mem_groupUnits]
  cases u with
  | near p =>
    obtain ⟨q, hq, hv⟩ := parityUnit_near p a
    rw [hq]
    show q.val % 16 = p.val % 16
    omega
  | serai c =>
    obtain ⟨q, hq, -⟩ := parityUnit_serai c a
    rw [hq]
    trivial

/-! ### Cells of places -/

/-- The address of a byte in its channel names its bay. -/
theorem seraiPlace_bay (b o : Nat) (g : Bool) (ho : o < seraiBayBytes g) : (seraiPlace b o g).2.1 / 2 ^ 26 = b := by
  cases g <;> simp only [seraiPlace, seraiBayBytes, Bool.false_eq_true, if_true, if_false] at * <;> omega

/-- A cell under a parity stripe is no parity cell of its row. -/
theorem cellOf_striped (p : Place) (c : Cell) (h : cellOf p = some c) (hs : c.striped = true) :
    c.unit ≠ parityUnit c.unit c.addr := by
  cases p with
  | near b o =>
    simp only [cellOf, Option.some.injEq] at h
    subst h
    obtain ⟨q, hq, hv⟩ := parityUnit_near (Fin.ofNat 256 (nearPlace b o).1) (nearPlace b o).2.1
    simp only [hq, ne_eq, MemUnit.near.injEq, Fin.ext_iff]
    rw [hv]
    clear hv hq hs
    simp only [nearPlace, Fin.ofNat]
    generalize hd : o % 3840 / 256 = d
    generalize hi : o / 3840 = i
    have hdl : d < 15 := by omega
    have ha : (b * 2 ^ 22 + i / 16 * 256 + o % 256) / 256 % 16 = i / 16 % 16 := by omega
    rw [ha]
    clear ha hd hi
    split <;> omega
  | serai b o g =>
    simp only [cellOf, Option.some.injEq] at h
    subst h
    simp only at hs
    subst hs
    obtain ⟨q, hq, hv⟩ := parityUnit_serai (Fin.ofNat 24 (seraiPlace b (o % seraiBayBytes true) true).1)
      (seraiPlace b (o % seraiBayBytes true) true).2.1
    simp only [hq, ne_eq, MemUnit.serai.injEq, Fin.ext_iff]
    rw [hv]
    have ho : o % seraiBayBytes true < 1472 * 2 ^ 20 := Nat.mod_lt _ (by decide)
    clear hv hq
    generalize o % seraiBayBytes true = x at ho ⊢
    simp only [seraiPlace, if_true, Fin.ofNat]
    generalize hd : x % 5888 / 256 = d
    generalize hi : x / 5888 = i
    have hdl : d < 23 := by omega
    have hil : i < 262144 := by omega
    have ha : (b * 2 ^ 26 + i * 256 + x % 256) % 2 ^ 26 / 256 = i := by omega
    rw [ha]
    clear ha hd hi
    split <;> omega
  | staging c o => simp [cellOf] at h
  | host l a => simp [cellOf] at h

/-- Places apart have cells apart, and neither is the parity cell of the other's row. -/
theorem cells_apart (p q : Place) (h : Apart p q) (c d : Cell) (hc : cellOf p = some c) (hd : cellOf q = some d) :
    cellKey c ≠ cellKey d ∧ (c.addr = d.addr → d.unit ∈ groupUnits c.unit → c.striped = d.striped) := by
  obtain ⟨hk, hg⟩ := h
  refine ⟨?_, ?_⟩
  · simpa [placeKey, hc, hd] using hk
  · intro ha hu
    cases p with
    | near b o =>
      simp only [cellOf, Option.some.injEq] at hc
      cases q with
      | near b' o' => simp only [cellOf, Option.some.injEq] at hd; rw [← hc, ← hd]
      | serai b' o' g' =>
        simp only [cellOf, Option.some.injEq] at hd
        rw [← hc, ← hd, mem_groupUnits] at hu
        exact absurd hu id
      | staging x y => simp [cellOf] at hd
      | host x y => simp [cellOf] at hd
    | serai b o g =>
      simp only [cellOf, Option.some.injEq] at hc
      cases q with
      | near b' o' =>
        simp only [cellOf, Option.some.injEq] at hd
        rw [← hc, ← hd, mem_groupUnits] at hu
        exact absurd hu id
      | serai b' o' g' =>
        simp only [cellOf, Option.some.injEq] at hd
        have hb : b = b' := by
          have h1 := seraiPlace_bay b (o % seraiBayBytes g) g (Nat.mod_lt _ (by cases g <;> decide))
          have h2 := seraiPlace_bay b' (o' % seraiBayBytes g') g' (Nat.mod_lt _ (by cases g' <;> decide))
          rw [← hc, ← hd] at ha
          simp only at ha
          rw [← h1, ← h2, ha]
        subst hb
        have := hg b o g o' g' rfl rfl
        subst this
        rw [← hc, ← hd]
      | staging x y => simp [cellOf] at hd
      | host x y => simp [cellOf] at hd
    | staging x y => simp [cellOf] at hc
    | host x y => simp [cellOf] at hc

/-- The key of a place without a cell is no key of a unit. -/
theorem placeKey_bare (p : Place) (h : cellOf p = none) (u : MemUnit) (a : Nat) : placeKey p ≠ unitKey u a := by
  cases p with
  | near b o => simp [cellOf] at h
  | serai b o g => simp [cellOf] at h
  | staging c o =>
    simp only [placeKey, cellOf, stagingKey]
    cases u <;> simp only [unitKey] <;> omega
  | host l x =>
    simp only [placeKey, cellOf, hostKey]
    cases u <;> simp only [unitKey] <;> omega

/-! ### Exclusive-or over a group -/

/-- A change of one byte of a sum. -/
theorem xorBytes_change {α : Type} [DecidableEq α] (l : List α) (hl : l.Nodup) (f g : α → Byte) (x : α) (hx : x ∈ l)
    (h : ∀ y ∈ l, y ≠ x → g y = f y) : xorBytes (l.map g) = xorBytes (l.map f) ^^^ f x ^^^ g x := by
  induction l with
  | nil => simp at hx
  | cons y l ih =>
    rw [List.nodup_cons] at hl
    rcases List.mem_cons.1 hx with rfl | hx
    · have : l.map g = l.map f := List.map_congr_left fun z hz =>
        h z (List.mem_cons_of_mem _ hz) (fun e => hl.1 (e ▸ hz))
      simp only [xorBytes, List.map_cons, List.foldr_cons, this]
      generalize List.foldr _ _ _ = r
      rw [BitVec.xor_comm (f x) r, BitVec.xor_assoc r, BitVec.xor_self, BitVec.xor_zero, BitVec.xor_comm]
    · have hyx : y ≠ x := fun e => hl.1 (e ▸ hx)
      have := ih hl.2 hx (fun z hz => h z (List.mem_cons_of_mem _ hz))
      simp only [xorBytes, List.map_cons, List.foldr_cons] at this ⊢
      rw [this, h y (List.mem_cons_self ..) hyx]
      simp only [BitVec.xor_assoc]

theorem xorBytes_same {α : Type} (l : List α) (f g : α → Byte) (h : ∀ y ∈ l, g y = f y) :
    xorBytes (l.map g) = xorBytes (l.map f) := by rw [List.map_congr_left h]

/-! ### What a store does to cells -/

/-- A store keeps the canonical form. -/
@[simp] theorem storeCell_wf (m : List Host.Cell) (t : Tiers) (c : Cell) (v : Byte) (w : Bool) (h : memWf m = true) :
    memWf (storeCell m t c v w) = true := by
  unfold storeCell
  dsimp only
  split <;> (try split) <;> (try split) <;> simp [h]

/-- What a store changes: at most the cell's own byte and the byte of its row's parity unit. -/
theorem storeCell_elsewhere (m : List Host.Cell) (t : Tiers) (c : Cell) (v : Byte) (w : Bool) (h : memWf m = true) (k : Nat)
    (h1 : k ≠ cellKey c) (h2 : k ≠ unitKey (parityUnit c.unit c.addr) c.addr ∨ (parityKept t c = false ∧ inSlot t c = false)) :
    memGet k (storeCell m t c v w) = memGet k m := by
  have hm1 : memWf (if parityKept t c then memPut (unitKey (parityUnit c.unit c.addr) c.addr) (newParity m t c v w) m else m) = true := by
    split <;> simp [h]
  have e1 : memGet k (if parityKept t c then memPut (unitKey (parityUnit c.unit c.addr) c.addr) (newParity m t c v w) m else m)
      = memGet k m := by
    rcases h2 with h2 | ⟨h2, -⟩
    · split
      · exact memGet_memPut_other _ _ _ _ h h2
      · rfl
    · simp [h2]
  unfold storeCell
  dsimp only
  split
  · rw [memGet_memPut_other _ _ _ _ hm1 h1, e1]
  · split
    · rename_i hi
      rcases h2 with h2 | ⟨-, h2⟩
      · rw [memGet_memPut_other _ _ _ _ hm1 h2, e1]
      · rw [h2] at hi; cases hi
    · exact e1

/-- A cell that keeps its bytes reads back what is stored. -/
theorem cellByte_store_self (m : List Host.Cell) (t : Tiers) (c : Cell) (v : Byte) (w : Bool) (h : memWf m = true)
    (hp : c.striped = true → c.unit ≠ parityUnit c.unit c.addr) (hk : keepsByte t c = true) :
    cellByte (storeCell m t c v w) t c = v := by
  have hm1 : memWf (if parityKept t c then memPut (unitKey (parityUnit c.unit c.addr) c.addr) (newParity m t c v w) m else m) = true := by
    split <;> simp [h]
  unfold cellByte
  by_cases hs : serves t c.unit = true
  · simp only [hs, if_true, storeCell]
    exact memGet_memPut_self _ _ _ hm1
  · have hs' : serves t c.unit = false := by simpa using hs
    simp only [hs', Bool.false_eq_true, if_false]
    simp only [keepsByte, hs', Bool.false_or, Bool.or_eq_true, Bool.and_eq_true] at hk
    rcases hk with hk | ⟨hk, ho⟩
    · have hi := hk
      simp only [inSlot, Bool.and_eq_true] at hk
      obtain ⟨⟨⟨h1, h2⟩, h3⟩, h4⟩ := hk
      simp only [lostByte, h1, h2, h3, h4, Bool.not_true, Bool.false_eq_true, if_false, if_true, Bool.and_self]
      simp only [storeCell, hs', Bool.false_eq_true, if_false, hi, if_true]
      exact memGet_memPut_self _ _ _ hm1
    · have hpk := hk
      simp only [parityKept, Bool.and_eq_true, Bool.not_eq_true', bne_iff_ne, ne_eq] at hk
      obtain ⟨⟨⟨h1, h2⟩, h3⟩, h4⟩ := hk
      have hni : inSlot t c = false := by simp [inSlot, h2]
      have hall : (groupUnits c.unit).all (serves t) = false := by
        rw [List.all_eq_false]
        exact ⟨c.unit, mem_groupUnits_self _, by simp [hs']⟩
      have h3' : (groupState t c.unit == 3) = false := by simpa using h3
      simp only [lostByte, h1, h2, h3', ho, Bool.not_true, Bool.false_eq_true, if_false, Bool.or_self]
      simp only [storeCell, hpk, if_true, hs', Bool.false_eq_true, if_false, hni]
      have hmem : parityUnit c.unit c.addr ∈ (groupUnits c.unit).filter fun v => v != c.unit := by
        rw [List.mem_filter]
        exact ⟨parityUnit_mem _ _, by simpa using (hp h1).symm⟩
      unfold reconstruct
      rw [xorBytes_change _ ((groupUnits_nodup c.unit).filter _) (fun u => memGet (unitKey u c.addr) m) _ _ hmem]
      · rw [memGet_memPut_self _ _ _ h]
        have hcb : cellByte m t c = xorBytes (((groupUnits c.unit).filter fun v => v != c.unit).map fun u => memGet (unitKey u c.addr) m) := by
          simp only [cellByte, hs', Bool.false_eq_true, if_false, lostByte, h1, h2, h3', ho, Bool.not_true, Bool.or_self, reconstruct]
        simp only [newParity, hall, Bool.and_false, Bool.false_eq_true, if_false, hcb]
        generalize xorBytes _ = r
        generalize memGet _ _ = q
        rw [BitVec.xor_assoc r q, BitVec.xor_assoc q r v, ← BitVec.xor_assoc q q, BitVec.xor_self, BitVec.zero_xor,
          ← BitVec.xor_assoc, BitVec.xor_self, BitVec.zero_xor]
      · intro u hu hne
        refine memGet_memPut_other _ _ _ _ h ?_
        intro e
        exact hne ((unitKey_inj _ _ _ _).1 e).1

/-- A cell of another place reads as before. -/
theorem cellByte_store_other (m : List Host.Cell) (t : Tiers) (c d : Cell) (v : Byte) (w : Bool) (h : memWf m = true)
    (hc : c.striped = true → c.unit ≠ parityUnit c.unit c.addr) (hd : d.striped = true → d.unit ≠ parityUnit d.unit d.addr)
    (hk : cellKey c ≠ cellKey d) (hs : c.addr = d.addr → d.unit ∈ groupUnits c.unit → c.striped = d.striped) :
    cellByte (storeCell m t c v w) t d = cellByte m t d := by
  have hkey : ∀ u, c.unit = u → c.addr = d.addr → d.unit ≠ u := by
    intro u e1 e2 e3
    exact hk (by unfold cellKey; rw [e1, e2, e3])
  have hnp : c.striped = false → parityKept t c = false ∧ inSlot t c = false := by
    intro e; simp [parityKept, inSlot, e]
  -- the own byte of `d`
  have own : memGet (cellKey d) (storeCell m t c v w) = memGet (cellKey d) m := by
    refine storeCell_elsewhere m t c v w h _ (Ne.symm hk) ?_
    by_cases e : cellKey d = unitKey (parityUnit c.unit c.addr) c.addr
    · obtain ⟨e1, e2⟩ := (unitKey_inj _ _ _ _).1 e
      have hg : d.unit ∈ groupUnits c.unit := by rw [e1]; exact parityUnit_mem _ _
      by_cases hcs : c.striped = true
      · have hds : d.striped = true := by rw [← hs e2.symm hg]; exact hcs
        exfalso
        refine hd hds ?_
        rw [(group_common c.unit d.unit hg t d.addr).2.1, e2, ← e1]
      · exact .inr (hnp (by simpa using hcs))
    · exact .inl e
  unfold cellByte
  split
  · exact own
  · rename_i hns
    have hns' : serves t d.unit = false := by simpa using hns
    unfold lostByte
    dsimp only
    split
    · rfl
    · rename_i hst
      have hst' : d.striped = true := by simpa using hst
      by_cases hrow : c.addr = d.addr ∧ d.unit ∈ groupUnits c.unit
      · obtain ⟨ha, hg⟩ := hrow
        obtain ⟨g1, g2, g3, g4, g5⟩ := group_common c.unit d.unit hg t d.addr
        have hcs : c.striped = true := by rw [hs ha hg]; exact hst'
        have hne : d.unit ≠ c.unit := fun e => hkey c.unit rfl ha e
        split
        · rename_i hmv
          rw [g3] at hmv
          split
          · rename_i hm
            rw [g4, Bool.and_eq_true, beq_iff_eq] at hm
            refine storeCell_elsewhere m t c v w h _ ?_ (.inr ⟨?_, ?_⟩)
            · intro e
              obtain ⟨e1, -⟩ := (unitKey_inj _ _ _ _).1 e
              refine hc hcs ?_
              rw [ha, ← g2, e1]
            · simp [parityKept, ha, hmv]
            · simp [inSlot, hm.1, hne]
          · rfl
        · rename_i hmv
          split
          · rfl
          · rename_i hgo
            simp only [Bool.or_eq_true, not_or, Bool.not_eq_true', Bool.not_eq_false] at hgo
            obtain ⟨hgs, hos⟩ := hgo
            have serve : ∀ u ∈ groupUnits c.unit, u ≠ d.unit → serves t u = true := by
              intro u hu hu'
              unfold othersServe at hos
              rw [List.all_eq_true, g1] at hos
              exact hos u (List.mem_filter.2 ⟨hu, by simpa using hu'⟩)
            have hsc : serves t c.unit = true := serve _ (mem_groupUnits_self _) hne.symm
            have hdp : d.unit ≠ parityUnit c.unit c.addr := by rw [ha, ← g2]; exact hd hst'
            have hpk : parityKept t c = true := by
              simp only [parityKept, hcs, Bool.true_and, Bool.and_eq_true, Bool.not_eq_true', bne_iff_ne, ne_eq]
              refine ⟨⟨?_, ?_⟩, serve _ (parityUnit_mem _ _) hdp.symm⟩
              · rw [ha, ← g3]; simpa using hmv
              · rw [← g5]; simpa using hgs
            have hall : (groupUnits c.unit).all (serves t) = false := by
              rw [List.all_eq_false]
              exact ⟨d.unit, hg, by simp [hns']⟩
            -- own and parity bytes change by the same difference
            unfold reconstruct
            rw [g1]
            have hmemc : c.unit ∈ (groupUnits c.unit).filter fun x => x != d.unit :=
              List.mem_filter.2 ⟨mem_groupUnits_self _, by simpa using hne.symm⟩
            have hmemp : parityUnit c.unit c.addr ∈ (groupUnits c.unit).filter fun x => x != d.unit :=
              List.mem_filter.2 ⟨parityUnit_mem _ _, by simpa using hdp.symm⟩
            have hstore : storeCell m t c v w = memPut (cellKey c) v (memPut (unitKey (parityUnit c.unit c.addr) c.addr)
                (memGet (unitKey (parityUnit c.unit c.addr) c.addr) m ^^^ memGet (cellKey c) m ^^^ v) m) := by
              simp only [storeCell, hpk, if_true, hsc, newParity, hall, Bool.and_false, Bool.false_eq_true, if_false, cellByte]
            rw [hstore]
            generalize hP : parityUnit c.unit c.addr = P at *
            have hcP : c.unit ≠ P := hc hcs
            have hw1 := memPut_wf (unitKey P c.addr) (memGet (unitKey P c.addr) m ^^^ memGet (cellKey c) m ^^^ v) m h
            rw [xorBytes_change _ ((groupUnits_nodup c.unit).filter _)
              (fun u => memGet (unitKey u d.addr) (memPut (unitKey P c.addr)
                (memGet (unitKey P c.addr) m ^^^ memGet (cellKey c) m ^^^ v) m)) _ _ hmemc,
              xorBytes_change _ ((groupUnits_nodup c.unit).filter _) (fun u => memGet (unitKey u d.addr) m) _ _ hmemp]
            · have k1 : unitKey c.unit d.addr = cellKey c := by rw [← ha]; rfl
              have k2 : unitKey P d.addr = unitKey P c.addr := by rw [ha]
              rw [k1, k2, memGet_memPut_self _ _ _ hw1, memGet_memPut_self _ _ _ h]
              rw [memGet_memPut_other _ _ _ _ h (by
                intro e; exact hcP ((unitKey_inj _ _ _ _).1 e).1)]
              generalize xorBytes _ = r
              generalize memGet (unitKey P c.addr) m = q
              generalize memGet (cellKey c) m = x
              have cancel : q ^^^ (q ^^^ x ^^^ v) = x ^^^ v := by
                rw [BitVec.xor_assoc q x v, ← BitVec.xor_assoc q q, BitVec.xor_self, BitVec.zero_xor]
              rw [BitVec.xor_assoc r q, cancel, BitVec.xor_assoc (r ^^^ _), BitVec.xor_assoc r, BitVec.xor_self, BitVec.xor_zero]
            · intro u hu hne'
              refine memGet_memPut_other _ _ _ _ h ?_
              intro e; exact hne' ((unitKey_inj _ _ _ _).1 e).1
            · intro u hu hne'
              refine memGet_memPut_other _ _ _ _ hw1 ?_
              intro e; exact hne' ((unitKey_inj _ _ _ _).1 e).1
      · -- another row: none of the bytes read changes
        have far : ∀ u ∈ groupUnits d.unit, memGet (unitKey u d.addr) (storeCell m t c v w) = memGet (unitKey u d.addr) m := by
          intro u hu
          refine storeCell_elsewhere m t c v w h _ ?_ (.inl ?_)
          · intro e
            obtain ⟨e1, e2⟩ := (unitKey_inj _ _ _ _).1 e
            refine hrow ⟨e2.symm, ?_⟩
            rw [← e1, (group_common d.unit u hu t 0).1]
            exact mem_groupUnits_self _
          · intro e
            obtain ⟨e1, e2⟩ := (unitKey_inj _ _ _ _).1 e
            refine hrow ⟨e2.symm, ?_⟩
            have hp := parityUnit_mem c.unit c.addr
            rw [← (group_common c.unit _ hp t 0).1, ← e1, (group_common d.unit u hu t 0).1]
            exact mem_groupUnits_self _
        split
        · split
          · exact far _ (parityUnit_mem _ _)
          · rfl
        · split
          · rfl
          · exact xorBytes_same _ _ _ fun u hu => far u (List.mem_filter.1 hu).1

/-! ### What a write does to places -/

/-- A store of a byte keeps the canonical form. -/
@[simp] theorem storePlace_wf (s : State) (p : Place) (v : Byte) (w : Bool) (h : memWf s.mem = true) :
    memWf (s.storePlace p v w).mem = true := by
  unfold State.storePlace
  dsimp only
  split <;> simp [h]

/-- Read a place through its parts. -/
theorem readPlace_congr (s t : State) (q : Place) (hb : cellOf q = none → memGet (placeKey q) t.mem = memGet (placeKey q) s.mem)
    (hc : ∀ d, cellOf q = some d → cellByte t.mem t.tiers d = cellByte s.mem s.tiers d
      ∧ rawCell t.tiers d = rawCell s.tiers d ∧ ∀ u, heldAt t.tiers u (placeKey q) = heldAt s.tiers u (placeKey q)) :
    t.readPlace q = s.readPlace q := by
  unfold State.readPlace
  cases hq : cellOf q with
  | none => exact hb hq
  | some d =>
    obtain ⟨h1, h2, h3⟩ := hc d hq
    simp only [h1, h2, h3]

/-- A store at a place is not seen at a place apart from it. -/
theorem readPlace_storePlace_other (s : State) (p q : Place) (v : Byte) (w : Bool) (h : memWf s.mem = true) (hpq : Apart p q) :
    (s.storePlace p v w).readPlace q = s.readPlace q := by
  refine readPlace_congr _ _ _ ?_ ?_
  · intro hq
    unfold State.storePlace
    cases hp : cellOf p with
    | none => exact memGet_memPut_other _ _ _ _ h hpq.1.symm
    | some c =>
      exact storeCell_elsewhere _ _ _ _ _ h _ (placeKey_bare q hq _ _) (.inl (placeKey_bare q hq _ _))
  · intro d hd
    refine ⟨?_, rfl, fun _ => rfl⟩
    unfold State.storePlace
    cases hp : cellOf p with
    | none =>
      have keep : ∀ u a, memGet (unitKey u a) (memPut (placeKey p) v s.mem) = memGet (unitKey u a) s.mem := fun u a =>
        memGet_memPut_other _ _ _ _ h (placeKey_bare p hp u a).symm
      simp only [cellByte, lostByte, cellKey, reconstruct, keep]
    | some c =>
      obtain ⟨k1, k2⟩ := cells_apart p q hpq c d hp hd
      exact cellByte_store_other _ _ _ _ _ _ h (cellOf_striped p c hp) (cellOf_striped q d hd) k1 k2

/-- A write to a plain place is stored at once. -/
theorem writePlace_plain (s : State) (p : Place) (v : Byte) (w : Bool) (hp : Plain s p) :
    s.writePlace p v w = s.storePlace p v w := by
  cases hc : cellOf p with
  | none => simp [State.writePlace, plainLost, hc]
  | some c =>
    obtain ⟨hk, -, hb⟩ := hp c hc
    have hlost : plainLost s.tiers p = false := by
      simp only [plainLost, hc]
      by_cases hs : serves s.tiers c.unit = true
      · simp [hs]
      · have hs' : serves s.tiers c.unit = false := by simpa using hs
        have : c.striped = true := by
          simp only [keepsByte, hs', Bool.false_or, inSlot, parityKept, Bool.or_eq_true, Bool.and_eq_true] at hk
          rcases hk with hk | hk
          · exact hk.1.1.1
          · exact hk.1.1.1.1
        simp [this]
    unfold State.writePlace
    simp only [hlost, Bool.false_eq_true, if_false, hc, Option.bind_some]
    cases ht : takingChannel s.tiers c with
    | none => rfl
    | some ch =>
      have hch : MemUnit.serai ch = c.unit ∨ MemUnit.serai ch = parityUnit c.unit c.addr := by
        unfold takingChannel at ht
        split at ht
        · rename_i ch' e
          simp only [Option.some.injEq] at ht
          subst ht
          split at e
          · exact .inl e.symm
          · exact .inr e.symm
        · cases ht
      obtain ⟨b1, -, b3⟩ := hb ch hch
      have b1' : (s.tiers.serai[ch.val]).braceHold = false := b1
      have b3' : (s.tiers.serai[ch.val]).waiting = [] := b3
      simp [b1', b3']

/-- Places stay plain over a store. -/
theorem plain_storePlace (s : State) (p q : Place) (v : Byte) (w : Bool) (hq : Plain s q) : Plain (s.storePlace p v w) q := hq

/-- A write to a plain place is read back. -/
theorem readPlace_writePlace_self (s : State) (p : Place) (v : Byte) (w : Bool) (h : memWf s.mem = true) (hp : Plain s p) :
    (s.writePlace p v w).readPlace p = v := by
  rw [writePlace_plain s p v w hp]
  cases hc : cellOf p with
  | none =>
    simp only [State.readPlace, State.storePlace, hc]
    exact memGet_memPut_self _ _ _ h
  | some c =>
    obtain ⟨hk, hr, hb⟩ := hp c hc
    have none_held : ∀ u k, (u = c.unit ∨ u = parityUnit c.unit c.addr) → heldAt s.tiers u k = none := by
      intro u k hu
      cases u with
      | near q => rfl
      | serai ch =>
        obtain ⟨-, b2, -⟩ := hb ch hu
        simp only [heldAt]
        rw [b2]
        rfl
    have e1 : (s.storePlace p v w).tiers = s.tiers := rfl
    have e2 : (s.storePlace p v w).mem = storeCell s.mem s.tiers c v w := by simp [State.storePlace, hc]
    simp only [State.readPlace, hc, e1, e2, none_held _ _ (.inl rfl), none_held _ _ (.inr rfl), Option.or_none, hr,
      Bool.false_eq_true, if_false]
    exact cellByte_store_self _ _ _ _ _ h (cellOf_striped p c hc) hk

/-- A write appended to a buffer is seen at its own place alone. -/
theorem heldByte_append (l : List (Place × Byte)) (p : Place) (v : Byte) (k : Nat) (h : placeKey p ≠ k) :
    heldByte (l ++ [(p, v)]) k = heldByte l k := by
  simp [heldByte, h]

/-- A channel's writes on hold change no byte of memory, no unit's state and no other held byte. -/
theorem writes_held (s : State) (ch : Fin 24) (f : SeraiChannel → SeraiChannel) (q : Place) (d : Cell)
    (hs : ∀ c, (f c).state = c.state) (hh : ∀ c, heldByte (f c).buffer (placeKey q) = heldByte c.buffer (placeKey q)) :
    cellByte (s.modChannel ch f).mem (s.modChannel ch f).tiers d = cellByte s.mem s.tiers d
      ∧ rawCell (s.modChannel ch f).tiers d = rawCell s.tiers d
      ∧ ∀ u, heldAt (s.modChannel ch f).tiers u (placeKey q) = heldAt s.tiers u (placeKey q) := by
  have st : ∀ n, chState (s.modChannel ch f).tiers n = chState s.tiers n := by
    intro n
    simp only [chState, State.modChannel, Vector.getD, Vector.toArray_set]
    by_cases e : ch.val = n
    · subst e
      have hn : ch.val < s.tiers.serai.toArray.size := by simp
      simp [Array.getD, hs]
    · simp only [Array.getD, Array.size_set]
      split
      · simp [Array.getElem_set, e]
      · rfl
  have sv : ∀ u, serves (s.modChannel ch f).tiers u = serves s.tiers u := by
    intro u
    cases u with
    | near pc => rfl
    | serai c => simp only [serves, chLost, st]; rfl
  have bu : ∀ c : Fin 24, heldByte ((s.modChannel ch f).tiers.serai.get c).buffer (placeKey q)
      = heldByte (s.tiers.serai.get c).buffer (placeKey q) := by
    intro c
    by_cases e : ch.val = c.val
    · have : ch = c := Fin.ext e
      subst this
      simp [State.modChannel, Vector.get_eq_getElem, hh]
    · simp [State.modChannel, Vector.get_eq_getElem, e]
  have os : ∀ u, othersServe (s.modChannel ch f).tiers u = othersServe s.tiers u := by
    intro u; simp only [othersServe, funext sv]
  have rb : ∀ u, rebuildOf (s.modChannel ch f).tiers u = rebuildOf s.tiers u := by intro u; cases u <;> rfl
  have gs : ∀ u, groupState (s.modChannel ch f).tiers u = groupState s.tiers u := by intro u; cases u <;> rfl
  refine ⟨?_, ?_, ?_⟩
  · simp only [cellByte, lostByte, sv, rowMoved, rb, gs, os]; rfl
  · simp only [rawCell, sv, gs]; rfl
  · intro u
    cases u with
    | near pc => rfl
    | serai c => exact bu c

/-- A write to a place is not seen at a place apart from it. -/
theorem readPlace_writePlace_other (s : State) (p q : Place) (v : Byte) (w : Bool) (h : memWf s.mem = true) (hpq : Apart p q) :
    (s.writePlace p v w).readPlace q = s.readPlace q := by
  have st := readPlace_storePlace_other s p q v w h hpq
  unfold State.writePlace
  split
  · rfl
  · split
    · rename_i ch hch
      dsimp only
      split
      · refine readPlace_congr _ _ _ (fun _ => rfl) fun d hd => ?_
        refine writes_held s ch (fun c => { c with buffer := c.buffer ++ [(p, v)], held := satAdd c.held 1 }) q d
          (fun _ => rfl) (fun c => heldByte_append _ _ _ _ hpq.1)
      · split
        · refine readPlace_congr _ _ _ (fun _ => rfl) fun d hd => ?_
          exact writes_held s ch (fun c => { c with waiting := c.waiting ++ [(p, v)] }) q d (fun _ => rfl) (fun c => rfl)
        · exact st
    · exact st

end Sys2Proof.Machine
end

