-- ==== Sys2Proof/Laws/State.lean ====
section
/-! SUPPORT. What the updates of one part of the state do: each leaves every other field of `State` as it was, gives the
part it names its new value, and leaves the other parts of the same kind alone. True by `rfl` or by the laws of
`Vector.set`; no later proof unfolds a record update. -/

namespace Sys2Proof.Machine

variable (s : State)

/-! ### modStall -/

@[simp] theorem State.modStall_pending (i : Stall) (f : StallState → StallState) : (s.modStall i f).pending = s.pending := rfl
@[simp] theorem State.modStall_out (i : Stall) (f : StallState → StallState) : (s.modStall i f).out = s.out := rfl
@[simp] theorem State.modStall_free (i : Stall) (f : StallState → StallState) : (s.modStall i f).free = s.free := rfl
@[simp] theorem State.modStall_time (i : Stall) (f : StallState → StallState) : (s.modStall i f).time = s.time := rfl
@[simp] theorem State.modStall_data (i : Stall) (f : StallState → StallState) : (s.modStall i f).data = s.data := rfl
@[simp] theorem State.modStall_held (i : Stall) (f : StallState → StallState) : (s.modStall i f).held = s.held := rfl
@[simp] theorem State.modStall_caught (i : Stall) (f : StallState → StallState) : (s.modStall i f).caught = s.caught := rfl
@[simp] theorem State.modStall_mem (i : Stall) (f : StallState → StallState) : (s.modStall i f).mem = s.mem := rfl
@[simp] theorem State.modStall_anatomy (i : Stall) (f : StallState → StallState) : (s.modStall i f).anatomy = s.anatomy := rfl
@[simp] theorem State.modStall_cores (i : Stall) (f : StallState → StallState) : (s.modStall i f).cores = s.cores := rfl
@[simp] theorem State.modStall_engines (i : Stall) (f : StallState → StallState) : (s.modStall i f).engines = s.engines := rfl
@[simp] theorem State.modStall_tiers (i : Stall) (f : StallState → StallState) : (s.modStall i f).tiers = s.tiers := rfl
@[simp] theorem State.modStall_fabric (i : Stall) (f : StallState → StallState) : (s.modStall i f).fabric = s.fabric := rfl
@[simp] theorem State.modStall_hosts (i : Stall) (f : StallState → StallState) : (s.modStall i f).hosts = s.hosts := rfl
@[simp] theorem State.modStall_arbiter (i : Stall) (f : StallState → StallState) : (s.modStall i f).arbiter = s.arbiter := rfl
@[simp] theorem State.modStall_tollgate (i : Stall) (f : StallState → StallState) : (s.modStall i f).tollgate = s.tollgate := rfl
@[simp] theorem State.modStall_starts (i : Stall) (f : StallState → StallState) : (s.modStall i f).starts = s.starts := rfl
@[simp] theorem State.modStall_power (i : Stall) (f : StallState → StallState) : (s.modStall i f).power = s.power := rfl
@[simp] theorem State.modStall_pins (i : Stall) (f : StallState → StallState) : (s.modStall i f).pins = s.pins := rfl
@[simp] theorem State.modStall_tap (i : Stall) (f : StallState → StallState) : (s.modStall i f).tap = s.tap := rfl
@[simp] theorem State.modStall_log (i : Stall) (f : StallState → StallState) : (s.modStall i f).log = s.log := rfl

/-! ### modCore -/

@[simp] theorem State.modCore_pending (k : CoreId) (f : Core → Core) : (s.modCore k f).pending = s.pending := rfl
@[simp] theorem State.modCore_out (k : CoreId) (f : Core → Core) : (s.modCore k f).out = s.out := rfl
@[simp] theorem State.modCore_free (k : CoreId) (f : Core → Core) : (s.modCore k f).free = s.free := rfl
@[simp] theorem State.modCore_time (k : CoreId) (f : Core → Core) : (s.modCore k f).time = s.time := rfl
@[simp] theorem State.modCore_data (k : CoreId) (f : Core → Core) : (s.modCore k f).data = s.data := rfl
@[simp] theorem State.modCore_held (k : CoreId) (f : Core → Core) : (s.modCore k f).held = s.held := rfl
@[simp] theorem State.modCore_caught (k : CoreId) (f : Core → Core) : (s.modCore k f).caught = s.caught := rfl
@[simp] theorem State.modCore_mem (k : CoreId) (f : Core → Core) : (s.modCore k f).mem = s.mem := rfl
@[simp] theorem State.modCore_anatomy (k : CoreId) (f : Core → Core) : (s.modCore k f).anatomy = s.anatomy := rfl
@[simp] theorem State.modCore_stalls (k : CoreId) (f : Core → Core) : (s.modCore k f).stalls = s.stalls := rfl
@[simp] theorem State.modCore_engines (k : CoreId) (f : Core → Core) : (s.modCore k f).engines = s.engines := rfl
@[simp] theorem State.modCore_tiers (k : CoreId) (f : Core → Core) : (s.modCore k f).tiers = s.tiers := rfl
@[simp] theorem State.modCore_fabric (k : CoreId) (f : Core → Core) : (s.modCore k f).fabric = s.fabric := rfl
@[simp] theorem State.modCore_hosts (k : CoreId) (f : Core → Core) : (s.modCore k f).hosts = s.hosts := rfl
@[simp] theorem State.modCore_arbiter (k : CoreId) (f : Core → Core) : (s.modCore k f).arbiter = s.arbiter := rfl
@[simp] theorem State.modCore_tollgate (k : CoreId) (f : Core → Core) : (s.modCore k f).tollgate = s.tollgate := rfl
@[simp] theorem State.modCore_starts (k : CoreId) (f : Core → Core) : (s.modCore k f).starts = s.starts := rfl
@[simp] theorem State.modCore_power (k : CoreId) (f : Core → Core) : (s.modCore k f).power = s.power := rfl
@[simp] theorem State.modCore_pins (k : CoreId) (f : Core → Core) : (s.modCore k f).pins = s.pins := rfl
@[simp] theorem State.modCore_tap (k : CoreId) (f : Core → Core) : (s.modCore k f).tap = s.tap := rfl
@[simp] theorem State.modCore_log (k : CoreId) (f : Core → Core) : (s.modCore k f).log = s.log := rfl

/-! ### modEngine -/

@[simp] theorem State.modEngine_pending (e : EngineId) (f : CopyEngine → CopyEngine) : (s.modEngine e f).pending = s.pending := rfl
@[simp] theorem State.modEngine_out (e : EngineId) (f : CopyEngine → CopyEngine) : (s.modEngine e f).out = s.out := rfl
@[simp] theorem State.modEngine_free (e : EngineId) (f : CopyEngine → CopyEngine) : (s.modEngine e f).free = s.free := rfl
@[simp] theorem State.modEngine_time (e : EngineId) (f : CopyEngine → CopyEngine) : (s.modEngine e f).time = s.time := rfl
@[simp] theorem State.modEngine_data (e : EngineId) (f : CopyEngine → CopyEngine) : (s.modEngine e f).data = s.data := rfl
@[simp] theorem State.modEngine_held (e : EngineId) (f : CopyEngine → CopyEngine) : (s.modEngine e f).held = s.held := rfl
@[simp] theorem State.modEngine_caught (e : EngineId) (f : CopyEngine → CopyEngine) : (s.modEngine e f).caught = s.caught := rfl
@[simp] theorem State.modEngine_mem (e : EngineId) (f : CopyEngine → CopyEngine) : (s.modEngine e f).mem = s.mem := rfl
@[simp] theorem State.modEngine_anatomy (e : EngineId) (f : CopyEngine → CopyEngine) : (s.modEngine e f).anatomy = s.anatomy := rfl
@[simp] theorem State.modEngine_stalls (e : EngineId) (f : CopyEngine → CopyEngine) : (s.modEngine e f).stalls = s.stalls := rfl
@[simp] theorem State.modEngine_cores (e : EngineId) (f : CopyEngine → CopyEngine) : (s.modEngine e f).cores = s.cores := rfl
@[simp] theorem State.modEngine_tiers (e : EngineId) (f : CopyEngine → CopyEngine) : (s.modEngine e f).tiers = s.tiers := rfl
@[simp] theorem State.modEngine_fabric (e : EngineId) (f : CopyEngine → CopyEngine) : (s.modEngine e f).fabric = s.fabric := rfl
@[simp] theorem State.modEngine_hosts (e : EngineId) (f : CopyEngine → CopyEngine) : (s.modEngine e f).hosts = s.hosts := rfl
@[simp] theorem State.modEngine_arbiter (e : EngineId) (f : CopyEngine → CopyEngine) : (s.modEngine e f).arbiter = s.arbiter := rfl
@[simp] theorem State.modEngine_tollgate (e : EngineId) (f : CopyEngine → CopyEngine) : (s.modEngine e f).tollgate = s.tollgate := rfl
@[simp] theorem State.modEngine_starts (e : EngineId) (f : CopyEngine → CopyEngine) : (s.modEngine e f).starts = s.starts := rfl
@[simp] theorem State.modEngine_power (e : EngineId) (f : CopyEngine → CopyEngine) : (s.modEngine e f).power = s.power := rfl
@[simp] theorem State.modEngine_pins (e : EngineId) (f : CopyEngine → CopyEngine) : (s.modEngine e f).pins = s.pins := rfl
@[simp] theorem State.modEngine_tap (e : EngineId) (f : CopyEngine → CopyEngine) : (s.modEngine e f).tap = s.tap := rfl
@[simp] theorem State.modEngine_log (e : EngineId) (f : CopyEngine → CopyEngine) : (s.modEngine e f).log = s.log := rfl

/-! ### modHost -/

@[simp] theorem State.modHost_pending (l : LinkId) (f : HostLink → HostLink) : (s.modHost l f).pending = s.pending := rfl
@[simp] theorem State.modHost_out (l : LinkId) (f : HostLink → HostLink) : (s.modHost l f).out = s.out := rfl
@[simp] theorem State.modHost_free (l : LinkId) (f : HostLink → HostLink) : (s.modHost l f).free = s.free := rfl
@[simp] theorem State.modHost_time (l : LinkId) (f : HostLink → HostLink) : (s.modHost l f).time = s.time := rfl
@[simp] theorem State.modHost_data (l : LinkId) (f : HostLink → HostLink) : (s.modHost l f).data = s.data := rfl
@[simp] theorem State.modHost_held (l : LinkId) (f : HostLink → HostLink) : (s.modHost l f).held = s.held := rfl
@[simp] theorem State.modHost_caught (l : LinkId) (f : HostLink → HostLink) : (s.modHost l f).caught = s.caught := rfl
@[simp] theorem State.modHost_mem (l : LinkId) (f : HostLink → HostLink) : (s.modHost l f).mem = s.mem := rfl
@[simp] theorem State.modHost_anatomy (l : LinkId) (f : HostLink → HostLink) : (s.modHost l f).anatomy = s.anatomy := rfl
@[simp] theorem State.modHost_stalls (l : LinkId) (f : HostLink → HostLink) : (s.modHost l f).stalls = s.stalls := rfl
@[simp] theorem State.modHost_cores (l : LinkId) (f : HostLink → HostLink) : (s.modHost l f).cores = s.cores := rfl
@[simp] theorem State.modHost_engines (l : LinkId) (f : HostLink → HostLink) : (s.modHost l f).engines = s.engines := rfl
@[simp] theorem State.modHost_tiers (l : LinkId) (f : HostLink → HostLink) : (s.modHost l f).tiers = s.tiers := rfl
@[simp] theorem State.modHost_fabric (l : LinkId) (f : HostLink → HostLink) : (s.modHost l f).fabric = s.fabric := rfl
@[simp] theorem State.modHost_arbiter (l : LinkId) (f : HostLink → HostLink) : (s.modHost l f).arbiter = s.arbiter := rfl
@[simp] theorem State.modHost_tollgate (l : LinkId) (f : HostLink → HostLink) : (s.modHost l f).tollgate = s.tollgate := rfl
@[simp] theorem State.modHost_starts (l : LinkId) (f : HostLink → HostLink) : (s.modHost l f).starts = s.starts := rfl
@[simp] theorem State.modHost_power (l : LinkId) (f : HostLink → HostLink) : (s.modHost l f).power = s.power := rfl
@[simp] theorem State.modHost_pins (l : LinkId) (f : HostLink → HostLink) : (s.modHost l f).pins = s.pins := rfl
@[simp] theorem State.modHost_tap (l : LinkId) (f : HostLink → HostLink) : (s.modHost l f).tap = s.tap := rfl
@[simp] theorem State.modHost_log (l : LinkId) (f : HostLink → HostLink) : (s.modHost l f).log = s.log := rfl

/-! ### modPort -/

@[simp] theorem State.modPort_pending (p : PortId) (f : Port → Port) : (s.modPort p f).pending = s.pending := rfl
@[simp] theorem State.modPort_out (p : PortId) (f : Port → Port) : (s.modPort p f).out = s.out := rfl
@[simp] theorem State.modPort_free (p : PortId) (f : Port → Port) : (s.modPort p f).free = s.free := rfl
@[simp] theorem State.modPort_time (p : PortId) (f : Port → Port) : (s.modPort p f).time = s.time := rfl
@[simp] theorem State.modPort_data (p : PortId) (f : Port → Port) : (s.modPort p f).data = s.data := rfl
@[simp] theorem State.modPort_held (p : PortId) (f : Port → Port) : (s.modPort p f).held = s.held := rfl
@[simp] theorem State.modPort_caught (p : PortId) (f : Port → Port) : (s.modPort p f).caught = s.caught := rfl
@[simp] theorem State.modPort_mem (p : PortId) (f : Port → Port) : (s.modPort p f).mem = s.mem := rfl
@[simp] theorem State.modPort_anatomy (p : PortId) (f : Port → Port) : (s.modPort p f).anatomy = s.anatomy := rfl
@[simp] theorem State.modPort_stalls (p : PortId) (f : Port → Port) : (s.modPort p f).stalls = s.stalls := rfl
@[simp] theorem State.modPort_cores (p : PortId) (f : Port → Port) : (s.modPort p f).cores = s.cores := rfl
@[simp] theorem State.modPort_engines (p : PortId) (f : Port → Port) : (s.modPort p f).engines = s.engines := rfl
@[simp] theorem State.modPort_tiers (p : PortId) (f : Port → Port) : (s.modPort p f).tiers = s.tiers := rfl
@[simp] theorem State.modPort_hosts (p : PortId) (f : Port → Port) : (s.modPort p f).hosts = s.hosts := rfl
@[simp] theorem State.modPort_arbiter (p : PortId) (f : Port → Port) : (s.modPort p f).arbiter = s.arbiter := rfl
@[simp] theorem State.modPort_tollgate (p : PortId) (f : Port → Port) : (s.modPort p f).tollgate = s.tollgate := rfl
@[simp] theorem State.modPort_starts (p : PortId) (f : Port → Port) : (s.modPort p f).starts = s.starts := rfl
@[simp] theorem State.modPort_power (p : PortId) (f : Port → Port) : (s.modPort p f).power = s.power := rfl
@[simp] theorem State.modPort_pins (p : PortId) (f : Port → Port) : (s.modPort p f).pins = s.pins := rfl
@[simp] theorem State.modPort_tap (p : PortId) (f : Port → Port) : (s.modPort p f).tap = s.tap := rfl
@[simp] theorem State.modPort_log (p : PortId) (f : Port → Port) : (s.modPort p f).log = s.log := rfl

/-! ### modOptic -/

@[simp] theorem State.modOptic_pending (p : PortId) (f : Optics → Optics) : (s.modOptic p f).pending = s.pending := rfl
@[simp] theorem State.modOptic_out (p : PortId) (f : Optics → Optics) : (s.modOptic p f).out = s.out := rfl
@[simp] theorem State.modOptic_free (p : PortId) (f : Optics → Optics) : (s.modOptic p f).free = s.free := rfl
@[simp] theorem State.modOptic_time (p : PortId) (f : Optics → Optics) : (s.modOptic p f).time = s.time := rfl
@[simp] theorem State.modOptic_data (p : PortId) (f : Optics → Optics) : (s.modOptic p f).data = s.data := rfl
@[simp] theorem State.modOptic_held (p : PortId) (f : Optics → Optics) : (s.modOptic p f).held = s.held := rfl
@[simp] theorem State.modOptic_caught (p : PortId) (f : Optics → Optics) : (s.modOptic p f).caught = s.caught := rfl
@[simp] theorem State.modOptic_mem (p : PortId) (f : Optics → Optics) : (s.modOptic p f).mem = s.mem := rfl
@[simp] theorem State.modOptic_anatomy (p : PortId) (f : Optics → Optics) : (s.modOptic p f).anatomy = s.anatomy := rfl
@[simp] theorem State.modOptic_stalls (p : PortId) (f : Optics → Optics) : (s.modOptic p f).stalls = s.stalls := rfl
@[simp] theorem State.modOptic_cores (p : PortId) (f : Optics → Optics) : (s.modOptic p f).cores = s.cores := rfl
@[simp] theorem State.modOptic_engines (p : PortId) (f : Optics → Optics) : (s.modOptic p f).engines = s.engines := rfl
@[simp] theorem State.modOptic_tiers (p : PortId) (f : Optics → Optics) : (s.modOptic p f).tiers = s.tiers := rfl
@[simp] theorem State.modOptic_hosts (p : PortId) (f : Optics → Optics) : (s.modOptic p f).hosts = s.hosts := rfl
@[simp] theorem State.modOptic_arbiter (p : PortId) (f : Optics → Optics) : (s.modOptic p f).arbiter = s.arbiter := rfl
@[simp] theorem State.modOptic_tollgate (p : PortId) (f : Optics → Optics) : (s.modOptic p f).tollgate = s.tollgate := rfl
@[simp] theorem State.modOptic_starts (p : PortId) (f : Optics → Optics) : (s.modOptic p f).starts = s.starts := rfl
@[simp] theorem State.modOptic_power (p : PortId) (f : Optics → Optics) : (s.modOptic p f).power = s.power := rfl
@[simp] theorem State.modOptic_pins (p : PortId) (f : Optics → Optics) : (s.modOptic p f).pins = s.pins := rfl
@[simp] theorem State.modOptic_tap (p : PortId) (f : Optics → Optics) : (s.modOptic p f).tap = s.tap := rfl
@[simp] theorem State.modOptic_log (p : PortId) (f : Optics → Optics) : (s.modOptic p f).log = s.log := rfl

/-! ### modLnk -/

@[simp] theorem State.modLnk_pending (p : PortId) (f : LinkLayer → LinkLayer) : (s.modLnk p f).pending = s.pending := rfl
@[simp] theorem State.modLnk_out (p : PortId) (f : LinkLayer → LinkLayer) : (s.modLnk p f).out = s.out := rfl
@[simp] theorem State.modLnk_free (p : PortId) (f : LinkLayer → LinkLayer) : (s.modLnk p f).free = s.free := rfl
@[simp] theorem State.modLnk_time (p : PortId) (f : LinkLayer → LinkLayer) : (s.modLnk p f).time = s.time := rfl
@[simp] theorem State.modLnk_data (p : PortId) (f : LinkLayer → LinkLayer) : (s.modLnk p f).data = s.data := rfl
@[simp] theorem State.modLnk_held (p : PortId) (f : LinkLayer → LinkLayer) : (s.modLnk p f).held = s.held := rfl
@[simp] theorem State.modLnk_caught (p : PortId) (f : LinkLayer → LinkLayer) : (s.modLnk p f).caught = s.caught := rfl
@[simp] theorem State.modLnk_mem (p : PortId) (f : LinkLayer → LinkLayer) : (s.modLnk p f).mem = s.mem := rfl
@[simp] theorem State.modLnk_anatomy (p : PortId) (f : LinkLayer → LinkLayer) : (s.modLnk p f).anatomy = s.anatomy := rfl
@[simp] theorem State.modLnk_stalls (p : PortId) (f : LinkLayer → LinkLayer) : (s.modLnk p f).stalls = s.stalls := rfl
@[simp] theorem State.modLnk_cores (p : PortId) (f : LinkLayer → LinkLayer) : (s.modLnk p f).cores = s.cores := rfl
@[simp] theorem State.modLnk_engines (p : PortId) (f : LinkLayer → LinkLayer) : (s.modLnk p f).engines = s.engines := rfl
@[simp] theorem State.modLnk_tiers (p : PortId) (f : LinkLayer → LinkLayer) : (s.modLnk p f).tiers = s.tiers := rfl
@[simp] theorem State.modLnk_hosts (p : PortId) (f : LinkLayer → LinkLayer) : (s.modLnk p f).hosts = s.hosts := rfl
@[simp] theorem State.modLnk_arbiter (p : PortId) (f : LinkLayer → LinkLayer) : (s.modLnk p f).arbiter = s.arbiter := rfl
@[simp] theorem State.modLnk_tollgate (p : PortId) (f : LinkLayer → LinkLayer) : (s.modLnk p f).tollgate = s.tollgate := rfl
@[simp] theorem State.modLnk_starts (p : PortId) (f : LinkLayer → LinkLayer) : (s.modLnk p f).starts = s.starts := rfl
@[simp] theorem State.modLnk_power (p : PortId) (f : LinkLayer → LinkLayer) : (s.modLnk p f).power = s.power := rfl
@[simp] theorem State.modLnk_pins (p : PortId) (f : LinkLayer → LinkLayer) : (s.modLnk p f).pins = s.pins := rfl
@[simp] theorem State.modLnk_tap (p : PortId) (f : LinkLayer → LinkLayer) : (s.modLnk p f).tap = s.tap := rfl
@[simp] theorem State.modLnk_log (p : PortId) (f : LinkLayer → LinkLayer) : (s.modLnk p f).log = s.log := rfl

/-! ### modStack -/

@[simp] theorem State.modStack_pending (k : Fin 8) (f : NearStack → NearStack) : (s.modStack k f).pending = s.pending := rfl
@[simp] theorem State.modStack_out (k : Fin 8) (f : NearStack → NearStack) : (s.modStack k f).out = s.out := rfl
@[simp] theorem State.modStack_free (k : Fin 8) (f : NearStack → NearStack) : (s.modStack k f).free = s.free := rfl
@[simp] theorem State.modStack_time (k : Fin 8) (f : NearStack → NearStack) : (s.modStack k f).time = s.time := rfl
@[simp] theorem State.modStack_data (k : Fin 8) (f : NearStack → NearStack) : (s.modStack k f).data = s.data := rfl
@[simp] theorem State.modStack_held (k : Fin 8) (f : NearStack → NearStack) : (s.modStack k f).held = s.held := rfl
@[simp] theorem State.modStack_caught (k : Fin 8) (f : NearStack → NearStack) : (s.modStack k f).caught = s.caught := rfl
@[simp] theorem State.modStack_mem (k : Fin 8) (f : NearStack → NearStack) : (s.modStack k f).mem = s.mem := rfl
@[simp] theorem State.modStack_anatomy (k : Fin 8) (f : NearStack → NearStack) : (s.modStack k f).anatomy = s.anatomy := rfl
@[simp] theorem State.modStack_stalls (k : Fin 8) (f : NearStack → NearStack) : (s.modStack k f).stalls = s.stalls := rfl
@[simp] theorem State.modStack_cores (k : Fin 8) (f : NearStack → NearStack) : (s.modStack k f).cores = s.cores := rfl
@[simp] theorem State.modStack_engines (k : Fin 8) (f : NearStack → NearStack) : (s.modStack k f).engines = s.engines := rfl
@[simp] theorem State.modStack_fabric (k : Fin 8) (f : NearStack → NearStack) : (s.modStack k f).fabric = s.fabric := rfl
@[simp] theorem State.modStack_hosts (k : Fin 8) (f : NearStack → NearStack) : (s.modStack k f).hosts = s.hosts := rfl
@[simp] theorem State.modStack_arbiter (k : Fin 8) (f : NearStack → NearStack) : (s.modStack k f).arbiter = s.arbiter := rfl
@[simp] theorem State.modStack_tollgate (k : Fin 8) (f : NearStack → NearStack) : (s.modStack k f).tollgate = s.tollgate := rfl
@[simp] theorem State.modStack_starts (k : Fin 8) (f : NearStack → NearStack) : (s.modStack k f).starts = s.starts := rfl
@[simp] theorem State.modStack_power (k : Fin 8) (f : NearStack → NearStack) : (s.modStack k f).power = s.power := rfl
@[simp] theorem State.modStack_pins (k : Fin 8) (f : NearStack → NearStack) : (s.modStack k f).pins = s.pins := rfl
@[simp] theorem State.modStack_tap (k : Fin 8) (f : NearStack → NearStack) : (s.modStack k f).tap = s.tap := rfl
@[simp] theorem State.modStack_log (k : Fin 8) (f : NearStack → NearStack) : (s.modStack k f).log = s.log := rfl

/-! ### modChannel -/

@[simp] theorem State.modChannel_pending (k : Fin 24) (f : SeraiChannel → SeraiChannel) : (s.modChannel k f).pending = s.pending := rfl
@[simp] theorem State.modChannel_out (k : Fin 24) (f : SeraiChannel → SeraiChannel) : (s.modChannel k f).out = s.out := rfl
@[simp] theorem State.modChannel_free (k : Fin 24) (f : SeraiChannel → SeraiChannel) : (s.modChannel k f).free = s.free := rfl
@[simp] theorem State.modChannel_time (k : Fin 24) (f : SeraiChannel → SeraiChannel) : (s.modChannel k f).time = s.time := rfl
@[simp] theorem State.modChannel_data (k : Fin 24) (f : SeraiChannel → SeraiChannel) : (s.modChannel k f).data = s.data := rfl
@[simp] theorem State.modChannel_held (k : Fin 24) (f : SeraiChannel → SeraiChannel) : (s.modChannel k f).held = s.held := rfl
@[simp] theorem State.modChannel_caught (k : Fin 24) (f : SeraiChannel → SeraiChannel) : (s.modChannel k f).caught = s.caught := rfl
@[simp] theorem State.modChannel_mem (k : Fin 24) (f : SeraiChannel → SeraiChannel) : (s.modChannel k f).mem = s.mem := rfl
@[simp] theorem State.modChannel_anatomy (k : Fin 24) (f : SeraiChannel → SeraiChannel) : (s.modChannel k f).anatomy = s.anatomy := rfl
@[simp] theorem State.modChannel_stalls (k : Fin 24) (f : SeraiChannel → SeraiChannel) : (s.modChannel k f).stalls = s.stalls := rfl
@[simp] theorem State.modChannel_cores (k : Fin 24) (f : SeraiChannel → SeraiChannel) : (s.modChannel k f).cores = s.cores := rfl
@[simp] theorem State.modChannel_engines (k : Fin 24) (f : SeraiChannel → SeraiChannel) : (s.modChannel k f).engines = s.engines := rfl
@[simp] theorem State.modChannel_fabric (k : Fin 24) (f : SeraiChannel → SeraiChannel) : (s.modChannel k f).fabric = s.fabric := rfl
@[simp] theorem State.modChannel_hosts (k : Fin 24) (f : SeraiChannel → SeraiChannel) : (s.modChannel k f).hosts = s.hosts := rfl
@[simp] theorem State.modChannel_arbiter (k : Fin 24) (f : SeraiChannel → SeraiChannel) : (s.modChannel k f).arbiter = s.arbiter := rfl
@[simp] theorem State.modChannel_tollgate (k : Fin 24) (f : SeraiChannel → SeraiChannel) : (s.modChannel k f).tollgate = s.tollgate := rfl
@[simp] theorem State.modChannel_starts (k : Fin 24) (f : SeraiChannel → SeraiChannel) : (s.modChannel k f).starts = s.starts := rfl
@[simp] theorem State.modChannel_power (k : Fin 24) (f : SeraiChannel → SeraiChannel) : (s.modChannel k f).power = s.power := rfl
@[simp] theorem State.modChannel_pins (k : Fin 24) (f : SeraiChannel → SeraiChannel) : (s.modChannel k f).pins = s.pins := rfl
@[simp] theorem State.modChannel_tap (k : Fin 24) (f : SeraiChannel → SeraiChannel) : (s.modChannel k f).tap = s.tap := rfl
@[simp] theorem State.modChannel_log (k : Fin 24) (f : SeraiChannel → SeraiChannel) : (s.modChannel k f).log = s.log := rfl

/-! ### send -/

@[simp] theorem State.send_pending (o : Out) : (s.send o).pending = s.pending := rfl
@[simp] theorem State.send_free (o : Out) : (s.send o).free = s.free := rfl
@[simp] theorem State.send_time (o : Out) : (s.send o).time = s.time := rfl
@[simp] theorem State.send_data (o : Out) : (s.send o).data = s.data := rfl
@[simp] theorem State.send_held (o : Out) : (s.send o).held = s.held := rfl
@[simp] theorem State.send_caught (o : Out) : (s.send o).caught = s.caught := rfl
@[simp] theorem State.send_mem (o : Out) : (s.send o).mem = s.mem := rfl
@[simp] theorem State.send_anatomy (o : Out) : (s.send o).anatomy = s.anatomy := rfl
@[simp] theorem State.send_stalls (o : Out) : (s.send o).stalls = s.stalls := rfl
@[simp] theorem State.send_cores (o : Out) : (s.send o).cores = s.cores := rfl
@[simp] theorem State.send_engines (o : Out) : (s.send o).engines = s.engines := rfl
@[simp] theorem State.send_tiers (o : Out) : (s.send o).tiers = s.tiers := rfl
@[simp] theorem State.send_fabric (o : Out) : (s.send o).fabric = s.fabric := rfl
@[simp] theorem State.send_hosts (o : Out) : (s.send o).hosts = s.hosts := rfl
@[simp] theorem State.send_arbiter (o : Out) : (s.send o).arbiter = s.arbiter := rfl
@[simp] theorem State.send_tollgate (o : Out) : (s.send o).tollgate = s.tollgate := rfl
@[simp] theorem State.send_starts (o : Out) : (s.send o).starts = s.starts := rfl
@[simp] theorem State.send_power (o : Out) : (s.send o).power = s.power := rfl
@[simp] theorem State.send_pins (o : Out) : (s.send o).pins = s.pins := rfl
@[simp] theorem State.send_tap (o : Out) : (s.send o).tap = s.tap := rfl
@[simp] theorem State.send_log (o : Out) : (s.send o).log = s.log := rfl

/-! ### atTime -/

@[simp] theorem State.atTime_pending (b : BitVec 64) : (s.atTime b).pending = s.pending := rfl
@[simp] theorem State.atTime_out (b : BitVec 64) : (s.atTime b).out = s.out := rfl
@[simp] theorem State.atTime_free (b : BitVec 64) : (s.atTime b).free = s.free := rfl
@[simp] theorem State.atTime_data (b : BitVec 64) : (s.atTime b).data = s.data := rfl
@[simp] theorem State.atTime_held (b : BitVec 64) : (s.atTime b).held = s.held := rfl
@[simp] theorem State.atTime_caught (b : BitVec 64) : (s.atTime b).caught = s.caught := rfl
@[simp] theorem State.atTime_mem (b : BitVec 64) : (s.atTime b).mem = s.mem := rfl
@[simp] theorem State.atTime_anatomy (b : BitVec 64) : (s.atTime b).anatomy = s.anatomy := rfl
@[simp] theorem State.atTime_stalls (b : BitVec 64) : (s.atTime b).stalls = s.stalls := rfl
@[simp] theorem State.atTime_cores (b : BitVec 64) : (s.atTime b).cores = s.cores := rfl
@[simp] theorem State.atTime_engines (b : BitVec 64) : (s.atTime b).engines = s.engines := rfl
@[simp] theorem State.atTime_tiers (b : BitVec 64) : (s.atTime b).tiers = s.tiers := rfl
@[simp] theorem State.atTime_fabric (b : BitVec 64) : (s.atTime b).fabric = s.fabric := rfl
@[simp] theorem State.atTime_hosts (b : BitVec 64) : (s.atTime b).hosts = s.hosts := rfl
@[simp] theorem State.atTime_arbiter (b : BitVec 64) : (s.atTime b).arbiter = s.arbiter := rfl
@[simp] theorem State.atTime_tollgate (b : BitVec 64) : (s.atTime b).tollgate = s.tollgate := rfl
@[simp] theorem State.atTime_starts (b : BitVec 64) : (s.atTime b).starts = s.starts := rfl
@[simp] theorem State.atTime_power (b : BitVec 64) : (s.atTime b).power = s.power := rfl
@[simp] theorem State.atTime_pins (b : BitVec 64) : (s.atTime b).pins = s.pins := rfl
@[simp] theorem State.atTime_tap (b : BitVec 64) : (s.atTime b).tap = s.tap := rfl
@[simp] theorem State.atTime_log (b : BitVec 64) : (s.atTime b).log = s.log := rfl

/-! ### Parts of `fabric` and `tiers` -/

@[simp] theorem State.modPort_optics (p : PortId) (f : Port → Port) : (s.modPort p f).fabric.optics = s.fabric.optics := rfl
@[simp] theorem State.modPort_links (p : PortId) (f : Port → Port) : (s.modPort p f).fabric.links = s.fabric.links := rfl
@[simp] theorem State.modPort_relay (p : PortId) (f : Port → Port) : (s.modPort p f).fabric.relay = s.fabric.relay := rfl
@[simp] theorem State.modOptic_ports (p : PortId) (f : Optics → Optics) : (s.modOptic p f).fabric.ports = s.fabric.ports := rfl
@[simp] theorem State.modOptic_links (p : PortId) (f : Optics → Optics) : (s.modOptic p f).fabric.links = s.fabric.links := rfl
@[simp] theorem State.modOptic_relay (p : PortId) (f : Optics → Optics) : (s.modOptic p f).fabric.relay = s.fabric.relay := rfl
@[simp] theorem State.modLnk_ports (p : PortId) (f : LinkLayer → LinkLayer) : (s.modLnk p f).fabric.ports = s.fabric.ports := rfl
@[simp] theorem State.modLnk_optics (p : PortId) (f : LinkLayer → LinkLayer) : (s.modLnk p f).fabric.optics = s.fabric.optics := rfl
@[simp] theorem State.modLnk_relay (p : PortId) (f : LinkLayer → LinkLayer) : (s.modLnk p f).fabric.relay = s.fabric.relay := rfl
@[simp] theorem State.modStack_serai (k : Fin 8) (f : NearStack → NearStack) : (s.modStack k f).tiers.serai = s.tiers.serai := rfl
@[simp] theorem State.modChannel_near (k : Fin 24) (f : SeraiChannel → SeraiChannel) : (s.modChannel k f).tiers.near = s.tiers.near := rfl

/-! ### Reading the part that was updated, and another of its kind -/

@[simp] theorem State.modStall_stall_self (i : Stall) (f : StallState → StallState) : (s.modStall i f).stall i = f (s.stall i) := by
  simp [State.modStall, State.stall]
theorem State.modStall_stall_other (i j : Stall) (f : StallState → StallState) (h : j ≠ i) : (s.modStall i f).stall j = s.stall j := by
  have : i.val ≠ j.val := fun e => h (Fin.ext e.symm)
  simp [State.modStall, State.stall, Vector.getElem_set_ne, this]
@[simp] theorem State.modCore_core_self (i : CoreId) (f : Core → Core) : (s.modCore i f).core i = f (s.core i) := by
  simp [State.modCore, State.core]
theorem State.modCore_core_other (i j : CoreId) (f : Core → Core) (h : j ≠ i) : (s.modCore i f).core j = s.core j := by
  have : i.val ≠ j.val := fun e => h (Fin.ext e.symm)
  simp [State.modCore, State.core, Vector.getElem_set_ne, this]
@[simp] theorem State.modEngine_engine_self (i : EngineId) (f : CopyEngine → CopyEngine) : (s.modEngine i f).engine i = f (s.engine i) := by
  simp [State.modEngine, State.engine]
theorem State.modEngine_engine_other (i j : EngineId) (f : CopyEngine → CopyEngine) (h : j ≠ i) : (s.modEngine i f).engine j = s.engine j := by
  have : i.val ≠ j.val := fun e => h (Fin.ext e.symm)
  simp [State.modEngine, State.engine, Vector.getElem_set_ne, this]
@[simp] theorem State.modHost_host_self (i : LinkId) (f : HostLink → HostLink) : (s.modHost i f).host i = f (s.host i) := by
  simp [State.modHost, State.host]
theorem State.modHost_host_other (i j : LinkId) (f : HostLink → HostLink) (h : j ≠ i) : (s.modHost i f).host j = s.host j := by
  have : i.val ≠ j.val := fun e => h (Fin.ext e.symm)
  simp [State.modHost, State.host, Vector.getElem_set_ne, this]
@[simp] theorem State.modPort_port_self (i : PortId) (f : Port → Port) : (s.modPort i f).port i = f (s.port i) := by
  simp [State.modPort, State.port]
theorem State.modPort_port_other (i j : PortId) (f : Port → Port) (h : j ≠ i) : (s.modPort i f).port j = s.port j := by
  have : i.val ≠ j.val := fun e => h (Fin.ext e.symm)
  simp [State.modPort, State.port, Vector.getElem_set_ne, this]
@[simp] theorem State.modOptic_optic_self (i : PortId) (f : Optics → Optics) : (s.modOptic i f).optic i = f (s.optic i) := by
  simp [State.modOptic, State.optic]
theorem State.modOptic_optic_other (i j : PortId) (f : Optics → Optics) (h : j ≠ i) : (s.modOptic i f).optic j = s.optic j := by
  have : i.val ≠ j.val := fun e => h (Fin.ext e.symm)
  simp [State.modOptic, State.optic, Vector.getElem_set_ne, this]
@[simp] theorem State.modLnk_lnk_self (i : PortId) (f : LinkLayer → LinkLayer) : (s.modLnk i f).lnk i = f (s.lnk i) := by
  simp [State.modLnk, State.lnk]
theorem State.modLnk_lnk_other (i j : PortId) (f : LinkLayer → LinkLayer) (h : j ≠ i) : (s.modLnk i f).lnk j = s.lnk j := by
  have : i.val ≠ j.val := fun e => h (Fin.ext e.symm)
  simp [State.modLnk, State.lnk, Vector.getElem_set_ne, this]

/-! ### Whole parts are read through their accessor -/

@[simp] theorem State.modStall_core (i : Stall) (f : StallState → StallState) (j : CoreId) : (s.modStall i f).core j = s.core j := rfl
@[simp] theorem State.modStall_engine (i : Stall) (f : StallState → StallState) (j : EngineId) : (s.modStall i f).engine j = s.engine j := rfl
@[simp] theorem State.modStall_host (i : Stall) (f : StallState → StallState) (j : LinkId) : (s.modStall i f).host j = s.host j := rfl
@[simp] theorem State.modStall_port (i : Stall) (f : StallState → StallState) (j : PortId) : (s.modStall i f).port j = s.port j := rfl
@[simp] theorem State.modStall_optic (i : Stall) (f : StallState → StallState) (j : PortId) : (s.modStall i f).optic j = s.optic j := rfl
@[simp] theorem State.modStall_lnk (i : Stall) (f : StallState → StallState) (j : PortId) : (s.modStall i f).lnk j = s.lnk j := rfl
@[simp] theorem State.modCore_stall (k : CoreId) (f : Core → Core) (j : Stall) : (s.modCore k f).stall j = s.stall j := rfl
@[simp] theorem State.modCore_engine (k : CoreId) (f : Core → Core) (j : EngineId) : (s.modCore k f).engine j = s.engine j := rfl
@[simp] theorem State.modCore_host (k : CoreId) (f : Core → Core) (j : LinkId) : (s.modCore k f).host j = s.host j := rfl
@[simp] theorem State.modCore_port (k : CoreId) (f : Core → Core) (j : PortId) : (s.modCore k f).port j = s.port j := rfl
@[simp] theorem State.modCore_optic (k : CoreId) (f : Core → Core) (j : PortId) : (s.modCore k f).optic j = s.optic j := rfl
@[simp] theorem State.modCore_lnk (k : CoreId) (f : Core → Core) (j : PortId) : (s.modCore k f).lnk j = s.lnk j := rfl
@[simp] theorem State.modEngine_stall (e : EngineId) (f : CopyEngine → CopyEngine) (j : Stall) : (s.modEngine e f).stall j = s.stall j := rfl
@[simp] theorem State.modEngine_core (e : EngineId) (f : CopyEngine → CopyEngine) (j : CoreId) : (s.modEngine e f).core j = s.core j := rfl
@[simp] theorem State.modEngine_host (e : EngineId) (f : CopyEngine → CopyEngine) (j : LinkId) : (s.modEngine e f).host j = s.host j := rfl
@[simp] theorem State.modEngine_port (e : EngineId) (f : CopyEngine → CopyEngine) (j : PortId) : (s.modEngine e f).port j = s.port j := rfl
@[simp] theorem State.modEngine_optic (e : EngineId) (f : CopyEngine → CopyEngine) (j : PortId) : (s.modEngine e f).optic j = s.optic j := rfl
@[simp] theorem State.modEngine_lnk (e : EngineId) (f : CopyEngine → CopyEngine) (j : PortId) : (s.modEngine e f).lnk j = s.lnk j := rfl
@[simp] theorem State.modHost_stall (l : LinkId) (f : HostLink → HostLink) (j : Stall) : (s.modHost l f).stall j = s.stall j := rfl
@[simp] theorem State.modHost_core (l : LinkId) (f : HostLink → HostLink) (j : CoreId) : (s.modHost l f).core j = s.core j := rfl
@[simp] theorem State.modHost_engine (l : LinkId) (f : HostLink → HostLink) (j : EngineId) : (s.modHost l f).engine j = s.engine j := rfl
@[simp] theorem State.modHost_port (l : LinkId) (f : HostLink → HostLink) (j : PortId) : (s.modHost l f).port j = s.port j := rfl
@[simp] theorem State.modHost_optic (l : LinkId) (f : HostLink → HostLink) (j : PortId) : (s.modHost l f).optic j = s.optic j := rfl
@[simp] theorem State.modHost_lnk (l : LinkId) (f : HostLink → HostLink) (j : PortId) : (s.modHost l f).lnk j = s.lnk j := rfl
@[simp] theorem State.modPort_stall (p : PortId) (f : Port → Port) (j : Stall) : (s.modPort p f).stall j = s.stall j := rfl
@[simp] theorem State.modPort_core (p : PortId) (f : Port → Port) (j : CoreId) : (s.modPort p f).core j = s.core j := rfl
@[simp] theorem State.modPort_engine (p : PortId) (f : Port → Port) (j : EngineId) : (s.modPort p f).engine j = s.engine j := rfl
@[simp] theorem State.modPort_host (p : PortId) (f : Port → Port) (j : LinkId) : (s.modPort p f).host j = s.host j := rfl
@[simp] theorem State.modPort_optic (p : PortId) (f : Port → Port) (j : PortId) : (s.modPort p f).optic j = s.optic j := rfl
@[simp] theorem State.modPort_lnk (p : PortId) (f : Port → Port) (j : PortId) : (s.modPort p f).lnk j = s.lnk j := rfl
@[simp] theorem State.modOptic_stall (p : PortId) (f : Optics → Optics) (j : Stall) : (s.modOptic p f).stall j = s.stall j := rfl
@[simp] theorem State.modOptic_core (p : PortId) (f : Optics → Optics) (j : CoreId) : (s.modOptic p f).core j = s.core j := rfl
@[simp] theorem State.modOptic_engine (p : PortId) (f : Optics → Optics) (j : EngineId) : (s.modOptic p f).engine j = s.engine j := rfl
@[simp] theorem State.modOptic_host (p : PortId) (f : Optics → Optics) (j : LinkId) : (s.modOptic p f).host j = s.host j := rfl
@[simp] theorem State.modOptic_port (p : PortId) (f : Optics → Optics) (j : PortId) : (s.modOptic p f).port j = s.port j := rfl
@[simp] theorem State.modOptic_lnk (p : PortId) (f : Optics → Optics) (j : PortId) : (s.modOptic p f).lnk j = s.lnk j := rfl
@[simp] theorem State.modLnk_stall (p : PortId) (f : LinkLayer → LinkLayer) (j : Stall) : (s.modLnk p f).stall j = s.stall j := rfl
@[simp] theorem State.modLnk_core (p : PortId) (f : LinkLayer → LinkLayer) (j : CoreId) : (s.modLnk p f).core j = s.core j := rfl
@[simp] theorem State.modLnk_engine (p : PortId) (f : LinkLayer → LinkLayer) (j : EngineId) : (s.modLnk p f).engine j = s.engine j := rfl
@[simp] theorem State.modLnk_host (p : PortId) (f : LinkLayer → LinkLayer) (j : LinkId) : (s.modLnk p f).host j = s.host j := rfl
@[simp] theorem State.modLnk_port (p : PortId) (f : LinkLayer → LinkLayer) (j : PortId) : (s.modLnk p f).port j = s.port j := rfl
@[simp] theorem State.modLnk_optic (p : PortId) (f : LinkLayer → LinkLayer) (j : PortId) : (s.modLnk p f).optic j = s.optic j := rfl
@[simp] theorem State.modStack_stall (k : Fin 8) (f : NearStack → NearStack) (j : Stall) : (s.modStack k f).stall j = s.stall j := rfl
@[simp] theorem State.modStack_core (k : Fin 8) (f : NearStack → NearStack) (j : CoreId) : (s.modStack k f).core j = s.core j := rfl
@[simp] theorem State.modStack_engine (k : Fin 8) (f : NearStack → NearStack) (j : EngineId) : (s.modStack k f).engine j = s.engine j := rfl
@[simp] theorem State.modStack_host (k : Fin 8) (f : NearStack → NearStack) (j : LinkId) : (s.modStack k f).host j = s.host j := rfl
@[simp] theorem State.modStack_port (k : Fin 8) (f : NearStack → NearStack) (j : PortId) : (s.modStack k f).port j = s.port j := rfl
@[simp] theorem State.modStack_optic (k : Fin 8) (f : NearStack → NearStack) (j : PortId) : (s.modStack k f).optic j = s.optic j := rfl
@[simp] theorem State.modStack_lnk (k : Fin 8) (f : NearStack → NearStack) (j : PortId) : (s.modStack k f).lnk j = s.lnk j := rfl
@[simp] theorem State.modChannel_stall (k : Fin 24) (f : SeraiChannel → SeraiChannel) (j : Stall) : (s.modChannel k f).stall j = s.stall j := rfl
@[simp] theorem State.modChannel_core (k : Fin 24) (f : SeraiChannel → SeraiChannel) (j : CoreId) : (s.modChannel k f).core j = s.core j := rfl
@[simp] theorem State.modChannel_engine (k : Fin 24) (f : SeraiChannel → SeraiChannel) (j : EngineId) : (s.modChannel k f).engine j = s.engine j := rfl
@[simp] theorem State.modChannel_host (k : Fin 24) (f : SeraiChannel → SeraiChannel) (j : LinkId) : (s.modChannel k f).host j = s.host j := rfl
@[simp] theorem State.modChannel_port (k : Fin 24) (f : SeraiChannel → SeraiChannel) (j : PortId) : (s.modChannel k f).port j = s.port j := rfl
@[simp] theorem State.modChannel_optic (k : Fin 24) (f : SeraiChannel → SeraiChannel) (j : PortId) : (s.modChannel k f).optic j = s.optic j := rfl
@[simp] theorem State.modChannel_lnk (k : Fin 24) (f : SeraiChannel → SeraiChannel) (j : PortId) : (s.modChannel k f).lnk j = s.lnk j := rfl
@[simp] theorem State.send_stall (o : Out) (j : Stall) : (s.send o).stall j = s.stall j := rfl
@[simp] theorem State.send_core (o : Out) (j : CoreId) : (s.send o).core j = s.core j := rfl
@[simp] theorem State.send_engine (o : Out) (j : EngineId) : (s.send o).engine j = s.engine j := rfl
@[simp] theorem State.send_host (o : Out) (j : LinkId) : (s.send o).host j = s.host j := rfl
@[simp] theorem State.send_port (o : Out) (j : PortId) : (s.send o).port j = s.port j := rfl
@[simp] theorem State.send_optic (o : Out) (j : PortId) : (s.send o).optic j = s.optic j := rfl
@[simp] theorem State.send_lnk (o : Out) (j : PortId) : (s.send o).lnk j = s.lnk j := rfl
@[simp] theorem State.atTime_stall (b : BitVec 64) (j : Stall) : (s.atTime b).stall j = s.stall j := rfl
@[simp] theorem State.atTime_core (b : BitVec 64) (j : CoreId) : (s.atTime b).core j = s.core j := rfl
@[simp] theorem State.atTime_engine (b : BitVec 64) (j : EngineId) : (s.atTime b).engine j = s.engine j := rfl
@[simp] theorem State.atTime_host (b : BitVec 64) (j : LinkId) : (s.atTime b).host j = s.host j := rfl
@[simp] theorem State.atTime_port (b : BitVec 64) (j : PortId) : (s.atTime b).port j = s.port j := rfl
@[simp] theorem State.atTime_optic (b : BitVec 64) (j : PortId) : (s.atTime b).optic j = s.optic j := rfl
@[simp] theorem State.atTime_lnk (b : BitVec 64) (j : PortId) : (s.atTime b).lnk j = s.lnk j := rfl

/-! ### One sub-structure of a stall -/

@[simp] theorem State.modMarch_march (i : Stall) (f : March → March) : ((s.modMarch i f).stall i).march = f (s.stall i).march := by simp [State.modMarch]
@[simp] theorem State.modMarch_sync (i : Stall) (f : March → March) : ((s.modMarch i f).stall i).sync = (s.stall i).sync := by simp [State.modMarch]
@[simp] theorem State.modMarch_seq (i : Stall) (f : March → March) : ((s.modMarch i f).stall i).seq = (s.stall i).seq := by simp [State.modMarch]
@[simp] theorem State.modMarch_ledger (i : Stall) (f : March → March) : ((s.modMarch i f).stall i).ledger = (s.stall i).ledger := by simp [State.modMarch]
@[simp] theorem State.modMarch_settle (i : Stall) (f : March → March) : ((s.modMarch i f).stall i).settle = (s.stall i).settle := by simp [State.modMarch]
@[simp] theorem State.modMarch_tally (i : Stall) (f : March → March) : ((s.modMarch i f).stall i).tally = (s.stall i).tally := by simp [State.modMarch]
@[simp] theorem State.modMarch_lot (i : Stall) (f : March → March) : ((s.modMarch i f).stall i).lot = (s.stall i).lot := by simp [State.modMarch]
@[simp] theorem State.modMarch_charter (i : Stall) (f : March → March) : ((s.modMarch i f).stall i).charter = (s.stall i).charter := by simp [State.modMarch]
@[simp] theorem State.modMarch_page (i : Stall) (f : March → March) : ((s.modMarch i f).stall i).page = (s.stall i).page := by simp [State.modMarch]
@[simp] theorem State.modMarch_posts (i : Stall) (f : March → March) : ((s.modMarch i f).stall i).posts = (s.stall i).posts := by simp [State.modMarch]
@[simp] theorem State.modMarch_secure (i : Stall) (f : March → March) : ((s.modMarch i f).stall i).secure = (s.stall i).secure := by simp [State.modMarch]
@[simp] theorem State.modMarch_customs (i : Stall) (f : March → March) : ((s.modMarch i f).stall i).customs = (s.stall i).customs := by simp [State.modMarch]
@[simp] theorem State.modMarch_service (i : Stall) (f : March → March) : ((s.modMarch i f).stall i).service = (s.stall i).service := by simp [State.modMarch]
@[simp] theorem State.modMarch_xchg (i : Stall) (f : March → March) : ((s.modMarch i f).stall i).xchg = (s.stall i).xchg := by simp [State.modMarch]
@[simp] theorem State.modMarch_top_pending (i : Stall) (f : March → March) : (s.modMarch i f).pending = s.pending := rfl
@[simp] theorem State.modMarch_top_out (i : Stall) (f : March → March) : (s.modMarch i f).out = s.out := rfl
@[simp] theorem State.modMarch_top_free (i : Stall) (f : March → March) : (s.modMarch i f).free = s.free := rfl
@[simp] theorem State.modMarch_top_time (i : Stall) (f : March → March) : (s.modMarch i f).time = s.time := rfl
@[simp] theorem State.modMarch_top_data (i : Stall) (f : March → March) : (s.modMarch i f).data = s.data := rfl
@[simp] theorem State.modMarch_top_held (i : Stall) (f : March → March) : (s.modMarch i f).held = s.held := rfl
@[simp] theorem State.modMarch_top_caught (i : Stall) (f : March → March) : (s.modMarch i f).caught = s.caught := rfl
@[simp] theorem State.modMarch_top_mem (i : Stall) (f : March → March) : (s.modMarch i f).mem = s.mem := rfl
@[simp] theorem State.modMarch_top_anatomy (i : Stall) (f : March → March) : (s.modMarch i f).anatomy = s.anatomy := rfl
@[simp] theorem State.modMarch_top_cores (i : Stall) (f : March → March) : (s.modMarch i f).cores = s.cores := rfl
@[simp] theorem State.modMarch_top_engines (i : Stall) (f : March → March) : (s.modMarch i f).engines = s.engines := rfl
@[simp] theorem State.modMarch_top_tiers (i : Stall) (f : March → March) : (s.modMarch i f).tiers = s.tiers := rfl
@[simp] theorem State.modMarch_top_fabric (i : Stall) (f : March → March) : (s.modMarch i f).fabric = s.fabric := rfl
@[simp] theorem State.modMarch_top_hosts (i : Stall) (f : March → March) : (s.modMarch i f).hosts = s.hosts := rfl
@[simp] theorem State.modMarch_top_arbiter (i : Stall) (f : March → March) : (s.modMarch i f).arbiter = s.arbiter := rfl
@[simp] theorem State.modMarch_top_tollgate (i : Stall) (f : March → March) : (s.modMarch i f).tollgate = s.tollgate := rfl
@[simp] theorem State.modMarch_top_starts (i : Stall) (f : March → March) : (s.modMarch i f).starts = s.starts := rfl
@[simp] theorem State.modMarch_top_power (i : Stall) (f : March → March) : (s.modMarch i f).power = s.power := rfl
@[simp] theorem State.modMarch_top_pins (i : Stall) (f : March → March) : (s.modMarch i f).pins = s.pins := rfl
@[simp] theorem State.modMarch_top_tap (i : Stall) (f : March → March) : (s.modMarch i f).tap = s.tap := rfl
@[simp] theorem State.modMarch_top_log (i : Stall) (f : March → March) : (s.modMarch i f).log = s.log := rfl
theorem State.modMarch_stall_other (i j : Stall) (f : March → March) (h : j ≠ i) : (s.modMarch i f).stall j = s.stall j :=
  s.modStall_stall_other i j _ h
@[simp] theorem State.modMarch_core (i : Stall) (f : March → March) (j : CoreId) : (s.modMarch i f).core j = s.core j := rfl
@[simp] theorem State.modMarch_engine (i : Stall) (f : March → March) (j : EngineId) : (s.modMarch i f).engine j = s.engine j := rfl
@[simp] theorem State.modMarch_host (i : Stall) (f : March → March) (j : LinkId) : (s.modMarch i f).host j = s.host j := rfl
@[simp] theorem State.modMarch_port (i : Stall) (f : March → March) (j : PortId) : (s.modMarch i f).port j = s.port j := rfl
@[simp] theorem State.modMarch_optic (i : Stall) (f : March → March) (j : PortId) : (s.modMarch i f).optic j = s.optic j := rfl
@[simp] theorem State.modMarch_lnk (i : Stall) (f : March → March) (j : PortId) : (s.modMarch i f).lnk j = s.lnk j := rfl

@[simp] theorem State.modSeq_march (i : Stall) (f : Sequencer → Sequencer) : ((s.modSeq i f).stall i).march = (s.stall i).march := by simp [State.modSeq]
@[simp] theorem State.modSeq_sync (i : Stall) (f : Sequencer → Sequencer) : ((s.modSeq i f).stall i).sync = (s.stall i).sync := by simp [State.modSeq]
@[simp] theorem State.modSeq_seq (i : Stall) (f : Sequencer → Sequencer) : ((s.modSeq i f).stall i).seq = f (s.stall i).seq := by simp [State.modSeq]
@[simp] theorem State.modSeq_ledger (i : Stall) (f : Sequencer → Sequencer) : ((s.modSeq i f).stall i).ledger = (s.stall i).ledger := by simp [State.modSeq]
@[simp] theorem State.modSeq_settle (i : Stall) (f : Sequencer → Sequencer) : ((s.modSeq i f).stall i).settle = (s.stall i).settle := by simp [State.modSeq]
@[simp] theorem State.modSeq_tally (i : Stall) (f : Sequencer → Sequencer) : ((s.modSeq i f).stall i).tally = (s.stall i).tally := by simp [State.modSeq]
@[simp] theorem State.modSeq_lot (i : Stall) (f : Sequencer → Sequencer) : ((s.modSeq i f).stall i).lot = (s.stall i).lot := by simp [State.modSeq]
@[simp] theorem State.modSeq_charter (i : Stall) (f : Sequencer → Sequencer) : ((s.modSeq i f).stall i).charter = (s.stall i).charter := by simp [State.modSeq]
@[simp] theorem State.modSeq_page (i : Stall) (f : Sequencer → Sequencer) : ((s.modSeq i f).stall i).page = (s.stall i).page := by simp [State.modSeq]
@[simp] theorem State.modSeq_posts (i : Stall) (f : Sequencer → Sequencer) : ((s.modSeq i f).stall i).posts = (s.stall i).posts := by simp [State.modSeq]
@[simp] theorem State.modSeq_secure (i : Stall) (f : Sequencer → Sequencer) : ((s.modSeq i f).stall i).secure = (s.stall i).secure := by simp [State.modSeq]
@[simp] theorem State.modSeq_customs (i : Stall) (f : Sequencer → Sequencer) : ((s.modSeq i f).stall i).customs = (s.stall i).customs := by simp [State.modSeq]
@[simp] theorem State.modSeq_service (i : Stall) (f : Sequencer → Sequencer) : ((s.modSeq i f).stall i).service = (s.stall i).service := by simp [State.modSeq]
@[simp] theorem State.modSeq_xchg (i : Stall) (f : Sequencer → Sequencer) : ((s.modSeq i f).stall i).xchg = (s.stall i).xchg := by simp [State.modSeq]
@[simp] theorem State.modSeq_top_pending (i : Stall) (f : Sequencer → Sequencer) : (s.modSeq i f).pending = s.pending := rfl
@[simp] theorem State.modSeq_top_out (i : Stall) (f : Sequencer → Sequencer) : (s.modSeq i f).out = s.out := rfl
@[simp] theorem State.modSeq_top_free (i : Stall) (f : Sequencer → Sequencer) : (s.modSeq i f).free = s.free := rfl
@[simp] theorem State.modSeq_top_time (i : Stall) (f : Sequencer → Sequencer) : (s.modSeq i f).time = s.time := rfl
@[simp] theorem State.modSeq_top_data (i : Stall) (f : Sequencer → Sequencer) : (s.modSeq i f).data = s.data := rfl
@[simp] theorem State.modSeq_top_held (i : Stall) (f : Sequencer → Sequencer) : (s.modSeq i f).held = s.held := rfl
@[simp] theorem State.modSeq_top_caught (i : Stall) (f : Sequencer → Sequencer) : (s.modSeq i f).caught = s.caught := rfl
@[simp] theorem State.modSeq_top_mem (i : Stall) (f : Sequencer → Sequencer) : (s.modSeq i f).mem = s.mem := rfl
@[simp] theorem State.modSeq_top_anatomy (i : Stall) (f : Sequencer → Sequencer) : (s.modSeq i f).anatomy = s.anatomy := rfl
@[simp] theorem State.modSeq_top_cores (i : Stall) (f : Sequencer → Sequencer) : (s.modSeq i f).cores = s.cores := rfl
@[simp] theorem State.modSeq_top_engines (i : Stall) (f : Sequencer → Sequencer) : (s.modSeq i f).engines = s.engines := rfl
@[simp] theorem State.modSeq_top_tiers (i : Stall) (f : Sequencer → Sequencer) : (s.modSeq i f).tiers = s.tiers := rfl
@[simp] theorem State.modSeq_top_fabric (i : Stall) (f : Sequencer → Sequencer) : (s.modSeq i f).fabric = s.fabric := rfl
@[simp] theorem State.modSeq_top_hosts (i : Stall) (f : Sequencer → Sequencer) : (s.modSeq i f).hosts = s.hosts := rfl
@[simp] theorem State.modSeq_top_arbiter (i : Stall) (f : Sequencer → Sequencer) : (s.modSeq i f).arbiter = s.arbiter := rfl
@[simp] theorem State.modSeq_top_tollgate (i : Stall) (f : Sequencer → Sequencer) : (s.modSeq i f).tollgate = s.tollgate := rfl
@[simp] theorem State.modSeq_top_starts (i : Stall) (f : Sequencer → Sequencer) : (s.modSeq i f).starts = s.starts := rfl
@[simp] theorem State.modSeq_top_power (i : Stall) (f : Sequencer → Sequencer) : (s.modSeq i f).power = s.power := rfl
@[simp] theorem State.modSeq_top_pins (i : Stall) (f : Sequencer → Sequencer) : (s.modSeq i f).pins = s.pins := rfl
@[simp] theorem State.modSeq_top_tap (i : Stall) (f : Sequencer → Sequencer) : (s.modSeq i f).tap = s.tap := rfl
@[simp] theorem State.modSeq_top_log (i : Stall) (f : Sequencer → Sequencer) : (s.modSeq i f).log = s.log := rfl
theorem State.modSeq_stall_other (i j : Stall) (f : Sequencer → Sequencer) (h : j ≠ i) : (s.modSeq i f).stall j = s.stall j :=
  s.modStall_stall_other i j _ h
@[simp] theorem State.modSeq_core (i : Stall) (f : Sequencer → Sequencer) (j : CoreId) : (s.modSeq i f).core j = s.core j := rfl
@[simp] theorem State.modSeq_engine (i : Stall) (f : Sequencer → Sequencer) (j : EngineId) : (s.modSeq i f).engine j = s.engine j := rfl
@[simp] theorem State.modSeq_host (i : Stall) (f : Sequencer → Sequencer) (j : LinkId) : (s.modSeq i f).host j = s.host j := rfl
@[simp] theorem State.modSeq_port (i : Stall) (f : Sequencer → Sequencer) (j : PortId) : (s.modSeq i f).port j = s.port j := rfl
@[simp] theorem State.modSeq_optic (i : Stall) (f : Sequencer → Sequencer) (j : PortId) : (s.modSeq i f).optic j = s.optic j := rfl
@[simp] theorem State.modSeq_lnk (i : Stall) (f : Sequencer → Sequencer) (j : PortId) : (s.modSeq i f).lnk j = s.lnk j := rfl

@[simp] theorem State.modSync_march (i : Stall) (f : Sync → Sync) : ((s.modSync i f).stall i).march = (s.stall i).march := by simp [State.modSync]
@[simp] theorem State.modSync_sync (i : Stall) (f : Sync → Sync) : ((s.modSync i f).stall i).sync = f (s.stall i).sync := by simp [State.modSync]
@[simp] theorem State.modSync_seq (i : Stall) (f : Sync → Sync) : ((s.modSync i f).stall i).seq = (s.stall i).seq := by simp [State.modSync]
@[simp] theorem State.modSync_ledger (i : Stall) (f : Sync → Sync) : ((s.modSync i f).stall i).ledger = (s.stall i).ledger := by simp [State.modSync]
@[simp] theorem State.modSync_settle (i : Stall) (f : Sync → Sync) : ((s.modSync i f).stall i).settle = (s.stall i).settle := by simp [State.modSync]
@[simp] theorem State.modSync_tally (i : Stall) (f : Sync → Sync) : ((s.modSync i f).stall i).tally = (s.stall i).tally := by simp [State.modSync]
@[simp] theorem State.modSync_lot (i : Stall) (f : Sync → Sync) : ((s.modSync i f).stall i).lot = (s.stall i).lot := by simp [State.modSync]
@[simp] theorem State.modSync_charter (i : Stall) (f : Sync → Sync) : ((s.modSync i f).stall i).charter = (s.stall i).charter := by simp [State.modSync]
@[simp] theorem State.modSync_page (i : Stall) (f : Sync → Sync) : ((s.modSync i f).stall i).page = (s.stall i).page := by simp [State.modSync]
@[simp] theorem State.modSync_posts (i : Stall) (f : Sync → Sync) : ((s.modSync i f).stall i).posts = (s.stall i).posts := by simp [State.modSync]
@[simp] theorem State.modSync_secure (i : Stall) (f : Sync → Sync) : ((s.modSync i f).stall i).secure = (s.stall i).secure := by simp [State.modSync]
@[simp] theorem State.modSync_customs (i : Stall) (f : Sync → Sync) : ((s.modSync i f).stall i).customs = (s.stall i).customs := by simp [State.modSync]
@[simp] theorem State.modSync_service (i : Stall) (f : Sync → Sync) : ((s.modSync i f).stall i).service = (s.stall i).service := by simp [State.modSync]
@[simp] theorem State.modSync_xchg (i : Stall) (f : Sync → Sync) : ((s.modSync i f).stall i).xchg = (s.stall i).xchg := by simp [State.modSync]
@[simp] theorem State.modSync_top_pending (i : Stall) (f : Sync → Sync) : (s.modSync i f).pending = s.pending := rfl
@[simp] theorem State.modSync_top_out (i : Stall) (f : Sync → Sync) : (s.modSync i f).out = s.out := rfl
@[simp] theorem State.modSync_top_free (i : Stall) (f : Sync → Sync) : (s.modSync i f).free = s.free := rfl
@[simp] theorem State.modSync_top_time (i : Stall) (f : Sync → Sync) : (s.modSync i f).time = s.time := rfl
@[simp] theorem State.modSync_top_data (i : Stall) (f : Sync → Sync) : (s.modSync i f).data = s.data := rfl
@[simp] theorem State.modSync_top_held (i : Stall) (f : Sync → Sync) : (s.modSync i f).held = s.held := rfl
@[simp] theorem State.modSync_top_caught (i : Stall) (f : Sync → Sync) : (s.modSync i f).caught = s.caught := rfl
@[simp] theorem State.modSync_top_mem (i : Stall) (f : Sync → Sync) : (s.modSync i f).mem = s.mem := rfl
@[simp] theorem State.modSync_top_anatomy (i : Stall) (f : Sync → Sync) : (s.modSync i f).anatomy = s.anatomy := rfl
@[simp] theorem State.modSync_top_cores (i : Stall) (f : Sync → Sync) : (s.modSync i f).cores = s.cores := rfl
@[simp] theorem State.modSync_top_engines (i : Stall) (f : Sync → Sync) : (s.modSync i f).engines = s.engines := rfl
@[simp] theorem State.modSync_top_tiers (i : Stall) (f : Sync → Sync) : (s.modSync i f).tiers = s.tiers := rfl
@[simp] theorem State.modSync_top_fabric (i : Stall) (f : Sync → Sync) : (s.modSync i f).fabric = s.fabric := rfl
@[simp] theorem State.modSync_top_hosts (i : Stall) (f : Sync → Sync) : (s.modSync i f).hosts = s.hosts := rfl
@[simp] theorem State.modSync_top_arbiter (i : Stall) (f : Sync → Sync) : (s.modSync i f).arbiter = s.arbiter := rfl
@[simp] theorem State.modSync_top_tollgate (i : Stall) (f : Sync → Sync) : (s.modSync i f).tollgate = s.tollgate := rfl
@[simp] theorem State.modSync_top_starts (i : Stall) (f : Sync → Sync) : (s.modSync i f).starts = s.starts := rfl
@[simp] theorem State.modSync_top_power (i : Stall) (f : Sync → Sync) : (s.modSync i f).power = s.power := rfl
@[simp] theorem State.modSync_top_pins (i : Stall) (f : Sync → Sync) : (s.modSync i f).pins = s.pins := rfl
@[simp] theorem State.modSync_top_tap (i : Stall) (f : Sync → Sync) : (s.modSync i f).tap = s.tap := rfl
@[simp] theorem State.modSync_top_log (i : Stall) (f : Sync → Sync) : (s.modSync i f).log = s.log := rfl
theorem State.modSync_stall_other (i j : Stall) (f : Sync → Sync) (h : j ≠ i) : (s.modSync i f).stall j = s.stall j :=
  s.modStall_stall_other i j _ h
@[simp] theorem State.modSync_core (i : Stall) (f : Sync → Sync) (j : CoreId) : (s.modSync i f).core j = s.core j := rfl
@[simp] theorem State.modSync_engine (i : Stall) (f : Sync → Sync) (j : EngineId) : (s.modSync i f).engine j = s.engine j := rfl
@[simp] theorem State.modSync_host (i : Stall) (f : Sync → Sync) (j : LinkId) : (s.modSync i f).host j = s.host j := rfl
@[simp] theorem State.modSync_port (i : Stall) (f : Sync → Sync) (j : PortId) : (s.modSync i f).port j = s.port j := rfl
@[simp] theorem State.modSync_optic (i : Stall) (f : Sync → Sync) (j : PortId) : (s.modSync i f).optic j = s.optic j := rfl
@[simp] theorem State.modSync_lnk (i : Stall) (f : Sync → Sync) (j : PortId) : (s.modSync i f).lnk j = s.lnk j := rfl

@[simp] theorem State.modLedger_march (i : Stall) (f : Ledger → Ledger) : ((s.modLedger i f).stall i).march = (s.stall i).march := by simp [State.modLedger]
@[simp] theorem State.modLedger_sync (i : Stall) (f : Ledger → Ledger) : ((s.modLedger i f).stall i).sync = (s.stall i).sync := by simp [State.modLedger]
@[simp] theorem State.modLedger_seq (i : Stall) (f : Ledger → Ledger) : ((s.modLedger i f).stall i).seq = (s.stall i).seq := by simp [State.modLedger]
@[simp] theorem State.modLedger_ledger (i : Stall) (f : Ledger → Ledger) : ((s.modLedger i f).stall i).ledger = f (s.stall i).ledger := by simp [State.modLedger]
@[simp] theorem State.modLedger_settle (i : Stall) (f : Ledger → Ledger) : ((s.modLedger i f).stall i).settle = (s.stall i).settle := by simp [State.modLedger]
@[simp] theorem State.modLedger_tally (i : Stall) (f : Ledger → Ledger) : ((s.modLedger i f).stall i).tally = (s.stall i).tally := by simp [State.modLedger]
@[simp] theorem State.modLedger_lot (i : Stall) (f : Ledger → Ledger) : ((s.modLedger i f).stall i).lot = (s.stall i).lot := by simp [State.modLedger]
@[simp] theorem State.modLedger_charter (i : Stall) (f : Ledger → Ledger) : ((s.modLedger i f).stall i).charter = (s.stall i).charter := by simp [State.modLedger]
@[simp] theorem State.modLedger_page (i : Stall) (f : Ledger → Ledger) : ((s.modLedger i f).stall i).page = (s.stall i).page := by simp [State.modLedger]
@[simp] theorem State.modLedger_posts (i : Stall) (f : Ledger → Ledger) : ((s.modLedger i f).stall i).posts = (s.stall i).posts := by simp [State.modLedger]
@[simp] theorem State.modLedger_secure (i : Stall) (f : Ledger → Ledger) : ((s.modLedger i f).stall i).secure = (s.stall i).secure := by simp [State.modLedger]
@[simp] theorem State.modLedger_customs (i : Stall) (f : Ledger → Ledger) : ((s.modLedger i f).stall i).customs = (s.stall i).customs := by simp [State.modLedger]
@[simp] theorem State.modLedger_service (i : Stall) (f : Ledger → Ledger) : ((s.modLedger i f).stall i).service = (s.stall i).service := by simp [State.modLedger]
@[simp] theorem State.modLedger_xchg (i : Stall) (f : Ledger → Ledger) : ((s.modLedger i f).stall i).xchg = (s.stall i).xchg := by simp [State.modLedger]
@[simp] theorem State.modLedger_top_pending (i : Stall) (f : Ledger → Ledger) : (s.modLedger i f).pending = s.pending := rfl
@[simp] theorem State.modLedger_top_out (i : Stall) (f : Ledger → Ledger) : (s.modLedger i f).out = s.out := rfl
@[simp] theorem State.modLedger_top_free (i : Stall) (f : Ledger → Ledger) : (s.modLedger i f).free = s.free := rfl
@[simp] theorem State.modLedger_top_time (i : Stall) (f : Ledger → Ledger) : (s.modLedger i f).time = s.time := rfl
@[simp] theorem State.modLedger_top_data (i : Stall) (f : Ledger → Ledger) : (s.modLedger i f).data = s.data := rfl
@[simp] theorem State.modLedger_top_held (i : Stall) (f : Ledger → Ledger) : (s.modLedger i f).held = s.held := rfl
@[simp] theorem State.modLedger_top_caught (i : Stall) (f : Ledger → Ledger) : (s.modLedger i f).caught = s.caught := rfl
@[simp] theorem State.modLedger_top_mem (i : Stall) (f : Ledger → Ledger) : (s.modLedger i f).mem = s.mem := rfl
@[simp] theorem State.modLedger_top_anatomy (i : Stall) (f : Ledger → Ledger) : (s.modLedger i f).anatomy = s.anatomy := rfl
@[simp] theorem State.modLedger_top_cores (i : Stall) (f : Ledger → Ledger) : (s.modLedger i f).cores = s.cores := rfl
@[simp] theorem State.modLedger_top_engines (i : Stall) (f : Ledger → Ledger) : (s.modLedger i f).engines = s.engines := rfl
@[simp] theorem State.modLedger_top_tiers (i : Stall) (f : Ledger → Ledger) : (s.modLedger i f).tiers = s.tiers := rfl
@[simp] theorem State.modLedger_top_fabric (i : Stall) (f : Ledger → Ledger) : (s.modLedger i f).fabric = s.fabric := rfl
@[simp] theorem State.modLedger_top_hosts (i : Stall) (f : Ledger → Ledger) : (s.modLedger i f).hosts = s.hosts := rfl
@[simp] theorem State.modLedger_top_arbiter (i : Stall) (f : Ledger → Ledger) : (s.modLedger i f).arbiter = s.arbiter := rfl
@[simp] theorem State.modLedger_top_tollgate (i : Stall) (f : Ledger → Ledger) : (s.modLedger i f).tollgate = s.tollgate := rfl
@[simp] theorem State.modLedger_top_starts (i : Stall) (f : Ledger → Ledger) : (s.modLedger i f).starts = s.starts := rfl
@[simp] theorem State.modLedger_top_power (i : Stall) (f : Ledger → Ledger) : (s.modLedger i f).power = s.power := rfl
@[simp] theorem State.modLedger_top_pins (i : Stall) (f : Ledger → Ledger) : (s.modLedger i f).pins = s.pins := rfl
@[simp] theorem State.modLedger_top_tap (i : Stall) (f : Ledger → Ledger) : (s.modLedger i f).tap = s.tap := rfl
@[simp] theorem State.modLedger_top_log (i : Stall) (f : Ledger → Ledger) : (s.modLedger i f).log = s.log := rfl
theorem State.modLedger_stall_other (i j : Stall) (f : Ledger → Ledger) (h : j ≠ i) : (s.modLedger i f).stall j = s.stall j :=
  s.modStall_stall_other i j _ h
@[simp] theorem State.modLedger_core (i : Stall) (f : Ledger → Ledger) (j : CoreId) : (s.modLedger i f).core j = s.core j := rfl
@[simp] theorem State.modLedger_engine (i : Stall) (f : Ledger → Ledger) (j : EngineId) : (s.modLedger i f).engine j = s.engine j := rfl
@[simp] theorem State.modLedger_host (i : Stall) (f : Ledger → Ledger) (j : LinkId) : (s.modLedger i f).host j = s.host j := rfl
@[simp] theorem State.modLedger_port (i : Stall) (f : Ledger → Ledger) (j : PortId) : (s.modLedger i f).port j = s.port j := rfl
@[simp] theorem State.modLedger_optic (i : Stall) (f : Ledger → Ledger) (j : PortId) : (s.modLedger i f).optic j = s.optic j := rfl
@[simp] theorem State.modLedger_lnk (i : Stall) (f : Ledger → Ledger) (j : PortId) : (s.modLedger i f).lnk j = s.lnk j := rfl

@[simp] theorem State.modSettle_march (i : Stall) (f : Settlement → Settlement) : ((s.modSettle i f).stall i).march = (s.stall i).march := by simp [State.modSettle]
@[simp] theorem State.modSettle_sync (i : Stall) (f : Settlement → Settlement) : ((s.modSettle i f).stall i).sync = (s.stall i).sync := by simp [State.modSettle]
@[simp] theorem State.modSettle_seq (i : Stall) (f : Settlement → Settlement) : ((s.modSettle i f).stall i).seq = (s.stall i).seq := by simp [State.modSettle]
@[simp] theorem State.modSettle_ledger (i : Stall) (f : Settlement → Settlement) : ((s.modSettle i f).stall i).ledger = (s.stall i).ledger := by simp [State.modSettle]
@[simp] theorem State.modSettle_settle (i : Stall) (f : Settlement → Settlement) : ((s.modSettle i f).stall i).settle = f (s.stall i).settle := by simp [State.modSettle]
@[simp] theorem State.modSettle_tally (i : Stall) (f : Settlement → Settlement) : ((s.modSettle i f).stall i).tally = (s.stall i).tally := by simp [State.modSettle]
@[simp] theorem State.modSettle_lot (i : Stall) (f : Settlement → Settlement) : ((s.modSettle i f).stall i).lot = (s.stall i).lot := by simp [State.modSettle]
@[simp] theorem State.modSettle_charter (i : Stall) (f : Settlement → Settlement) : ((s.modSettle i f).stall i).charter = (s.stall i).charter := by simp [State.modSettle]
@[simp] theorem State.modSettle_page (i : Stall) (f : Settlement → Settlement) : ((s.modSettle i f).stall i).page = (s.stall i).page := by simp [State.modSettle]
@[simp] theorem State.modSettle_posts (i : Stall) (f : Settlement → Settlement) : ((s.modSettle i f).stall i).posts = (s.stall i).posts := by simp [State.modSettle]
@[simp] theorem State.modSettle_secure (i : Stall) (f : Settlement → Settlement) : ((s.modSettle i f).stall i).secure = (s.stall i).secure := by simp [State.modSettle]
@[simp] theorem State.modSettle_customs (i : Stall) (f : Settlement → Settlement) : ((s.modSettle i f).stall i).customs = (s.stall i).customs := by simp [State.modSettle]
@[simp] theorem State.modSettle_service (i : Stall) (f : Settlement → Settlement) : ((s.modSettle i f).stall i).service = (s.stall i).service := by simp [State.modSettle]
@[simp] theorem State.modSettle_xchg (i : Stall) (f : Settlement → Settlement) : ((s.modSettle i f).stall i).xchg = (s.stall i).xchg := by simp [State.modSettle]
@[simp] theorem State.modSettle_top_pending (i : Stall) (f : Settlement → Settlement) : (s.modSettle i f).pending = s.pending := rfl
@[simp] theorem State.modSettle_top_out (i : Stall) (f : Settlement → Settlement) : (s.modSettle i f).out = s.out := rfl
@[simp] theorem State.modSettle_top_free (i : Stall) (f : Settlement → Settlement) : (s.modSettle i f).free = s.free := rfl
@[simp] theorem State.modSettle_top_time (i : Stall) (f : Settlement → Settlement) : (s.modSettle i f).time = s.time := rfl
@[simp] theorem State.modSettle_top_data (i : Stall) (f : Settlement → Settlement) : (s.modSettle i f).data = s.data := rfl
@[simp] theorem State.modSettle_top_held (i : Stall) (f : Settlement → Settlement) : (s.modSettle i f).held = s.held := rfl
@[simp] theorem State.modSettle_top_caught (i : Stall) (f : Settlement → Settlement) : (s.modSettle i f).caught = s.caught := rfl
@[simp] theorem State.modSettle_top_mem (i : Stall) (f : Settlement → Settlement) : (s.modSettle i f).mem = s.mem := rfl
@[simp] theorem State.modSettle_top_anatomy (i : Stall) (f : Settlement → Settlement) : (s.modSettle i f).anatomy = s.anatomy := rfl
@[simp] theorem State.modSettle_top_cores (i : Stall) (f : Settlement → Settlement) : (s.modSettle i f).cores = s.cores := rfl
@[simp] theorem State.modSettle_top_engines (i : Stall) (f : Settlement → Settlement) : (s.modSettle i f).engines = s.engines := rfl
@[simp] theorem State.modSettle_top_tiers (i : Stall) (f : Settlement → Settlement) : (s.modSettle i f).tiers = s.tiers := rfl
@[simp] theorem State.modSettle_top_fabric (i : Stall) (f : Settlement → Settlement) : (s.modSettle i f).fabric = s.fabric := rfl
@[simp] theorem State.modSettle_top_hosts (i : Stall) (f : Settlement → Settlement) : (s.modSettle i f).hosts = s.hosts := rfl
@[simp] theorem State.modSettle_top_arbiter (i : Stall) (f : Settlement → Settlement) : (s.modSettle i f).arbiter = s.arbiter := rfl
@[simp] theorem State.modSettle_top_tollgate (i : Stall) (f : Settlement → Settlement) : (s.modSettle i f).tollgate = s.tollgate := rfl
@[simp] theorem State.modSettle_top_starts (i : Stall) (f : Settlement → Settlement) : (s.modSettle i f).starts = s.starts := rfl
@[simp] theorem State.modSettle_top_power (i : Stall) (f : Settlement → Settlement) : (s.modSettle i f).power = s.power := rfl
@[simp] theorem State.modSettle_top_pins (i : Stall) (f : Settlement → Settlement) : (s.modSettle i f).pins = s.pins := rfl
@[simp] theorem State.modSettle_top_tap (i : Stall) (f : Settlement → Settlement) : (s.modSettle i f).tap = s.tap := rfl
@[simp] theorem State.modSettle_top_log (i : Stall) (f : Settlement → Settlement) : (s.modSettle i f).log = s.log := rfl
theorem State.modSettle_stall_other (i j : Stall) (f : Settlement → Settlement) (h : j ≠ i) : (s.modSettle i f).stall j = s.stall j :=
  s.modStall_stall_other i j _ h
@[simp] theorem State.modSettle_core (i : Stall) (f : Settlement → Settlement) (j : CoreId) : (s.modSettle i f).core j = s.core j := rfl
@[simp] theorem State.modSettle_engine (i : Stall) (f : Settlement → Settlement) (j : EngineId) : (s.modSettle i f).engine j = s.engine j := rfl
@[simp] theorem State.modSettle_host (i : Stall) (f : Settlement → Settlement) (j : LinkId) : (s.modSettle i f).host j = s.host j := rfl
@[simp] theorem State.modSettle_port (i : Stall) (f : Settlement → Settlement) (j : PortId) : (s.modSettle i f).port j = s.port j := rfl
@[simp] theorem State.modSettle_optic (i : Stall) (f : Settlement → Settlement) (j : PortId) : (s.modSettle i f).optic j = s.optic j := rfl
@[simp] theorem State.modSettle_lnk (i : Stall) (f : Settlement → Settlement) (j : PortId) : (s.modSettle i f).lnk j = s.lnk j := rfl

@[simp] theorem State.modTally_march (i : Stall) (f : Tally → Tally) : ((s.modTally i f).stall i).march = (s.stall i).march := by simp [State.modTally]
@[simp] theorem State.modTally_sync (i : Stall) (f : Tally → Tally) : ((s.modTally i f).stall i).sync = (s.stall i).sync := by simp [State.modTally]
@[simp] theorem State.modTally_seq (i : Stall) (f : Tally → Tally) : ((s.modTally i f).stall i).seq = (s.stall i).seq := by simp [State.modTally]
@[simp] theorem State.modTally_ledger (i : Stall) (f : Tally → Tally) : ((s.modTally i f).stall i).ledger = (s.stall i).ledger := by simp [State.modTally]
@[simp] theorem State.modTally_settle (i : Stall) (f : Tally → Tally) : ((s.modTally i f).stall i).settle = (s.stall i).settle := by simp [State.modTally]
@[simp] theorem State.modTally_tally (i : Stall) (f : Tally → Tally) : ((s.modTally i f).stall i).tally = f (s.stall i).tally := by simp [State.modTally]
@[simp] theorem State.modTally_lot (i : Stall) (f : Tally → Tally) : ((s.modTally i f).stall i).lot = (s.stall i).lot := by simp [State.modTally]
@[simp] theorem State.modTally_charter (i : Stall) (f : Tally → Tally) : ((s.modTally i f).stall i).charter = (s.stall i).charter := by simp [State.modTally]
@[simp] theorem State.modTally_page (i : Stall) (f : Tally → Tally) : ((s.modTally i f).stall i).page = (s.stall i).page := by simp [State.modTally]
@[simp] theorem State.modTally_posts (i : Stall) (f : Tally → Tally) : ((s.modTally i f).stall i).posts = (s.stall i).posts := by simp [State.modTally]
@[simp] theorem State.modTally_secure (i : Stall) (f : Tally → Tally) : ((s.modTally i f).stall i).secure = (s.stall i).secure := by simp [State.modTally]
@[simp] theorem State.modTally_customs (i : Stall) (f : Tally → Tally) : ((s.modTally i f).stall i).customs = (s.stall i).customs := by simp [State.modTally]
@[simp] theorem State.modTally_service (i : Stall) (f : Tally → Tally) : ((s.modTally i f).stall i).service = (s.stall i).service := by simp [State.modTally]
@[simp] theorem State.modTally_xchg (i : Stall) (f : Tally → Tally) : ((s.modTally i f).stall i).xchg = (s.stall i).xchg := by simp [State.modTally]
@[simp] theorem State.modTally_top_pending (i : Stall) (f : Tally → Tally) : (s.modTally i f).pending = s.pending := rfl
@[simp] theorem State.modTally_top_out (i : Stall) (f : Tally → Tally) : (s.modTally i f).out = s.out := rfl
@[simp] theorem State.modTally_top_free (i : Stall) (f : Tally → Tally) : (s.modTally i f).free = s.free := rfl
@[simp] theorem State.modTally_top_time (i : Stall) (f : Tally → Tally) : (s.modTally i f).time = s.time := rfl
@[simp] theorem State.modTally_top_data (i : Stall) (f : Tally → Tally) : (s.modTally i f).data = s.data := rfl
@[simp] theorem State.modTally_top_held (i : Stall) (f : Tally → Tally) : (s.modTally i f).held = s.held := rfl
@[simp] theorem State.modTally_top_caught (i : Stall) (f : Tally → Tally) : (s.modTally i f).caught = s.caught := rfl
@[simp] theorem State.modTally_top_mem (i : Stall) (f : Tally → Tally) : (s.modTally i f).mem = s.mem := rfl
@[simp] theorem State.modTally_top_anatomy (i : Stall) (f : Tally → Tally) : (s.modTally i f).anatomy = s.anatomy := rfl
@[simp] theorem State.modTally_top_cores (i : Stall) (f : Tally → Tally) : (s.modTally i f).cores = s.cores := rfl
@[simp] theorem State.modTally_top_engines (i : Stall) (f : Tally → Tally) : (s.modTally i f).engines = s.engines := rfl
@[simp] theorem State.modTally_top_tiers (i : Stall) (f : Tally → Tally) : (s.modTally i f).tiers = s.tiers := rfl
@[simp] theorem State.modTally_top_fabric (i : Stall) (f : Tally → Tally) : (s.modTally i f).fabric = s.fabric := rfl
@[simp] theorem State.modTally_top_hosts (i : Stall) (f : Tally → Tally) : (s.modTally i f).hosts = s.hosts := rfl
@[simp] theorem State.modTally_top_arbiter (i : Stall) (f : Tally → Tally) : (s.modTally i f).arbiter = s.arbiter := rfl
@[simp] theorem State.modTally_top_tollgate (i : Stall) (f : Tally → Tally) : (s.modTally i f).tollgate = s.tollgate := rfl
@[simp] theorem State.modTally_top_starts (i : Stall) (f : Tally → Tally) : (s.modTally i f).starts = s.starts := rfl
@[simp] theorem State.modTally_top_power (i : Stall) (f : Tally → Tally) : (s.modTally i f).power = s.power := rfl
@[simp] theorem State.modTally_top_pins (i : Stall) (f : Tally → Tally) : (s.modTally i f).pins = s.pins := rfl
@[simp] theorem State.modTally_top_tap (i : Stall) (f : Tally → Tally) : (s.modTally i f).tap = s.tap := rfl
@[simp] theorem State.modTally_top_log (i : Stall) (f : Tally → Tally) : (s.modTally i f).log = s.log := rfl
theorem State.modTally_stall_other (i j : Stall) (f : Tally → Tally) (h : j ≠ i) : (s.modTally i f).stall j = s.stall j :=
  s.modStall_stall_other i j _ h
@[simp] theorem State.modTally_core (i : Stall) (f : Tally → Tally) (j : CoreId) : (s.modTally i f).core j = s.core j := rfl
@[simp] theorem State.modTally_engine (i : Stall) (f : Tally → Tally) (j : EngineId) : (s.modTally i f).engine j = s.engine j := rfl
@[simp] theorem State.modTally_host (i : Stall) (f : Tally → Tally) (j : LinkId) : (s.modTally i f).host j = s.host j := rfl
@[simp] theorem State.modTally_port (i : Stall) (f : Tally → Tally) (j : PortId) : (s.modTally i f).port j = s.port j := rfl
@[simp] theorem State.modTally_optic (i : Stall) (f : Tally → Tally) (j : PortId) : (s.modTally i f).optic j = s.optic j := rfl
@[simp] theorem State.modTally_lnk (i : Stall) (f : Tally → Tally) (j : PortId) : (s.modTally i f).lnk j = s.lnk j := rfl

@[simp] theorem State.modLot_march (i : Stall) (f : Lot → Lot) : ((s.modLot i f).stall i).march = (s.stall i).march := by simp [State.modLot]
@[simp] theorem State.modLot_sync (i : Stall) (f : Lot → Lot) : ((s.modLot i f).stall i).sync = (s.stall i).sync := by simp [State.modLot]
@[simp] theorem State.modLot_seq (i : Stall) (f : Lot → Lot) : ((s.modLot i f).stall i).seq = (s.stall i).seq := by simp [State.modLot]
@[simp] theorem State.modLot_ledger (i : Stall) (f : Lot → Lot) : ((s.modLot i f).stall i).ledger = (s.stall i).ledger := by simp [State.modLot]
@[simp] theorem State.modLot_settle (i : Stall) (f : Lot → Lot) : ((s.modLot i f).stall i).settle = (s.stall i).settle := by simp [State.modLot]
@[simp] theorem State.modLot_tally (i : Stall) (f : Lot → Lot) : ((s.modLot i f).stall i).tally = (s.stall i).tally := by simp [State.modLot]
@[simp] theorem State.modLot_lot (i : Stall) (f : Lot → Lot) : ((s.modLot i f).stall i).lot = f (s.stall i).lot := by simp [State.modLot]
@[simp] theorem State.modLot_charter (i : Stall) (f : Lot → Lot) : ((s.modLot i f).stall i).charter = (s.stall i).charter := by simp [State.modLot]
@[simp] theorem State.modLot_page (i : Stall) (f : Lot → Lot) : ((s.modLot i f).stall i).page = (s.stall i).page := by simp [State.modLot]
@[simp] theorem State.modLot_posts (i : Stall) (f : Lot → Lot) : ((s.modLot i f).stall i).posts = (s.stall i).posts := by simp [State.modLot]
@[simp] theorem State.modLot_secure (i : Stall) (f : Lot → Lot) : ((s.modLot i f).stall i).secure = (s.stall i).secure := by simp [State.modLot]
@[simp] theorem State.modLot_customs (i : Stall) (f : Lot → Lot) : ((s.modLot i f).stall i).customs = (s.stall i).customs := by simp [State.modLot]
@[simp] theorem State.modLot_service (i : Stall) (f : Lot → Lot) : ((s.modLot i f).stall i).service = (s.stall i).service := by simp [State.modLot]
@[simp] theorem State.modLot_xchg (i : Stall) (f : Lot → Lot) : ((s.modLot i f).stall i).xchg = (s.stall i).xchg := by simp [State.modLot]
@[simp] theorem State.modLot_top_pending (i : Stall) (f : Lot → Lot) : (s.modLot i f).pending = s.pending := rfl
@[simp] theorem State.modLot_top_out (i : Stall) (f : Lot → Lot) : (s.modLot i f).out = s.out := rfl
@[simp] theorem State.modLot_top_free (i : Stall) (f : Lot → Lot) : (s.modLot i f).free = s.free := rfl
@[simp] theorem State.modLot_top_time (i : Stall) (f : Lot → Lot) : (s.modLot i f).time = s.time := rfl
@[simp] theorem State.modLot_top_data (i : Stall) (f : Lot → Lot) : (s.modLot i f).data = s.data := rfl
@[simp] theorem State.modLot_top_held (i : Stall) (f : Lot → Lot) : (s.modLot i f).held = s.held := rfl
@[simp] theorem State.modLot_top_caught (i : Stall) (f : Lot → Lot) : (s.modLot i f).caught = s.caught := rfl
@[simp] theorem State.modLot_top_mem (i : Stall) (f : Lot → Lot) : (s.modLot i f).mem = s.mem := rfl
@[simp] theorem State.modLot_top_anatomy (i : Stall) (f : Lot → Lot) : (s.modLot i f).anatomy = s.anatomy := rfl
@[simp] theorem State.modLot_top_cores (i : Stall) (f : Lot → Lot) : (s.modLot i f).cores = s.cores := rfl
@[simp] theorem State.modLot_top_engines (i : Stall) (f : Lot → Lot) : (s.modLot i f).engines = s.engines := rfl
@[simp] theorem State.modLot_top_tiers (i : Stall) (f : Lot → Lot) : (s.modLot i f).tiers = s.tiers := rfl
@[simp] theorem State.modLot_top_fabric (i : Stall) (f : Lot → Lot) : (s.modLot i f).fabric = s.fabric := rfl
@[simp] theorem State.modLot_top_hosts (i : Stall) (f : Lot → Lot) : (s.modLot i f).hosts = s.hosts := rfl
@[simp] theorem State.modLot_top_arbiter (i : Stall) (f : Lot → Lot) : (s.modLot i f).arbiter = s.arbiter := rfl
@[simp] theorem State.modLot_top_tollgate (i : Stall) (f : Lot → Lot) : (s.modLot i f).tollgate = s.tollgate := rfl
@[simp] theorem State.modLot_top_starts (i : Stall) (f : Lot → Lot) : (s.modLot i f).starts = s.starts := rfl
@[simp] theorem State.modLot_top_power (i : Stall) (f : Lot → Lot) : (s.modLot i f).power = s.power := rfl
@[simp] theorem State.modLot_top_pins (i : Stall) (f : Lot → Lot) : (s.modLot i f).pins = s.pins := rfl
@[simp] theorem State.modLot_top_tap (i : Stall) (f : Lot → Lot) : (s.modLot i f).tap = s.tap := rfl
@[simp] theorem State.modLot_top_log (i : Stall) (f : Lot → Lot) : (s.modLot i f).log = s.log := rfl
theorem State.modLot_stall_other (i j : Stall) (f : Lot → Lot) (h : j ≠ i) : (s.modLot i f).stall j = s.stall j :=
  s.modStall_stall_other i j _ h
@[simp] theorem State.modLot_core (i : Stall) (f : Lot → Lot) (j : CoreId) : (s.modLot i f).core j = s.core j := rfl
@[simp] theorem State.modLot_engine (i : Stall) (f : Lot → Lot) (j : EngineId) : (s.modLot i f).engine j = s.engine j := rfl
@[simp] theorem State.modLot_host (i : Stall) (f : Lot → Lot) (j : LinkId) : (s.modLot i f).host j = s.host j := rfl
@[simp] theorem State.modLot_port (i : Stall) (f : Lot → Lot) (j : PortId) : (s.modLot i f).port j = s.port j := rfl
@[simp] theorem State.modLot_optic (i : Stall) (f : Lot → Lot) (j : PortId) : (s.modLot i f).optic j = s.optic j := rfl
@[simp] theorem State.modLot_lnk (i : Stall) (f : Lot → Lot) (j : PortId) : (s.modLot i f).lnk j = s.lnk j := rfl

@[simp] theorem State.modCharter_march (i : Stall) (f : CharterPage → CharterPage) : ((s.modCharter i f).stall i).march = (s.stall i).march := by simp [State.modCharter]
@[simp] theorem State.modCharter_sync (i : Stall) (f : CharterPage → CharterPage) : ((s.modCharter i f).stall i).sync = (s.stall i).sync := by simp [State.modCharter]
@[simp] theorem State.modCharter_seq (i : Stall) (f : CharterPage → CharterPage) : ((s.modCharter i f).stall i).seq = (s.stall i).seq := by simp [State.modCharter]
@[simp] theorem State.modCharter_ledger (i : Stall) (f : CharterPage → CharterPage) : ((s.modCharter i f).stall i).ledger = (s.stall i).ledger := by simp [State.modCharter]
@[simp] theorem State.modCharter_settle (i : Stall) (f : CharterPage → CharterPage) : ((s.modCharter i f).stall i).settle = (s.stall i).settle := by simp [State.modCharter]
@[simp] theorem State.modCharter_tally (i : Stall) (f : CharterPage → CharterPage) : ((s.modCharter i f).stall i).tally = (s.stall i).tally := by simp [State.modCharter]
@[simp] theorem State.modCharter_lot (i : Stall) (f : CharterPage → CharterPage) : ((s.modCharter i f).stall i).lot = (s.stall i).lot := by simp [State.modCharter]
@[simp] theorem State.modCharter_charter (i : Stall) (f : CharterPage → CharterPage) : ((s.modCharter i f).stall i).charter = f (s.stall i).charter := by simp [State.modCharter]
@[simp] theorem State.modCharter_page (i : Stall) (f : CharterPage → CharterPage) : ((s.modCharter i f).stall i).page = (s.stall i).page := by simp [State.modCharter]
@[simp] theorem State.modCharter_posts (i : Stall) (f : CharterPage → CharterPage) : ((s.modCharter i f).stall i).posts = (s.stall i).posts := by simp [State.modCharter]
@[simp] theorem State.modCharter_secure (i : Stall) (f : CharterPage → CharterPage) : ((s.modCharter i f).stall i).secure = (s.stall i).secure := by simp [State.modCharter]
@[simp] theorem State.modCharter_customs (i : Stall) (f : CharterPage → CharterPage) : ((s.modCharter i f).stall i).customs = (s.stall i).customs := by simp [State.modCharter]
@[simp] theorem State.modCharter_service (i : Stall) (f : CharterPage → CharterPage) : ((s.modCharter i f).stall i).service = (s.stall i).service := by simp [State.modCharter]
@[simp] theorem State.modCharter_xchg (i : Stall) (f : CharterPage → CharterPage) : ((s.modCharter i f).stall i).xchg = (s.stall i).xchg := by simp [State.modCharter]
@[simp] theorem State.modCharter_top_pending (i : Stall) (f : CharterPage → CharterPage) : (s.modCharter i f).pending = s.pending := rfl
@[simp] theorem State.modCharter_top_out (i : Stall) (f : CharterPage → CharterPage) : (s.modCharter i f).out = s.out := rfl
@[simp] theorem State.modCharter_top_free (i : Stall) (f : CharterPage → CharterPage) : (s.modCharter i f).free = s.free := rfl
@[simp] theorem State.modCharter_top_time (i : Stall) (f : CharterPage → CharterPage) : (s.modCharter i f).time = s.time := rfl
@[simp] theorem State.modCharter_top_data (i : Stall) (f : CharterPage → CharterPage) : (s.modCharter i f).data = s.data := rfl
@[simp] theorem State.modCharter_top_held (i : Stall) (f : CharterPage → CharterPage) : (s.modCharter i f).held = s.held := rfl
@[simp] theorem State.modCharter_top_caught (i : Stall) (f : CharterPage → CharterPage) : (s.modCharter i f).caught = s.caught := rfl
@[simp] theorem State.modCharter_top_mem (i : Stall) (f : CharterPage → CharterPage) : (s.modCharter i f).mem = s.mem := rfl
@[simp] theorem State.modCharter_top_anatomy (i : Stall) (f : CharterPage → CharterPage) : (s.modCharter i f).anatomy = s.anatomy := rfl
@[simp] theorem State.modCharter_top_cores (i : Stall) (f : CharterPage → CharterPage) : (s.modCharter i f).cores = s.cores := rfl
@[simp] theorem State.modCharter_top_engines (i : Stall) (f : CharterPage → CharterPage) : (s.modCharter i f).engines = s.engines := rfl
@[simp] theorem State.modCharter_top_tiers (i : Stall) (f : CharterPage → CharterPage) : (s.modCharter i f).tiers = s.tiers := rfl
@[simp] theorem State.modCharter_top_fabric (i : Stall) (f : CharterPage → CharterPage) : (s.modCharter i f).fabric = s.fabric := rfl
@[simp] theorem State.modCharter_top_hosts (i : Stall) (f : CharterPage → CharterPage) : (s.modCharter i f).hosts = s.hosts := rfl
@[simp] theorem State.modCharter_top_arbiter (i : Stall) (f : CharterPage → CharterPage) : (s.modCharter i f).arbiter = s.arbiter := rfl
@[simp] theorem State.modCharter_top_tollgate (i : Stall) (f : CharterPage → CharterPage) : (s.modCharter i f).tollgate = s.tollgate := rfl
@[simp] theorem State.modCharter_top_starts (i : Stall) (f : CharterPage → CharterPage) : (s.modCharter i f).starts = s.starts := rfl
@[simp] theorem State.modCharter_top_power (i : Stall) (f : CharterPage → CharterPage) : (s.modCharter i f).power = s.power := rfl
@[simp] theorem State.modCharter_top_pins (i : Stall) (f : CharterPage → CharterPage) : (s.modCharter i f).pins = s.pins := rfl
@[simp] theorem State.modCharter_top_tap (i : Stall) (f : CharterPage → CharterPage) : (s.modCharter i f).tap = s.tap := rfl
@[simp] theorem State.modCharter_top_log (i : Stall) (f : CharterPage → CharterPage) : (s.modCharter i f).log = s.log := rfl
theorem State.modCharter_stall_other (i j : Stall) (f : CharterPage → CharterPage) (h : j ≠ i) : (s.modCharter i f).stall j = s.stall j :=
  s.modStall_stall_other i j _ h
@[simp] theorem State.modCharter_core (i : Stall) (f : CharterPage → CharterPage) (j : CoreId) : (s.modCharter i f).core j = s.core j := rfl
@[simp] theorem State.modCharter_engine (i : Stall) (f : CharterPage → CharterPage) (j : EngineId) : (s.modCharter i f).engine j = s.engine j := rfl
@[simp] theorem State.modCharter_host (i : Stall) (f : CharterPage → CharterPage) (j : LinkId) : (s.modCharter i f).host j = s.host j := rfl
@[simp] theorem State.modCharter_port (i : Stall) (f : CharterPage → CharterPage) (j : PortId) : (s.modCharter i f).port j = s.port j := rfl
@[simp] theorem State.modCharter_optic (i : Stall) (f : CharterPage → CharterPage) (j : PortId) : (s.modCharter i f).optic j = s.optic j := rfl
@[simp] theorem State.modCharter_lnk (i : Stall) (f : CharterPage → CharterPage) (j : PortId) : (s.modCharter i f).lnk j = s.lnk j := rfl

@[simp] theorem State.modPage_march (i : Stall) (f : StallPage → StallPage) : ((s.modPage i f).stall i).march = (s.stall i).march := by simp [State.modPage]
@[simp] theorem State.modPage_sync (i : Stall) (f : StallPage → StallPage) : ((s.modPage i f).stall i).sync = (s.stall i).sync := by simp [State.modPage]
@[simp] theorem State.modPage_seq (i : Stall) (f : StallPage → StallPage) : ((s.modPage i f).stall i).seq = (s.stall i).seq := by simp [State.modPage]
@[simp] theorem State.modPage_ledger (i : Stall) (f : StallPage → StallPage) : ((s.modPage i f).stall i).ledger = (s.stall i).ledger := by simp [State.modPage]
@[simp] theorem State.modPage_settle (i : Stall) (f : StallPage → StallPage) : ((s.modPage i f).stall i).settle = (s.stall i).settle := by simp [State.modPage]
@[simp] theorem State.modPage_tally (i : Stall) (f : StallPage → StallPage) : ((s.modPage i f).stall i).tally = (s.stall i).tally := by simp [State.modPage]
@[simp] theorem State.modPage_lot (i : Stall) (f : StallPage → StallPage) : ((s.modPage i f).stall i).lot = (s.stall i).lot := by simp [State.modPage]
@[simp] theorem State.modPage_charter (i : Stall) (f : StallPage → StallPage) : ((s.modPage i f).stall i).charter = (s.stall i).charter := by simp [State.modPage]
@[simp] theorem State.modPage_page (i : Stall) (f : StallPage → StallPage) : ((s.modPage i f).stall i).page = f (s.stall i).page := by simp [State.modPage]
@[simp] theorem State.modPage_posts (i : Stall) (f : StallPage → StallPage) : ((s.modPage i f).stall i).posts = (s.stall i).posts := by simp [State.modPage]
@[simp] theorem State.modPage_secure (i : Stall) (f : StallPage → StallPage) : ((s.modPage i f).stall i).secure = (s.stall i).secure := by simp [State.modPage]
@[simp] theorem State.modPage_customs (i : Stall) (f : StallPage → StallPage) : ((s.modPage i f).stall i).customs = (s.stall i).customs := by simp [State.modPage]
@[simp] theorem State.modPage_service (i : Stall) (f : StallPage → StallPage) : ((s.modPage i f).stall i).service = (s.stall i).service := by simp [State.modPage]
@[simp] theorem State.modPage_xchg (i : Stall) (f : StallPage → StallPage) : ((s.modPage i f).stall i).xchg = (s.stall i).xchg := by simp [State.modPage]
@[simp] theorem State.modPage_top_pending (i : Stall) (f : StallPage → StallPage) : (s.modPage i f).pending = s.pending := rfl
@[simp] theorem State.modPage_top_out (i : Stall) (f : StallPage → StallPage) : (s.modPage i f).out = s.out := rfl
@[simp] theorem State.modPage_top_free (i : Stall) (f : StallPage → StallPage) : (s.modPage i f).free = s.free := rfl
@[simp] theorem State.modPage_top_time (i : Stall) (f : StallPage → StallPage) : (s.modPage i f).time = s.time := rfl
@[simp] theorem State.modPage_top_data (i : Stall) (f : StallPage → StallPage) : (s.modPage i f).data = s.data := rfl
@[simp] theorem State.modPage_top_held (i : Stall) (f : StallPage → StallPage) : (s.modPage i f).held = s.held := rfl
@[simp] theorem State.modPage_top_caught (i : Stall) (f : StallPage → StallPage) : (s.modPage i f).caught = s.caught := rfl
@[simp] theorem State.modPage_top_mem (i : Stall) (f : StallPage → StallPage) : (s.modPage i f).mem = s.mem := rfl
@[simp] theorem State.modPage_top_anatomy (i : Stall) (f : StallPage → StallPage) : (s.modPage i f).anatomy = s.anatomy := rfl
@[simp] theorem State.modPage_top_cores (i : Stall) (f : StallPage → StallPage) : (s.modPage i f).cores = s.cores := rfl
@[simp] theorem State.modPage_top_engines (i : Stall) (f : StallPage → StallPage) : (s.modPage i f).engines = s.engines := rfl
@[simp] theorem State.modPage_top_tiers (i : Stall) (f : StallPage → StallPage) : (s.modPage i f).tiers = s.tiers := rfl
@[simp] theorem State.modPage_top_fabric (i : Stall) (f : StallPage → StallPage) : (s.modPage i f).fabric = s.fabric := rfl
@[simp] theorem State.modPage_top_hosts (i : Stall) (f : StallPage → StallPage) : (s.modPage i f).hosts = s.hosts := rfl
@[simp] theorem State.modPage_top_arbiter (i : Stall) (f : StallPage → StallPage) : (s.modPage i f).arbiter = s.arbiter := rfl
@[simp] theorem State.modPage_top_tollgate (i : Stall) (f : StallPage → StallPage) : (s.modPage i f).tollgate = s.tollgate := rfl
@[simp] theorem State.modPage_top_starts (i : Stall) (f : StallPage → StallPage) : (s.modPage i f).starts = s.starts := rfl
@[simp] theorem State.modPage_top_power (i : Stall) (f : StallPage → StallPage) : (s.modPage i f).power = s.power := rfl
@[simp] theorem State.modPage_top_pins (i : Stall) (f : StallPage → StallPage) : (s.modPage i f).pins = s.pins := rfl
@[simp] theorem State.modPage_top_tap (i : Stall) (f : StallPage → StallPage) : (s.modPage i f).tap = s.tap := rfl
@[simp] theorem State.modPage_top_log (i : Stall) (f : StallPage → StallPage) : (s.modPage i f).log = s.log := rfl
theorem State.modPage_stall_other (i j : Stall) (f : StallPage → StallPage) (h : j ≠ i) : (s.modPage i f).stall j = s.stall j :=
  s.modStall_stall_other i j _ h
@[simp] theorem State.modPage_core (i : Stall) (f : StallPage → StallPage) (j : CoreId) : (s.modPage i f).core j = s.core j := rfl
@[simp] theorem State.modPage_engine (i : Stall) (f : StallPage → StallPage) (j : EngineId) : (s.modPage i f).engine j = s.engine j := rfl
@[simp] theorem State.modPage_host (i : Stall) (f : StallPage → StallPage) (j : LinkId) : (s.modPage i f).host j = s.host j := rfl
@[simp] theorem State.modPage_port (i : Stall) (f : StallPage → StallPage) (j : PortId) : (s.modPage i f).port j = s.port j := rfl
@[simp] theorem State.modPage_optic (i : Stall) (f : StallPage → StallPage) (j : PortId) : (s.modPage i f).optic j = s.optic j := rfl
@[simp] theorem State.modPage_lnk (i : Stall) (f : StallPage → StallPage) (j : PortId) : (s.modPage i f).lnk j = s.lnk j := rfl

@[simp] theorem State.modCustoms_march (i : Stall) (f : Customs → Customs) : ((s.modCustoms i f).stall i).march = (s.stall i).march := by simp [State.modCustoms]
@[simp] theorem State.modCustoms_sync (i : Stall) (f : Customs → Customs) : ((s.modCustoms i f).stall i).sync = (s.stall i).sync := by simp [State.modCustoms]
@[simp] theorem State.modCustoms_seq (i : Stall) (f : Customs → Customs) : ((s.modCustoms i f).stall i).seq = (s.stall i).seq := by simp [State.modCustoms]
@[simp] theorem State.modCustoms_ledger (i : Stall) (f : Customs → Customs) : ((s.modCustoms i f).stall i).ledger = (s.stall i).ledger := by simp [State.modCustoms]
@[simp] theorem State.modCustoms_settle (i : Stall) (f : Customs → Customs) : ((s.modCustoms i f).stall i).settle = (s.stall i).settle := by simp [State.modCustoms]
@[simp] theorem State.modCustoms_tally (i : Stall) (f : Customs → Customs) : ((s.modCustoms i f).stall i).tally = (s.stall i).tally := by simp [State.modCustoms]
@[simp] theorem State.modCustoms_lot (i : Stall) (f : Customs → Customs) : ((s.modCustoms i f).stall i).lot = (s.stall i).lot := by simp [State.modCustoms]
@[simp] theorem State.modCustoms_charter (i : Stall) (f : Customs → Customs) : ((s.modCustoms i f).stall i).charter = (s.stall i).charter := by simp [State.modCustoms]
@[simp] theorem State.modCustoms_page (i : Stall) (f : Customs → Customs) : ((s.modCustoms i f).stall i).page = (s.stall i).page := by simp [State.modCustoms]
@[simp] theorem State.modCustoms_posts (i : Stall) (f : Customs → Customs) : ((s.modCustoms i f).stall i).posts = (s.stall i).posts := by simp [State.modCustoms]
@[simp] theorem State.modCustoms_secure (i : Stall) (f : Customs → Customs) : ((s.modCustoms i f).stall i).secure = (s.stall i).secure := by simp [State.modCustoms]
@[simp] theorem State.modCustoms_customs (i : Stall) (f : Customs → Customs) : ((s.modCustoms i f).stall i).customs = f (s.stall i).customs := by simp [State.modCustoms]
@[simp] theorem State.modCustoms_service (i : Stall) (f : Customs → Customs) : ((s.modCustoms i f).stall i).service = (s.stall i).service := by simp [State.modCustoms]
@[simp] theorem State.modCustoms_xchg (i : Stall) (f : Customs → Customs) : ((s.modCustoms i f).stall i).xchg = (s.stall i).xchg := by simp [State.modCustoms]
@[simp] theorem State.modCustoms_top_pending (i : Stall) (f : Customs → Customs) : (s.modCustoms i f).pending = s.pending := rfl
@[simp] theorem State.modCustoms_top_out (i : Stall) (f : Customs → Customs) : (s.modCustoms i f).out = s.out := rfl
@[simp] theorem State.modCustoms_top_free (i : Stall) (f : Customs → Customs) : (s.modCustoms i f).free = s.free := rfl
@[simp] theorem State.modCustoms_top_time (i : Stall) (f : Customs → Customs) : (s.modCustoms i f).time = s.time := rfl
@[simp] theorem State.modCustoms_top_data (i : Stall) (f : Customs → Customs) : (s.modCustoms i f).data = s.data := rfl
@[simp] theorem State.modCustoms_top_held (i : Stall) (f : Customs → Customs) : (s.modCustoms i f).held = s.held := rfl
@[simp] theorem State.modCustoms_top_caught (i : Stall) (f : Customs → Customs) : (s.modCustoms i f).caught = s.caught := rfl
@[simp] theorem State.modCustoms_top_mem (i : Stall) (f : Customs → Customs) : (s.modCustoms i f).mem = s.mem := rfl
@[simp] theorem State.modCustoms_top_anatomy (i : Stall) (f : Customs → Customs) : (s.modCustoms i f).anatomy = s.anatomy := rfl
@[simp] theorem State.modCustoms_top_cores (i : Stall) (f : Customs → Customs) : (s.modCustoms i f).cores = s.cores := rfl
@[simp] theorem State.modCustoms_top_engines (i : Stall) (f : Customs → Customs) : (s.modCustoms i f).engines = s.engines := rfl
@[simp] theorem State.modCustoms_top_tiers (i : Stall) (f : Customs → Customs) : (s.modCustoms i f).tiers = s.tiers := rfl
@[simp] theorem State.modCustoms_top_fabric (i : Stall) (f : Customs → Customs) : (s.modCustoms i f).fabric = s.fabric := rfl
@[simp] theorem State.modCustoms_top_hosts (i : Stall) (f : Customs → Customs) : (s.modCustoms i f).hosts = s.hosts := rfl
@[simp] theorem State.modCustoms_top_arbiter (i : Stall) (f : Customs → Customs) : (s.modCustoms i f).arbiter = s.arbiter := rfl
@[simp] theorem State.modCustoms_top_tollgate (i : Stall) (f : Customs → Customs) : (s.modCustoms i f).tollgate = s.tollgate := rfl
@[simp] theorem State.modCustoms_top_starts (i : Stall) (f : Customs → Customs) : (s.modCustoms i f).starts = s.starts := rfl
@[simp] theorem State.modCustoms_top_power (i : Stall) (f : Customs → Customs) : (s.modCustoms i f).power = s.power := rfl
@[simp] theorem State.modCustoms_top_pins (i : Stall) (f : Customs → Customs) : (s.modCustoms i f).pins = s.pins := rfl
@[simp] theorem State.modCustoms_top_tap (i : Stall) (f : Customs → Customs) : (s.modCustoms i f).tap = s.tap := rfl
@[simp] theorem State.modCustoms_top_log (i : Stall) (f : Customs → Customs) : (s.modCustoms i f).log = s.log := rfl
theorem State.modCustoms_stall_other (i j : Stall) (f : Customs → Customs) (h : j ≠ i) : (s.modCustoms i f).stall j = s.stall j :=
  s.modStall_stall_other i j _ h
@[simp] theorem State.modCustoms_core (i : Stall) (f : Customs → Customs) (j : CoreId) : (s.modCustoms i f).core j = s.core j := rfl
@[simp] theorem State.modCustoms_engine (i : Stall) (f : Customs → Customs) (j : EngineId) : (s.modCustoms i f).engine j = s.engine j := rfl
@[simp] theorem State.modCustoms_host (i : Stall) (f : Customs → Customs) (j : LinkId) : (s.modCustoms i f).host j = s.host j := rfl
@[simp] theorem State.modCustoms_port (i : Stall) (f : Customs → Customs) (j : PortId) : (s.modCustoms i f).port j = s.port j := rfl
@[simp] theorem State.modCustoms_optic (i : Stall) (f : Customs → Customs) (j : PortId) : (s.modCustoms i f).optic j = s.optic j := rfl
@[simp] theorem State.modCustoms_lnk (i : Stall) (f : Customs → Customs) (j : PortId) : (s.modCustoms i f).lnk j = s.lnk j := rfl

@[simp] theorem State.modService_march (i : Stall) (f : Service → Service) : ((s.modService i f).stall i).march = (s.stall i).march := by simp [State.modService]
@[simp] theorem State.modService_sync (i : Stall) (f : Service → Service) : ((s.modService i f).stall i).sync = (s.stall i).sync := by simp [State.modService]
@[simp] theorem State.modService_seq (i : Stall) (f : Service → Service) : ((s.modService i f).stall i).seq = (s.stall i).seq := by simp [State.modService]
@[simp] theorem State.modService_ledger (i : Stall) (f : Service → Service) : ((s.modService i f).stall i).ledger = (s.stall i).ledger := by simp [State.modService]
@[simp] theorem State.modService_settle (i : Stall) (f : Service → Service) : ((s.modService i f).stall i).settle = (s.stall i).settle := by simp [State.modService]
@[simp] theorem State.modService_tally (i : Stall) (f : Service → Service) : ((s.modService i f).stall i).tally = (s.stall i).tally := by simp [State.modService]
@[simp] theorem State.modService_lot (i : Stall) (f : Service → Service) : ((s.modService i f).stall i).lot = (s.stall i).lot := by simp [State.modService]
@[simp] theorem State.modService_charter (i : Stall) (f : Service → Service) : ((s.modService i f).stall i).charter = (s.stall i).charter := by simp [State.modService]
@[simp] theorem State.modService_page (i : Stall) (f : Service → Service) : ((s.modService i f).stall i).page = (s.stall i).page := by simp [State.modService]
@[simp] theorem State.modService_posts (i : Stall) (f : Service → Service) : ((s.modService i f).stall i).posts = (s.stall i).posts := by simp [State.modService]
@[simp] theorem State.modService_secure (i : Stall) (f : Service → Service) : ((s.modService i f).stall i).secure = (s.stall i).secure := by simp [State.modService]
@[simp] theorem State.modService_customs (i : Stall) (f : Service → Service) : ((s.modService i f).stall i).customs = (s.stall i).customs := by simp [State.modService]
@[simp] theorem State.modService_service (i : Stall) (f : Service → Service) : ((s.modService i f).stall i).service = f (s.stall i).service := by simp [State.modService]
@[simp] theorem State.modService_xchg (i : Stall) (f : Service → Service) : ((s.modService i f).stall i).xchg = (s.stall i).xchg := by simp [State.modService]
@[simp] theorem State.modService_top_pending (i : Stall) (f : Service → Service) : (s.modService i f).pending = s.pending := rfl
@[simp] theorem State.modService_top_out (i : Stall) (f : Service → Service) : (s.modService i f).out = s.out := rfl
@[simp] theorem State.modService_top_free (i : Stall) (f : Service → Service) : (s.modService i f).free = s.free := rfl
@[simp] theorem State.modService_top_time (i : Stall) (f : Service → Service) : (s.modService i f).time = s.time := rfl
@[simp] theorem State.modService_top_data (i : Stall) (f : Service → Service) : (s.modService i f).data = s.data := rfl
@[simp] theorem State.modService_top_held (i : Stall) (f : Service → Service) : (s.modService i f).held = s.held := rfl
@[simp] theorem State.modService_top_caught (i : Stall) (f : Service → Service) : (s.modService i f).caught = s.caught := rfl
@[simp] theorem State.modService_top_mem (i : Stall) (f : Service → Service) : (s.modService i f).mem = s.mem := rfl
@[simp] theorem State.modService_top_anatomy (i : Stall) (f : Service → Service) : (s.modService i f).anatomy = s.anatomy := rfl
@[simp] theorem State.modService_top_cores (i : Stall) (f : Service → Service) : (s.modService i f).cores = s.cores := rfl
@[simp] theorem State.modService_top_engines (i : Stall) (f : Service → Service) : (s.modService i f).engines = s.engines := rfl
@[simp] theorem State.modService_top_tiers (i : Stall) (f : Service → Service) : (s.modService i f).tiers = s.tiers := rfl
@[simp] theorem State.modService_top_fabric (i : Stall) (f : Service → Service) : (s.modService i f).fabric = s.fabric := rfl
@[simp] theorem State.modService_top_hosts (i : Stall) (f : Service → Service) : (s.modService i f).hosts = s.hosts := rfl
@[simp] theorem State.modService_top_arbiter (i : Stall) (f : Service → Service) : (s.modService i f).arbiter = s.arbiter := rfl
@[simp] theorem State.modService_top_tollgate (i : Stall) (f : Service → Service) : (s.modService i f).tollgate = s.tollgate := rfl
@[simp] theorem State.modService_top_starts (i : Stall) (f : Service → Service) : (s.modService i f).starts = s.starts := rfl
@[simp] theorem State.modService_top_power (i : Stall) (f : Service → Service) : (s.modService i f).power = s.power := rfl
@[simp] theorem State.modService_top_pins (i : Stall) (f : Service → Service) : (s.modService i f).pins = s.pins := rfl
@[simp] theorem State.modService_top_tap (i : Stall) (f : Service → Service) : (s.modService i f).tap = s.tap := rfl
@[simp] theorem State.modService_top_log (i : Stall) (f : Service → Service) : (s.modService i f).log = s.log := rfl
theorem State.modService_stall_other (i j : Stall) (f : Service → Service) (h : j ≠ i) : (s.modService i f).stall j = s.stall j :=
  s.modStall_stall_other i j _ h
@[simp] theorem State.modService_core (i : Stall) (f : Service → Service) (j : CoreId) : (s.modService i f).core j = s.core j := rfl
@[simp] theorem State.modService_engine (i : Stall) (f : Service → Service) (j : EngineId) : (s.modService i f).engine j = s.engine j := rfl
@[simp] theorem State.modService_host (i : Stall) (f : Service → Service) (j : LinkId) : (s.modService i f).host j = s.host j := rfl
@[simp] theorem State.modService_port (i : Stall) (f : Service → Service) (j : PortId) : (s.modService i f).port j = s.port j := rfl
@[simp] theorem State.modService_optic (i : Stall) (f : Service → Service) (j : PortId) : (s.modService i f).optic j = s.optic j := rfl
@[simp] theorem State.modService_lnk (i : Stall) (f : Service → Service) (j : PortId) : (s.modService i f).lnk j = s.lnk j := rfl

end Sys2Proof.Machine
end

