-- ==== Sys2Proof/Laws/Frames.lean ====
section
/-! SUPPORT. Frames: what each named operation changes. A frame of a command follows by citing one lemma for each
operation that the command is made of. -/

namespace Sys2Proof.Machine

open Sys2Proof.Safety

variable {s t : State} {l : List Part}

/-! ### Composition -/

@[simp] theorem unchanged_refl (s : State) (l : List Part) : Unchanged s s l := by
  intro p _
  cases p with
  | stall i k => cases k <;> rfl
  | groups => exact ⟨rfl, rfl, rfl, rfl, rfl, rfl, rfl⟩
  | delivered => exact ⟨rfl, rfl⟩
  | messages => exact ⟨rfl, rfl⟩
  | _ => rfl

theorem Unchanged.mono {l' : List Part} (h : Unchanged s t l) (hl : ∀ p ∈ l, p ∈ l') : Unchanged s t l' :=
  fun p hp => h p fun hm => hp (hl p hm)

theorem unchanged_modStall {i : Stall} {k : StallPart} (f : StallState → StallState)
    (hf : ∀ x j, j ≠ k → sameIn x (f x) j) (hm : Part.stall i k ∈ l) (h : Unchanged s t l) : Unchanged s (t.modStall i f) l := by
  intro p hp
  have h0 := h p hp
  cases p with
  | stall j n =>
    by_cases hj : j = i
    · subst hj
      have hn : n ≠ k := fun e => hp (e ▸ hm)
      have h1 := hf (t.stall j) n hn
      rw [← State.modStall_stall_self t j f] at h1
      revert h0 h1
      cases n <;> simp only [sameAt, sameIn] <;> exact fun a b => b.trans a
    · simp only [sameAt, State.modStall_stall_other t i j f hj]
      exact h0
  | _ => exact h0

@[simp] theorem unchanged_modMarch {i : Stall} (f : March → March) (hm : Part.stall i .march ∈ l) (h : Unchanged s t l) :
    Unchanged s (t.modMarch i f) l :=
  unchanged_modStall _ (fun x j hj => by cases j <;> first | rfl | exact absurd rfl hj) hm h

@[simp] theorem unchanged_modSeq {i : Stall} (f : Sequencer → Sequencer) (hm : Part.stall i .seq ∈ l) (h : Unchanged s t l) :
    Unchanged s (t.modSeq i f) l :=
  unchanged_modStall _ (fun x j hj => by cases j <;> first | rfl | exact absurd rfl hj) hm h

@[simp] theorem unchanged_modSync {i : Stall} (f : Sync → Sync) (hm : Part.stall i .sync ∈ l) (h : Unchanged s t l) :
    Unchanged s (t.modSync i f) l :=
  unchanged_modStall _ (fun x j hj => by cases j <;> first | rfl | exact absurd rfl hj) hm h

@[simp] theorem unchanged_modLedger {i : Stall} (f : Ledger → Ledger) (hm : Part.stall i .ledger ∈ l) (h : Unchanged s t l) :
    Unchanged s (t.modLedger i f) l :=
  unchanged_modStall _ (fun x j hj => by cases j <;> first | rfl | exact absurd rfl hj) hm h

@[simp] theorem unchanged_modSettle {i : Stall} (f : Settlement → Settlement) (hm : Part.stall i .settle ∈ l) (h : Unchanged s t l) :
    Unchanged s (t.modSettle i f) l :=
  unchanged_modStall _ (fun x j hj => by cases j <;> first | rfl | exact absurd rfl hj) hm h

@[simp] theorem unchanged_modTally {i : Stall} (f : Tally → Tally) (hm : Part.stall i .tally ∈ l) (h : Unchanged s t l) :
    Unchanged s (t.modTally i f) l :=
  unchanged_modStall _ (fun x j hj => by cases j <;> first | rfl | exact absurd rfl hj) hm h

@[simp] theorem unchanged_modLot {i : Stall} (f : Lot → Lot) (hm : Part.stall i .lot ∈ l) (h : Unchanged s t l) :
    Unchanged s (t.modLot i f) l :=
  unchanged_modStall _ (fun x j hj => by cases j <;> first | rfl | exact absurd rfl hj) hm h

@[simp] theorem unchanged_modCharter {i : Stall} (f : CharterPage → CharterPage) (hm : Part.stall i .charter ∈ l) (h : Unchanged s t l) :
    Unchanged s (t.modCharter i f) l :=
  unchanged_modStall _ (fun x j hj => by cases j <;> first | rfl | exact absurd rfl hj) hm h

@[simp] theorem unchanged_modPage {i : Stall} (f : StallPage → StallPage) (hm : Part.stall i .page ∈ l) (h : Unchanged s t l) :
    Unchanged s (t.modPage i f) l :=
  unchanged_modStall _ (fun x j hj => by cases j <;> first | rfl | exact absurd rfl hj) hm h

@[simp] theorem unchanged_modCustoms {i : Stall} (f : Customs → Customs) (hm : Part.stall i .customs ∈ l) (h : Unchanged s t l) :
    Unchanged s (t.modCustoms i f) l :=
  unchanged_modStall _ (fun x j hj => by cases j <;> first | rfl | exact absurd rfl hj) hm h

@[simp] theorem unchanged_modService {i : Stall} (f : Service → Service) (hm : Part.stall i .service ∈ l) (h : Unchanged s t l) :
    Unchanged s (t.modService i f) l :=
  unchanged_modStall _ (fun x j hj => by cases j <;> first | rfl | exact absurd rfl hj) hm h

@[simp] theorem unchanged_modPost {i : Stall} {b : Bool} {n : Fin 24} (f : Post → Post)
    (hm : Part.stall i (if b then .secure else .posts) ∈ l) (h : Unchanged s t l) : Unchanged s (t.modPost i b n f) l := by
  refine unchanged_modStall _ (fun x j hj => ?_) hm h
  cases b
  · cases j <;> first | rfl | exact absurd rfl hj
  · by_cases h8 : n.val < 8
    · cases j <;> simp [sameIn, h8]
      exact absurd rfl hj
    · cases j <;> simp [sameIn, h8]

@[simp] theorem unchanged_modCore {i : CoreId} (f : Core → Core) (hm : Part.core i ∈ l) (h : Unchanged s t l) :
    Unchanged s (t.modCore i f) l := by
  intro p hp
  have h0 := h p hp
  cases p with
  | core j =>
    have hj : j ≠ i := fun e => hp (e ▸ hm)
    simp only [sameAt, State.modCore_core_other t i j f hj]
    exact h0
  | _ => exact h0

@[simp] theorem unchanged_modEngine {i : EngineId} (f : CopyEngine → CopyEngine) (hm : Part.engine i ∈ l) (h : Unchanged s t l) :
    Unchanged s (t.modEngine i f) l := by
  intro p hp
  have h0 := h p hp
  cases p with
  | engine j =>
    have hj : j ≠ i := fun e => hp (e ▸ hm)
    simp only [sameAt, State.modEngine_engine_other t i j f hj]
    exact h0
  | _ => exact h0

@[simp] theorem unchanged_modHost {i : LinkId} (f : HostLink → HostLink) (hm : Part.host i ∈ l) (h : Unchanged s t l) :
    Unchanged s (t.modHost i f) l := by
  intro p hp
  have h0 := h p hp
  cases p with
  | host j =>
    have hj : j ≠ i := fun e => hp (e ▸ hm)
    simp only [sameAt, State.modHost_host_other t i j f hj]
    exact h0
  | _ => exact h0

@[simp] theorem unchanged_modPort {i : PortId} (f : Port → Port) (hm : Part.port i ∈ l) (h : Unchanged s t l) :
    Unchanged s (t.modPort i f) l := by
  intro p hp
  have h0 := h p hp
  cases p with
  | port j =>
    have hj : j ≠ i := fun e => hp (e ▸ hm)
    simp only [sameAt, State.modPort_port_other t i j f hj]
    exact h0
  | _ => exact h0

@[simp] theorem unchanged_modOptic {i : PortId} (f : Optics → Optics) (hm : Part.optic i ∈ l) (h : Unchanged s t l) :
    Unchanged s (t.modOptic i f) l := by
  intro p hp
  have h0 := h p hp
  cases p with
  | optic j =>
    have hj : j ≠ i := fun e => hp (e ▸ hm)
    simp only [sameAt, State.modOptic_optic_other t i j f hj]
    exact h0
  | _ => exact h0

@[simp] theorem unchanged_modLnk {i : PortId} (f : LinkLayer → LinkLayer) (hm : Part.lnk i ∈ l) (h : Unchanged s t l) :
    Unchanged s (t.modLnk i f) l := by
  intro p hp
  have h0 := h p hp
  cases p with
  | lnk j =>
    have hj : j ≠ i := fun e => hp (e ▸ hm)
    simp only [sameAt, State.modLnk_lnk_other t i j f hj]
    exact h0
  | _ => exact h0

@[simp] theorem unchanged_modStack {i : Fin 8} (f : NearStack → NearStack) (hm : Part.stack i ∈ l) (h : Unchanged s t l) :
    Unchanged s (t.modStack i f) l := by
  intro p hp
  have h0 := h p hp
  cases p with
  | stack j =>
    have hj : i.val ≠ j.val := fun e => hp (Fin.ext e ▸ hm)
    refine Eq.trans ?_ h0
    simp [State.modStack, Vector.getElem_set_ne, hj]
  | _ => exact h0

@[simp] theorem unchanged_modChannel {i : Fin 24} (f : SeraiChannel → SeraiChannel) (hm : Part.channel i ∈ l) (h : Unchanged s t l) :
    Unchanged s (t.modChannel i f) l := by
  intro p hp
  have h0 := h p hp
  cases p with
  | channel j =>
    have hj : i.val ≠ j.val := fun e => hp (Fin.ext e ▸ hm)
    refine Eq.trans ?_ h0
    simp [State.modChannel, Vector.getElem_set_ne, hj]
  | _ => exact h0

@[simp] theorem unchanged_modRelay (f : Relay → Relay) (hm : Part.relay ∈ l) (h : Unchanged s t l) :
    Unchanged s (t.modRelay f) l := by
  intro p hp
  have h0 := h p hp
  cases p with
  | relay => exact absurd hm hp
  | _ => exact h0

/-! ### One field of the state -/

theorem unchanged_set_out (x : List Out) (hm : Part.out ∈ l) (h : Unchanged s t l) : Unchanged s { t with out := x } l := by
  intro p hp
  have h0 := h p hp
  cases p with
  | out => exact absurd hm hp
  | _ => exact h0

theorem unchanged_set_free (x : Nat) (hm : Part.free ∈ l) (h : Unchanged s t l) : Unchanged s { t with free := x } l := by
  intro p hp
  have h0 := h p hp
  cases p with
  | free => exact absurd hm hp
  | _ => exact h0

theorem unchanged_set_time (x : BitVec 64) (hm : Part.time ∈ l) (h : Unchanged s t l) : Unchanged s { t with time := x } l := by
  intro p hp
  have h0 := h p hp
  cases p with
  | time => exact absurd hm hp
  | _ => exact h0

theorem unchanged_set_data (x : Word) (hm : Part.data ∈ l) (h : Unchanged s t l) : Unchanged s { t with data := x } l := by
  intro p hp
  have h0 := h p hp
  cases p with
  | data => exact absurd hm hp
  | _ => exact h0

theorem unchanged_set_held (x : List (Nat × Word)) (hm : Part.held ∈ l) (h : Unchanged s t l) : Unchanged s { t with held := x } l := by
  intro p hp
  have h0 := h p hp
  cases p with
  | held => exact absurd hm hp
  | _ => exact h0

theorem unchanged_set_caught (x : List (Nat × Word)) (hm : Part.caught ∈ l) (h : Unchanged s t l) : Unchanged s { t with caught := x } l := by
  intro p hp
  have h0 := h p hp
  cases p with
  | caught => exact absurd hm hp
  | _ => exact h0

theorem unchanged_set_mem (x : List Host.Cell) (hm : Part.mem ∈ l) (h : Unchanged s t l) : Unchanged s { t with mem := x } l := by
  intro p hp
  have h0 := h p hp
  cases p with
  | mem => exact absurd hm hp
  | _ => exact h0

theorem unchanged_set_anatomy (x : Anatomy) (hm : Part.anatomy ∈ l) (h : Unchanged s t l) : Unchanged s { t with anatomy := x } l := by
  intro p hp
  have h0 := h p hp
  cases p with
  | anatomy => exact absurd hm hp
  | _ => exact h0

theorem unchanged_set_arbiter (x : Vector Stall 6) (hm : Part.arbiter ∈ l) (h : Unchanged s t l) : Unchanged s { t with arbiter := x } l := by
  intro p hp
  have h0 := h p hp
  cases p with
  | arbiter => exact absurd hm hp
  | _ => exact h0

theorem unchanged_set_tollgate (x : Tollgate) (hm : Part.tollgate ∈ l) (h : Unchanged s t l) : Unchanged s { t with tollgate := x } l := by
  intro p hp
  have h0 := h p hp
  cases p with
  | tollgate => exact absurd hm hp
  | _ => exact h0

theorem unchanged_set_starts (x : Starts) (hm : Part.starts ∈ l) (h : Unchanged s t l) : Unchanged s { t with starts := x } l := by
  intro p hp
  have h0 := h p hp
  cases p with
  | starts => exact absurd hm hp
  | _ => exact h0

theorem unchanged_set_power (x : Power) (hm : Part.power ∈ l) (h : Unchanged s t l) : Unchanged s { t with power := x } l := by
  intro p hp
  have h0 := h p hp
  cases p with
  | power => exact absurd hm hp
  | _ => exact h0

theorem unchanged_set_pins (x : Pins) (hm : Part.pins ∈ l) (h : Unchanged s t l) : Unchanged s { t with pins := x } l := by
  intro p hp
  have h0 := h p hp
  cases p with
  | pins => exact absurd hm hp
  | _ => exact h0

theorem unchanged_set_tap (x : Tap) (hm : Part.tap ∈ l) (h : Unchanged s t l) : Unchanged s { t with tap := x } l := by
  intro p hp
  have h0 := h p hp
  cases p with
  | tap => exact absurd hm hp
  | _ => exact h0

theorem unchanged_set_log (x : FaultLog) (hm : Part.log ∈ l) (h : Unchanged s t l) : Unchanged s { t with log := x } l := by
  intro p hp
  have h0 := h p hp
  cases p with
  | log => exact absurd hm hp
  | _ => exact h0

/-! ### Shared operations -/

@[simp] theorem unchanged_send (o : Out) (hm : Part.out ∈ l) (h : Unchanged s t l) : Unchanged s (t.send o) l :=
  unchanged_set_out _ hm h

@[simp] theorem unchanged_atTime (b : BitVec 64) (hm : Part.time ∈ l) (h : Unchanged s t l) : Unchanged s (t.atTime b) l :=
  unchanged_set_time _ hm h

@[simp] theorem unchanged_raise (i : Stall) (v : BitVec 6) (hm : Part.out ∈ l) (h : Unchanged s t l) :
    Unchanged s (t.raise i v) l := by
  unfold State.raise
  (repeat' split) <;> simp [hm, h]

@[simp] theorem unchanged_raiseEvent (i : Stall) (k : Nat) (hm : Part.out ∈ l) (h : Unchanged s t l) :
    Unchanged s (t.raiseEvent i k) l := by
  unfold State.raiseEvent
  simp only []
  split <;> simp [hm, h]

@[simp] theorem unchanged_record (r : Rec) (hm : Part.log ∈ l) (ho : Part.out ∈ l) (h : Unchanged s t l) :
    Unchanged s (t.record r) l := by
  unfold State.record
  have h1 := unchanged_set_log { t.log with
    ring := (recBits t r :: t.log.ring).take 1024
    newest := t.log.newest + 1
    injected := if r.injected then satAdd t.log.injected 1 else t.log.injected } hm h
  simp only []
  split
  · exact unchanged_raiseEvent _ _ ho h1
  · exact h1

@[simp] theorem unchanged_recordPause (r : Rec) (hf : Part.free ∈ l) (hm : Part.log ∈ l) (ho : Part.out ∈ l)
    (h : Unchanged s t l) : Unchanged s (t.recordPause r) l :=
  unchanged_record _ hm ho (unchanged_set_free _ hf h)

@[simp] theorem unchanged_retire (k : BitVec 8) (x : BitVec 16) (r : Reason) (rej : Bool) (hm : Part.log ∈ l) (h : Unchanged s t l) :
    Unchanged s (t.retire k x r rej) l := by
  unfold State.retire
  split
  · exact h
  · exact unchanged_set_log _ hm h

@[simp] theorem unchanged_denied (i : Stall) (u : Nat) (c : BitVec 4) (va : Nat) (hm : Part.stall i .customs ∈ l)
    (h : Unchanged s t l) : Unchanged s (t.denied i u c va) l := unchanged_modCustoms _ hm h

theorem unchanged_forEach {α : Type} (xs : List α) (f : State → α → State)
    (hf : ∀ u x, Unchanged s u l → Unchanged s (f u x) l) (h : Unchanged s t l) : Unchanged s (forEach xs t f) l := by
  unfold forEach
  induction xs generalizing t with
  | nil => exact h
  | cons x xs ih => exact ih (hf t x h)

@[simp] theorem unchanged_foreignWrite (k : LinkId) (off : BitVec 26) (c : BitVec 4) (hk : Part.host k ∈ l)
    (hm : Part.log ∈ l) (ho : Part.out ∈ l) (h : Unchanged s t l) : Unchanged s (t.foreignWrite k off c) l := by
  have h1 := unchanged_modHost (fun x => { x with
    foreign := satAdd x.foreign 1, foreignLast := put c 28 ||| put (fld off 2 24) 2 }) hk h
  unfold State.foreignWrite
  simp only []
  split
  · split
    all_goals
      split
      · exact h1
      · exact unchanged_record _ hm ho (unchanged_modHost _ hk h1)
  · exact h1

/-- A write that is not taken changes what counts foreign writes alone (R381). -/
theorem unchanged_guardWrite (r : Requester) (off : BitVec 26) (f : State → State)
    (hk : ∀ k, r = .link k → Part.host k ∈ l) (hm : Part.log ∈ l) (ho : Part.out ∈ l) (hf : Unchanged s (f t) l)
    (h : Unchanged s t l) : Unchanged s (t.guardWrite r off f) l := by
  unfold State.guardWrite
  split
  · exact hf
  · exact h
  · cases r with
    | link k => exact unchanged_foreignWrite k off _ (hk k rfl) hm ho h
    | _ => exact h

/-- An allowed write is performed. -/
@[simp] theorem guardWrite_allowed {r : Requester} {off : BitVec 26} (f : State → State) (h : Allowed s r off) :
    s.guardWrite r off f = f s := by
  unfold Allowed at h
  simp [State.guardWrite, h]

/-! ### Stored bytes -/

theorem unchanged_storePlace (p : Place) (v : Byte) (whole : Bool) (hm : Part.mem ∈ l) (h : Unchanged s t l) :
    Unchanged s (t.storePlace p v whole) l := unchanged_set_mem _ hm h

theorem unchanged_writePlace (p : Place) (v : Byte) (whole : Bool) (hl : ∀ q ∈ tierParts, q ∈ l) (h : Unchanged s t l) :
    Unchanged s (t.writePlace p v whole) l := by
  have hmem : Part.mem ∈ l := hl _ (by simp [tierParts])
  have hch : ∀ k, Part.channel k ∈ l := fun k => hl _ (by simp [tierParts])
  unfold State.writePlace
  simp only []
  (repeat' split) <;> first
    | exact h
    | exact unchanged_modChannel _ (hch _) h
    | exact unchanged_storePlace p v whole hmem h

theorem unchanged_writeVa (i : Stall) (va : Nat) (v : Byte) (whole : Bool) (hl : ∀ q ∈ tierParts, q ∈ l)
    (h : Unchanged s t l) : Unchanged s (t.writeVa i va v whole) l := by
  unfold State.writeVa
  split
  · exact unchanged_writePlace _ _ _ hl h
  · exact h

theorem unchanged_writeRun (i : Stall) (lo hi va : Nat) (bs : List Byte) (hl : ∀ q ∈ tierParts, q ∈ l)
    (h : Unchanged s t l) : Unchanged s (t.writeRun i lo hi va bs) l := by
  induction bs generalizing t va with
  | nil => exact h
  | cons b bs ih => exact ih _ (unchanged_writeVa i va b _ hl h)

theorem unchanged_writeBytes (i : Stall) (va : Nat) (bs : List Byte) (hl : ∀ q ∈ tierParts, q ∈ l) (h : Unchanged s t l) :
    Unchanged s (t.writeBytes i va bs) l := unchanged_writeRun i _ _ va bs hl h

/-- A byte that is held behind a snoop waits, and its line is asked for (R300). -/
theorem unchanged_holdByte (w : Writer) (i : Stall) (va : Nat) (b : Byte) (ho : Part.out ∈ l) (hn : Part.snoops ∈ l)
    (h : Unchanged s t l) : Unchanged s (t.holdByte w i va b) l := by
  have h1 : Unchanged s { t with tiers := { t.tiers with snoops := t.tiers.snoops ++ [⟨w, i, va, b⟩] } } l := by
    intro p hp
    have h0 := h p hp
    cases p with
    | snoops => exact absurd hn hp
    | _ => exact h0
  unfold State.holdByte
  simp only []
  split
  · exact h1
  · split
    · exact unchanged_send _ ho h1
    · exact h1

theorem unchanged_storeRun (w : Writer) (i : Stall) (lo hi va : Nat) (bs : List Byte) (hl : ∀ q ∈ storeParts, q ∈ l)
    (h : Unchanged s t l) : Unchanged s (t.storeRun w i lo hi va bs) l := by
  have ho : Part.out ∈ l := hl _ (by simp [storeParts])
  have hn : Part.snoops ∈ l := hl _ (by simp [storeParts])
  have ht : ∀ q ∈ tierParts, q ∈ l := fun q hq => hl q (by simp [storeParts, hq])
  induction bs generalizing t va with
  | nil => exact h
  | cons b bs ih =>
    refine ih _ ?_
    split
    · exact unchanged_holdByte w i va b ho hn h
    · exact unchanged_writeVa i va b _ ht h

/-- An engine's store changes memory, or what waits for a host, and nothing else. -/
theorem unchanged_store (w : Writer) (i : Stall) (va : Nat) (bs : List Byte) (hl : ∀ q ∈ storeParts, q ∈ l)
    (h : Unchanged s t l) : Unchanged s (t.store w i va bs) l := unchanged_storeRun w i _ _ va bs hl h

/-- Away from the host-visible regions an engine's store is a write of its bytes (R300). -/
theorem storeRun_plain (s : State) (w : Writer) (i : Stall) (lo hi va : Nat) (bs : List Byte)
    (h : ∀ (t : State) a, va ≤ a → a < va + bs.length → (t.stall i).customs = (s.stall i).customs →
      (t.stall i).page = (s.stall i).page → hostVisible t i a = false) :
    s.storeRun w i lo hi va bs = s.writeRun i lo hi va bs := by
  induction bs generalizing s va with
  | nil => rfl
  | cons b bs ih =>
    have hu : Unchanged s (s.writeVa i va b (s.wholeRow i lo hi va)) tierParts :=
      unchanged_writeVa i va b _ (fun _ hq => hq) (unchanged_refl s _)
    have hc := hu (.stall i .customs) (by simp [tierParts])
    have hp := hu (.stall i .page) (by simp [tierParts])
    simp only [sameAt, sameIn] at hc hp
    unfold State.storeRun State.writeRun
    rw [h s va (Nat.le_refl _) (by simp) rfl rfl, if_neg (by simp)]
    refine ih _ (va + 1) fun t a ha hb ht hq => h t a (by omega) (by simp only [List.length_cons]; omega) (ht.trans hc) (hq.trans hp)

theorem unchanged_countPlace (p : Place) (n : Nat) (hl : ∀ q ∈ tierParts, q ∈ l) (h : Unchanged s t l) :
    Unchanged s (t.countPlace p n) l := by
  have hst : ∀ k, Part.stack k ∈ l := fun k => hl _ (by simp [tierParts])
  have hch : ∀ k, Part.channel k ∈ l := fun k => hl _ (by simp [tierParts])
  unfold State.countPlace
  split
  · exact unchanged_modStack _ (hst _) h
  · exact unchanged_modChannel _ (hch _) h
  · exact h

theorem unchanged_countWrite (p : Place) (n : Nat) (hl : ∀ q ∈ tierParts, q ∈ l) (h : Unchanged s t l) :
    Unchanged s (t.countWrite p n) l := by
  have hch : ∀ k, Part.channel k ∈ l := fun k => hl _ (by simp [tierParts])
  unfold State.countWrite
  split
  · split
    · exact unchanged_countPlace _ _ hl h
    · exact unchanged_modChannel _ (hch _) h
  · exact unchanged_countPlace _ _ hl h

theorem unchanged_countBytes (i : Stall) (va n : Nat) (hl : ∀ q ∈ tierParts, q ∈ l) (h : Unchanged s t l) :
    Unchanged s (t.countBytes i va n) l := unchanged_forEach _ _ (fun _ _ hu => unchanged_countWrite _ _ hl hu) h

theorem unchanged_countRead (i : Stall) (va n : Nat) (hl : ∀ q ∈ tierParts, q ∈ l) (h : Unchanged s t l) :
    Unchanged s (t.countRead i va n) l := unchanged_forEach _ _ (fun _ _ hu => unchanged_countPlace _ _ hl hu) h

end Sys2Proof.Machine
end

