-- ==== Sys2Proof/Laws/SaneOps.lean ====
section
/-! SUPPORT. The invariant of Safety.lean is kept by every shared operation (Ops, Operands, Entries). -/

namespace Sys2Proof.Machine

open Sys2Proof.Safety

@[simp] theorem sane_mk (pending : List Instr) (out : List Out) (free : Nat) (time : BitVec 64) (data : Word)
    (held caught : List (Nat × Word)) (mem : List Host.Cell) (anatomy : Anatomy) (stalls : Vector StallState 8)
    (cores : Vector Core 32) (engines : Vector CopyEngine 8) (tiers : Tiers) (fabric : Fabric) (hosts : Vector HostLink 4)
    (arbiter : Vector Stall 6) (tollgate : Tollgate) (starts : Starts) (power : Power) (pins : Pins) (tap : Tap)
    (log : FaultLog) (h1 : memWf mem = true) (h2 : log.ring.length ≤ 1024) (h3 : fabric.relay.events.length ≤ 64) :
    Sane (State.mk pending out free time data held caught mem anatomy stalls cores engines tiers fabric hosts arbiter
      tollgate starts power pins tap log) := ⟨h1, h2, h3⟩

@[simp] theorem sane_mem {s : State} (h : Sane s) : memWf s.mem = true := h.1
@[simp] theorem sane_ring {s : State} (h : Sane s) : s.log.ring.length ≤ 1024 := h.2.1
@[simp] theorem sane_events {s : State} (h : Sane s) : s.fabric.relay.events.length ≤ 64 := h.2.2

@[simp] theorem saneOut_next (s : State) : SaneOut (.next s) = Sane s := rfl
@[simp] theorem saneOut_fault (f : Fault) : SaneOut (.fault f) = True := rfl
@[simp] theorem saneOut_refused (f : Refusal) : SaneOut (.refused f) = True := rfl

@[simp] theorem sane_ite {c : Prop} [Decidable c] (a b : State) :
    Sane (if c then a else b) = if c then Sane a else Sane b := apply_ite Sane c a b
@[simp] theorem sane_dite {c : Prop} [Decidable c] (a : c → State) (b : ¬c → State) :
    Sane (dite c a b) = dite c (fun h => Sane (a h)) fun h => Sane (b h) := apply_dite Sane c a b
@[simp] theorem saneOut_ite {c : Prop} [Decidable c] (a b : Host.Outcome State Fault Refusal) :
    SaneOut (if c then a else b) = if c then SaneOut a else SaneOut b := apply_ite SaneOut c a b
@[simp] theorem saneOut_dite {c : Prop} [Decidable c] (a : c → Host.Outcome State Fault Refusal)
    (b : ¬c → Host.Outcome State Fault Refusal) :
    SaneOut (dite c a b) = dite c (fun h => SaneOut (a h)) fun h => SaneOut (b h) := apply_dite SaneOut c a b

@[simp] theorem sane_forEach {α : Type} (l : List α) (s : State) (f : State → α → State) (hs : Sane s)
    (hf : ∀ s a, Sane s → Sane (f s a)) : Sane (forEach l s f) := by
  induction l generalizing s with
  | nil => exact hs
  | cons a l ih => exact ih (f s a) (hf s a hs)

/-- What holds of the start of a fold and is kept by every step holds of the result. -/
theorem foldl_keeps {α β : Type} (P : β → Prop) (f : β → α → β) (l : List α) (b : β) (hb : P b)
    (hf : ∀ b a, P b → P (f b a)) : P (l.foldl f b) := by
  induction l generalizing b with
  | nil => exact hb
  | cons a l ih => exact ih _ (hf b a hb)

theorem sane_free {s : State} (n : Nat) (h : Sane s) : Sane { s with free := n } := h

@[simp] theorem sane_modStall (s : State) (i : Stall) (f : StallState → StallState) (hs : Sane s) :
    Sane (State.modStall s i f) := by
  unfold State.modStall
  simp (maxDischargeDepth := 40) (contextual := true) [*]

@[simp] theorem sane_modCore (s : State) (i : CoreId) (f : Core → Core) (hs : Sane s) :
    Sane (State.modCore s i f) := by
  unfold State.modCore
  simp (maxDischargeDepth := 40) (contextual := true) [*]

@[simp] theorem sane_modEngine (s : State) (i : EngineId) (f : CopyEngine → CopyEngine) (hs : Sane s) :
    Sane (State.modEngine s i f) := by
  unfold State.modEngine
  simp (maxDischargeDepth := 40) (contextual := true) [*]

@[simp] theorem sane_modHost (s : State) (i : LinkId) (f : HostLink → HostLink) (hs : Sane s) :
    Sane (State.modHost s i f) := by
  unfold State.modHost
  simp (maxDischargeDepth := 40) (contextual := true) [*]

@[simp] theorem sane_modPort (s : State) (i : PortId) (f : Port → Port) (hs : Sane s) :
    Sane (State.modPort s i f) := by
  unfold State.modPort
  simp (maxDischargeDepth := 40) (contextual := true) [*]

@[simp] theorem sane_modOptic (s : State) (i : PortId) (f : Optics → Optics) (hs : Sane s) :
    Sane (State.modOptic s i f) := by
  unfold State.modOptic
  simp (maxDischargeDepth := 40) (contextual := true) [*]

@[simp] theorem sane_modLnk (s : State) (i : PortId) (f : LinkLayer → LinkLayer) (hs : Sane s) :
    Sane (State.modLnk s i f) := by
  unfold State.modLnk
  simp (maxDischargeDepth := 40) (contextual := true) [*]

@[simp] theorem sane_modMarch (s : State) (i : Stall) (f : March → March) (hs : Sane s) :
    Sane (State.modMarch s i f) := by
  unfold State.modMarch
  simp (maxDischargeDepth := 40) (contextual := true) [*]

@[simp] theorem sane_modSeq (s : State) (i : Stall) (f : Sequencer → Sequencer) (hs : Sane s) :
    Sane (State.modSeq s i f) := by
  unfold State.modSeq
  simp (maxDischargeDepth := 40) (contextual := true) [*]

@[simp] theorem sane_modSync (s : State) (i : Stall) (f : Sync → Sync) (hs : Sane s) :
    Sane (State.modSync s i f) := by
  unfold State.modSync
  simp (maxDischargeDepth := 40) (contextual := true) [*]

@[simp] theorem sane_modLedger (s : State) (i : Stall) (f : Ledger → Ledger) (hs : Sane s) :
    Sane (State.modLedger s i f) := by
  unfold State.modLedger
  simp (maxDischargeDepth := 40) (contextual := true) [*]

@[simp] theorem sane_modSettle (s : State) (i : Stall) (f : Settlement → Settlement) (hs : Sane s) :
    Sane (State.modSettle s i f) := by
  unfold State.modSettle
  simp (maxDischargeDepth := 40) (contextual := true) [*]

@[simp] theorem sane_modTally (s : State) (i : Stall) (f : Tally → Tally) (hs : Sane s) :
    Sane (State.modTally s i f) := by
  unfold State.modTally
  simp (maxDischargeDepth := 40) (contextual := true) [*]

@[simp] theorem sane_modLot (s : State) (i : Stall) (f : Lot → Lot) (hs : Sane s) :
    Sane (State.modLot s i f) := by
  unfold State.modLot
  simp (maxDischargeDepth := 40) (contextual := true) [*]

@[simp] theorem sane_modCharter (s : State) (i : Stall) (f : CharterPage → CharterPage) (hs : Sane s) :
    Sane (State.modCharter s i f) := by
  unfold State.modCharter
  simp (maxDischargeDepth := 40) (contextual := true) [*]

@[simp] theorem sane_modPage (s : State) (i : Stall) (f : StallPage → StallPage) (hs : Sane s) :
    Sane (State.modPage s i f) := by
  unfold State.modPage
  simp (maxDischargeDepth := 40) (contextual := true) [*]

@[simp] theorem sane_modCustoms (s : State) (i : Stall) (f : Customs → Customs) (hs : Sane s) :
    Sane (State.modCustoms s i f) := by
  unfold State.modCustoms
  simp (maxDischargeDepth := 40) (contextual := true) [*]

@[simp] theorem sane_modService (s : State) (i : Stall) (f : Service → Service) (hs : Sane s) :
    Sane (State.modService s i f) := by
  unfold State.modService
  simp (maxDischargeDepth := 40) (contextual := true) [*]

@[simp] theorem sane_modStack (s : State) (i : Fin 8) (f : NearStack → NearStack) (hs : Sane s) :
    Sane (State.modStack s i f) := by
  unfold State.modStack
  simp (maxDischargeDepth := 40) (contextual := true) [*]

@[simp] theorem sane_modChannel (s : State) (i : Fin 24) (f : SeraiChannel → SeraiChannel) (hs : Sane s) :
    Sane (State.modChannel s i f) := by
  unfold State.modChannel
  simp (maxDischargeDepth := 40) (contextual := true) [*]

@[simp] theorem sane_modPost (s : State) (i : Stall) (secure : Bool) (n : Fin 24) (f : Post → Post) (hs : Sane s) :
    Sane (State.modPost s i secure n f) := by
  unfold State.modPost
  simp (maxDischargeDepth := 40) (contextual := true) [*]

@[simp] theorem sane_send (s : State) (o : Out) (hs : Sane s) :
    Sane (State.send s o) := by
  unfold State.send
  simp (maxDischargeDepth := 40) (contextual := true) [*]

@[simp] theorem sane_drawWord (s : State) (hs : Sane s) :
    Sane (State.drawWord s).2 := by
  unfold State.drawWord
  simp (maxDischargeDepth := 40) (contextual := true) [*]

@[simp] theorem sane_rouse (s : State) (hs : Sane s) : Sane (State.rouse s) := by
  unfold State.rouse
  simp (maxDischargeDepth := 40) (contextual := true) [*]

@[simp] theorem sane_atTime (s : State) (t : BitVec 64) (hs : Sane s) :
    Sane (State.atTime s t) := by
  unfold State.atTime
  simp (maxDischargeDepth := 40) (contextual := true) [*]

@[simp] theorem sane_storePlace (s : State) (p : Place) (v : Byte) (w : Bool) (hs : Sane s) :
    Sane (State.storePlace s p v w) := ⟨storePlace_wf s p v w hs.1, hs.2⟩

@[simp] theorem sane_writePlace (s : State) (p : Place) (v : Byte) (w : Bool) (hs : Sane s) :
    Sane (State.writePlace s p v w) := by
  unfold State.writePlace
  simp only []
  (repeat' split) <;> simp (maxDischargeDepth := 40) (contextual := true) [*]

@[simp] theorem sane_writeVa (s : State) (i : Stall) (va : Nat) (v : Byte) (w : Bool) (hs : Sane s) :
    Sane (State.writeVa s i va v w) := by
  unfold State.writeVa
  (repeat' split) <;> simp only [sane_writePlace, hs]

@[simp] theorem sane_writeRun (s : State) (i : Stall) (lo hi va : Nat) (bs : List Byte) (hs : Sane s) :
    Sane (s.writeRun i lo hi va bs) := by
  induction bs generalizing s va with
  | nil => exact hs
  | cons b bs ih => exact ih _ _ (sane_writeVa s i va b _ hs)

@[simp] theorem sane_writeBytes (s : State) (i : Stall) (va : Nat) (bs : List Byte) (hs : Sane s) :
    Sane (s.writeBytes i va bs) := sane_writeRun _ _ _ _ _ _ hs

@[simp] theorem sane_holdByte (s : State) (w : Writer) (i : Stall) (va : Nat) (b : Byte) (hs : Sane s) :
    Sane (s.holdByte w i va b) := by
  have h1 : Sane { s with tiers := { s.tiers with snoops := s.tiers.snoops ++ [⟨w, i, va, b⟩] } } := hs
  unfold State.holdByte
  simp only []
  split
  · exact h1
  · split
    · exact sane_send _ _ h1
    · exact h1

@[simp] theorem sane_storeRun (s : State) (w : Writer) (i : Stall) (lo hi va : Nat) (bs : List Byte) (hs : Sane s) :
    Sane (s.storeRun w i lo hi va bs) := by
  induction bs generalizing s va with
  | nil => exact hs
  | cons b bs ih =>
    refine ih _ _ ?_
    split
    · exact sane_holdByte _ _ _ _ _ hs
    · exact sane_writeVa _ _ _ _ _ hs

@[simp] theorem sane_store (s : State) (w : Writer) (i : Stall) (va : Nat) (bs : List Byte) (hs : Sane s) :
    Sane (s.store w i va bs) := sane_storeRun _ _ _ _ _ _ _ hs

@[simp] theorem sane_seen (s : State) (w : Writer) (hs : Sane s) : Sane (s.seen w) :=
  sane_forEach _ _ _ hs fun _ _ h => sane_writeVa _ _ _ _ _ h

@[simp] theorem sane_execBackInvalidateResponse (w : Writer) (s : State) (hs : Sane s) :
    SaneOut (execBackInvalidateResponse w s) := by
  unfold execBackInvalidateResponse
  split
  · exact hs
  · exact sane_forEach _ _ _ (by exact hs) fun _ _ h => sane_writeVa _ _ _ _ _ h

@[simp] theorem sane_countPlace (s : State) (p : Place) (n : Nat) (hs : Sane s) :
    Sane (State.countPlace s p n) := by
  unfold State.countPlace
  (repeat' split) <;> simp (maxDischargeDepth := 40) (contextual := true) [*]

@[simp] theorem sane_countWrite (s : State) (p : Place) (n : Nat) (hs : Sane s) :
    Sane (State.countWrite s p n) := by
  unfold State.countWrite
  (repeat' split) <;> simp (maxDischargeDepth := 40) (contextual := true) [*]

@[simp] theorem sane_countBytes (s : State) (i : Stall) (va n : Nat) (hs : Sane s) :
    Sane (State.countBytes s i va n) := by
  unfold State.countBytes
  simp (maxDischargeDepth := 40) (contextual := true) [*]

@[simp] theorem sane_countRead (s : State) (i : Stall) (va n : Nat) (hs : Sane s) :
    Sane (State.countRead s i va n) := by
  unfold State.countRead
  simp (maxDischargeDepth := 40) (contextual := true) [*]

@[simp] theorem sane_raise (s : State) (i : Stall) (v : BitVec 6) (hs : Sane s) :
    Sane (State.raise s i v) := by
  unfold State.raise
  (repeat' split) <;> simp (maxDischargeDepth := 40) (contextual := true) [*]

@[simp] theorem sane_raiseEvent (s : State) (i : Stall) (k : Nat) (hs : Sane s) :
    Sane (State.raiseEvent s i k) := by
  unfold State.raiseEvent
  simp (maxDischargeDepth := 40) (contextual := true) [*]

@[simp] theorem sane_record (s : State) (r : Rec) (hs : Sane s) : Sane (s.record r) := by
  have h : Sane { s with log := { s.log with
      ring := (recBits s r :: s.log.ring).take 1024
      newest := s.log.newest + 1
      injected := if r.injected then satAdd s.log.injected 1 else s.log.injected } } :=
    ⟨hs.1, List.length_take_le _ _, hs.2.2⟩
  unfold State.record
  simp only []
  split
  · exact sane_raiseEvent _ _ _ h
  · exact h

@[simp] theorem sane_recordPause (s : State) (r : Rec) (hs : Sane s) :
    Sane (State.recordPause s r) := by
  unfold State.recordPause
  simp (maxDischargeDepth := 40) (contextual := true) [*]

@[simp] theorem sane_retire (s : State) (kind : BitVec 8) (index : BitVec 16) (reason : Reason) (rejected : Bool) (hs : Sane s) :
    Sane (State.retire s kind index reason rejected) := by
  unfold State.retire
  simp (maxDischargeDepth := 40) (contextual := true) [*]

@[simp] theorem sane_denied (s : State) (i : Stall) (unit : Nat) (cause : BitVec 4) (va : Nat) (hs : Sane s) :
    Sane (State.denied s i unit cause va) := by
  unfold State.denied
  simp (maxDischargeDepth := 40) (contextual := true) [*]

@[simp] theorem sane_writeCode (s : State) (w : Writer) (i : Stall) (addr n code : Nat) (hs : Sane s) :
    Sane (State.writeCode s w i addr n code) := by
  unfold State.writeCode
  simp (maxDischargeDepth := 40) (contextual := true) [*]

@[simp] theorem sane_storeElem (s : State) (w : Writer) (i : Stall) (c : Charter) (t : BitVec 512) (addr : Nat) (f : Fmt)
    (code : Nat) (hs : Sane s) : Sane (State.storeElem s w i c t addr f code) := by
  unfold State.storeElem
  simp (maxDischargeDepth := 40) (contextual := true) [*]

@[simp] theorem sane_copyIdle (s : State) (e : EngineId) (hs : Sane s) : Sane (State.copyIdle s e) := sane_modEngine _ _ _ hs

@[simp] theorem sane_markRan (s : State) (i : Stall) (r : EntryRef) (hs : Sane s) :
    Sane (State.markRan s i r) := by
  unfold State.markRan
  simp (maxDischargeDepth := 40) (contextual := true) [*]

@[simp] theorem sane_ranStream (s : State) (i : Stall) (c : Charter) (k : CoreId) (index : Nat) (hs : Sane s) :
    Sane (State.ranStream s i c k index) := by
  unfold State.ranStream
  simp (maxDischargeDepth := 40) (contextual := true) [*]

end Sys2Proof.Machine
end

