-- ==== Sys2Proof/Laws/SaneEngines.lean ====
section
/-! SUPPORT. The invariant is kept by the arrays, the gather-merge engines, the vector units, the window and the copy engines. -/

namespace Sys2Proof.Machine

open Sys2Proof.Safety

@[simp] theorem sane_mmElement (k : CoreId) (s0 : State) (i : Stall) (c : Charter) (e : StreamEntry) (o : BitVec 512) (s : State) (rn : Nat × Nat) (hs0 : Sane s0) (hs : Sane s) :
    Sane (mmElement k s0 i c e o s rn) := by
  unfold mmElement
  simp (maxDischargeDepth := 40) (contextual := true) [*]

@[simp] theorem sane_execMatmul (k : CoreId) (index : Nat) (s : State) (hs : Sane s) :
    SaneOut (execMatmul k index s) := by
  unfold execMatmul
  (repeat' split) <;> simp (maxDischargeDepth := 40) (contextual := true) [*]

@[simp] theorem sane_execGovernorStep (k : CoreId) (a : Fin 2) (s : State) (hs : Sane s) :
    SaneOut (execGovernorStep k a s) := by
  unfold execGovernorStep
  simp (maxDischargeDepth := 40) (contextual := true) [*]

@[simp] theorem sane_execGovernorHoldExpire (k : CoreId) (a : Fin 2) (s : State) (hs : Sane s) :
    SaneOut (execGovernorHoldExpire k a s) := by
  unfold execGovernorHoldExpire
  simp (maxDischargeDepth := 40) (contextual := true) [*]

@[simp] theorem sane_gmStore (k : CoreId) (s0 : State) (i : Stall) (c : Charter) (d o : BitVec 512) (s : State) (r n : Nat) (v : Word) (hs0 : Sane s0) (hs : Sane s) :
    Sane (gmStore k s0 i c d o s r n v) := by
  unfold gmStore
  simp (maxDischargeDepth := 40) (contextual := true) [*]

@[simp] theorem sane_sparseRecord (s : State) (i : Stall) (k : CoreId) (reason : Reason) (detail : Nat) (hs : Sane s) :
    Sane (State.sparseRecord s i k reason detail) := by
  unfold State.sparseRecord
  simp (maxDischargeDepth := 40) (contextual := true) [*]

@[simp] theorem sane_execSpmm (k : CoreId) (index : Nat) (s : State) (hs : Sane s) :
    SaneOut (execSpmm k index s) := by
  unfold execSpmm
  (repeat' split) <;> simp (maxDischargeDepth := 40) (contextual := true) [*]

@[simp] theorem sane_execRagged (k : CoreId) (index : Nat) (s : State) (hs : Sane s) :
    SaneOut (execRagged k index s) := by
  unfold execRagged
  (repeat' split) <;> simp (maxDischargeDepth := 40) (contextual := true) [*]

@[simp] theorem sane_slotRow (k : CoreId) (i : Stall) (c : Charter) (d : BitVec 512) (s : State) (dest slot : Nat) (value : Nat → Nat) (hs : Sane s) :
    Sane (slotRow k i c d s dest slot value) := by
  unfold slotRow
  simp (maxDischargeDepth := 40) (contextual := true) [*]

@[simp] theorem sane_copyRow (k : CoreId) (s0 : State) (i : Stall) (c : Charter) (d : BitVec 512) (s : State) (t dest slot : Nat) (hs0 : Sane s0) (hs : Sane s) :
    Sane (copyRow k s0 i c d s t dest slot) := by
  unfold copyRow
  simp (maxDischargeDepth := 40) (contextual := true) [*]

@[simp] theorem sane_execDispatchMain (k : CoreId) (index : Nat) (s : State) (hs : Sane s) :
    SaneOut (execDispatchMain k index s) := by
  unfold execDispatchMain
  split
  · exact hs
  · simp only []
    split
    · exact hs
    · split
      · exact sane_modCore _ _ _ (sane_ranStream _ _ _ _ _ hs)
      · refine sane_modCore _ _ _ (sane_free _ ?_)
        refine sane_forEach _ _ _ ?_ fun _ _ h => sane_store _ _ _ _ _ h
        refine sane_forEach _ _ _ ?_ fun _ _ h => sane_store _ _ _ _ _ h
        refine sane_forEach _ _ _ ?_ fun _ _ h => ?_
        · refine sane_forEach _ _ _ (sane_ranStream _ _ _ _ _ hs) fun _ _ h => ?_
          split
          · split
            · exact sane_copyRow _ _ _ _ _ _ _ _ _ hs h
            · exact h
          · exact h
        · split
          · exact h
          · exact sane_slotRow _ _ _ _ _ _ _ _ h

@[simp] theorem sane_execDispatchSpill (k : CoreId) (index : Nat) (s : State) (hs : Sane s) :
    SaneOut (execDispatchSpill k index s) := by
  unfold execDispatchSpill
  (repeat' split) <;> simp (maxDischargeDepth := 40) (contextual := true) [*]

@[simp] theorem sane_execCombine (k : CoreId) (index : Nat) (s : State) (hs : Sane s) :
    SaneOut (execCombine k index s) := by
  unfold execCombine
  have added : ∀ (i : Stall) (c : Charter) (slots : List (Nat × Nat)) (f : State → Nat × Nat → State),
      (∀ s x, Sane s → Sane (f s x)) → Sane (forEach slots (s.ranStream i c k index) f) :=
    fun i c l f hf => sane_forEach _ _ _ (sane_ranStream _ _ _ _ _ hs) hf
  split
  · exact hs
  · simp only []
    split
    · exact sane_modCore _ _ _ (sane_ranStream _ _ _ _ _ hs)
    · refine sane_modCore _ _ _ (sane_free _ ?_)
      split
      all_goals try refine sane_sparseRecord _ _ _ _ _ ?_
      all_goals
        refine added _ _ _ _ fun _ _ h => ?_
        split
        · exact h
        · exact sane_forEach _ _ _ h fun _ _ h => sane_storeElem _ _ _ _ _ _ _ _ h

@[simp] theorem sane_writeTile (s : State) (k : CoreId) (i : Stall) (f : SparseForm) (ix : Nat) (rows : TileRows) (value : Nat → Nat → Nat) (stamp : Nat) (hs : Sane s) :
    Sane (State.writeTile s k i f ix rows value stamp) := by
  unfold State.writeTile
  simp (maxDischargeDepth := 40) (contextual := true) [*]

@[simp] theorem sane_execAssay (k : CoreId) (index : Nat) (s : State) (hs : Sane s) :
    SaneOut (execAssay k index s) := by
  unfold execAssay
  split
  · exact hs
  · simp only []
    split
    · exact sane_ranStream _ _ _ _ _ hs
    · rw [saneOut_next, sane_ite]
      split
      all_goals try refine sane_modCore _ _ _ ?_
      all_goals
        split
        all_goals
          repeat' (first | exact sane_ranStream _ _ _ _ _ hs | refine sane_forEach _ _ _ ?_ fun _ _ h => sane_writeTile _ _ _ _ _ _ _ _ h)

@[simp] theorem sane_vuStore (k : CoreId) (s0 : State) (i : Stall) (c : Charter) (d o : BitVec 512) (s : State) (n : Nat) (v : Word) (hs0 : Sane s0) (hs : Sane s) :
    Sane (vuStore k s0 i c d o s n v) := by
  unfold vuStore
  simp (maxDischargeDepth := 40) (contextual := true) [*]

@[simp] theorem sane_vuFinish (s0 s1 : State) (c : Charter) (k : CoreId) (index : Nat) (d : BitVec 512) (dropped : Nat) (hs0 : Sane s0) (hs1 : Sane s1) :
    Sane (vuFinish s0 s1 c k index d dropped) := by
  unfold vuFinish
  simp (maxDischargeDepth := 40) (contextual := true) [*]

@[simp] theorem sane_vuElementwise (s : State) (i : Stall) (c : Charter) (k : CoreId) (index : Nat) (d : BitVec 512) (value : Nat → Word) (hs : Sane s) :
    Sane (vuElementwise s i c k index d value) := by
  unfold vuElementwise
  simp (maxDischargeDepth := 40) (contextual := true) [*]

@[simp] theorem sane_runVector (s : State) (k : CoreId) (index op : Nat) (sel : BitVec 512 → Bool) (run : Stall → Charter → BitVec 512 → State) (hs : Sane s) (hrun : ∀ x0 x1 x2, Sane (run x0 x1 x2)) :
    SaneOut (runVector s k index op sel run) := by
  unfold runVector
  (repeat' split) <;> simp (maxDischargeDepth := 40) (contextual := true) [*]

@[simp] theorem sane_runVmap (s : State) (k : CoreId) (index func : Nat) (hs : Sane s) :
    SaneOut (runVmap s k index func) := by
  unfold runVmap
  simp (maxDischargeDepth := 40) (contextual := true) [*]

@[simp] theorem sane_execVmapCopy (k : CoreId) (index : Nat) (s : State) (hs : Sane s) :
    SaneOut (execVmapCopy k index s) := by
  unfold execVmapCopy
  simp (maxDischargeDepth := 40) (contextual := true) [*]

@[simp] theorem sane_execVmapAdd (k : CoreId) (index : Nat) (s : State) (hs : Sane s) :
    SaneOut (execVmapAdd k index s) := by
  unfold execVmapAdd
  simp (maxDischargeDepth := 40) (contextual := true) [*]

@[simp] theorem sane_execVmapMul (k : CoreId) (index : Nat) (s : State) (hs : Sane s) :
    SaneOut (execVmapMul k index s) := by
  unfold execVmapMul
  simp (maxDischargeDepth := 40) (contextual := true) [*]

@[simp] theorem sane_execVmapFma (k : CoreId) (index : Nat) (s : State) (hs : Sane s) :
    SaneOut (execVmapFma k index s) := by
  unfold execVmapFma
  simp (maxDischargeDepth := 40) (contextual := true) [*]

@[simp] theorem sane_execVmapMax (k : CoreId) (index : Nat) (s : State) (hs : Sane s) :
    SaneOut (execVmapMax k index s) := by
  unfold execVmapMax
  simp (maxDischargeDepth := 40) (contextual := true) [*]

@[simp] theorem sane_execVmapMin (k : CoreId) (index : Nat) (s : State) (hs : Sane s) :
    SaneOut (execVmapMin k index s) := by
  unfold execVmapMin
  simp (maxDischargeDepth := 40) (contextual := true) [*]

@[simp] theorem sane_execVmapScale (k : CoreId) (index : Nat) (s : State) (hs : Sane s) :
    SaneOut (execVmapScale k index s) := by
  unfold execVmapScale
  simp (maxDischargeDepth := 40) (contextual := true) [*]

@[simp] theorem sane_execVfunc (k : CoreId) (index : Nat) (s : State) (hs : Sane s) :
    SaneOut (execVfunc k index s) := by
  unfold execVfunc
  simp (maxDischargeDepth := 40) (contextual := true) [*]

@[simp] theorem sane_execVderivTable (k : CoreId) (index : Nat) (s : State) (hs : Sane s) :
    SaneOut (execVderivTable k index s) := by
  unfold execVderivTable
  simp (maxDischargeDepth := 40) (contextual := true) [*]

@[simp] theorem sane_execVderivBits (k : CoreId) (index : Nat) (s : State) (hs : Sane s) :
    SaneOut (execVderivBits k index s) := by
  unfold execVderivBits
  simp (maxDischargeDepth := 40) (contextual := true) [*]

@[simp] theorem sane_execVdropForward (k : CoreId) (index : Nat) (s : State) (hs : Sane s) :
    SaneOut (execVdropForward k index s) := by
  unfold execVdropForward
  simp (maxDischargeDepth := 40) (contextual := true) [*]

@[simp] theorem sane_execVdropBackward (k : CoreId) (index : Nat) (s : State) (hs : Sane s) :
    SaneOut (execVdropBackward k index s) := by
  unfold execVdropBackward
  simp (maxDischargeDepth := 40) (contextual := true) [*]

@[simp] theorem sane_execVsum (k : CoreId) (index : Nat) (s : State) (hs : Sane s) :
    SaneOut (execVsum k index s) := by
  unfold execVsum
  simp (maxDischargeDepth := 40) (contextual := true) [*]

@[simp] theorem sane_foreignWrite (s : State) (l : LinkId) (off : BitVec 26) (cause : BitVec 4) (hs : Sane s) :
    Sane (State.foreignWrite s l off cause) := by
  unfold State.foreignWrite
  simp (maxDischargeDepth := 40) (contextual := true) [*]

@[simp] theorem sane_guardWrite (s : State) (r : Requester) (off : BitVec 26) (f : State → State) (hs : Sane s) (hf : ∀ x0, Sane x0 → Sane (f x0)) :
    Sane (State.guardWrite s r off f) := by
  unfold State.guardWrite
  (repeat' split) <;> simp (maxDischargeDepth := 40) (contextual := true) [*]

@[simp] theorem sane_holdLow (s : State) (r : Requester) (off : BitVec 26) (v : Word) (hs : Sane s) :
    Sane (State.holdLow s r off v) := by
  unfold State.holdLow
  simp (maxDischargeDepth := 40) (contextual := true) [*]

@[simp] theorem sane_capture (s : State) (r : Requester) (off : BitVec 26) (v : Word) (hs : Sane s) :
    Sane (State.capture s r off v) := by
  unfold State.capture
  simp (maxDischargeDepth := 40) (contextual := true) [*]

@[simp] theorem sane_copyWrite (s : State) (i : Stall) (e : EngineId) (w : CopyWrite) (hs : Sane s) :
    Sane (State.copyWrite s i e w) := by
  unfold State.copyWrite
  (repeat' split) <;> simp (maxDischargeDepth := 40) (contextual := true) [*]

@[simp] theorem sane_copyRun (s : State) (i : Stall) (e : EngineId) (n : Nat) (ws : List CopyWrite) (hs : Sane s) :
    Sane (State.copyRun s i e n ws).1 := by
  have h := foldl_keeps (fun p : State × List MovedWrite => Sane p.1) (fun acc w => (acc.1.copyWrite i e w,
    acc.2 ++ [⟨n, w.src, w.dst, (acc.1.seen (.copy e)).readBytes i w.dst w.bytes.length⟩])) ws (s, []) hs
    fun b a hb => sane_copyWrite _ _ _ _ hb
  exact sane_modEngine _ _ _ h

@[simp] theorem sane_runBatch (s : State) (i : Stall) (e : EngineId) (c : Charter) (n : Nat)
    (l : List (CopyOp × List (List Nat × List Nat))) (hs : Sane s) : Sane (runBatch s i e c n l).1 := by
  induction l generalizing s n with
  | nil => exact hs
  | cons o l ih => exact ih _ _ (sane_copyRun _ _ _ _ _ hs)

@[simp] theorem sane_execCopyEntry (e : EngineId) (index : Nat) (s : State) (hs : Sane s) :
    SaneOut (execCopyEntry e index s) := by
  have ran := fun i => sane_markRan s i (.copy e index) hs
  unfold execCopyEntry
  (repeat' split) <;> first | exact hs | skip
  dsimp only
  split
  · exact sane_record _ _ (sane_copyIdle _ _ (sane_modEngine _ _ _ (ran _)))
  · exact sane_modEngine _ _ _ (sane_runBatch _ _ _ _ _ _ (ran _))

@[simp] theorem sane_recordDenied (s : State) (i : Stall) (e : EngineId) (cause : BitVec 4) (a : Nat) (slot : BitVec 16) (hs : Sane s) :
    Sane (State.recordDenied s i e cause a slot) := by
  unfold State.recordDenied
  simp (maxDischargeDepth := 40) (contextual := true) [*]

@[simp] theorem sane_execCopyBatchTake (e : EngineId) (borrowed : Bool) (s : State) (hs : Sane s) :
    SaneOut (execCopyBatchTake e borrowed s) := by
  unfold execCopyBatchTake
  simp only []
  (repeat' split) <;> simp (maxDischargeDepth := 40) (contextual := true) [*]

@[simp] theorem sane_stallVerdict (s : State) (i : Stall) (verdict : BitVec 2) (reason : Reason) (last : BitVec 16) (hs : Sane s) :
    Sane (State.stallVerdict s i verdict reason last) := by
  unfold State.stallVerdict
  simp (maxDischargeDepth := 40) (contextual := true) [*]

@[simp] theorem sane_endBatch (s : State) (i : Stall) (e : EngineId) (b : Batch) (hs : Sane s) :
    Sane (State.endBatch s i e b) := by
  unfold State.endBatch
  simp (maxDischargeDepth := 40) (contextual := true) [*]

@[simp] theorem sane_execCopyBatchComplete (e : EngineId) (s : State) (hs : Sane s) :
    SaneOut (execCopyBatchComplete e s) := by
  unfold execCopyBatchComplete
  simp only []
  (repeat' split) <;> simp (maxDischargeDepth := 40) (contextual := true) [*]

@[simp] theorem sane_stopBatch (s : State) (i : Stall) (e : EngineId) (va : Nat) (hs : Sane s) :
    Sane (State.stopBatch s i e va) := by
  unfold State.stopBatch
  (repeat' split) <;> simp (maxDischargeDepth := 40) (contextual := true) [*]

@[simp] theorem sane_writeQtail (e : EngineId) (v : Word) (s : State) (hs : Sane s) :
    Sane (writeQtail e v s) := by
  unfold writeQtail
  (repeat' split) <;> simp (maxDischargeDepth := 40) (contextual := true) [*]

@[simp] theorem sane_writeQsize (e : EngineId) (v : Word) (s : State) (hs : Sane s) :
    Sane (writeQsize e v s) := by
  unfold writeQsize
  simp (maxDischargeDepth := 40) (contextual := true) [*]

@[simp] theorem sane_writeCpyCtrl (e : EngineId) (v : Word) (s : State) (hs : Sane s) :
    Sane (writeCpyCtrl e v s) := by
  unfold writeCpyCtrl
  simp (maxDischargeDepth := 40) (contextual := true) [*]

@[simp] theorem sane_execCpyQtailWrite (r : Requester) (e : EngineId) (v : Word) (s : State) (hs : Sane s) :
    SaneOut (execCpyQtailWrite r e v s) := by
  unfold execCpyQtailWrite
  simp (maxDischargeDepth := 40) (contextual := true) [*]

@[simp] theorem sane_execCpyQsizeWrite (r : Requester) (e : EngineId) (v : Word) (s : State) (hs : Sane s) :
    SaneOut (execCpyQsizeWrite r e v s) := by
  unfold execCpyQsizeWrite
  simp (maxDischargeDepth := 40) (contextual := true) [*]

@[simp] theorem sane_execCpyQreset (r : Requester) (e : EngineId) (v : Word) (s : State) (hs : Sane s) :
    SaneOut (execCpyQreset r e v s) := by
  unfold execCpyQreset
  simp (maxDischargeDepth := 40) (contextual := true) [*]

@[simp] theorem sane_execCpyQen (r : Requester) (e : EngineId) (v : Word) (s : State) (hs : Sane s) :
    SaneOut (execCpyQen r e v s) := by
  unfold execCpyQen
  simp (maxDischargeDepth := 40) (contextual := true) [*]

end Sys2Proof.Machine
end

