-- ==== Sys2Proof/Laws/SaneLedger.lean ====
section
/-! SUPPORT. The invariant is kept by causes, ledger, settlement, activation and checkpoints. -/

namespace Sys2Proof.Machine

open Sys2Proof.Safety

@[simp] theorem sane_learnHalt (s : State) (i : Stall) (hs : Sane s) :
    Sane (State.learnHalt s i) := by
  unfold State.learnHalt
  simp (maxDischargeDepth := 40) (contextual := true) [*]

@[simp] theorem sane_causeNow (s : State) (i : Stall) (code : BitVec 4) (reason : Reason) (hs : Sane s) :
    Sane (State.causeNow s i code reason) := by
  unfold State.causeNow
  simp (maxDischargeDepth := 40) (contextual := true) [*]

@[simp] theorem sane_causeNext (s : State) (i : Stall) (code : BitVec 4) (reason : Reason) (hs : Sane s) :
    Sane (State.causeNext s i code reason) := by
  unfold State.causeNext
  simp (maxDischargeDepth := 40) (contextual := true) [*]

@[simp] theorem sane_cause (s : State) (i : Stall) (code : BitVec 4) (reason : Reason) (hs : Sane s) :
    Sane (State.cause s i code reason) := by
  unfold State.cause
  simp only []
  (repeat' split) <;> simp (maxDischargeDepth := 40) (contextual := true) [*]

@[simp] theorem sane_replaceMember (s : State) (i : Stall) (m sb : Member) (hs : Sane s) :
    Sane (State.replaceMember s i m sb) := by
  unfold State.replaceMember
  simp (maxDischargeDepth := 40) (contextual := true) [*]

@[simp] theorem sane_missingPeer (s : State) (i : Stall) (m : Member) (reason : Reason) (hs : Sane s) :
    Sane (State.missingPeer s i m reason) := by
  unfold State.missingPeer
  simp (maxDischargeDepth := 40) (contextual := true) [*]

@[simp] theorem sane_ignored (s : State) (i : Stall) (hs : Sane s) :
    Sane (State.ignored s i) := by
  unfold State.ignored
  simp (maxDischargeDepth := 40) (contextual := true) [*]

@[simp] theorem sane_portEvent (s : State) (p : PortId) (reason : Reason) (dir : Bool) (lane : Nat) (hs : Sane s) :
    Sane (State.portEvent s p reason dir lane) := by
  unfold State.portEvent
  simp (maxDischargeDepth := 40) (contextual := true) [*]

@[simp] theorem sane_countInjection (s : State) (p : PortId) (action : BitVec 2) (hs : Sane s) :
    Sane (State.countInjection s p action) := by
  unfold State.countInjection
  simp (maxDischargeDepth := 40) (contextual := true) [*]

@[simp] theorem sane_emit (s : State) (p : PortId) (f : Flit) (hs : Sane s) :
    Sane (State.emit s p f) := by
  unfold State.emit
  (repeat' split) <;> simp (maxDischargeDepth := 40) (contextual := true) [*]

@[simp] theorem sane_switchLanes (s : State) (p : PortId) (now : BitVec 12 × Fin 18 → Bool) (hs : Sane s) :
    Sane (State.switchLanes s p now) := by
  unfold State.switchLanes
  simp (maxDischargeDepth := 40) (contextual := true) [*]

@[simp] theorem sane_checkSwitch (s : State) (p : PortId) (hs : Sane s) :
    Sane (State.checkSwitch s p) := by
  unfold State.checkSwitch
  simp (maxDischargeDepth := 40) (contextual := true) [*]

@[simp] theorem sane_transmit (s : State) (p : PortId) (f : Flit) (hs : Sane s) :
    Sane (State.transmit s p f) := by
  unfold State.transmit
  simp (maxDischargeDepth := 40) (contextual := true) [*]

@[simp] theorem sane_freeBuffer (s : State) (p : PortId) (k : Nat) (hs : Sane s) :
    Sane (State.freeBuffer s p k) := by
  unfold State.freeBuffer
  simp (maxDischargeDepth := 40) (contextual := true) [*]

@[simp] theorem sane_leaveBuffer (s : State) (q : QueuedFlit) (hs : Sane s) :
    Sane (State.leaveBuffer s q) := by
  unfold State.leaveBuffer
  (repeat' split) <;> simp (maxDischargeDepth := 40) (contextual := true) [*]

@[simp] theorem sane_pump (s : State) (p : PortId) (n : Nat) (hs : Sane s) : Sane (s.pump p n) := by
  induction n generalizing s with
  | zero => exact hs
  | succ n ih =>
    unfold State.pump
    simp only []
    split
    · exact hs
    · split
      · exact hs
      · exact ih _ (sane_leaveBuffer _ _ (sane_transmit _ _ _ (sane_modLnk _ _ _ hs)))

@[simp] theorem sane_queueFlits (s : State) (p : PortId) (fs : List QueuedFlit) (hs : Sane s) :
    Sane (State.queueFlits s p fs) := by
  unfold State.queueFlits
  simp (maxDischargeDepth := 40) (contextual := true) [*]

@[simp] theorem sane_sendMessage (s : State) (i : Stall) (cls : Nat) (dst : Member × BitVec 6) (bs : List Byte) (hs : Sane s) :
    Sane (State.sendMessage s i cls dst bs) := by
  unfold State.sendMessage
  simp only []
  (repeat' split) <;> simp (maxDischargeDepth := 40) (contextual := true) [*]

@[simp] theorem sane_dropAttempt (s : State) (p : PortId) (hs : Sane s) :
    Sane (State.dropAttempt s p) := by
  unfold State.dropAttempt
  simp (maxDischargeDepth := 40) (contextual := true) [*]

@[simp] theorem sane_forgetBuffers (s : State) (p : PortId) (hs : Sane s) :
    Sane (State.forgetBuffers s p) := by
  unfold State.forgetBuffers
  simp (maxDischargeDepth := 40) (contextual := true) [*]

@[simp] theorem sane_cutLink (s : State) (p : PortId) (st : BitVec 4) (hs : Sane s) :
    Sane (State.cutLink s p st) := by
  unfold State.cutLink
  simp (maxDischargeDepth := 40) (contextual := true) [*]

@[simp] theorem sane_reroute (s : State) (i : Stall) (c : Charter) (qs : List QueuedFlit) (hs : Sane s) :
    Sane (State.reroute s i c qs) := by
  unfold State.reroute
  refine sane_forEach _ _ _ hs fun _ _ h => ?_
  (repeat' split) <;> simp [h]

@[simp] theorem sane_portDown (s : State) (p : PortId) (reason : Reason) (hs : Sane s) :
    Sane (State.portDown s p reason) := by
  unfold State.portDown
  (repeat' split) <;> simp (maxDischargeDepth := 40) (contextual := true) [*]

@[simp] theorem sane_retireLane (s : State) (p : PortId) (rx : Bool) (lane : Fin 18) (reason : Reason) (hs : Sane s) :
    Sane (State.retireLane s p rx lane reason) := by
  unfold State.retireLane
  simp only []
  (repeat' split) <;> simp (maxDischargeDepth := 40) (contextual := true) [*]

@[simp] theorem sane_resend (s : State) (p : PortId) (hs : Sane s) :
    Sane (State.resend s p) := by
  unfold State.resend
  simp (maxDischargeDepth := 40) (contextual := true) [*]

@[simp] theorem sane_acknowledge (s : State) (p : PortId) (ack : BitVec 12) (hs : Sane s) :
    Sane (State.acknowledge s p ack) := by
  unfold State.acknowledge
  simp (maxDischargeDepth := 40) (contextual := true) [*]

@[simp] theorem sane_reinitLink (s : State) (p : PortId) (hs : Sane s) :
    Sane (State.reinitLink s p) := by
  unfold State.reinitLink
  simp (maxDischargeDepth := 40) (contextual := true) [*]

@[simp] theorem sane_sendAudits (s : State) (p : PortId) (hs : Sane s) :
    Sane (State.sendAudits s p) := by
  unfold State.sendAudits
  simp (maxDischargeDepth := 40) (contextual := true) [*]

@[simp] theorem sane_darken (s : State) (p : PortId) (hs : Sane s) :
    Sane (State.darken s p) := by
  unfold State.darken
  simp (maxDischargeDepth := 40) (contextual := true) [*]

@[simp] theorem sane_darkenUnused (s : State) (i : Stall) (hs : Sane s) :
    Sane (State.darkenUnused s i) := by
  unfold State.darkenUnused
  simp (maxDischargeDepth := 40) (contextual := true) [*]

@[simp] theorem sane_setTariff (s : State) (w : Writer) (i : Stall) (c : Charter) (b : Nat) (r : BitVec 128) (hs : Sane s) :
    Sane (State.setTariff s w i c b r) := by
  unfold State.setTariff
  simp (maxDischargeDepth := 40) (contextual := true) [*]

@[simp] theorem sane_modRun (s : State) (i : Stall) (b : Nat) (f : BucketRun → BucketRun) (hs : Sane s) :
    Sane (State.modRun s i b f) := by
  unfold State.modRun
  simp (maxDischargeDepth := 40) (contextual := true) [*]

@[simp] theorem sane_forgetTariffs (s : State) (i : Stall) (c : Charter) (hs : Sane s) :
    Sane (State.forgetTariffs s i c) := by
  unfold State.forgetTariffs
  simp (maxDischargeDepth := 40) (contextual := true) [*]

@[simp] theorem sane_tokensHome (s : State) (i : Stall) (hs : Sane s) :
    Sane (State.tokensHome s i) := by
  unfold State.tokensHome
  simp (maxDischargeDepth := 40) (contextual := true) [*]

@[simp] theorem sane_ledgerOrigin (s : State) (i : Stall) (c : Charter) (new : Bool) (hs : Sane s) :
    Sane (State.ledgerOrigin s i c new) := by
  unfold State.ledgerOrigin
  simp (maxDischargeDepth := 40) (contextual := true) [*]

@[simp] theorem sane_sendSegments (s : State) (i : Stall) (dst : Member × BitVec 6) (gs : List Segment) (hs : Sane s) :
    Sane (State.sendSegments s i dst gs) := by
  unfold State.sendSegments
  simp (maxDischargeDepth := 40) (contextual := true) [*]

@[simp] theorem sane_sendDown (s : State) (i : Stall) (c : Charter) (b : Nat) (gs : List Segment) (hs : Sane s) :
    Sane (State.sendDown s i c b gs) := by
  unfold State.sendDown
  simp (maxDischargeDepth := 40) (contextual := true) [*]

@[simp] theorem sane_takeTotal (s : State) (i : Stall) (c : Charter) (b : Nat) (h : SegmentHeader) (qs : List (BitVec 48)) (hs : Sane s) :
    Sane (State.takeTotal s i c b h qs) := by
  unfold State.takeTotal
  simp (maxDischargeDepth := 40) (contextual := true) [*]

@[simp] theorem sane_tokenIn (s : State) (i : Stall) (src : Member × BitVec 6) (waits : Bool) (hs : Sane s) :
    Sane (State.tokenIn s i src waits) := by
  unfold State.tokenIn
  simp (maxDischargeDepth := 40) (contextual := true) [*]

@[simp] theorem sane_tokensBack (s : State) (i : Stall) (src : Member × BitVec 6) (n : Nat) (hs : Sane s) :
    Sane (State.tokensBack s i src n) := by
  unfold State.tokensBack
  simp (maxDischargeDepth := 40) (contextual := true) [*]

@[simp] theorem sane_addBuffered (s : State) (i : Stall) (b : Nat) (hs : Sane s) :
    Sane (State.addBuffered s i b) := by
  unfold State.addBuffered
  (repeat' split) <;> simp (maxDischargeDepth := 40) (contextual := true) [*]

@[simp] theorem sane_takeSurvey (s : State) (i : Stall) (c : Charter) (b : Nat) (maxexp : BitVec 8) (hs : Sane s) :
    Sane (State.takeSurvey s i c b maxexp) := by
  unfold State.takeSurvey
  simp only []
  (repeat' split) <;> simp (maxDischargeDepth := 40) (contextual := true) [*]

@[simp] theorem sane_execContribute (i : Stall) (index : Nat) (s : State) (hs : Sane s) :
    SaneOut (execContribute i index s) := by
  unfold execContribute
  simp only []
  (repeat' split) <;> simp (maxDischargeDepth := 40) (contextual := true) [*]

@[simp] theorem sane_execLedgerSendUp (i : Stall) (bucket : BitVec 20) (s : State) (hs : Sane s) :
    SaneOut (execLedgerSendUp i bucket s) := by
  unfold execLedgerSendUp
  simp only []
  (repeat' split) <;> simp (maxDischargeDepth := 40) (contextual := true) [*]

@[simp] theorem sane_discardSegment (s : State) (i : Stall) (reason : Reason) (b : BitVec 20) (hs : Sane s) :
    Sane (State.discardSegment s i reason b) := by
  unfold State.discardSegment
  simp (maxDischargeDepth := 40) (contextual := true) [*]

@[simp] theorem sane_takeShort (s : State) (i : Stall) (c : Charter) (h : SegmentHeader) (hs : Sane s) :
    Sane (State.takeShort s i c h) := by
  unfold State.takeShort
  simp (maxDischargeDepth := 40) (contextual := true) [*]

@[simp] theorem sane_useSegment (s : State) (i : Stall) (c : Charter) (g : Segment) (hs : Sane s) :
    Sane (State.useSegment s i c g) := by
  unfold State.useSegment
  simp only []
  (repeat' split) <;> simp (maxDischargeDepth := 40) (contextual := true) [*]

@[simp] theorem sane_receiveSegment (s : State) (i : Stall) (g : Segment) (hs : Sane s) :
    Sane (State.receiveSegment s i g) := by
  unfold State.receiveSegment
  simp only []
  (repeat' split) <;> simp (maxDischargeDepth := 40) (contextual := true) [*]

@[simp] theorem sane_execLedgerSegment (i : Stall) (g : Segment) (s : State) (hs : Sane s) :
    SaneOut (execLedgerSegment i g s) := by
  unfold execLedgerSegment
  simp (maxDischargeDepth := 40) (contextual := true) [*]

@[simp] theorem sane_execShortNotice (i : Stall) (h : SegmentHeader) (s : State) (hs : Sane s) :
    SaneOut (execShortNotice i h s) := by
  unfold execShortNotice
  simp (maxDischargeDepth := 40) (contextual := true) [*]

@[simp] theorem sane_ledgerDeadline (s : State) (i : Stall) (c : Charter) (leg : Nat) (hs : Sane s) :
    Sane (State.ledgerDeadline s i c leg) := by
  unfold State.ledgerDeadline
  simp (maxDischargeDepth := 40) (contextual := true) [*]

@[simp] theorem sane_ledgerBoundary (s : State) (i : Stall) (c : Charter) (hs : Sane s) :
    Sane (State.ledgerBoundary s i c) := by
  unfold State.ledgerBoundary
  simp (maxDischargeDepth := 40) (contextual := true) [*]

@[simp] theorem sane_writeFence (i : Stall) (reg : Fin 3) (v : Word) (s : State) (hs : Sane s) :
    Sane (writeFence i reg v s) := by
  unfold writeFence
  simp (maxDischargeDepth := 40) (contextual := true) [*]

@[simp] theorem sane_writeLdgCtrl (i : Stall) (v : Word) (s : State) (hs : Sane s) :
    Sane (writeLdgCtrl i v s) := by
  unfold writeLdgCtrl
  simp (maxDischargeDepth := 40) (contextual := true) [*]

@[simp] theorem sane_writeForget (i : Stall) (s : State) (hs : Sane s) :
    Sane (writeForget i s) := by
  unfold writeForget
  simp (maxDischargeDepth := 40) (contextual := true) [*]

@[simp] theorem sane_execLdgFenceWrite (r : Requester) (i : Stall) (reg : Fin 3) (v : Word) (s : State) (hs : Sane s) :
    SaneOut (execLdgFenceWrite r i reg v s) := by
  unfold execLdgFenceWrite
  simp (maxDischargeDepth := 40) (contextual := true) [*]

@[simp] theorem sane_execForget (r : Requester) (i : Stall) (s : State) (hs : Sane s) :
    SaneOut (execForget r i s) := by
  unfold execForget
  simp (maxDischargeDepth := 40) (contextual := true) [*]

@[simp] theorem sane_execLdgHeadroomWrite (r : Requester) (i : Stall) (v : Word) (s : State) (hs : Sane s) :
    SaneOut (execLdgHeadroomWrite r i v s) := by
  unfold execLdgHeadroomWrite
  simp (maxDischargeDepth := 40) (contextual := true) [*]

@[simp] theorem sane_settleAt (s : State) (i : Stall) (c : Charter) (e g : BitVec 512) (p : Prologue) (num : BitVec 40) (n : Nat) (hs : Sane s) :
    Sane (settleAt s i c e g p num n).1 := by
  unfold settleAt
  simp only []
  (repeat' split) <;> simp (maxDischargeDepth := 40) (contextual := true) [*]

@[simp] theorem sane_stlLast (s : State) (i : Stall) (reason : Reason) (hs : Sane s) :
    Sane (State.stlLast s i reason) := by
  unfold State.stlLast
  simp (maxDischargeDepth := 40) (contextual := true) [*]

@[simp] theorem sane_alarm (s : State) (i : Stall) (j : Nat) (hs : Sane s) :
    Sane (State.alarm s i j) := by
  unfold State.alarm
  simp (maxDischargeDepth := 40) (contextual := true) [*]

@[simp] theorem sane_memberAlarm (s : State) (i : Stall) (j : Nat) (hs : Sane s) :
    Sane (State.memberAlarm s i j) := by
  unfold State.memberAlarm
  simp (maxDischargeDepth := 40) (contextual := true) [*]

@[simp] theorem sane_countNonFinite (s : State) (i : Stall) (g : Nat) (hs : Sane s) :
    Sane (State.countNonFinite s i g) := by
  unfold State.countNonFinite
  simp (maxDischargeDepth := 40) (contextual := true) [*]

@[simp] theorem sane_settleEntry (s : State) (i : Stall) (c : Charter) (e : BitVec 512) (clip : Word) (num step : BitVec 40) (hs : Sane s) :
    Sane (State.settleEntry s i c e clip num step) := by
  unfold State.settleEntry
  simp (maxDischargeDepth := 40) (contextual := true) [*]

@[simp] theorem sane_settlePrologue (s : State) (i : Stall) (hs : Sane s) :
    Sane (State.settlePrologue s i) := by
  unfold State.settlePrologue
  simp (maxDischargeDepth := 40) (contextual := true) [*]

@[simp] theorem sane_execSettle (i : Stall) (index : Nat) (s : State) (hs : Sane s) :
    SaneOut (execSettle i index s) := by
  unfold execSettle
  simp only []
  (repeat' split) <;> simp (maxDischargeDepth := 40) (contextual := true) [*]

@[simp] theorem sane_tallyVerdict (s : State) (i : Stall) (v : CaravanVerdict) (hs : Sane s) :
    Sane (State.tallyVerdict s i v) := by
  unfold State.tallyVerdict
  (repeat' split) <;> simp (maxDischargeDepth := 40) (contextual := true) [*]

@[simp] theorem sane_settleBoundary (s : State) (i : Stall) (c : Charter) (hs : Sane s) :
    Sane (State.settleBoundary s i c) := by
  unfold State.settleBoundary
  simp (maxDischargeDepth := 40) (contextual := true) [*]

@[simp] theorem sane_settleOrigin (s : State) (i : Stall) (new : Bool) (hs : Sane s) :
    Sane (State.settleOrigin s i new) := by
  unfold State.settleOrigin
  simp (maxDischargeDepth := 40) (contextual := true) [*]

@[simp] theorem sane_writeStep (i : Stall) (v : BitVec 64) (s : State) (hs : Sane s) :
    Sane (writeStep i v s) := by
  unfold writeStep
  simp (maxDischargeDepth := 40) (contextual := true) [*]

@[simp] theorem sane_writeStats (i : Stall) (which : Fin 3) (v : Word) (s : State) (hs : Sane s) :
    Sane (writeStats i which v s) := by
  unfold writeStats
  simp (maxDischargeDepth := 40) (contextual := true) [*]

@[simp] theorem sane_writeK (i : Stall) (v : Word) (s : State) (hs : Sane s) :
    Sane (writeK i v s) := by
  unfold writeK
  simp (maxDischargeDepth := 40) (contextual := true) [*]

@[simp] theorem sane_writeSeed (i : Stall) (v : BitVec 64) (s : State) (hs : Sane s) :
    Sane (writeSeed i v s) := by
  unfold writeSeed
  simp (maxDischargeDepth := 40) (contextual := true) [*]

@[simp] theorem sane_writeTestCtr (i : Stall) (n : Fin 4) (v : Word) (s : State) (hs : Sane s) :
    Sane (writeTestCtr i n v s) := by
  unfold writeTestCtr
  simp (maxDischargeDepth := 40) (contextual := true) [*]

@[simp] theorem sane_writeTestKey (i : Stall) (v : BitVec 64) (s : State) (hs : Sane s) :
    Sane (writeTestKey i v s) := by
  unfold writeTestKey
  simp (maxDischargeDepth := 40) (contextual := true) [*]

@[simp] theorem sane_execStlStepWrite (r : Requester) (i : Stall) (v : BitVec 64) (s : State) (hs : Sane s) :
    SaneOut (execStlStepWrite r i v s) := by
  unfold execStlStepWrite
  simp (maxDischargeDepth := 40) (contextual := true) [*]

@[simp] theorem sane_execTlyStatsWrite (r : Requester) (i : Stall) (which : Fin 3) (v : Word) (s : State) (hs : Sane s) :
    SaneOut (execTlyStatsWrite r i which v s) := by
  unfold execTlyStatsWrite
  simp (maxDischargeDepth := 40) (contextual := true) [*]

@[simp] theorem sane_execTlyKWrite (r : Requester) (i : Stall) (v : Word) (s : State) (hs : Sane s) :
    SaneOut (execTlyKWrite r i v s) := by
  unfold execTlyKWrite
  simp (maxDischargeDepth := 40) (contextual := true) [*]

@[simp] theorem sane_execLotSeedWrite (r : Requester) (i : Stall) (v : BitVec 64) (s : State) (hs : Sane s) :
    SaneOut (execLotSeedWrite r i v s) := by
  unfold execLotSeedWrite
  simp (maxDischargeDepth := 40) (contextual := true) [*]

@[simp] theorem sane_execLotTestCall (r : Requester) (i : Stall) (v : Word) (s : State) (hs : Sane s) :
    SaneOut (execLotTestCall r i v s) := by
  unfold execLotTestCall
  simp (maxDischargeDepth := 40) (contextual := true) [*]

@[simp] theorem sane_execLotTestDone (i : Stall) (s : State) (hs : Sane s) :
    SaneOut (execLotTestDone i s) := by
  unfold execLotTestDone
  simp (maxDischargeDepth := 40) (contextual := true) [*]

@[simp] theorem sane_installTables (s : State) (i : Stall) (c : Charter) (hs : Sane s) :
    Sane (State.installTables s i c) := by
  unfold State.installTables
  simp (maxDischargeDepth := 40) (contextual := true) [*]

@[simp] theorem sane_activate (s : State) (i : Stall) (c : Charter) (hs : Sane s) :
    Sane (State.activate s i c) := by
  unfold State.activate
  simp (maxDischargeDepth := 40) (contextual := true) [*]

@[simp] theorem sane_takeRoles (s : State) (i : Stall) (c : Charter) (hs : Sane s) :
    Sane (State.takeRoles s i c) := by
  unfold State.takeRoles
  simp (maxDischargeDepth := 40) (contextual := true) [*]

@[simp] theorem sane_swapIn (s : State) (i : Stall) (hs : Sane s) :
    Sane (State.swapIn s i) := by
  unfold State.swapIn
  (repeat' split) <;> simp (maxDischargeDepth := 40) (contextual := true) [*]

@[simp] theorem sane_writeRegions (s : State) (i : Stall) (rs : List (BitVec 256)) (off : Nat) (bs : List Byte) (hs : Sane s) :
    Sane (State.writeRegions s i rs off bs) := by
  unfold State.writeRegions
  refine sane_forEach _ _ _ (by assumption) fun _ _ h => ?_
  (repeat' split) <;> simp (maxDischargeDepth := 40) (contextual := true) [*]

@[simp] theorem sane_writeSpace (s : State) (i : Stall) (c : Charter) (off : Nat) (bs : List Byte) (hs : Sane s) :
    Sane (State.writeSpace s i c off bs) := by
  unfold State.writeSpace
  refine sane_forEach _ _ _ (by assumption) fun _ _ h => ?_
  (repeat' split) <;> simp (maxDischargeDepth := 40) (contextual := true) [*]

@[simp] theorem sane_restoreBytes (s : State) (i : Stall) (c : Charter) (bs : List Byte) (hs : Sane s) :
    Sane (State.restoreBytes s i c bs) := by
  unfold State.restoreBytes
  refine sane_forEach _ _ _ (sane_writeRegions _ _ _ _ _ hs) fun s b h => ?_
  (repeat' split) <;> first | exact h | exact sane_setTariff _ _ _ _ _ _ h

@[simp] theorem sane_startCheckpoint (s : State) (i : Stall) (c : Charter) (hs : Sane s) :
    Sane (State.startCheckpoint s i c) := by
  unfold State.startCheckpoint
  simp (maxDischargeDepth := 40) (contextual := true) [*]

@[simp] theorem sane_abandonCheckpoint (s : State) (i : Stall) (hs : Sane s) :
    Sane (State.abandonCheckpoint s i) := by
  unfold State.abandonCheckpoint
  simp (maxDischargeDepth := 40) (contextual := true) [*]

@[simp] theorem sane_execCkptJobDone (i : Stall) (s : State) (hs : Sane s) :
    SaneOut (execCkptJobDone i s) := by
  unfold execCkptJobDone
  simp only []
  (repeat' split) <;> simp (maxDischargeDepth := 40) (contextual := true) [*]

@[simp] theorem sane_execBuddyCkptReceive (i : Stall) (m : Member) (header data : List Byte) (s : State) (hs : Sane s) :
    SaneOut (execBuddyCkptReceive i m header data s) := by
  unfold execBuddyCkptReceive
  simp only []
  (repeat' split) <;> simp (maxDischargeDepth := 40) (contextual := true) [*]

@[simp] theorem sane_restoreTo (s : State) (i : Stall) (march : BitVec 40) (hs : Sane s) :
    Sane (State.restoreTo s i march) := by
  unfold State.restoreTo
  (repeat' split) <;> simp (maxDischargeDepth := 40) (contextual := true) [*]

@[simp] theorem sane_writeRestore (i : Stall) (s : State) (hs : Sane s) :
    Sane (writeRestore i s) := by
  unfold writeRestore
  simp (maxDischargeDepth := 40) (contextual := true) [*]

@[simp] theorem sane_execRestore (r : Requester) (i : Stall) (s : State) (hs : Sane s) :
    SaneOut (execRestore r i s) := by
  unfold execRestore
  simp (maxDischargeDepth := 40) (contextual := true) [*]

@[simp] theorem sane_writeMirror (i : Stall) (v : Word) (s : State) (hs : Sane s) :
    Sane (writeMirror i v s) := by
  unfold writeMirror
  simp (maxDischargeDepth := 40) (contextual := true) [*]

@[simp] theorem sane_execFltMirrorWrite (r : Requester) (i : Stall) (v : Word) (s : State) (hs : Sane s) :
    SaneOut (execFltMirrorWrite r i v s) := by
  unfold execFltMirrorWrite
  simp (maxDischargeDepth := 40) (contextual := true) [*]

@[simp] theorem sane_reportFit (s : State) (i : Stall) (f : Fit) (hs : Sane s) :
    Sane (State.reportFit s i f) := by
  unfold State.reportFit
  simp (maxDischargeDepth := 40) (contextual := true) [*]

@[simp] theorem sane_fitHeld (s : State) (i : Stall) (hs : Sane s) :
    Sane (State.fitHeld s i) := by
  unfold State.fitHeld
  simp (maxDischargeDepth := 40) (contextual := true) [*]

@[simp] theorem sane_noteRefusal (s : State) (i : Stall) (code detail : Reason) (section_ item : Nat) (hs : Sane s) :
    Sane (State.noteRefusal s i code detail section_ item) := by
  unfold State.noteRefusal
  simp (maxDischargeDepth := 40) (contextual := true) [*]

@[simp] theorem sane_nofit (s : State) (i : Stall) (hs : Sane s) :
    Sane (State.nofit s i) := by
  unfold State.nofit
  (repeat' split) <;> simp (maxDischargeDepth := 40) (contextual := true) [*]

@[simp] theorem sane_refitActive (s : State) (i : Stall) (c : Charter) (hs : Sane s) :
    Sane (State.refitActive s i c) := by
  unfold State.refitActive
  (repeat' split) <;> simp (maxDischargeDepth := 40) (contextual := true) [*]

@[simp] theorem sane_refitPending (s : State) (i : Stall) (c : Charter) (hs : Sane s) :
    Sane (State.refitPending s i c) := by
  unfold State.refitPending
  simp (maxDischargeDepth := 40) (contextual := true) [*]

@[simp] theorem sane_refit (s : State) (i : Stall) (hs : Sane s) :
    Sane (State.refit s i) := by
  unfold State.refit
  simp only []
  (repeat' split) <;> simp (maxDischargeDepth := 40) (contextual := true) [*]

@[simp] theorem sane_refitNext (s : State) (i : Stall) (hs : Sane s) :
    Sane (State.refitNext s i) := by
  unfold State.refitNext
  simp only []
  (repeat' split) <;> simp (maxDischargeDepth := 40) (contextual := true) [*]

@[simp] theorem sane_refitPort (s was : State) (p : PortId) (hs : Sane s) :
    Sane (State.refitPort s was p) := by
  unfold State.refitPort
  (repeat' split) <;> simp (maxDischargeDepth := 40) (contextual := true) [*]

end Sys2Proof.Machine
end

