-- ==== Sys2Proof/Laws/SaneMarch.lean ====
section
/-! SUPPORT. The invariant is kept by the march. -/

namespace Sys2Proof.Machine

open Sys2Proof.Safety

@[simp] theorem sane_execRouteSend (i : Stall) (index : Nat) (s : State) (hs : Sane s) :
    SaneOut (execRouteSend i index s) := by
  unfold execRouteSend
  simp only []
  (repeat' split) <;> simp (maxDischargeDepth := 40) (contextual := true) [*]

@[simp] theorem sane_execBanditDelayExpire (p : PortId) (s : State) (hs : Sane s) :
    SaneOut (execBanditDelayExpire p s) := by
  unfold execBanditDelayExpire
  simp (maxDischargeDepth := 40) (contextual := true) [*]

@[simp] theorem sane_ledgerFlit (s : State) (i : Stall) (f : Flit) (hs : Sane s) :
    Sane (State.ledgerFlit s i f) := by
  unfold State.ledgerFlit
  simp only []
  (repeat' split) <;> simp (maxDischargeDepth := 40) (contextual := true) [*]

@[simp] theorem sane_deliverFlit (s : State) (i : Stall) (c : Charter) (f : Flit) (hs : Sane s) :
    Sane (State.deliverFlit s i c f) := by
  unfold State.deliverFlit
  (repeat' split) <;> simp (maxDischargeDepth := 40) (contextual := true) [*]

@[simp] theorem sane_headerNews (s : State) (p : PortId) (h : BitVec 128) (hs : Sane s) :
    Sane (State.headerNews s p h) := by
  unfold State.headerNews
  simp (maxDischargeDepth := 40) (contextual := true) [*]

@[simp] theorem sane_sendNak (s : State) (p : PortId) (hs : Sane s) :
    Sane (State.sendNak s p) := by
  unfold State.sendNak
  simp (maxDischargeDepth := 40) (contextual := true) [*]

@[simp] theorem sane_chargeLane (s : State) (p : PortId) (lane : Fin 18) (hs : Sane s) :
    Sane (State.chargeLane s p lane) := by
  unfold State.chargeLane
  simp (maxDischargeDepth := 40) (contextual := true) [*]

@[simp] theorem sane_uncorrectable (s : State) (p : PortId) (lanes : List (Fin 18)) (hs : Sane s) :
    Sane (State.uncorrectable s p lanes) := by
  unfold State.uncorrectable
  (repeat' split) <;> simp (maxDischargeDepth := 40) (contextual := true) [*]

@[simp] theorem sane_acceptFlit (s : State) (p : PortId) (f : Flit) (hs : Sane s) :
    Sane (State.acceptFlit s p f) := by
  unfold State.acceptFlit
  simp only []
  (repeat' split) <;> simp (maxDischargeDepth := 40) (contextual := true) [*]

@[simp] theorem sane_execFlitReceive (p : PortId) (f : Flit) (ueLanes : List (Fin 18)) (s : State) (hs : Sane s) :
    SaneOut (execFlitReceive p f ueLanes s) := by
  unfold execFlitReceive
  simp only []
  (repeat' split) <;> simp (maxDischargeDepth := 40) (contextual := true) [*]

@[simp] theorem sane_execReceivedTransfer (i : Stall) (index : Nat) (s : State) (hs : Sane s) :
    SaneOut (execReceivedTransfer i index s) := by
  unfold execReceivedTransfer
  simp only []
  (repeat' split) <;> simp (maxDischargeDepth := 40) (contextual := true) [*]

@[simp] theorem sane_execNak (p : PortId) (ack : BitVec 12) (s : State) (hs : Sane s) :
    SaneOut (execNak p ack s) := by
  unfold execNak
  simp (maxDischargeDepth := 40) (contextual := true) [*]

@[simp] theorem sane_execReplayTimeout (p : PortId) (s : State) (hs : Sane s) :
    SaneOut (execReplayTimeout p s) := by
  unfold execReplayTimeout
  (repeat' split) <;> simp (maxDischargeDepth := 40) (contextual := true) [*]

@[simp] theorem sane_execAuditFlit (p : PortId) (cls : Fin 5) (granted _spent held : Nat) (s : State) (hs : Sane s) :
    SaneOut (execAuditFlit p cls granted _spent held s) := by
  unfold execAuditFlit
  simp (maxDischargeDepth := 40) (contextual := true) [*]

@[simp] theorem sane_execRetireMessage (p : PortId) (lane : Fin 18) (seq : BitVec 12) (s : State) (hs : Sane s) :
    SaneOut (execRetireMessage p lane seq s) := by
  unfold execRetireMessage
  (repeat' split) <;> simp (maxDischargeDepth := 40) (contextual := true) [*]

@[simp] theorem sane_execIdentMessage (p : PortId) (m : IdentMessage) (s : State) (hs : Sane s) :
    SaneOut (execIdentMessage p m s) := by
  unfold execIdentMessage
  simp (maxDischargeDepth := 40) (contextual := true) [*]

@[simp] theorem sane_execPortReturn (p : PortId) (s : State) (hs : Sane s) :
    SaneOut (execPortReturn p s) := by
  unfold execPortReturn
  simp (maxDischargeDepth := 40) (contextual := true) [*]

@[simp] theorem sane_modRelay (s : State) (f : Relay → Relay) (hs : Sane s)
    (hf : (f s.fabric.relay).events.length ≤ 64) : Sane (s.modRelay f) := ⟨hs.1, hs.2.1, hf⟩

@[simp] theorem sane_writeRelayCtrl (v : Word) (s : State) (hs : Sane s) :
    Sane (writeRelayCtrl v s) := by
  unfold writeRelayCtrl
  simp only []
  (repeat' split) <;> simp (maxDischargeDepth := 40) (contextual := true) [*]

@[simp] theorem sane_execRelayRead32 (r : Requester) (ctrl : Word) (s : State) (hs : Sane s) :
    SaneOut (execRelayRead32 r ctrl s) := by
  unfold execRelayRead32
  simp (maxDischargeDepth := 40) (contextual := true) [*]

@[simp] theorem sane_execRelayWrite32 (r : Requester) (ctrl : Word) (s : State) (hs : Sane s) :
    SaneOut (execRelayWrite32 r ctrl s) := by
  unfold execRelayWrite32
  simp (maxDischargeDepth := 40) (contextual := true) [*]

@[simp] theorem sane_execRelayPost (r : Requester) (ctrl : Word) (s : State) (hs : Sane s) :
    SaneOut (execRelayPost r ctrl s) := by
  unfold execRelayPost
  simp (maxDischargeDepth := 40) (contextual := true) [*]

@[simp] theorem sane_execRelayResponse (result : BitVec 3) (data : Word) (s : State) (hs : Sane s) :
    SaneOut (execRelayResponse result data s) := by
  unfold execRelayResponse
  simp (maxDischargeDepth := 40) (contextual := true) [*]

@[simp] theorem sane_execRelayTimeout (s : State) (hs : Sane s) :
    SaneOut (execRelayTimeout s) := by
  unfold execRelayTimeout
  dsimp only
  split
  · exact sane_record _ _ (sane_modRelay _ _ (sane_atTime _ _ hs) hs.2.2)
  · exact hs

@[simp] theorem sane_execRelayEvent (i : Stall) (m : Member) (vector : BitVec 6) (s : State) (hs : Sane s) :
    SaneOut (execRelayEvent i m vector s) := by
  unfold execRelayEvent
  (repeat' (first | (simp (maxDischargeDepth := 40) (contextual := true) [*]; done) | split))
  all_goals simp (maxDischargeDepth := 40) (contextual := true) [*]

@[simp] theorem sane_takeRelayEvent (s : State) (hs : Sane s) :
    Sane (takeRelayEvent s).2 := by
  unfold takeRelayEvent
  have h64 := hs.2.2
  split
  · exact hs
  · rename_i m v l h
    rw [h, List.length_cons] at h64
    exact sane_modRelay _ _ hs (by simp only []; omega)

@[simp] theorem sane_execRelayEventRead (r : Requester) (s : State) (hs : Sane s) :
    SaneOut (execRelayEventRead r s) := by
  unfold execRelayEventRead
  simp (maxDischargeDepth := 40) (contextual := true) [*]

@[simp] theorem sane_recalibrate (s : State) (p : PortId) (rx : Bool) (lane : Fin 18) (hs : Sane s) :
    Sane (State.recalibrate s p rx lane) := by
  unfold State.recalibrate
  simp (maxDischargeDepth := 40) (contextual := true) [*]

@[simp] theorem sane_writeRteCtrl (p : PortId) (v : Word) (s : State) (hs : Sane s) :
    Sane (writeRteCtrl p v s) := by
  unfold writeRteCtrl
  simp (maxDischargeDepth := 40) (contextual := true) [*]

@[simp] theorem sane_execRecalGo (r : Requester) (p : PortId) (v : Word) (s : State) (hs : Sane s) :
    SaneOut (execRecalGo r p v s) := by
  unfold execRecalGo
  simp (maxDischargeDepth := 40) (contextual := true) [*]

@[simp] theorem sane_execRecalAuto (p : PortId) (s : State) (hs : Sane s) :
    SaneOut (execRecalAuto p s) := by
  unfold execRecalAuto
  simp (maxDischargeDepth := 40) (contextual := true) [*]

@[simp] theorem sane_execRecalComplete (p : PortSide) (s : State) (hs : Sane s) :
    SaneOut (execRecalComplete p s) := by
  unfold execRecalComplete
  (repeat' split) <;> simp (maxDischargeDepth := 40) (contextual := true) [*]

@[simp] theorem sane_execProbeBurst (p : PortId) (s : State) (hs : Sane s) :
    SaneOut (execProbeBurst p s) := by
  unfold execProbeBurst
  simp (maxDischargeDepth := 40) (contextual := true) [*]

@[simp] theorem sane_sendIdent (s : State) (p : PortId) (hs : Sane s) :
    Sane (State.sendIdent s p) := by
  unfold State.sendIdent
  simp only []
  (repeat' split) <;> simp (maxDischargeDepth := 40) (contextual := true) [*]

@[simp] theorem sane_execLightIn (p : PortId) (s : State) (hs : Sane s) :
    SaneOut (execLightIn p s) := by
  unfold execLightIn
  simp (maxDischargeDepth := 40) (contextual := true) [*]

@[simp] theorem sane_execPortDark (p : PortId) (s : State) (hs : Sane s) :
    SaneOut (execPortDark p s) := by
  unfold execPortDark
  simp (maxDischargeDepth := 40) (contextual := true) [*]

@[simp] theorem sane_execMateOpen (p : PortId) (s : State) (hs : Sane s) :
    SaneOut (execMateOpen p s) := by
  unfold execMateOpen
  simp (maxDischargeDepth := 40) (contextual := true) [*]

@[simp] theorem sane_execMateClose (p : PortId) (s : State) (hs : Sane s) :
    SaneOut (execMateClose p s) := by
  unfold execMateClose
  simp (maxDischargeDepth := 40) (contextual := true) [*]

@[simp] theorem sane_execSourceFailover (p : PortId) (src : Fin 2) (standbyLights : Bool) (s : State) (hs : Sane s) :
    SaneOut (execSourceFailover p src standbyLights s) := by
  unfold execSourceFailover
  simp (maxDischargeDepth := 40) (contextual := true) [*]

@[simp] theorem sane_execStandbySourceFailed (p : PortId) (s : State) (hs : Sane s) :
    SaneOut (execStandbySourceFailed p s) := by
  unfold execStandbySourceFailed
  simp (maxDischargeDepth := 40) (contextual := true) [*]

@[simp] theorem sane_writeBandit (p : PortId) (v : Word) (s : State) (hs : Sane s) :
    Sane (writeBandit p v s) := by
  unfold writeBandit
  simp (maxDischargeDepth := 40) (contextual := true) [*]

@[simp] theorem sane_execRteBanditWrite (r : Requester) (p : PortId) (v : Word) (s : State) (hs : Sane s) :
    SaneOut (execRteBanditWrite r p v s) := by
  unfold execRteBanditWrite
  simp (maxDischargeDepth := 40) (contextual := true) [*]

@[simp] theorem sane_portsUsable (s : State) (hs : Sane s) :
    Sane (portsUsable s) := by
  unfold portsUsable
  simp (maxDischargeDepth := 40) (contextual := true) [*]

@[simp] theorem sane_countEntry (s : State) (i : Stall) (c : Charter) (r : EntryRef) (hs : Sane s) :
    Sane (State.countEntry s i c r) := by
  unfold State.countEntry
  (repeat' split) <;> simp (maxDischargeDepth := 40) (contextual := true) [*]

@[simp] theorem sane_guardOverrun (s : State) (i : Stall) (c : Charter) (k : Nat) (hs : Sane s) :
    Sane (State.guardOverrun s i c k) := by
  unfold State.guardOverrun
  simp only []
  (repeat' split) <;> simp (maxDischargeDepth := 40) (contextual := true) [*]

@[simp] theorem sane_enterHeld (s : State) (i : Stall) (hold : Reason) (hs : Sane s) :
    Sane (State.enterHeld s i hold) := by
  unfold State.enterHeld
  simp (maxDischargeDepth := 40) (contextual := true) [*]

@[simp] theorem sane_unitsOrigin (s : State) (i : Stall) (new : Bool) (hs : Sane s) :
    Sane (State.unitsOrigin s i new) := by
  unfold State.unitsOrigin
  simp (maxDischargeDepth := 40) (contextual := true) [*]

@[simp] theorem sane_outOfStepCause (s : State) (i : Stall) (hs : Sane s) :
    Sane (State.outOfStepCause s i) := by
  unfold State.outOfStepCause
  simp (maxDischargeDepth := 40) (contextual := true) [*]

@[simp] theorem sane_beginMarch (s : State) (i : Stall) (hs : Sane s) :
    Sane (State.beginMarch s i) := by
  unfold State.beginMarch
  simp only []
  (repeat' split) <;> simp (maxDischargeDepth := 40) (contextual := true) [*]

@[simp] theorem sane_closeMarch (s : State) (i : Stall) (hs : Sane s) :
    Sane (State.closeMarch s i) := by
  unfold State.closeMarch
  simp only []
  generalize BitVec.ofNat 64 (max _ s.time.toNat) = o
  (repeat' split) <;> simp (maxDischargeDepth := 40) (contextual := true) [*]

@[simp] theorem sane_finishMarch (s : State) (i : Stall) (hs : Sane s) :
    Sane (State.finishMarch s i) := by
  unfold State.finishMarch
  simp only []
  (repeat' split) <;> simp (maxDischargeDepth := 40) (contextual := true) [*]

@[simp] theorem sane_sendSettled (s : State) (i : Stall) (hs : Sane s) :
    Sane (State.sendSettled s i) := by
  unfold State.sendSettled
  simp (maxDischargeDepth := 40) (contextual := true) [*]

@[simp] theorem sane_beginSettle (s : State) (i : Stall) (c : Charter) (hs : Sane s) :
    Sane (State.beginSettle s i c) := by
  unfold State.beginSettle
  simp (maxDischargeDepth := 40) (contextual := true) [*]

@[simp] theorem sane_replaceIn (s : State) (i : Stall) (car : BitVec 6) (m sb : Member) (hs : Sane s) :
    Sane (State.replaceIn s i car m sb) := by
  unfold State.replaceIn
  simp (maxDischargeDepth := 40) (contextual := true) [*]

@[simp] theorem sane_fallBack (s : State) (i : Stall) (hs : Sane s) :
    Sane (State.fallBack s i) := by
  unfold State.fallBack
  simp only []
  (repeat' (first | (simp (maxDischargeDepth := 40) (contextual := true) [*]; done) | (refine sane_forEach _ _ _ ?_ fun _ _ h => ?_) | split))

@[simp] theorem sane_announceRepeat (s : State) (i : Stall) (hs : Sane s) :
    Sane (State.announceRepeat s i) := by
  unfold State.announceRepeat
  simp (maxDischargeDepth := 40) (contextual := true) [*]

@[simp] theorem sane_waitRepeat (s : State) (i : Stall) (hs : Sane s) :
    Sane (State.waitRepeat s i) := by
  unfold State.waitRepeat
  simp (maxDischargeDepth := 40) (contextual := true) [*]

@[simp] theorem sane_enterRepeat (s : State) (i : Stall) (hs : Sane s) :
    Sane (State.enterRepeat s i) := by
  unfold State.enterRepeat
  simp (maxDischargeDepth := 40) (contextual := true) [*]

@[simp] theorem sane_takeVerdict (s : State) (i : Stall) (v : CaravanVerdict) (hs : Sane s) :
    Sane (State.takeVerdict s i v) := by
  unfold State.takeVerdict
  simp (maxDischargeDepth := 40) (contextual := true) [*]

@[simp] theorem sane_applyVerdict (s : State) (i : Stall) (c : Charter) (v : CaravanVerdict) (hs : Sane s) :
    Sane (State.applyVerdict s i c v) := by
  unfold State.applyVerdict
  simp (maxDischargeDepth := 40) (contextual := true) [*]

@[simp] theorem sane_leadVerdict (s : State) (i : Stall) (c : Charter) (v : CaravanVerdict) (lost : List Member) (hs : Sane s) :
    Sane (State.leadVerdict s i c v lost) := by
  unfold State.leadVerdict
  simp only []
  (repeat' split) <;> simp (maxDischargeDepth := 40) (contextual := true) [*]

@[simp] theorem sane_federate (s : State) (i : Stall) (c : Charter) (lost : List Member) (force : Bool) (hs : Sane s) :
    Sane (State.federate s i c lost force) := by
  unfold State.federate
  simp (maxDischargeDepth := 40) (contextual := true) [*]

@[simp] theorem sane_tryVerdict (s : State) (i : Stall) (force : Bool) (hs : Sane s) :
    Sane (State.tryVerdict s i force) := by
  unfold State.tryVerdict
  simp only []
  (repeat' split) <;> simp (maxDischargeDepth := 40) (contextual := true) [*]

@[simp] theorem sane_beginExchange (s : State) (i : Stall) (c : Charter) (tick : Nat) (hs : Sane s) :
    Sane (State.beginExchange s i c tick) := by
  unfold State.beginExchange
  simp (maxDischargeDepth := 40) (contextual := true) [*]

@[simp] theorem sane_tickLegs (s : State) (i : Stall) (c : Charter) (k : Nat) (hs : Sane s) :
    Sane (State.tickLegs s i c k) := by
  unfold State.tickLegs
  simp (maxDischargeDepth := 40) (contextual := true) [*]

@[simp] theorem sane_tickAfter (s : State) (i : Stall) (c : Charter) (k : Nat) (hs : Sane s) :
    Sane (State.tickAfter s i c k) := by
  unfold State.tickAfter
  simp (maxDischargeDepth := 40) (contextual := true) [*]

@[simp] theorem sane_sendSync (s : State) (i : Stall) (stamp : BitVec 64) (hops : BitVec 8) (hs : Sane s) :
    Sane (State.sendSync s i stamp hops) := by
  unfold State.sendSync
  simp only []
  (repeat' (first | (simp (maxDischargeDepth := 40) (contextual := true) [*]; done) | (refine sane_forEach _ _ _ ?_ fun _ _ h => ?_) | split))

@[simp] theorem sane_execSyncFlitSend (i : Stall) (s : State) (hs : Sane s) :
    SaneOut (execSyncFlitSend i s) := by
  unfold execSyncFlitSend
  simp (maxDischargeDepth := 40) (contextual := true) [*]

@[simp] theorem sane_execSyncFlitReceive (i : Stall) (p : PortId) (stamp : BitVec 64) (hops : BitVec 8) (s : State) (hs : Sane s) :
    SaneOut (execSyncFlitReceive i p stamp hops s) := by
  unfold execSyncFlitReceive
  simp (maxDischargeDepth := 40) (contextual := true) [*]

@[simp] theorem sane_execDelayMeasure (p : PortId) (ns : BitVec 32) (s : State) (hs : Sane s) :
    SaneOut (execDelayMeasure p ns s) := by
  unfold execDelayMeasure
  simp (maxDischargeDepth := 40) (contextual := true) [*]

@[simp] theorem sane_execHoldover (i : Stall) (s : State) (hs : Sane s) :
    SaneOut (execHoldover i s) := by
  unfold execHoldover
  simp (maxDischargeDepth := 40) (contextual := true) [*]

@[simp] theorem sane_execSyncedLost (i : Stall) (s : State) (hs : Sane s) :
    SaneOut (execSyncedLost i s) := by
  unfold execSyncedLost
  simp (maxDischargeDepth := 40) (contextual := true) [*]

@[simp] theorem sane_execOutOfStep (i : Stall) (s : State) (hs : Sane s) :
    SaneOut (execOutOfStep i s) := by
  unfold execOutOfStep
  simp (maxDischargeDepth := 40) (contextual := true) [*]

@[simp] theorem sane_execLeadChange (i : Stall) (s : State) (hs : Sane s) :
    SaneOut (execLeadChange i s) := by
  unfold execLeadChange
  simp only []
  (repeat' split) <;> simp (maxDischargeDepth := 40) (contextual := true) [*]

@[simp] theorem sane_execMarchOrigin (i : Stall) (s : State) (hs : Sane s) :
    SaneOut (execMarchOrigin i s) := by
  unfold execMarchOrigin
  simp (maxDischargeDepth := 40) (contextual := true) [*]

@[simp] theorem sane_fireTick (s : State) (i : Stall) (hs : Sane s) :
    Sane (State.fireTick s i) := by
  unfold State.fireTick
  simp only []
  (repeat' split) <;> simp (maxDischargeDepth := 40) (contextual := true) [*]

@[simp] theorem sane_entryDone (s : State) (i : Stall) (c : Charter) (e : EntryRef) (hs : Sane s) :
    Sane (State.entryDone s i c e) := by
  unfold State.entryDone
  simp only []
  (repeat' split) <;> simp (maxDischargeDepth := 40) (contextual := true) [*]

@[simp] theorem sane_lateWork (s : State) (i : Stall) (c : Charter) (k : Nat) (hs : Sane s) :
    Sane (State.lateWork s i c k) := by
  unfold State.lateWork
  simp (maxDischargeDepth := 40) (contextual := true) [*]

@[simp] theorem sane_settleEnds (s : State) (i : Stall) (late : Bool) (hs : Sane s) :
    Sane (State.settleEnds s i late) := by
  unfold State.settleEnds
  simp (maxDischargeDepth := 40) (contextual := true) [*]

@[simp] theorem sane_execEntryComplete (i : Stall) (e : EntryRef) (dt : BitVec 64) (s : State) (hs : Sane s) :
    SaneOut (execEntryComplete i e dt s) := by
  unfold execEntryComplete
  simp only []
  (repeat' split) <;> simp (maxDischargeDepth := 40) (contextual := true) [*]

@[simp] theorem sane_execSettleLate (i : Stall) (_m : Member) (time : BitVec 64) (s : State) (hs : Sane s) :
    SaneOut (execSettleLate i _m time s) := by
  unfold execSettleLate
  simp (maxDischargeDepth := 40) (contextual := true) [*]

@[simp] theorem sane_execHaltFlit (i : Stall) (m : Member) (code : BitVec 4) (reason : Reason) (s : State) (hs : Sane s) :
    SaneOut (execHaltFlit i m code reason s) := by
  unfold execHaltFlit
  simp (maxDischargeDepth := 40) (contextual := true) [*]

@[simp] theorem sane_execHaltBroadcast (i : Stall) (s : State) (hs : Sane s) :
    SaneOut (execHaltBroadcast i s) := by
  unfold execHaltBroadcast
  simp (maxDischargeDepth := 40) (contextual := true) [*]

@[simp] theorem sane_execVerdictWord (i : Stall) (w : VerdictWord) (s : State) (hs : Sane s) :
    SaneOut (execVerdictWord i w s) := by
  unfold execVerdictWord
  simp (maxDischargeDepth := 40) (contextual := true) [*]

@[simp] theorem sane_execVerdictLost (i : Stall) (s : State) (hs : Sane s) :
    SaneOut (execVerdictLost i s) := by
  unfold execVerdictLost
  simp (maxDischargeDepth := 40) (contextual := true) [*]

@[simp] theorem sane_execFederationWord (i : Stall) (w : FederationWord) (s : State) (hs : Sane s) :
    SaneOut (execFederationWord i w s) := by
  unfold execFederationWord
  simp only []
  (repeat' split) <;> simp (maxDischargeDepth := 40) (contextual := true) [*]

@[simp] theorem sane_execFederationWordTimeout (i : Stall) (s : State) (hs : Sane s) :
    SaneOut (execFederationWordTimeout i s) := by
  unfold execFederationWordTimeout
  simp only []
  (repeat' split) <;> simp (maxDischargeDepth := 40) (contextual := true) [*]

@[simp] theorem sane_execCaravanVerdict (i : Stall) (v : CaravanVerdict) (s : State) (hs : Sane s) :
    SaneOut (execCaravanVerdict i v s) := by
  unfold execCaravanVerdict
  simp only []
  (repeat' split) <;> simp (maxDischargeDepth := 40) (contextual := true) [*]

@[simp] theorem sane_execDecisionLost (i : Stall) (s : State) (hs : Sane s) :
    SaneOut (execDecisionLost i s) := by
  unfold execDecisionLost
  simp (maxDischargeDepth := 40) (contextual := true) [*]

@[simp] theorem sane_armAt (s : State) (i : Stall) (o : BitVec 64) (continuous : Bool) (hs : Sane s) :
    Sane (State.armAt s i o continuous) := by
  unfold State.armAt
  simp (maxDischargeDepth := 40) (contextual := true) [*]

@[simp] theorem sane_cmdStart (i : Stall) (s : State) (hs : Sane s) :
    Sane (cmdStart i s) := by
  unfold cmdStart
  simp only []
  (repeat' split) <;> simp (maxDischargeDepth := 40) (contextual := true) [*]

@[simp] theorem sane_cmdSingle (i : Stall) (s : State) (hs : Sane s) :
    Sane (cmdSingle i s) := by
  unfold cmdSingle
  simp only []
  (repeat' split) <;> simp (maxDischargeDepth := 40) (contextual := true) [*]

@[simp] theorem sane_stopRunning (s : State) (i : Stall) (hs : Sane s) :
    Sane (State.stopRunning s i) := by
  unfold State.stopRunning
  simp (maxDischargeDepth := 40) (contextual := true) [*]

@[simp] theorem sane_cmdStop (i : Stall) (s : State) (hs : Sane s) :
    Sane (cmdStop i s) := by
  unfold cmdStop
  simp (maxDischargeDepth := 40) (contextual := true) [*]

@[simp] theorem sane_cmdStopNow (i : Stall) (s : State) (hs : Sane s) :
    Sane (cmdStopNow i s) := by
  unfold cmdStopNow
  simp only []
  (repeat' split) <;> simp (maxDischargeDepth := 40) (contextual := true) [*]

@[simp] theorem sane_acceptHold (s : State) (i : Stall) (c : Charter) (hs : Sane s) :
    Sane (State.acceptHold s i c) := by
  unfold State.acceptHold
  simp (maxDischargeDepth := 40) (contextual := true) [*]

@[simp] theorem sane_discardHold (s : State) (i : Stall) (hs : Sane s) :
    Sane (State.discardHold s i) := by
  unfold State.discardHold
  simp (maxDischargeDepth := 40) (contextual := true) [*]

@[simp] theorem sane_cmdAccept (i : Stall) (s : State) (hs : Sane s) :
    Sane (cmdAccept i s) := by
  unfold cmdAccept
  simp only []
  (repeat' split) <;> simp (maxDischargeDepth := 40) (contextual := true) [*]

@[simp] theorem sane_cmdDiscard (i : Stall) (s : State) (hs : Sane s) :
    Sane (cmdDiscard i s) := by
  unfold cmdDiscard
  simp (maxDischargeDepth := 40) (contextual := true) [*]

@[simp] theorem sane_writeMarchCmd (i : Stall) (cmd : BitVec 3) (s : State) (hs : Sane s) :
    Sane (writeMarchCmd i cmd s) := by
  unfold writeMarchCmd
  simp (maxDischargeDepth := 40) (contextual := true) [*]

@[simp] theorem sane_execStart (r : Requester) (i : Stall) (withStopNow : Bool) (s : State) (hs : Sane s) :
    SaneOut (execStart r i withStopNow s) := by
  unfold execStart
  simp (maxDischargeDepth := 40) (contextual := true) [*]

@[simp] theorem sane_execSingle (r : Requester) (i : Stall) (s : State) (hs : Sane s) :
    SaneOut (execSingle r i s) := by
  unfold execSingle
  simp (maxDischargeDepth := 40) (contextual := true) [*]

@[simp] theorem sane_execStop (r : Requester) (i : Stall) (s : State) (hs : Sane s) :
    SaneOut (execStop r i s) := by
  unfold execStop
  simp (maxDischargeDepth := 40) (contextual := true) [*]

@[simp] theorem sane_execStopNow (r : Requester) (i : Stall) (s : State) (hs : Sane s) :
    SaneOut (execStopNow r i s) := by
  unfold execStopNow
  simp (maxDischargeDepth := 40) (contextual := true) [*]

@[simp] theorem sane_execAccept (r : Requester) (i : Stall) (s : State) (hs : Sane s) :
    SaneOut (execAccept r i s) := by
  unfold execAccept
  simp (maxDischargeDepth := 40) (contextual := true) [*]

@[simp] theorem sane_execDiscard (r : Requester) (i : Stall) (s : State) (hs : Sane s) :
    SaneOut (execDiscard r i s) := by
  unfold execDiscard
  simp (maxDischargeDepth := 40) (contextual := true) [*]

@[simp] theorem sane_takeOrigin (s : State) (i : Stall) (o : BitVec 64) (hs : Sane s) :
    Sane (State.takeOrigin s i o) := by
  unfold State.takeOrigin
  simp only []
  (repeat' split) <;> simp (maxDischargeDepth := 40) (contextual := true) [*]

@[simp] theorem sane_takeFence (s : State) (i : Stall) (m sb : Member) (hs : Sane s) :
    Sane (State.takeFence s i m sb) := by
  unfold State.takeFence
  simp (maxDischargeDepth := 40) (contextual := true) [*]

@[simp] theorem sane_memberIsReady (s : State) (i : Stall) (m : Member) (hs : Sane s) :
    Sane (State.memberIsReady s i m) := by
  unfold State.memberIsReady
  simp (maxDischargeDepth := 40) (contextual := true) [*]

@[simp] theorem sane_offerReady (s : State) (i : Stall) (hs : Sane s) :
    Sane (State.offerReady s i) := by
  unfold State.offerReady
  simp (maxDischargeDepth := 40) (contextual := true) [*]

@[simp] theorem sane_standbySettled (s : State) (i : Stall) (hs : Sane s) :
    Sane (State.standbySettled s i) := by
  unfold State.standbySettled
  simp only []
  (repeat' split) <;> simp (maxDischargeDepth := 40) (contextual := true) [*]

@[simp] theorem sane_obeyFence (s : State) (i : Stall) (m sb : Member) (hs : Sane s) :
    Sane (State.obeyFence s i m sb) := by
  unfold State.obeyFence
  simp only []
  (repeat' split) <;> simp (maxDischargeDepth := 40) (contextual := true) [*]

@[simp] theorem sane_mirrorTotals (s : State) (i : Stall) (c : Charter) (totals : List (List (BitVec 32))) (hs : Sane s) :
    Sane (State.mirrorTotals s i c totals) := by
  unfold State.mirrorTotals
  simp (maxDischargeDepth := 40) (contextual := true) [*]

@[simp] theorem sane_mirrorTariffs (s : State) (i : Stall) (c : Charter) (tariffs : List (BitVec 128)) (hs : Sane s) :
    Sane (State.mirrorTariffs s i c tariffs) := by
  unfold State.mirrorTariffs
  simp (maxDischargeDepth := 40) (contextual := true) [*]

@[simp] theorem sane_settleMarks (s : State) (i : Stall) (c : Charter) (hs : Sane s) :
    Sane (State.settleMarks s i c) := by
  unfold State.settleMarks
  simp (maxDischargeDepth := 40) (contextual := true) [*]

@[simp] theorem sane_execMirrorApply (i : Stall) (march : BitVec 40) (totals : List (List (BitVec 32))) (tariffs : List (BitVec 128)) (s : State) (hs : Sane s) :
    SaneOut (execMirrorApply i march totals tariffs s) := by
  unfold execMirrorApply
  simp only []
  (repeat' split) <;> simp (maxDischargeDepth := 40) (contextual := true) [*]

@[simp] theorem sane_execCommandRelay (i : Stall) (cmd : RelayedCommand) (s : State) (hs : Sane s) :
    SaneOut (execCommandRelay i cmd s) := by
  unfold execCommandRelay
  simp only []
  (repeat' split) <;> simp (maxDischargeDepth := 40) (contextual := true) [*]

@[simp] theorem sane_execSettled (i : Stall) (m : Member) (march _step : BitVec 40) (s : State) (hs : Sane s) :
    SaneOut (execSettled i m march _step s) := by
  unfold execSettled
  simp (maxDischargeDepth := 40) (contextual := true) [*]

@[simp] theorem sane_execRecordRequest (i : Stall) (s : State) (hs : Sane s) :
    SaneOut (execRecordRequest i s) := by
  unfold execRecordRequest
  simp (maxDischargeDepth := 40) (contextual := true) [*]

@[simp] theorem sane_execRecordAnswer (i : Stall) (m : Member) (s : State) (hs : Sane s) :
    SaneOut (execRecordAnswer i m s) := by
  unfold execRecordAnswer
  simp only []
  (repeat' split) <;> simp (maxDischargeDepth := 40) (contextual := true) [*]

@[simp] theorem sane_execSettleUnconfirmed (i : Stall) (m : Member) (s : State) (hs : Sane s) :
    SaneOut (execSettleUnconfirmed i m s) := by
  unfold execSettleUnconfirmed
  simp only []
  (repeat' split) <;> simp (maxDischargeDepth := 40) (contextual := true) [*]

@[simp] theorem sane_execSpareReady (i : Stall) (m : Member) (s : State) (hs : Sane s) :
    SaneOut (execSpareReady i m s) := by
  unfold execSpareReady
  simp (maxDischargeDepth := 40) (contextual := true) [*]

@[simp] theorem sane_execMemberReady (i : Stall) (m : Member) (s : State) (hs : Sane s) :
    SaneOut (execMemberReady i m s) := by
  unfold execMemberReady
  simp (maxDischargeDepth := 40) (contextual := true) [*]

@[simp] theorem sane_takeOver (s : State) (i : Stall) (m : Member) (hs : Sane s) :
    Sane (State.takeOver s i m) := by
  unfold State.takeOver
  (repeat' split) <;> simp (maxDischargeDepth := 40) (contextual := true) [*]

@[simp] theorem sane_execTakeoverWait (i : Stall) (s : State) (hs : Sane s) :
    SaneOut (execTakeoverWait i s) := by
  unfold execTakeoverWait
  simp only []
  (repeat' (first | (simp (maxDischargeDepth := 40) (contextual := true) [*]; done) | (refine sane_forEach _ _ _ ?_ fun _ _ h => ?_) | split))

end Sys2Proof.Machine
end

