-- ==== Sys2Proof/Laws/SaneFabric.lean ====
section
/-! SUPPORT. The invariant is kept by the route ports, the fit proof, the memory tiers and the anatomy. -/

namespace Sys2Proof.Machine

open Sys2Proof.Safety

@[simp] theorem sane_execRefit (i : Stall) (s : State) (hs : Sane s) :
    SaneOut (execRefit i s) := by
  unfold execRefit
  simp (maxDischargeDepth := 40) (contextual := true) [*]

@[simp] theorem sane_moduleFault (s : State) (r : Rec) (hs : Sane s) :
    Sane (State.moduleFault s r) := by
  unfold State.moduleFault
  simp (maxDischargeDepth := 40) (contextual := true) [*]

@[simp] theorem sane_unitErr (s : State) (u : MemUnit) (bay : BitVec 10) (row : BitVec 18) (kind : BitVec 8) (hs : Sane s) :
    Sane (State.unitErr s u bay row kind) := by
  unfold State.unitErr
  (repeat' split) <;> simp (maxDischargeDepth := 40) (contextual := true) [*]

@[simp] theorem sane_setRebuild (s : State) (u : MemUnit) (r : Rebuild) (hs : Sane s) :
    Sane (State.setRebuild s u r) := by
  unfold State.setRebuild
  (repeat' split) <;> simp (maxDischargeDepth := 40) (contextual := true) [*]

@[simp] theorem sane_setGroup (s : State) (u : MemUnit) (g : BitVec 2) (hs : Sane s) :
    Sane (State.setGroup s u g) := by
  unfold State.setGroup
  (repeat' split) <;> simp (maxDischargeDepth := 40) (contextual := true) [*]

@[simp] theorem sane_startRebuild (s : State) (u : MemUnit) (hs : Sane s) :
    Sane (State.startRebuild s u) := by
  unfold State.startRebuild
  simp (maxDischargeDepth := 40) (contextual := true) [*]

@[simp] theorem sane_rebuildUnit (s : State) (u : MemUnit) (bay row : Nat) (hs : Sane s) :
    Sane (State.rebuildUnit s u bay row) := by
  unfold State.rebuildUnit
  generalize List.range 256 = l
  simp only []
  split
  · exact hs
  · exact ⟨foldl_keeps (fun m => memWf m = true) _ _ _ hs.1 fun m k hm => memPut_wf _ _ m hm, hs.2⟩

@[simp] theorem sane_rebuilt (s : State) (u : MemUnit) (bay : BitVec 10) (row : BitVec 18) (hs : Sane s) :
    Sane (State.rebuilt s u bay row) := by
  unfold State.rebuilt
  (repeat' split) <;> simp (maxDischargeDepth := 40) (contextual := true) [*]

@[simp] theorem sane_rebuildNear (s : State) (j : Fin 16) (hs : Sane s) :
    Sane (State.rebuildNear s j) := by
  unfold State.rebuildNear
  simp only []
  (repeat' split) <;> simp (maxDischargeDepth := 40) (contextual := true) [*]

@[simp] theorem sane_rebuildSerai (s : State) (hs : Sane s) :
    Sane (State.rebuildSerai s) := by
  unfold State.rebuildSerai
  simp only []
  (repeat' split) <;> simp (maxDischargeDepth := 40) (contextual := true) [*]

@[simp] theorem sane_execRebuildRow (serai : Bool) (s : State) (hs : Sane s) :
    SaneOut (execRebuildRow serai s) := by
  unfold execRebuildRow
  (repeat' split) <;> simp (maxDischargeDepth := 40) (contextual := true) [*]

@[simp] theorem sane_plainLost (s : State) (u : MemUnit) (hs : Sane s) :
    Sane (State.plainLost s u) := by
  unfold State.plainLost
  simp (maxDischargeDepth := 40) (contextual := true) [*]

@[simp] theorem sane_refitTier (s : State) (tier : BitVec 3) (hs : Sane s) :
    Sane (State.refitTier s tier) := by
  unfold State.refitTier
  simp (maxDischargeDepth := 40) (contextual := true) [*]

@[simp] theorem sane_groupFailed (s : State) (u : MemUnit) (bay : BitVec 10) (row : BitVec 18) (hs : Sane s) :
    Sane (State.groupFailed s u bay row) := by
  unfold State.groupFailed
  (repeat' split) <;> simp (maxDischargeDepth := 40) (contextual := true) [*]

@[simp] theorem sane_setUnit (s : State) (u : MemUnit) (state : BitVec 2) (hs : Sane s) :
    Sane (State.setUnit s u state) := by
  unfold State.setUnit
  (repeat' split) <;> simp (maxDischargeDepth := 40) (contextual := true) [*]

@[simp] theorem sane_retireNow (s : State) (f : FailingUnit) (hs : Sane s) :
    Sane (State.retireNow s f) := by
  unfold State.retireNow
  simp only []
  (repeat' split) <;> simp (maxDischargeDepth := 40) (contextual := true) [*]

@[simp] theorem sane_finishRetirements (s : State) (hs : Sane s) :
    Sane (State.finishRetirements s) := by
  unfold State.finishRetirements
  simp (maxDischargeDepth := 40) (contextual := true) [*]

@[simp] theorem sane_retireUnit (s : State) (u : MemUnit) (bay : BitVec 10) (row : BitVec 18) (reason : Reason) (hs : Sane s) :
    Sane (State.retireUnit s u bay row reason) := by
  unfold State.retireUnit
  (repeat' split) <;> simp (maxDischargeDepth := 40) (contextual := true) [*]

@[simp] theorem sane_corrected (s : State) (u : MemUnit) (n : Nat) (hs : Sane s) :
    Sane (State.corrected s u n) := by
  unfold State.corrected
  (repeat' split) <;> simp (maxDischargeDepth := 40) (contextual := true) [*]

@[simp] theorem sane_execMemCorrected (u : MemUnit) (errors : SymbolErrors) (s : State) (hs : Sane s) :
    SaneOut (execMemCorrected u errors s) := by
  unfold execMemCorrected
  simp (maxDischargeDepth := 40) (contextual := true) [*]

@[simp] theorem sane_execCeRate (u : MemUnit) (s : State) (hs : Sane s) :
    SaneOut (execCeRate u s) := by
  unfold execCeRate
  simp (maxDischargeDepth := 40) (contextual := true) [*]

@[simp] theorem sane_countUncorrectable (s : State) (u : MemUnit) (hs : Sane s) :
    Sane (State.countUncorrectable s u) := by
  unfold State.countUncorrectable
  (repeat' split) <;> simp (maxDischargeDepth := 40) (contextual := true) [*]

@[simp] theorem sane_scheduleRepeat (s : State) (u : MemUnit) (bay : BitVec 10) (row : BitVec 18) (hs : Sane s) :
    Sane (State.scheduleRepeat s u bay row) := by
  unfold State.scheduleRepeat
  simp (maxDischargeDepth := 40) (contextual := true) [*]

@[simp] theorem sane_execMemUncorrectable (u : MemUnit) (bay : BitVec 10) (row : FailedRow) (s : State) (hs : Sane s) :
    SaneOut (execMemUncorrectable u bay row s) := by
  unfold execMemUncorrectable
  simp (maxDischargeDepth := 40) (contextual := true) [*]

@[simp] theorem sane_transient (s : State) (u : MemUnit) (bay : BitVec 10) (row : BitVec 18) (hs : Sane s) :
    Sane (State.transient s u bay row) := by
  unfold State.transient
  (repeat' split) <;> simp (maxDischargeDepth := 40) (contextual := true) [*]

@[simp] theorem sane_rawReturned (s : State) (u : MemUnit) (bay : BitVec 10) (row : BitVec 18) (hs : Sane s) :
    Sane (State.rawReturned s u bay row) := by
  unfold State.rawReturned
  simp (maxDischargeDepth := 40) (contextual := true) [*]

@[simp] theorem sane_execMemRepeatRead (u : MemUnit) (bay : BitVec 10) (row : BitVec 18) (errors : SymbolErrors) (s : State) (hs : Sane s) :
    SaneOut (execMemRepeatRead u bay row errors s) := by
  unfold execMemRepeatRead
  (repeat' split) <;> simp (maxDischargeDepth := 40) (contextual := true) [*]

@[simp] theorem sane_execPatrolScrub (u : MemUnit) (errors : SymbolErrors) (s : State) (hs : Sane s) :
    SaneOut (execPatrolScrub u errors s) := by
  unfold execPatrolScrub
  (repeat' split) <;> simp (maxDischargeDepth := 40) (contextual := true) [*]

@[simp] theorem sane_lockedWrite (s : State) (i : Stall) (hs : Sane s) :
    Sane (State.lockedWrite s i) := by
  unfold State.lockedWrite
  simp (maxDischargeDepth := 40) (contextual := true) [*]

@[simp] theorem sane_cxlDenied (s : State) (i : Stall) (cause : BitVec 4) (va : Nat) (hs : Sane s) :
    Sane (State.cxlDenied s i cause va) := by
  unfold State.cxlDenied
  simp (maxDischargeDepth := 40) (contextual := true) [*]

@[simp] theorem sane_stallRefused (s : State) (i : Stall) (reason : Reason) (unit : BitVec 16) (hs : Sane s) :
    Sane (State.stallRefused s i reason unit) := by
  unfold State.stallRefused
  simp (maxDischargeDepth := 40) (contextual := true) [*]

@[simp] theorem sane_cxlRefuse (s : State) (i : Stall) (va : Nat) (r : CxlRefusal) (hs : Sane s) :
    Sane (s.cxlRefuse i va r) := by
  cases r <;> simp (maxDischargeDepth := 40) [State.cxlRefuse, hs]

@[simp] theorem sane_hostUncorrectable (s : State) (p : Place) (hs : Sane s) :
    Sane (State.hostUncorrectable s p) := by
  unfold State.hostUncorrectable
  (repeat' split) <;> simp (maxDischargeDepth := 40) (contextual := true) [*]

@[simp] theorem sane_execCxlMemRead (l : LinkId) (offset : BitVec 48) (len : Fin 65) (uncorrectable : Bool) (s : State) (hs : Sane s) :
    SaneOut (execCxlMemRead l offset len uncorrectable s) := by
  unfold execCxlMemRead
  (repeat' split) <;> simp (maxDischargeDepth := 40) (contextual := true) [*]

@[simp] theorem sane_execCxlMemWrite (l : LinkId) (offset : BitVec 48) (data : List Byte) (s : State) (hs : Sane s) :
    SaneOut (execCxlMemWrite l offset data s) := by
  unfold execCxlMemWrite
  (repeat' split) <;> simp (maxDischargeDepth := 40) (contextual := true) [*]

@[simp] theorem sane_commitHeld (s : State) (l : List (Place × Byte)) (hs : Sane s) :
    Sane (State.commitHeld s l) := by
  unfold State.commitHeld
  simp (maxDischargeDepth := 40) (contextual := true) [*]

@[simp] theorem sane_drainChannel (s : State) (ch : Fin 24) (hs : Sane s) :
    Sane (State.drainChannel s ch) := by
  unfold State.drainChannel
  simp (maxDischargeDepth := 40) (contextual := true) [*]

@[simp] theorem sane_execSeraiHoldRoom (ch : Fin 24) (s : State) (hs : Sane s) :
    SaneOut (execSeraiHoldRoom ch s) := by
  unfold execSeraiHoldRoom
  simp (maxDischargeDepth := 40) (contextual := true) [*]

@[simp] theorem sane_clearStaging (s : State) (k : CoreId) (hs : Sane s) :
    Sane (State.clearStaging s k) :=
  ⟨memWf_filter _ _ hs.1, hs.2⟩

@[simp] theorem sane_coreLost (s : State) (k : CoreId) (spared : Bool) (hs : Sane s) :
    Sane (State.coreLost s k spared) := by
  unfold State.coreLost
  (repeat' split) <;> simp (maxDischargeDepth := 40) (contextual := true) [*]

@[simp] theorem sane_failCore (s : State) (d : DieId) (pc : Fin 9) (reason : Reason) (hs : Sane s) :
    Sane (State.failCore s d pc reason) := by
  unfold State.failCore
  simp only []
  (repeat' split) <;> simp (maxDischargeDepth := 40) (contextual := true) [*]

@[simp] theorem sane_coreFault (s : State) (d : DieId) (pc : Fin 9) (reason : Reason) (hs : Sane s) :
    Sane (State.coreFault s d pc reason) := by
  unfold State.coreFault
  simp (maxDischargeDepth := 40) (contextual := true) [*]

@[simp] theorem sane_releaseFaults (s : State) (d : DieId) (hs : Sane s) :
    Sane (State.releaseFaults s d) := by
  unfold State.releaseFaults
  simp (maxDischargeDepth := 40) (contextual := true) [*]

@[simp] theorem sane_execPermanentCoreFault (d : DieId) (pc : Fin 9) (reason : Reason) (s : State) (hs : Sane s) :
    SaneOut (execPermanentCoreFault d pc reason s) := by
  unfold execPermanentCoreFault
  simp (maxDischargeDepth := 40) (contextual := true) [*]

@[simp] theorem sane_d2dRetire (s : State) (l : Fin 12) (hs : Sane s) :
    Sane (State.d2dRetire s l) := by
  unfold State.d2dRetire
  simp (maxDischargeDepth := 40) (contextual := true) [*]

@[simp] theorem sane_execD2dLinkRetire (l : Fin 12) (s : State) (hs : Sane s) :
    SaneOut (execD2dLinkRetire l s) := by
  unfold execD2dLinkRetire
  simp (maxDischargeDepth := 40) (contextual := true) [*]

@[simp] theorem sane_darkPort (s : State) (p : PortId) (hs : Sane s) :
    Sane (State.darkPort s p) := by
  unfold State.darkPort
  simp only []
  (repeat' split) <;> simp (maxDischargeDepth := 40) (contextual := true) [*]

@[simp] theorem sane_allDark (s : State) (hs : Sane s) :
    Sane (State.allDark s) := by
  unfold State.allDark
  simp (maxDischargeDepth := 40) (contextual := true) [*]

@[simp] theorem sane_execInterlockLost (s : State) (hs : Sane s) :
    SaneOut (execInterlockLost s) := by
  unfold execInterlockLost
  simp (maxDischargeDepth := 40) (contextual := true) [*]

@[simp] theorem sane_resetCause (s : State) (cause scope : BitVec 4) (channel : BitVec 8) (hs : Sane s) :
    Sane (State.resetCause s cause scope channel) := by
  unfold State.resetCause
  simp (maxDischargeDepth := 40) (contextual := true) [*]

@[simp] theorem sane_resetQm (s : State) (d : DieId) (hs : Sane s) :
    Sane (State.resetQm s d) := by
  unfold State.resetQm
  simp only []
  (repeat' (first | (simp (maxDischargeDepth := 40) (contextual := true) [*]; done) | (refine sane_forEach _ _ _ ?_ fun _ _ h => ?_) | split))

@[simp] theorem sane_retireEngine (s : State) (e : EngineId) (hs : Sane s) :
    Sane (State.retireEngine s e) := by
  unfold State.retireEngine
  (repeat' split) <;> simp (maxDischargeDepth := 40) (contextual := true) [*]

@[simp] theorem sane_retireLedger (s : State) (i : Stall) (hs : Sane s) :
    Sane (State.retireLedger s i) := by
  unfold State.retireLedger
  simp (maxDischargeDepth := 40) (contextual := true) [*]

/-- Both branches keep the invariant. -/
theorem sane_of_dite {c : Prop} [Decidable c] (a : c → State) (b : ¬c → State) (ha : ∀ h, Sane (a h)) (hb : ∀ h, Sane (b h)) :
    Sane (dite c a b) := by
  by_cases h : c
  · rw [dif_pos h]; exact ha h
  · rw [dif_neg h]; exact hb h

/-- Both branches keep the invariant. -/
theorem sane_of_ite {c : Prop} [Decidable c] (a b : State) (ha : Sane a) (hb : Sane b) : Sane (if c then a else b) := by
  by_cases h : c
  · rw [if_pos h]; exact ha
  · rw [if_neg h]; exact hb

@[simp] theorem sane_domainLost (s : State) (n : Nat) (hs : Sane s) :
    Sane (State.domainLost s n) := by
  unfold State.domainLost
  simp only []
  repeat' (first
    | with_reducible (refine sane_of_dite _ _ (fun _ => ?_) fun _ => ?_)
    | with_reducible (refine sane_of_ite _ _ ?_ ?_)
    | with_reducible (refine sane_forEach _ _ _ hs fun _ _ h => ?_)
    | (simp (maxDischargeDepth := 40) [*]; done))

@[simp] theorem sane_execOsc156Stop (s : State) (hs : Sane s) :
    SaneOut (execOsc156Stop s) := by
  unfold execOsc156Stop
  simp (maxDischargeDepth := 40) (contextual := true) [*]

@[simp] theorem sane_chooseSlot (s : State) (i : Stall) (hs : Sane s) :
    Sane (State.chooseSlot s i).2 := by
  unfold State.chooseSlot
  simp (maxDischargeDepth := 40) (contextual := true) [*]

end Sys2Proof.Machine
end

