-- ==== Sys2Proof/Laws/SaneHost.lean ====
section
/-! SUPPORT. The invariant is kept by the loader, the host links, the posts, the audits and the resets. -/

namespace Sys2Proof.Machine

open Sys2Proof.Safety

@[simp] theorem sane_writeTable (s : State) (i : Stall) (c : Option Charter) (hs : Sane s) :
    Sane (State.writeTable s i c) := by
  unfold State.writeTable
  simp (maxDischargeDepth := 40) (contextual := true) [*]

@[simp] theorem sane_passTable (s : State) (i : Stall) (hs : Sane s) :
    Sane (State.passTable s i) := by
  unfold State.passTable
  exact sane_writeTable _ _ _ (sane_chooseSlot _ _ (sane_modCharter _ _ _ hs))

@[simp] theorem sane_doLoad (s : State) (i : Stall) (hs : Sane s) :
    Sane (State.doLoad s i) := by
  have h1 := sane_chooseSlot s i hs
  unfold State.doLoad
  simp only []
  split
  · exact sane_noteRefusal _ _ _ _ _ _ (sane_modCharter _ _ _ h1)
  · refine sane_modCharter _ _ _ ?_
    split
    · exact sane_passTable _ _ h1
    · exact h1

@[simp] theorem sane_beginLoad (s : State) (i : Stall) (hs : Sane s) :
    Sane (State.beginLoad s i) := by
  unfold State.beginLoad
  simp (maxDischargeDepth := 40) (contextual := true) [*]

@[simp] theorem sane_tollgatePass (s : State) (i : Stall) (hs : Sane s) :
    Sane (State.tollgatePass s i) := by
  unfold State.tollgatePass
  simp (maxDischargeDepth := 40) (contextual := true) [*]

@[simp] theorem sane_loaderIgnores (s : State) (i : Stall) (hs : Sane s) :
    Sane (State.loaderIgnores s i) := by
  unfold State.loaderIgnores
  simp (maxDischargeDepth := 40) (contextual := true) [*]

@[simp] theorem sane_cmdLoad (i : Stall) (s : State) (hs : Sane s) :
    Sane (cmdLoad i s) := by
  unfold cmdLoad
  simp (maxDischargeDepth := 40) (contextual := true) [*]

@[simp] theorem sane_writeDirectories (s : State) (i : Stall) (c : Charter) (hs : Sane s) :
    Sane (State.writeDirectories s i c) := by
  unfold State.writeDirectories
  simp (maxDischargeDepth := 40) (contextual := true) [*]

@[simp] theorem sane_collect (s : State) (i : Stall) (hs : Sane s) :
    Sane (State.collect s i) := by
  unfold State.collect
  simp (maxDischargeDepth := 40) (contextual := true) [*]

@[simp] theorem sane_keepWord (s : State) (i : Stall) (m : Member) (epoch : Word) (seq : BitVec 64) (hs : Sane s) :
    Sane (State.keepWord s i m epoch seq) := by
  unfold State.keepWord
  simp (maxDischargeDepth := 40) (contextual := true) [*]

@[simp] theorem sane_sendAccepted (s : State) (i : Stall) (c : Charter) (hs : Sane s) :
    Sane (State.sendAccepted s i c) := by
  unfold State.sendAccepted
  simp (maxDischargeDepth := 40) (contextual := true) [*]

@[simp] theorem sane_acceptCharter (s : State) (i : Stall) (c : Charter) (hs : Sane s) :
    Sane (State.acceptCharter s i c) := by
  unfold State.acceptCharter
  simp (maxDischargeDepth := 40) (contextual := true) [*]

@[simp] theorem sane_endChecks (s : State) (i : Stall) (c0 : Charter) (hs : Sane s) :
    Sane (State.endChecks s i c0) := by
  unfold State.endChecks
  simp only []
  (repeat' split) <;> simp (maxDischargeDepth := 40) (contextual := true) [*]

@[simp] theorem sane_execLoad (r : Requester) (i : Stall) (s : State) (hs : Sane s) :
    SaneOut (execLoad r i s) := by
  unfold execLoad
  simp (maxDischargeDepth := 40) (contextual := true) [*]

@[simp] theorem sane_execCharterAccepted (i : Stall) (s : State) (hs : Sane s) :
    SaneOut (execCharterAccepted i s) := by
  unfold execCharterAccepted
  (repeat' split) <;> simp (maxDischargeDepth := 40) (contextual := true) [*]

@[simp] theorem sane_cmdUnload (i : Stall) (s : State) (hs : Sane s) :
    Sane (cmdUnload i s) := by
  unfold cmdUnload
  simp (maxDischargeDepth := 40) (contextual := true) [*]

@[simp] theorem sane_execUnload (r : Requester) (i : Stall) (s : State) (hs : Sane s) :
    SaneOut (execUnload r i s) := by
  unfold execUnload
  simp (maxDischargeDepth := 40) (contextual := true) [*]

@[simp] theorem sane_cmdCancel (i : Stall) (s : State) (hs : Sane s) :
    Sane (cmdCancel i s) := by
  unfold cmdCancel
  simp (maxDischargeDepth := 40) (contextual := true) [*]

@[simp] theorem sane_execCancel (r : Requester) (i : Stall) (s : State) (hs : Sane s) :
    SaneOut (execCancel r i s) := by
  unfold execCancel
  simp (maxDischargeDepth := 40) (contextual := true) [*]

@[simp] theorem sane_writeChtCtrl (i : Stall) (v : Word) (s : State) (hs : Sane s) :
    Sane (writeChtCtrl i v s) := by
  unfold writeChtCtrl
  (repeat' split) <;> simp (maxDischargeDepth := 40) (contextual := true) [*]

@[simp] theorem sane_execAcceptedWord (i : Stall) (m : Member) (epoch : Word) (seq : BitVec 64) (s : State) (hs : Sane s) :
    SaneOut (execAcceptedWord i m epoch seq s) := by
  unfold execAcceptedWord
  simp (maxDischargeDepth := 40) (contextual := true) [*]

@[simp] theorem sane_execWithdraw (i : Stall) (m : Member) (s : State) (hs : Sane s) :
    SaneOut (execWithdraw i m s) := by
  unfold execWithdraw
  simp (maxDischargeDepth := 40) (contextual := true) [*]

@[simp] theorem sane_writePortData (i : Stall) (v : Word) (s : State) (hs : Sane s) :
    Sane (writePortData i v s) := by
  unfold writePortData
  simp (maxDischargeDepth := 40) (contextual := true) [*]

@[simp] theorem sane_execChtPortDataWrite (r : Requester) (i : Stall) (v : Word) (s : State) (hs : Sane s) :
    SaneOut (execChtPortDataWrite r i v s) := by
  unfold execChtPortDataWrite
  simp (maxDischargeDepth := 40) (contextual := true) [*]

@[simp] theorem sane_trainLink (s : State) (l : LinkId) (rate : BitVec 2) (width : BitVec 3) (flit256 cxl3 : Bool) (hs : Sane s) :
    Sane (State.trainLink s l rate width flit256 cxl3) := by
  unfold State.trainLink
  simp (maxDischargeDepth := 40) (contextual := true) [*]

@[simp] theorem sane_execCxlLinkTraining (l : LinkId) (rate : BitVec 2) (width : BitVec 3) (flit256 cxl3 : Bool) (s : State) (hs : Sane s) :
    SaneOut (execCxlLinkTraining l rate width flit256 cxl3 s) := by
  unfold execCxlLinkTraining
  simp (maxDischargeDepth := 40) (contextual := true) [*]

@[simp] theorem sane_execConfigRequest (l : LinkId) (s : State) (hs : Sane s) :
    SaneOut (execConfigRequest l s) := by
  unfold execConfigRequest
  simp (maxDischargeDepth := 40) (contextual := true) [*]

@[simp] theorem sane_freshUnits (s : State) (i : Stall) (hs : Sane s) :
    Sane (State.freshUnits s i) := by
  unfold State.freshUnits
  simp (maxDischargeDepth := 40) (contextual := true) [*]

@[simp] theorem sane_beginStallReset (s : State) (i : Stall) (hs : Sane s) :
    Sane (State.beginStallReset s i) := by
  unfold State.beginStallReset
  simp (maxDischargeDepth := 40) (contextual := true) [*]

@[simp] theorem sane_endStallReset (s : State) (i : Stall) (hs : Sane s) :
    Sane (State.endStallReset s i) := by
  unfold State.endStallReset
  simp (maxDischargeDepth := 40) (contextual := true) [*]

@[simp] theorem sane_finishResets (s : State) (hs : Sane s) :
    Sane (State.finishResets s) := by
  unfold State.finishResets
  simp (maxDischargeDepth := 40) (contextual := true) [*]

@[simp] theorem sane_resetStall (i : Stall) (s : State) (hs : Sane s) :
    Sane (resetStall i s) := by
  unfold resetStall
  simp (maxDischargeDepth := 40) (contextual := true) [*]

@[simp] theorem sane_passOwnership (s : State) (i : Stall) (hs : Sane s) :
    Sane (State.passOwnership s i) := by
  unfold State.passOwnership
  simp (maxDischargeDepth := 40) (contextual := true) [*]

@[simp] theorem sane_resetLinkStalls (s : State) (l : LinkId) (l_ : List Stall) (hs : Sane s) :
    Sane (State.resetLinkStalls s l l_) := by
  unfold State.resetLinkStalls
  simp (maxDischargeDepth := 40) (contextual := true) [*]

@[simp] theorem sane_linkDown (s : State) (l : LinkId) (hs : Sane s) :
    Sane (State.linkDown s l) := by
  unfold State.linkDown
  simp (maxDischargeDepth := 40) (contextual := true) [*]

@[simp] theorem sane_enterStandby (s : State) (hs : Sane s) :
    Sane (State.enterStandby s) := by
  unfold State.enterStandby
  simp (maxDischargeDepth := 40) (contextual := true) [*]

@[simp] theorem sane_settlePower (s : State) (hs : Sane s) :
    Sane (State.settlePower s) := by
  unfold State.settlePower
  simp (maxDischargeDepth := 40) (contextual := true) [*]

@[simp] theorem sane_execCxlLinkDown (l : LinkId) (s : State) (hs : Sane s) :
    SaneOut (execCxlLinkDown l s) := by
  unfold execCxlLinkDown
  simp (maxDischargeDepth := 40) (contextual := true) [*]

@[simp] theorem sane_execCxlHotReset (l : LinkId) (s : State) (hs : Sane s) :
    SaneOut (execCxlHotReset l s) := by
  unfold execCxlHotReset
  simp (maxDischargeDepth := 40) (contextual := true) [*]

@[simp] theorem sane_beat (i : Stall) (s : State) (hs : Sane s) :
    Sane (beat i s) := by
  unfold beat
  simp (maxDischargeDepth := 40) (contextual := true) [*]

@[simp] theorem sane_writeStallCtrl (i : Stall) (v : Word) (s : State) (hs : Sane s) :
    Sane (writeStallCtrl i v s) := by
  unfold writeStallCtrl
  simp (maxDischargeDepth := 40) (contextual := true) [*]

@[simp] theorem sane_execStallReset (r : Requester) (i : Stall) (s : State) (hs : Sane s) :
    SaneOut (execStallReset r i s) := by
  unfold execStallReset
  simp (maxDischargeDepth := 40) (contextual := true) [*]

@[simp] theorem sane_execHeartbeat (r : Requester) (i : Stall) (s : State) (hs : Sane s) :
    SaneOut (execHeartbeat r i s) := by
  unfold execHeartbeat
  simp (maxDischargeDepth := 40) (contextual := true) [*]

@[simp] theorem sane_execArm (r : Requester) (i : Stall) (v : Word) (s : State) (hs : Sane s) :
    SaneOut (execArm r i v s) := by
  unfold execArm
  simp (maxDischargeDepth := 40) (contextual := true) [*]

@[simp] theorem sane_execArbiterFrame (reqs : List FrameRequest) (s : State) (hs : Sane s) :
    SaneOut (execArbiterFrame reqs s) := by
  unfold execArbiterFrame
  simp (maxDischargeDepth := 40) (contextual := true) [*]

@[simp] theorem sane_rejectPost (s : State) (r : Requester) (i : Stall) (secure : Bool) (n : Fin 24) (hs : Sane s) :
    Sane (State.rejectPost s r i secure n) := by
  unfold State.rejectPost
  (repeat' split) <;> simp (maxDischargeDepth := 40) (contextual := true) [*]

@[simp] theorem sane_writePost (r : Requester) (i : Stall) (secure : Bool) (n : Fin 24) (word : Fin 65) (v : Word) (s : State) (hs : Sane s) :
    Sane (writePost r i secure n word v s) := by
  unfold writePost
  simp (maxDischargeDepth := 40) (contextual := true) [*]

@[simp] theorem sane_execPostWrite (r : Requester) (i : Stall) (secure : Bool) (n : Fin 24) (word : Fin 65) (v : Word) (s : State) (hs : Sane s) :
    SaneOut (execPostWrite r i secure n word v s) := by
  unfold execPostWrite
  simp (maxDischargeDepth := 40) (contextual := true) [*]

@[simp] theorem sane_execPostSend (r : Requester) (i : Stall) (secure : Bool) (n : Fin 24) (v : Word) (s : State) (hs : Sane s) :
    SaneOut (execPostSend r i secure n v s) := by
  unfold execPostSend
  simp (maxDischargeDepth := 40) (contextual := true) [*]

@[simp] theorem sane_execPostTake (r : Requester) (i : Stall) (secure : Bool) (n : Fin 24) (s : State) (hs : Sane s) :
    SaneOut (execPostTake r i secure n s) := by
  unfold execPostTake
  simp (maxDischargeDepth := 40) (contextual := true) [*]

@[simp] theorem sane_ackPost (s : State) (i : Stall) (secure : Bool) (n : Fin 24) (code : Reason) (reply : List Byte) (hs : Sane s) :
    Sane (State.ackPost s i secure n code reply) := by
  unfold State.ackPost
  simp (maxDischargeDepth := 40) (contextual := true) [*]

@[simp] theorem sane_execPostAck (i : Stall) (secure : Bool) (n : Fin 24) (code : Reason) (reply : List Byte) (s : State) (hs : Sane s) :
    SaneOut (execPostAck i secure n code reply s) := by
  unfold execPostAck
  simp (maxDischargeDepth := 40) (contextual := true) [*]

@[simp] theorem sane_execPostNotice (i : Stall) (secure : Bool) (n : Fin 24) (msg : List Byte) (s : State) (hs : Sane s) :
    SaneOut (execPostNotice i secure n msg s) := by
  unfold execPostNotice
  simp (maxDischargeDepth := 40) (contextual := true) [*]

@[simp] theorem sane_execClaim (l : LinkId) (i : Stall) (s : State) (hs : Sane s) :
    SaneOut (execClaim l i s) := by
  unfold execClaim
  simp (maxDischargeDepth := 40) (contextual := true) [*]

@[simp] theorem sane_noteFailure (s : State) (code : BitVec 16) (hs : Sane s) :
    Sane (State.noteFailure s code) := by
  unfold State.noteFailure
  simp (maxDischargeDepth := 40) (contextual := true) [*]

@[simp] theorem sane_queueAudit (s : State) (e : EngineId) (hs : Sane s) :
    Sane (State.queueAudit s e) := by
  unfold State.queueAudit
  simp (maxDischargeDepth := 40) (contextual := true) [*]

@[simp] theorem sane_postAudit (s : State) (i : Stall) (secure : Bool) (n : Fin 24) (hs : Sane s) :
    Sane (State.postAudit s i secure n) := by
  unfold State.postAudit
  simp (maxDischargeDepth := 40) (contextual := true) [*]

@[simp] theorem sane_ledgerAudit (s : State) (i : Stall) (hs : Sane s) :
    Sane (State.ledgerAudit s i) := by
  unfold State.ledgerAudit
  simp (maxDischargeDepth := 40) (contextual := true) [*]

@[simp] theorem sane_portAudits (s : State) (i : Stall) (hs : Sane s) :
    Sane (State.portAudits s i) := by
  unfold State.portAudits
  simp (maxDischargeDepth := 40) (contextual := true) [*]

@[simp] theorem sane_audits (s : State) (i : Stall) (hs : Sane s) :
    Sane (State.audits s i) := by
  unfold State.audits
  simp (maxDischargeDepth := 40) (contextual := true) [*]

@[simp] theorem sane_execTick (i : Stall) (s : State) (hs : Sane s) :
    SaneOut (execTick i s) := by
  unfold execTick
  (repeat' split) <;> simp (maxDischargeDepth := 40) (contextual := true) [*]

@[simp] theorem sane_execCustomsDeny (i : Stall) (unit : BitVec 8) (cause : BitVec 4) (va : BitVec 48) (s : State) (hs : Sane s) :
    SaneOut (execCustomsDeny i unit cause va s) := by
  unfold execCustomsDeny
  simp only []
  (repeat' split) <;> simp (maxDischargeDepth := 40) (contextual := true) [*]

@[simp] theorem sane_raiseAlarm (s : State) (bits : BitVec 9) (hs : Sane s) :
    Sane (State.raiseAlarm s bits) := by
  unfold State.raiseAlarm
  simp (maxDischargeDepth := 40) (contextual := true) [*]

@[simp] theorem sane_resetModule (s : State) (cause : BitVec 4) (channel : BitVec 8) (hs : Sane s) :
    Sane (State.resetModule s cause channel) := ⟨memWf_filter _ _ hs.1, hs.2.1, by simp [State.resetModule, keptFabric]⟩

@[simp] theorem sane_powerUp (s : State) (hs : Sane s) :
    Sane (State.powerUp s) :=
  ⟨memWf_filter _ _ hs.1, by simp [State.powerUp], by simp [State.powerUp, keptFabric]⟩

@[simp] theorem sane_strand (s : State) (why : BitVec 2) (hs : Sane s) :
    Sane (State.strand s why) := by
  unfold State.strand
  simp (maxDischargeDepth := 40) (contextual := true) [*]

@[simp] theorem sane_startFailed (s : State) (reason : Reason) (step : BitVec 4) (hs : Sane s) :
    Sane (State.startFailed s reason step) := by
  unfold State.startFailed
  simp (maxDischargeDepth := 40) (contextual := true) [*]

end Sys2Proof.Machine
end

