-- ==== Sys2Proof/Laws/SanePower.lean ====
section
/-! SUPPORT. Posts, services, power, resets, updates, the register file and the idle step keep `Sane`. -/

namespace Sys2Proof.Machine

open Sys2Proof.Safety

@[simp] theorem sane_execQmWatchdog (d : DieId) (s : State) (hs : Sane s) :
    SaneOut (execQmWatchdog d s) := by
  unfold execQmWatchdog
  simp (maxDischargeDepth := 40) (contextual := true) [*]

@[simp] theorem sane_resetTollgate (s : State) (hs : Sane s) :
    Sane (State.resetTollgate s) := by
  unfold State.resetTollgate
  simp (maxDischargeDepth := 40) (contextual := true) [*]

@[simp] theorem sane_execTollgateWatchdog (s : State) (hs : Sane s) :
    SaneOut (execTollgateWatchdog s) := by
  unfold execTollgateWatchdog
  simp (maxDischargeDepth := 40) (contextual := true) [*]

@[simp] theorem sane_execPllLockLoss (domain : Fin 100) (s : State) (hs : Sane s) :
    SaneOut (execPllLockLoss domain s) := by
  unfold execPllLockLoss
  simp (maxDischargeDepth := 40) (contextual := true) [*]

@[simp] theorem sane_setXchg (s : State) (i : Stall) (k : BitVec 8) (x : Exchange) (hs : Sane s) :
    Sane (State.setXchg s i k x) := by
  unfold State.setXchg
  simp (maxDischargeDepth := 40) (contextual := true) [*]

@[simp] theorem sane_answer (s : State) (i : Stall) (secure : Bool) (n : Fin 24) (code : Reason) (out : List Byte) (hs : Sane s) :
    Sane (State.answer s i secure n code out) := by
  unfold State.answer
  simp (maxDischargeDepth := 40) (contextual := true) [*]

@[simp] theorem sane_execExchangePut (i : Stall) (secure : Bool) (n : Fin 24) (s : State) (hs : Sane s) :
    SaneOut (execExchangePut i secure n s) := by
  unfold execExchangePut
  simp (maxDischargeDepth := 40) (contextual := true) [*]

@[simp] theorem sane_execExchangeGet (i : Stall) (secure : Bool) (n : Fin 24) (s : State) (hs : Sane s) :
    SaneOut (execExchangeGet i secure n s) := by
  unfold execExchangeGet
  simp (maxDischargeDepth := 40) (contextual := true) [*]

@[simp] theorem sane_execRecoveryPut (i : Stall) (s : State) (hs : Sane s) :
    SaneOut (execRecoveryPut i s) := by
  unfold execRecoveryPut
  simp (maxDischargeDepth := 40) (contextual := true) [*]

@[simp] theorem sane_execInstall (i : Stall) (s : State) (hs : Sane s) :
    SaneOut (execInstall i s) := by
  unfold execInstall
  simp (maxDischargeDepth := 40) (contextual := true) [*]

@[simp] theorem sane_execKex (i : Stall) (s : State) (hs : Sane s) :
    SaneOut (execKex i s) := by
  unfold execKex
  (repeat' split) <;> simp (maxDischargeDepth := 40) (contextual := true) [*]

@[simp] theorem sane_execCommit (i : Stall) (s : State) (hs : Sane s) :
    SaneOut (execCommit i s) := by
  unfold execCommit
  (repeat' split) <;> simp (maxDischargeDepth := 40) (contextual := true) [*]

@[simp] theorem sane_execWaybillRequest (i : Stall) (s : State) (hs : Sane s) :
    SaneOut (execWaybillRequest i s) := by
  unfold execWaybillRequest
  simp (maxDischargeDepth := 40) (contextual := true) [*]

@[simp] theorem sane_service (s : State) (i : Stall) (cmd : Nat) (who : Signer) (effect : State → Signed → State × Reason) (hs : Sane s) (heffect : ∀ x0 x1, Sane x0 → Sane (effect x0 x1).1) :
    Sane (State.service s i cmd who effect) := by
  unfold State.service
  simp only []
  (repeat' split) <;> simp (maxDischargeDepth := 40) (contextual := true) [*]

@[simp] theorem sane_execCompose (i : Stall) (s : State) (hs : Sane s) :
    SaneOut (execCompose i s) := by
  unfold execCompose
  refine sane_service _ _ _ _ _ hs fun s c h => ?_
  simp only []
  (repeat' split) <;> exact h

@[simp] theorem sane_execFullReset (i : Stall) (s : State) (hs : Sane s) :
    SaneOut (execFullReset i s) := by
  unfold execFullReset
  simp (maxDischargeDepth := 40) (contextual := true) [*]

@[simp] theorem sane_execClearRetired (i : Stall) (s : State) (hs : Sane s) :
    SaneOut (execClearRetired i s) := by
  unfold execClearRetired
  refine sane_service _ _ _ _ _ hs fun s c h => ?_
  simp only []
  (repeat' split) <;> exact h

@[simp] theorem sane_execEnrolKey (i : Stall) (s : State) (hs : Sane s) :
    SaneOut (execEnrolKey i s) := by
  unfold execEnrolKey
  refine sane_service _ _ _ _ _ hs fun s c h => ?_
  simp only []
  (repeat' split) <;> exact h

@[simp] theorem sane_execRevokeKey (i : Stall) (s : State) (hs : Sane s) :
    SaneOut (execRevokeKey i s) := by
  unfold execRevokeKey
  refine sane_service _ _ _ _ _ hs fun s c h => ?_
  simp only []
  (repeat' split) <;> exact h

@[simp] theorem sane_execImage (i : Stall) (s : State) (hs : Sane s) :
    SaneOut (execImage i s) := by
  unfold execImage
  refine sane_service _ _ _ _ _ hs fun s c h => ?_
  simp only []
  (repeat' split) <;> exact h

@[simp] theorem sane_execCommitSvn (i : Stall) (s : State) (hs : Sane s) :
    SaneOut (execCommitSvn i s) := by
  unfold execCommitSvn
  refine sane_service _ _ _ _ _ hs fun s c h => ?_
  simp only []
  (repeat' split) <;> exact h

@[simp] theorem sane_execDebugStall (i : Stall) (s : State) (hs : Sane s) :
    SaneOut (execDebugStall i s) := by
  unfold execDebugStall
  refine sane_service _ _ _ _ _ hs fun s c h => ?_
  (repeat' split) <;> exact h

@[simp] theorem sane_execDebugFull (i : Stall) (s : State) (hs : Sane s) :
    SaneOut (execDebugFull i s) := by
  unfold execDebugFull
  simp (maxDischargeDepth := 40) (contextual := true) [*]

@[simp] theorem sane_execSetThresh (i : Stall) (s : State) (hs : Sane s) :
    SaneOut (execSetThresh i s) := by
  unfold execSetThresh
  refine sane_service _ _ _ _ _ hs fun s c h => ?_
  simp only []
  (repeat' split) <;> exact h

@[simp] theorem sane_execSetPower (i : Stall) (s : State) (hs : Sane s) :
    SaneOut (execSetPower i s) := by
  unfold execSetPower
  refine sane_service _ _ _ _ _ hs fun s c h => ?_
  simp only []
  (repeat' split) <;> exact h

@[simp] theorem sane_execComponentRestart (s : State) (hs : Sane s) :
    SaneOut (execComponentRestart s) := by
  unfold execComponentRestart
  (repeat' split) <;> simp (maxDischargeDepth := 40) (contextual := true) [*]

@[simp] theorem sane_componentBack (s : State) (k : BitVec 4) (hs : Sane s) :
    Sane (State.componentBack s k) := by
  unfold State.componentBack
  simp (maxDischargeDepth := 40) (contextual := true) [*]

@[simp] theorem sane_waitingLoads (s : State) (hs : Sane s) :
    Sane (State.waitingLoads s) := by
  unfold State.waitingLoads
  simp (maxDischargeDepth := 40) (contextual := true) [*]

@[simp] theorem sane_execComponentReady (s : State) (hs : Sane s) :
    SaneOut (execComponentReady s) := by
  unfold execComponentReady
  (repeat' split) <;> simp (maxDischargeDepth := 40) (contextual := true) [*]

@[simp] theorem sane_execImageRollback (s : State) (hs : Sane s) :
    SaneOut (execImageRollback s) := by
  unfold execImageRollback
  split
  · exact hs
  · extract_lets s0 g b erased s1 s2
    have h1 : Sane s1 := (sane_atTime _ _ hs : Sane s0)
    have h2 : Sane s2 := sane_componentBack _ _ (sane_record _ _ h1)
    split
    · exact sane_waitingLoads _ h2
    · exact h2

@[simp] theorem sane_execPowerOn (s : State) (hs : Sane s) :
    SaneOut (execPowerOn s) := by
  unfold execPowerOn
  simp (maxDischargeDepth := 40) (contextual := true) [*]

@[simp] theorem sane_execAux3v3Loss (s : State) (hs : Sane s) :
    SaneOut (execAux3v3Loss s) := by
  unfold execAux3v3Loss
  simp (maxDischargeDepth := 40) (contextual := true) [*]

@[simp] theorem sane_execInputReset (channel : BitVec 8) (s : State) (hs : Sane s) :
    SaneOut (execInputReset channel s) := by
  unfold execInputReset
  simp (maxDischargeDepth := 40) (contextual := true) [*]

@[simp] theorem sane_execPerstN (ns : Nat) (s : State) (hs : Sane s) :
    SaneOut (execPerstN ns s) := by
  unfold execPerstN
  simp (maxDischargeDepth := 40) (contextual := true) [*]

@[simp] theorem sane_execPwrokRise (seatCode : BitVec 8) (bootsrc : BitVec 2) (clkmode : Bool) (s : State) (hs : Sane s) :
    SaneOut (execPwrokRise seatCode bootsrc clkmode s) := by
  unfold execPwrokRise
  simp (maxDischargeDepth := 40) (contextual := true) [*]

@[simp] theorem sane_execThermalTrip (ch : Fin 64) (s : State) (hs : Sane s) :
    SaneOut (execThermalTrip ch s) := by
  unfold execThermalTrip
  simp (maxDischargeDepth := 40) (contextual := true) [*]

@[simp] theorem sane_testCores (s : State) (bad : List (DieId × Fin 9)) (hs : Sane s) :
    Sane (State.testCores s bad) := by
  unfold State.testCores
  exact sane_forEach _ _ _ hs fun s e h => by simp (maxDischargeDepth := 40) [h]

@[simp] theorem sane_trainMemory (s : State) (bad : List MemUnit) (hs : Sane s) :
    Sane (State.trainMemory s bad) := by
  unfold State.trainMemory
  exact sane_forEach _ _ _ hs fun s u h => by simp (maxDischargeDepth := 40) [h]

@[simp] theorem sane_listedOptics (s : State) (hs : Sane s) :
    Sane (State.listedOptics s) := by
  unfold State.listedOptics
  simp (maxDischargeDepth := 40) (contextual := true) [*]

@[simp] theorem sane_trainLinks (s : State) (rep : BringupReport) (hs : Sane s) :
    Sane (State.trainLinks s rep) := by
  unfold State.trainLinks
  simp (maxDischargeDepth := 40) (contextual := true) [*]

@[simp] theorem sane_composeAll (s : State) (hs : Sane s) :
    Sane (State.composeAll s) := by
  unfold State.composeAll
  simp (maxDischargeDepth := 40) (contextual := true) [*]

@[simp] theorem sane_finishBringup (s : State) (rep : BringupReport) (b : Bool) (hs : Sane s) :
    Sane (State.finishBringup s rep b) := by
  unfold State.finishBringup
  simp only []
  (repeat' split) <;> simp (maxDischargeDepth := 40) (contextual := true) [*]

@[simp] theorem sane_wakeBase (s : State) (hs : Sane s) :
    Sane (wakeBase s) := by
  unfold wakeBase
  simp (maxDischargeDepth := 40) (contextual := true) [*]

@[simp] theorem sane_execBringup (rep : BringupReport) (s : State) (hs : Sane s) :
    SaneOut (execBringup rep s) := by
  unfold execBringup
  simp only []
  (repeat' split) <;> simp (maxDischargeDepth := 40) (contextual := true) [*]

@[simp] theorem sane_execStartTimeout (s : State) (hs : Sane s) :
    SaneOut (execStartTimeout s) := by
  unfold execStartTimeout
  simp (maxDischargeDepth := 40) (contextual := true) [*]

@[simp] theorem sane_execStartRetry (s : State) (hs : Sane s) :
    SaneOut (execStartRetry s) := by
  unfold execStartRetry
  simp (maxDischargeDepth := 40) (contextual := true) [*]

@[simp] theorem sane_reportReady (s : State) (hs : Sane s) :
    Sane (State.reportReady s) := by
  unfold State.reportReady
  simp (maxDischargeDepth := 40) (contextual := true) [*]

@[simp] theorem sane_thermalHalt (s : State) (hs : Sane s) :
    Sane (State.thermalHalt s) := by
  unfold State.thermalHalt
  simp (maxDischargeDepth := 40) (contextual := true) [*]

@[simp] theorem sane_decideThrottle (s : State) (ch : Fin 64) (hs : Sane s) :
    Sane (State.decideThrottle s ch) := by
  unfold State.decideThrottle
  simp (maxDischargeDepth := 40) (contextual := true) [*]

@[simp] theorem sane_decideHalt (s : State) (ch : Fin 64) (hs : Sane s) :
    Sane (State.decideHalt s ch) := by
  unfold State.decideHalt
  simp (maxDischargeDepth := 40) (contextual := true) [*]

@[simp] theorem sane_decidePower (s : State) (hs : Sane s) :
    Sane (State.decidePower s) := by
  unfold State.decidePower
  simp (maxDischargeDepth := 40) (contextual := true) [*]

@[simp] theorem sane_decidePump (s : State) (hs : Sane s) :
    Sane (State.decidePump s) := by
  unfold State.decidePump
  simp (maxDischargeDepth := 40) (contextual := true) [*]

@[simp] theorem sane_execChannelSample (ch : Fin 64) (raw : BitVec 16) (s : State) (hs : Sane s) :
    SaneOut (execChannelSample ch raw s) := by
  unfold execChannelSample
  simp (maxDischargeDepth := 40) (contextual := true) [*]

@[simp] theorem sane_execThrottleStep (k : CoreId) (s : State) (hs : Sane s) :
    SaneOut (execThrottleStep k s) := by
  unfold execThrottleStep
  dsimp only
  split
  · exact hs
  · exact sane_modCore _ _ _ (sane_atTime _ _ hs)

@[simp] theorem sane_execPowerCap (s : State) (hs : Sane s) :
    SaneOut (execPowerCap s) := by
  unfold execPowerCap
  dsimp only
  split
  · exact hs
  · split
    · exact hs
    · rename_i t _ _
      have h : Sane (s.atTime (t + 5000000)) := sane_atTime _ _ hs
      generalize s.atTime (t + 5000000) = u at h ⊢
      exact sane_record _ _ (sane_raiseAlarm _ _ ⟨h.1, h.2.1, h.2.2⟩)

@[simp] theorem sane_execThermalHaltEnd (s : State) (hs : Sane s) :
    SaneOut (execThermalHaltEnd s) := by
  unfold execThermalHaltEnd
  dsimp only
  split
  · exact hs
  · split
    · exact hs
    · rename_i t _ _
      have h : Sane (s.atTime (t + 1000000000)) := sane_atTime _ _ hs
      generalize s.atTime (t + 1000000000) = u at h ⊢
      exact sane_reportReady _ ⟨h.1, h.2.1, h.2.2⟩

@[simp] theorem sane_execBrace (rail : Bool) (s : State) (hs : Sane s) :
    SaneOut (execBrace rail s) := by
  unfold execBrace
  simp (maxDischargeDepth := 40) (contextual := true) [*]

@[simp] theorem sane_execBraceEnd (s : State) (hs : Sane s) :
    SaneOut (execBraceEnd s) := by
  unfold execBraceEnd
  simp (maxDischargeDepth := 40) (contextual := true) [*]

@[simp] theorem sane_execHaltSupply (s : State) (hs : Sane s) :
    SaneOut (execHaltSupply s) := by
  unfold execHaltSupply
  simp only []
  (repeat' split) <;> simp (maxDischargeDepth := 40) (contextual := true) [*]

@[simp] theorem sane_execRailFault (d : DieId) (pc : Fin 9) (s : State) (hs : Sane s) :
    SaneOut (execRailFault d pc s) := by
  unfold execRailFault
  simp (maxDischargeDepth := 40) (contextual := true) [*]

@[simp] theorem sane_wake (s : State) (hs : Sane s) :
    Sane (State.wake s) := by
  unfold State.wake
  simp (maxDischargeDepth := 40) (contextual := true) [*]

@[simp] theorem sane_writeVote (i : Stall) (v : Word) (s : State) (hs : Sane s) :
    Sane (writeVote i v s) := by
  unfold writeVote
  simp (maxDischargeDepth := 40) (contextual := true) [*]

@[simp] theorem sane_execPwrVoteWrite (r : Requester) (i : Stall) (v : Word) (s : State) (hs : Sane s) :
    SaneOut (execPwrVoteWrite r i v s) := by
  unfold execPwrVoteWrite
  simp (maxDischargeDepth := 40) (contextual := true) [*]

@[simp] theorem sane_execWakeMessage (s : State) (hs : Sane s) :
    SaneOut (execWakeMessage s) := by
  unfold execWakeMessage
  simp (maxDischargeDepth := 40) (contextual := true) [*]

@[simp] theorem sane_execWakeTimer (s : State) (hs : Sane s) :
    SaneOut (execWakeTimer s) := by
  unfold execWakeTimer
  simp only []
  (repeat' split) <;> simp (maxDischargeDepth := 40) (contextual := true) [*]

@[simp] theorem sane_holdUpdate (s : State) (i : Stall) (hs : Sane s) :
    ∀ x0, Sane (State.holdUpdate s i x0) := by
  unfold State.holdUpdate
  intro u
  cases u <;> simp (maxDischargeDepth := 40) (contextual := true) [*]

@[simp] theorem sane_serveUpdate (s : State) (i : Stall) (secure : Bool) (hs : Sane s) :
    Sane (State.serveUpdate s i secure) := by
  unfold State.serveUpdate
  simp only []
  (repeat' split) <;> simp (maxDischargeDepth := 40) (contextual := true) [*]

@[simp] theorem sane_execUpdateFunction (i : Stall) (secure : Bool) (s : State) (hs : Sane s) :
    SaneOut (execUpdateFunction i secure s) := by
  unfold execUpdateFunction
  simp (maxDischargeDepth := 40) (contextual := true) [*]

@[simp] theorem sane_execUpdateCoef (i : Stall) (secure : Bool) (s : State) (hs : Sane s) :
    SaneOut (execUpdateCoef i secure s) := by
  unfold execUpdateCoef
  simp (maxDischargeDepth := 40) (contextual := true) [*]

@[simp] theorem sane_writeChooser (k : CoreId) (v : Word) (s : State) (hs : Sane s) :
    Sane (writeChooser k v s) := by
  unfold writeChooser
  simp (maxDischargeDepth := 40) (contextual := true) [*]

@[simp] theorem sane_execCoreChooserWrite (r : Requester) (k : CoreId) (v : Word) (s : State) (hs : Sane s) :
    SaneOut (execCoreChooserWrite r k v s) := by
  unfold execCoreChooserWrite
  simp (maxDischargeDepth := 40) (contextual := true) [*]

@[simp] theorem sane_writeMarchReg (i : Stall) (o : Nat) (v : Word) (s : State) (hs : Sane s) :
    Sane (writeMarchReg i o v s) := by
  unfold writeMarchReg
  (repeat' split) <;> simp (maxDischargeDepth := 40) (contextual := true) [*]

@[simp] theorem sane_writeCharterReg (i : Stall) (o : Nat) (v : Word) (s : State) (hs : Sane s) :
    Sane (writeCharterReg i o v s) := by
  unfold writeCharterReg
  (repeat' split) <;> simp (maxDischargeDepth := 40) (contextual := true) [*]

@[simp] theorem sane_writeLedgerReg (i : Stall) (o : Nat) (v : Word) (s : State) (hs : Sane s) :
    Sane (writeLedgerReg i o v s) := by
  unfold writeLedgerReg
  (repeat' split) <;> simp (maxDischargeDepth := 40) (contextual := true) [*]

@[simp] theorem sane_writeTallyReg (i : Stall) (o : Nat) (v : Word) (s : State) (hs : Sane s) :
    Sane (writeTallyReg i o v s) := by
  unfold writeTallyReg
  (repeat' split) <;> simp (maxDischargeDepth := 40) (contextual := true) [*]

@[simp] theorem sane_writeLotReg (i : Stall) (o : Nat) (v : Word) (s : State) (hs : Sane s) :
    Sane (writeLotReg i o v s) := by
  unfold writeLotReg
  (repeat' split) <;> simp (maxDischargeDepth := 40) (contextual := true) [*]

@[simp] theorem sane_writeCopyReg (e : EngineId) (o : Nat) (v : Word) (s : State) (hs : Sane s) :
    Sane (writeCopyReg e o v s) := by
  unfold writeCopyReg
  (repeat' split) <;> simp (maxDischargeDepth := 40) (contextual := true) [*]

@[simp] theorem sane_writeRelayReg (o : Nat) (v : Word) (s : State) (hs : Sane s) :
    Sane (writeRelayReg o v s) := by
  unfold writeRelayReg
  (repeat' split) <;> simp (maxDischargeDepth := 40) (contextual := true) [*]

@[simp] theorem sane_writeRouteReg (p : PortId) (o : Nat) (v : Word) (s : State) (hs : Sane s) :
    Sane (writeRouteReg p o v s) := by
  unfold writeRouteReg
  (repeat' split) <;> simp (maxDischargeDepth := 40) (contextual := true) [*]

@[simp] theorem sane_writeStallReg (i : Stall) (o : Nat) (v : Word) (s : State) (hs : Sane s) :
    Sane (writeStallReg i o v s) := by
  unfold writeStallReg
  (repeat' split) <;> simp (maxDischargeDepth := 40) (contextual := true) [*]

@[simp] theorem sane_writePostReg (r : Requester) (i : Stall) (secure : Bool) (n : Fin 24) (o : Nat) (v : Word) (s : State) (hs : Sane s) :
    Sane (writePostReg r i secure n o v s) := by
  unfold writePostReg
  simp (maxDischargeDepth := 40) (contextual := true) [*]

@[simp] theorem sane_writePowerReg (o : Nat) (v : Word) (s : State) (hs : Sane s) :
    Sane (writePowerReg o v s) := by
  unfold writePowerReg
  (repeat' split) <;> simp (maxDischargeDepth := 40) (contextual := true) [*]

@[simp] theorem sane_writeCkptCtrl (i : Stall) (v : Word) (s : State) (hs : Sane s) :
    Sane (writeCkptCtrl i v s) := by
  unfold writeCkptCtrl
  simp (maxDischargeDepth := 40) (contextual := true) [*]

@[simp] theorem sane_writeFaultReg (i : Stall) (o : Nat) (v : Word) (s : State) (hs : Sane s) :
    Sane (writeFaultReg i o v s) := by
  unfold writeFaultReg
  (repeat' split) <;> simp (maxDischargeDepth := 40) (contextual := true) [*]

@[simp] theorem sane_commitPair (g : Reg) (v : BitVec 64) (s : State) (hs : Sane s) :
    Sane (commitPair g v s) := by
  unfold commitPair
  (repeat' split) <;> simp (maxDischargeDepth := 40) (contextual := true) [*]

@[simp] theorem sane_writeAlone (r : Requester) (g : Reg) (v : Word) (s : State) (hs : Sane s) :
    Sane (writeAlone r g v s) := by
  unfold writeAlone
  (repeat' split) <;> simp (maxDischargeDepth := 40) (contextual := true) [*]

@[simp] theorem sane_writeReg (r : Requester) (off : BitVec 26) (v : Word) (s : State) (hs : Sane s) :
    Sane (writeReg r off v s) := by
  unfold writeReg
  simp (maxDischargeDepth := 40) (contextual := true) [*]

@[simp] theorem sane_hostWrite (s : State) (r : Requester) (off : BitVec 26) (v : Word) (hs : Sane s) :
    Sane (State.hostWrite s r off v) := by
  unfold State.hostWrite
  simp (maxDischargeDepth := 40) (contextual := true) [*]

@[simp] theorem sane_execRegisterWrite (r : Requester) (off : BitVec 26) (v : Word) (s : State) (hs : Sane s) :
    SaneOut (execRegisterWrite r off v s) := by
  unfold execRegisterWrite
  simp (maxDischargeDepth := 40) (contextual := true) [*]

@[simp] theorem sane_execWriteLowHalf (r : Requester) (off : BitVec 26) (v : Word) (s : State) (hs : Sane s) :
    SaneOut (execWriteLowHalf r off v s) := by
  unfold execWriteLowHalf
  simp (maxDischargeDepth := 40) (contextual := true) [*]

@[simp] theorem sane_execWriteHighHalf (r : Requester) (off : BitVec 26) (v : Word) (s : State) (hs : Sane s) :
    SaneOut (execWriteHighHalf r off v s) := by
  unfold execWriteHighHalf
  simp (maxDischargeDepth := 40) (contextual := true) [*]

@[simp] theorem sane_setW1c (g : Reg) (sets : Word) (s : State) (hs : Sane s) :
    Sane (setW1c g sets s) := by
  unfold setW1c
  (repeat' split) <;> simp (maxDischargeDepth := 40) (contextual := true) [*]

@[simp] theorem sane_execW1cWrite (r : Requester) (off : BitVec 26) (v sets : Word) (s : State) (hs : Sane s) :
    SaneOut (execW1cWrite r off v sets s) := by
  unfold execW1cWrite
  simp (maxDischargeDepth := 40) (contextual := true) [*]

@[simp] theorem sane_setCounter (r : Requester) (g : Reg) (v : Word) (s : State) (hs : Sane s) :
    Sane (setCounter r g v s) := by
  unfold setCounter
  (repeat' split) <;> simp (maxDischargeDepth := 40) (contextual := true) [*]

@[simp] theorem sane_readDenied (s : State) (r : Requester) (off : BitVec 26) (hs : Sane s) :
    Sane (State.readDenied s r off) := by
  unfold State.readDenied
  (repeat' split) <;> simp (maxDischargeDepth := 40) (contextual := true) [*]

@[simp] theorem sane_readReg (s : State) (r : Requester) (off : BitVec 26) (events : Word) (hs : Sane s) :
    Sane (readReg s r off events).2 := by
  unfold readReg
  simp only []
  (repeat' split) <;> simp (maxDischargeDepth := 40) (contextual := true) [*]

@[simp] theorem sane_execReadLowHalf (r : Requester) (off : BitVec 26) (s : State) (hs : Sane s) :
    SaneOut (execReadLowHalf r off s) := by
  unfold execReadLowHalf
  simp (maxDischargeDepth := 40) (contextual := true) [*]

@[simp] theorem sane_execRcRead (r : Requester) (off : BitVec 26) (events : Word) (s : State) (hs : Sane s) :
    SaneOut (execRcRead r off events s) := by
  unfold execRcRead
  simp (maxDischargeDepth := 40) (contextual := true) [*]

@[simp] theorem sane_relayPostTo (i : Stall) (off : BitVec 26) (len : BitVec 9) (buf : List Byte) (s : State) (hs : Sane s) :
    Sane (relayPostTo i off len buf s) := by
  unfold relayPostTo
  (repeat' split) <;> simp (maxDischargeDepth := 40) (contextual := true) [*]

@[simp] theorem sane_relayServe (i : Stall) (m : Member) (op : RelayOp) (s : State) (hs : Sane s) :
    SaneOut (relayServe i m op s) := by
  unfold relayServe
  simp only []
  (repeat' split) <;> simp (maxDischargeDepth := 40) (contextual := true) [*]

@[simp] theorem sane_execRelayRequest (i : Stall) (m : Member) (op : RelayOp) (s : State) (hs : Sane s) :
    SaneOut (execRelayRequest i m op s) := by
  unfold execRelayRequest
  simp [hs]

@[simp] theorem sane_execSmbusMctp (q : MctpRequest) (s : State) (hs : Sane s) :
    SaneOut (execSmbusMctp q s) := by
  unfold execSmbusMctp
  simp only []
  (repeat' split) <;> simp (maxDischargeDepth := 40) (contextual := true) [*]

@[simp] theorem sane_tapRise (s : State) (tms tdi : Bool) (hs : Sane s) :
    Sane (State.tapRise s tms tdi) := by
  unfold State.tapRise
  simp only []
  (repeat' split) <;> simp (maxDischargeDepth := 40) (contextual := true) [*]

@[simp] theorem sane_tapFall (s : State) (hs : Sane s) :
    Sane (State.tapFall s) := by
  unfold State.tapFall
  simp only []
  (repeat' split) <;> simp (maxDischargeDepth := 40) (contextual := true) [*]

@[simp] theorem sane_execJtagTap (tck tms tdi trstN : Bool) (s : State) (hs : Sane s) :
    SaneOut (execJtagTap tck tms tdi trstN s) := by
  unfold execJtagTap
  simp (maxDischargeDepth := 40) (contextual := true) [*]

@[simp] theorem sane_idle (s : State) (hs : Sane s) :
    Sane (State.idle s) := by
  unfold State.idle
  simp (maxDischargeDepth := 40) (contextual := true) [*]

end Sys2Proof.Machine
end

