-- ==== Sys2Proof/Laws/Window.lean ====
section
/-! SUPPORT. Where the offsets of the block map lead (Table 00-4), and what the held halves of 64-bit pairs are. -/

namespace Sys2Proof.Machine

/-! ### The registers behind the named offsets -/

theorem pageOf_at (base : Nat) (i : Stall) (o : Nat) (f : Stall → Nat → Reg) (h : o < 0x2000) :
    pageOf base (base + 0x2000 * i.val + o) f = f i o := by
  have h1 : (base + 0x2000 * i.val + o - base) / 0x2000 = i.val := by omega
  have h2 : (base + 0x2000 * i.val + o - base) % 0x2000 = o := by omega
  have h3 : i.val < 8 := i.isLt
  simp only [pageOf, h1, h2, h3, dite_true]

theorem unitBlock_at (n base : Nat) (i : Fin n) (o : Nat) (f : Fin n → Nat → Reg) (h : o < 0x10000) :
    unitBlock n base (base + 0x10000 * i.val + o) f = f i o := by
  have h1 : (base + 0x10000 * i.val + o - base) / 0x10000 = i.val := by omega
  have h2 : (base + 0x10000 * i.val + o - base) % 0x10000 = o := by omega
  have h3 : i.val < n := i.isLt
  simp only [unitBlock, h1, h2, h3, dite_true]

@[simp] theorem regOf_marchOff (i : Stall) (o : Nat) (h : o < 0x2000) : regOf (marchOff i o) = .march i o := by
  have e : (marchOff i o).toNat = 0x10000 + 0x2000 * i.val + o := by
    simp only [marchOff, BitVec.toNat_ofNat]; omega
  rw [← pageOf_at 0x10000 i o .march h]
  unfold regOf
  simp only [e]
  repeat rw [if_neg (by omega)]
  rw [if_pos (by omega)]

@[simp] theorem regOf_charterOff (i : Stall) (o : Nat) (h : o < 0x2000) : regOf (charterOff i o) = .charter i o := by
  have e : (charterOff i o).toNat = 0x20000 + 0x2000 * i.val + o := by
    simp only [charterOff, BitVec.toNat_ofNat]; omega
  rw [← pageOf_at 0x20000 i o .charter h]
  unfold regOf
  simp only [e]
  repeat rw [if_neg (by omega)]
  rw [if_pos (by omega)]

@[simp] theorem regOf_ledgerOff (i : Stall) (o : Nat) (h : o < 0x2000) : regOf (ledgerOff i o) = .ledger i o := by
  have e : (ledgerOff i o).toNat = 0x30000 + 0x2000 * i.val + o := by
    simp only [ledgerOff, BitVec.toNat_ofNat]; omega
  rw [← pageOf_at 0x30000 i o .ledger h]
  unfold regOf
  simp only [e]
  repeat rw [if_neg (by omega)]
  rw [if_pos (by omega)]

@[simp] theorem regOf_settleOff (i : Stall) (o : Nat) (h : o < 0x2000) : regOf (settleOff i o) = .settle i o := by
  have e : (settleOff i o).toNat = 0x40000 + 0x2000 * i.val + o := by
    simp only [settleOff, BitVec.toNat_ofNat]; omega
  rw [← pageOf_at 0x40000 i o .settle h]
  unfold regOf
  simp only [e]
  repeat rw [if_neg (by omega)]
  rw [if_pos (by omega)]

@[simp] theorem regOf_tallyOff (i : Stall) (o : Nat) (h : o < 0x2000) : regOf (tallyOff i o) = .tally i o := by
  have e : (tallyOff i o).toNat = 0x50000 + 0x2000 * i.val + o := by
    simp only [tallyOff, BitVec.toNat_ofNat]; omega
  rw [← pageOf_at 0x50000 i o .tally h]
  unfold regOf
  simp only [e]
  repeat rw [if_neg (by omega)]
  rw [if_pos (by omega)]

@[simp] theorem regOf_lotOff (i : Stall) (o : Nat) (h : o < 0x2000) : regOf (lotOff i o) = .lot i o := by
  have e : (lotOff i o).toNat = 0x60000 + 0x2000 * i.val + o := by
    simp only [lotOff, BitVec.toNat_ofNat]; omega
  rw [← pageOf_at 0x60000 i o .lot h]
  unfold regOf
  simp only [e]
  repeat rw [if_neg (by omega)]
  rw [if_pos (by omega)]

@[simp] theorem regOf_stallOff (i : Stall) (o : Nat) (h : o < 0x2000) : regOf (stallOff i o) = .stall i o := by
  have e : (stallOff i o).toNat = 0x700000 + 0x2000 * i.val + o := by
    simp only [stallOff, BitVec.toNat_ofNat]; omega
  rw [← pageOf_at 0x700000 i o .stall h]
  unfold regOf
  simp only [e]
  repeat rw [if_neg (by omega)]
  rw [if_pos (by omega)]

@[simp] theorem regOf_copyOff (g : EngineId) (o : Nat) (h : o < 0x10000) : regOf (copyOff g o) = .copy g o := by
  have e : (copyOff g o).toNat = 0x80000 + 0x10000 * g.val + o := by
    simp only [copyOff, BitVec.toNat_ofNat]; omega
  rw [← unitBlock_at _ 0x80000 g o .copy h]
  unfold regOf
  simp only [e]
  repeat rw [if_neg (by omega)]
  rw [if_pos (by omega)]

@[simp] theorem regOf_coreOff (k : CoreId) (o : Nat) (h : o < 0x10000) : regOf (coreOff k o) = .core k o := by
  have e : (coreOff k o).toNat = 0x100000 + 0x10000 * k.val + o := by
    simp only [coreOff, BitVec.toNat_ofNat]; omega
  rw [← unitBlock_at _ 0x100000 k o .core h]
  unfold regOf
  simp only [e]
  repeat rw [if_neg (by omega)]
  rw [if_pos (by omega)]

@[simp] theorem regOf_routeOff (p : PortId) (o : Nat) (h : o < 0x10000) : regOf (routeOff p o) = .route p o := by
  have e : (routeOff p o).toNat = 0x400000 + 0x10000 * p.val + o := by
    simp only [routeOff, BitVec.toNat_ofNat]; omega
  rw [← unitBlock_at _ 0x400000 p o .route h]
  unfold regOf
  simp only [e]
  repeat rw [if_neg (by omega)]
  rw [if_pos (by omega)]

@[simp] theorem regOf_voteOff (i : Stall) : regOf (voteOff i) = .vote i 0 := by
  have e : (voteOff i).toNat = 0xB01000 + 0x100 * i.val := by
    simp only [voteOff, BitVec.toNat_ofNat]; omega
  unfold regOf
  simp only [e]
  have h1 : (0xB01000 + 0x100 * i.val - 0xB01000) / 0x100 = i.val := by omega
  have h2 : (0xB01000 + 0x100 * i.val - 0xB01000) % 0x100 = 0 := by omega
  repeat rw [if_neg (by omega)]
  rw [if_pos (by omega)]
  simp only [h1, h2, i.isLt, dite_true]

@[simp] theorem regOf_faultOff (i : Stall) (o : Nat) (h : o < 0x100) : regOf (faultOff i o) = .faultPage i o := by
  have e : (faultOff i o).toNat = 0xC09000 + 0x100 * i.val + o := by
    simp only [faultOff, BitVec.toNat_ofNat]; omega
  unfold regOf
  simp only [e]
  have h1 : (0xC09000 + 0x100 * i.val + o - 0xC09000) / 0x100 = i.val := by omega
  have h2 : (0xC09000 + 0x100 * i.val + o - 0xC09000) % 0x100 = o := by omega
  repeat rw [if_neg (by omega)]
  rw [if_pos (by omega)]
  simp only [h1, h2, i.isLt, dite_true]

@[simp] theorem regOf_postOff (i : Stall) (secure : Bool) (n : Fin 24) (o : Nat) (h : o < 0x400)
    (hn : secure = true → n.val < 8) : regOf (postOff i secure n o) = .post i secure n o := by
  have e : (postOff i secure n o).toNat = (if secure then 0x900000 else 0x800000) + 0x10000 * i.val + (0x400 * n.val + o) := by
    simp only [postOff, BitVec.toNat_ofNat]; cases secure <;> simp <;> omega
  have hp : postReg secure i (0x400 * n.val + o) = .post i secure n o := by
    have h1 : (0x400 * n.val + o) / 0x400 = n.val := by omega
    have h2 : (0x400 * n.val + o) % 0x400 = o := by omega
    unfold postReg
    simp only [h1, h2, n.isLt, dite_true]
    cases secure
    · rfl
    · have := hn rfl
      simp [show ¬ 8 ≤ n.val by omega]
  cases secure
  · rw [← hp, ← unitBlock_at 8 0x800000 i (0x400 * n.val + o) (postReg false) (by omega)]
    unfold regOf
    simp only [e]
    repeat rw [if_neg (by simp; omega)]
    rw [if_pos (by simp; omega)]
    rfl
  · rw [← hp, ← unitBlock_at 8 0x900000 i (0x400 * n.val + o) (postReg true) (by omega)]
    unfold regOf
    simp only [e]
    repeat rw [if_neg (by simp; omega)]
    rw [if_pos (by simp; omega)]
    rfl

/-! ### The offset behind a register -/

/-- The register that follows a word later in the same block. -/
def nextReg : Reg → Reg
  | .march i o => .march i (o + 4)
  | .charter i o => .charter i (o + 4)
  | .settle i o => .settle i (o + 4)
  | .lot i o => .lot i (o + 4)
  | .copy e o => .copy e (o + 4)
  | .core k o => .core k (o + 4)
  | .route p o => .route p (o + 4)
  | .near k o => .near k (o + 4)
  | .serai k o => .serai k (o + 4)
  | .customs i o => .customs i (o + 4)
  | .faultPage i o => .faultPage i (o + 4)
  | g => g

/-- The offset of a register, and how far its block reaches. -/
def regPlace : Reg → Option (Nat × Nat)
  | .march i o => some (0x10000 + 0x2000 * i.val + o, 0x10000 + 0x2000 * i.val + 0x2000)
  | .charter i o => some (0x20000 + 0x2000 * i.val + o, 0x20000 + 0x2000 * i.val + 0x2000)
  | .ledger i o => some (0x30000 + 0x2000 * i.val + o, 0x30000 + 0x2000 * i.val + 0x2000)
  | .settle i o => some (0x40000 + 0x2000 * i.val + o, 0x40000 + 0x2000 * i.val + 0x2000)
  | .tally i o => some (0x50000 + 0x2000 * i.val + o, 0x50000 + 0x2000 * i.val + 0x2000)
  | .lot i o => some (0x60000 + 0x2000 * i.val + o, 0x60000 + 0x2000 * i.val + 0x2000)
  | .copy i o => some (0x80000 + 0x10000 * i.val + o, 0x80000 + 0x10000 * i.val + 0x10000)
  | .core i o => some (0x100000 + 0x10000 * i.val + o, 0x100000 + 0x10000 * i.val + 0x10000)
  | .route i o => some (0x400000 + 0x10000 * i.val + o, 0x400000 + 0x10000 * i.val + 0x10000)
  | .near i o => some (0x500000 + 0x10000 * i.val + o, 0x500000 + 0x10000 * i.val + 0x10000)
  | .serai i o => some (0x600000 + 0x4000 * i.val + o, 0x600000 + 0x4000 * i.val + 0x4000)
  | .customs i o => some (0xA00000 + 0x10000 * i.val + o, 0xA00000 + 0x10000 * i.val + 0x10000)
  | .stall i o => some (0x700000 + 0x2000 * i.val + o, 0x700000 + 0x2000 * i.val + 0x2000)
  | .faultPage i o => some (0xC09000 + 0x100 * i.val + o, 0xC09000 + 0x100 * i.val + 0x100)
  | _ => none

theorem pageOf_cases (base n : Nat) (f : Stall → Nat → Reg) (h : base ≤ n) :
    pageOf base n f = .hole ∨ ∃ i o, pageOf base n f = f i o ∧ n = base + 0x2000 * i.val + o ∧ o < 0x2000 := by
  simp only [pageOf]
  split
  · rename_i hi
    exact .inr ⟨⟨_, hi⟩, _, rfl, by simp only []; omega, by omega⟩
  · exact .inl rfl

theorem unitBlock_cases (m base n : Nat) (f : Fin m → Nat → Reg) (h : base ≤ n) :
    unitBlock m base n f = .hole ∨ ∃ i o, unitBlock m base n f = f i o ∧ n = base + 0x10000 * i.val + o ∧ o < 0x10000 := by
  simp only [unitBlock]
  split
  · rename_i hi
    exact .inr ⟨⟨_, hi⟩, _, rfl, by simp only []; omega, by omega⟩
  · exact .inl rfl

theorem postReg_place (b : Bool) (i : Stall) (o : Nat) : regPlace (postReg b i o) = none := by
  unfold postReg
  simp only []
  (repeat' split) <;> rfl

theorem page_place {x base : Nat} {c : Stall → Nat → Reg} {g : Reg} {a b : Nat} (h : base ≤ x) (hg : pageOf base x c = g)
    (hp : regPlace g = some (a, b))
    (hc : ∀ i o, regPlace (c i o) = some (base + 0x2000 * i.val + o, base + 0x2000 * i.val + 0x2000)) : x = a ∧ a < b := by
  rcases pageOf_cases base x c h with e | ⟨i, o, e, h1, h2⟩
  · rw [← hg, e] at hp
    cases hp
  · rw [← hg, e, hc i o] at hp
    cases hp
    omega

theorem unit_place {m x base : Nat} {c : Fin m → Nat → Reg} {g : Reg} {a b : Nat} (h : base ≤ x)
    (hg : unitBlock m base x c = g) (hp : regPlace g = some (a, b))
    (hc : ∀ i o, regPlace (c i o) = none
      ∨ regPlace (c i o) = some (base + 0x10000 * i.val + o, base + 0x10000 * i.val + 0x10000)) : x = a ∧ a < b := by
  rcases unitBlock_cases m base x c h with e | ⟨i, o, e, h1, h2⟩
  · rw [← hg, e] at hp
    cases hp
  · rw [← hg, e] at hp
    rcases hc i o with k | k <;> rw [k] at hp <;> cases hp
    omega

theorem regOf_place (x : BitVec 26) (a b : Nat) (h : regPlace (regOf x) = some (a, b)) : x.toNat = a ∧ a < b := by
  generalize hg : regOf x = g at h
  unfold regOf at hg
  extract_lets n at hg
  have hn : n = x.toNat := rfl
  clear_value n
  rw [← hn]
  clear hn
  by_cases c0 : n < 0x10000
  · rw [if_pos c0] at hg
    subst hg
    cases h
  rw [if_neg c0] at hg
  by_cases c1 : n < 0x20000
  · rw [if_pos c1] at hg
    exact page_place (by omega) hg h fun _ _ => rfl
  rw [if_neg c1] at hg
  by_cases c2 : n < 0x30000
  · rw [if_pos c2] at hg
    exact page_place (by omega) hg h fun _ _ => rfl
  rw [if_neg c2] at hg
  by_cases c3 : n < 0x40000
  · rw [if_pos c3] at hg
    exact page_place (by omega) hg h fun _ _ => rfl
  rw [if_neg c3] at hg
  by_cases c4 : n < 0x50000
  · rw [if_pos c4] at hg
    exact page_place (by omega) hg h fun _ _ => rfl
  rw [if_neg c4] at hg
  by_cases c5 : n < 0x60000
  · rw [if_pos c5] at hg
    exact page_place (by omega) hg h fun _ _ => rfl
  rw [if_neg c5] at hg
  by_cases c6 : n < 0x70000
  · rw [if_pos c6] at hg
    exact page_place (by omega) hg h fun _ _ => rfl
  rw [if_neg c6] at hg
  by_cases c7 : n < 0x80000
  · rw [if_pos c7] at hg
    subst hg
    cases h
  rw [if_neg c7] at hg
  by_cases c8 : n < 0x100000
  · rw [if_pos c8] at hg
    exact unit_place (by omega) hg h fun _ _ => .inr rfl
  rw [if_neg c8] at hg
  by_cases c9 : n < 0x300000
  · rw [if_pos c9] at hg
    exact unit_place (by omega) hg h fun _ _ => .inr rfl
  rw [if_neg c9] at hg
  by_cases c10 : n < 0x340000
  · rw [if_pos c10] at hg
    exact unit_place (by omega) hg h fun _ _ => .inl rfl
  rw [if_neg c10] at hg
  by_cases c11 : n < 0x400000
  · rw [if_pos c11] at hg
    subst hg
    cases h
  rw [if_neg c11] at hg
  by_cases c12 : n < 0x480000
  · rw [if_pos c12] at hg
    exact unit_place (by omega) hg h fun _ _ => .inr rfl
  rw [if_neg c12] at hg
  by_cases c13 : n < 0x500000
  · rw [if_pos c13] at hg
    subst hg
    cases h
  rw [if_neg c13] at hg
  by_cases c14 : n < 0x580000
  · rw [if_pos c14] at hg
    exact unit_place (by omega) hg h fun _ _ => .inr rfl
  rw [if_neg c14] at hg
  by_cases c15 : n < 0x600000
  · rw [if_pos c15] at hg
    subst hg
    cases h
  rw [if_neg c15] at hg
  by_cases c16 : n < 0x660000
  · rw [if_pos c16] at hg
    split at hg <;> subst hg <;> simp only [regPlace, Option.some.injEq, Prod.mk.injEq, reduceCtorEq] at h
    omega
  rw [if_neg c16] at hg
  by_cases c17 : n < 0x700000
  · rw [if_pos c17] at hg
    subst hg
    cases h
  rw [if_neg c17] at hg
  by_cases c18 : n < 0x710000
  · rw [if_pos c18] at hg
    exact page_place (by omega) hg h fun _ _ => rfl
  rw [if_neg c18] at hg
  by_cases c19 : n < 0x720000
  · rw [if_pos c19] at hg
    subst hg
    cases h
  rw [if_neg c19] at hg
  by_cases c20 : n < 0x800000
  · rw [if_pos c20] at hg
    subst hg
    cases h
  rw [if_neg c20] at hg
  by_cases c21 : n < 0x880000
  · rw [if_pos c21] at hg
    exact unit_place (by omega) hg h fun i o => .inl (postReg_place _ i o)
  rw [if_neg c21] at hg
  by_cases c22 : n < 0x900000
  · rw [if_pos c22] at hg
    subst hg
    cases h
  rw [if_neg c22] at hg
  by_cases c23 : n < 0x980000
  · rw [if_pos c23] at hg
    exact unit_place (by omega) hg h fun i o => .inl (postReg_place _ i o)
  rw [if_neg c23] at hg
  by_cases c24 : n < 0xA00000
  · rw [if_pos c24] at hg
    subst hg
    cases h
  rw [if_neg c24] at hg
  by_cases c25 : n < 0xA80000
  · rw [if_pos c25] at hg
    exact unit_place (by omega) hg h fun _ _ => .inr rfl
  rw [if_neg c25] at hg
  by_cases c26 : n < 0xB00000
  · rw [if_pos c26] at hg
    subst hg
    cases h
  rw [if_neg c26] at hg
  by_cases c27 : n < 0xB01000
  · rw [if_pos c27] at hg
    subst hg
    cases h
  rw [if_neg c27] at hg
  by_cases c28 : n < 0xB01800
  · rw [if_pos c28] at hg
    split at hg <;> subst hg <;> simp only [regPlace, reduceCtorEq] at h
  rw [if_neg c28] at hg
  by_cases c29 : n < 0xC00000
  · rw [if_pos c29] at hg
    subst hg
    cases h
  rw [if_neg c29] at hg
  by_cases c30 : n < 0xC09000
  · rw [if_pos c30] at hg
    subst hg
    cases h
  rw [if_neg c30] at hg
  by_cases c31 : n < 0xC09800
  · rw [if_pos c31] at hg
    split at hg <;> subst hg <;> simp only [regPlace, Option.some.injEq, Prod.mk.injEq, reduceCtorEq] at h
    omega
  rw [if_neg c31] at hg
  by_cases c32 : n < 0xF00000
  · rw [if_pos c32] at hg
    subst hg
    cases h
  rw [if_neg c32] at hg
  by_cases c33 : n < 0xF10000
  · rw [if_pos c33] at hg
    subst hg
    cases h
  rw [if_neg c33] at hg
  subst hg
  cases h

theorem unitAt (n base : Nat) (x : BitVec 26) (i : Fin n) (o : Nat) (h : x.toNat = base + 0x10000 * i.val + o)
    (ho : o < 0x10000) (f : Fin n → Nat → Reg) : unitBlock n base x.toNat f = f i o := by
  rw [h]
  exact unitBlock_at n base i o f ho

theorem regOf_near (x : BitVec 26) (k : Fin 8) (o : Nat) (h : x.toNat = 0x500000 + 0x10000 * k.val + o) (ho : o < 0x10000) :
    regOf x = .near k o := by
  rw [← unitAt 8 0x500000 x k o h ho .near]
  unfold regOf
  extract_lets n
  repeat rw [if_neg (by omega)]
  rw [if_pos (by omega)]

theorem regOf_customs (x : BitVec 26) (k : Fin 8) (o : Nat) (h : x.toNat = 0xA00000 + 0x10000 * k.val + o) (ho : o < 0x10000) :
    regOf x = .customs k o := by
  rw [← unitAt 8 0xA00000 x k o h ho .customs]
  unfold regOf
  extract_lets n
  repeat rw [if_neg (by omega)]
  rw [if_pos (by omega)]

theorem regOf_serai (x : BitVec 26) (k : Fin 24) (o : Nat) (h : x.toNat = 0x600000 + 0x4000 * k.val + o) (ho : o < 0x4000) :
    regOf x = .serai k o := by
  have h1 : (0x600000 + 0x4000 * k.val + o - 0x600000) / 0x4000 = k.val := by omega
  have h2 : (0x600000 + 0x4000 * k.val + o - 0x600000) % 0x4000 = o := by omega
  unfold regOf
  simp only [h]
  repeat rw [if_neg (by omega)]
  rw [if_pos (by omega)]
  simp only [h1, h2, k.isLt, dite_true]

/-- Where a low half lies, its high half follows in the same block. -/
theorem regOf_high (x : BitVec 26) (h : lowHalf (regOf x) = true) : regOf (x + 4) = nextReg (regOf x) := by
  have hx := x.isLt
  have h4 : (4 : BitVec 26).toNat = 4 := rfl
  generalize hg : regOf x = g at h
  have hp := regOf_place x
  rw [hg] at hp
  cases g <;> simp only [lowHalf, Bool.or_eq_true, beq_iff_eq, Bool.false_eq_true] at h
  case march i o =>
    obtain ⟨h1, h2⟩ := hp _ _ rfl
    have e : x + 4 = marchOff i (o + 4) := BitVec.eq_of_toNat_eq (by simp only [marchOff, BitVec.toNat_add, BitVec.toNat_ofNat]; omega)
    rw [e, regOf_marchOff i (o + 4) (by omega)]
    rfl
  case charter i o =>
    obtain ⟨h1, h2⟩ := hp _ _ rfl
    have e : x + 4 = charterOff i (o + 4) := BitVec.eq_of_toNat_eq (by simp only [charterOff, BitVec.toNat_add, BitVec.toNat_ofNat]; omega)
    rw [e, regOf_charterOff i (o + 4) (by omega)]
    rfl
  case settle i o =>
    obtain ⟨h1, h2⟩ := hp _ _ rfl
    have e : x + 4 = settleOff i (o + 4) := BitVec.eq_of_toNat_eq (by simp only [settleOff, BitVec.toNat_add, BitVec.toNat_ofNat]; omega)
    rw [e, regOf_settleOff i (o + 4) (by omega)]
    rfl
  case lot i o =>
    obtain ⟨h1, h2⟩ := hp _ _ rfl
    have e : x + 4 = lotOff i (o + 4) := BitVec.eq_of_toNat_eq (by simp only [lotOff, BitVec.toNat_add, BitVec.toNat_ofNat]; omega)
    rw [e, regOf_lotOff i (o + 4) (by omega)]
    rfl
  case copy i o =>
    obtain ⟨h1, h2⟩ := hp _ _ rfl
    have e : x + 4 = copyOff i (o + 4) := BitVec.eq_of_toNat_eq (by simp only [copyOff, BitVec.toNat_add, BitVec.toNat_ofNat]; omega)
    rw [e, regOf_copyOff i (o + 4) (by omega)]
    rfl
  case core i o =>
    obtain ⟨h1, h2⟩ := hp _ _ rfl
    have e : x + 4 = coreOff i (o + 4) := BitVec.eq_of_toNat_eq (by simp only [coreOff, BitVec.toNat_add, BitVec.toNat_ofNat]; omega)
    rw [e, regOf_coreOff i (o + 4) (by omega)]
    rfl
  case route i o =>
    obtain ⟨h1, h2⟩ := hp _ _ rfl
    have e : x + 4 = routeOff i (o + 4) := BitVec.eq_of_toNat_eq (by simp only [routeOff, BitVec.toNat_add, BitVec.toNat_ofNat]; omega)
    rw [e, regOf_routeOff i (o + 4) (by omega)]
    rfl
  case near i o =>
    obtain ⟨h1, h2⟩ := hp _ _ rfl
    exact regOf_near (x + 4) i (o + 4) (by simp only [BitVec.toNat_add, BitVec.toNat_ofNat]; omega) (by omega)
  case serai i o =>
    obtain ⟨h1, h2⟩ := hp _ _ rfl
    exact regOf_serai (x + 4) i (o + 4) (by simp only [BitVec.toNat_add, BitVec.toNat_ofNat]; omega) (by omega)
  case customs i o =>
    obtain ⟨h1, h2⟩ := hp _ _ rfl
    exact regOf_customs (x + 4) i (o + 4) (by simp only [BitVec.toNat_add, BitVec.toNat_ofNat]; omega) (by omega)
  case faultPage i o =>
    obtain ⟨h1, h2⟩ := hp _ _ rfl
    have e : x + 4 = faultOff i (o + 4) := BitVec.eq_of_toNat_eq (by simp only [faultOff, BitVec.toNat_add, BitVec.toNat_ofNat]; omega)
    rw [e, regOf_faultOff i (o + 4) (by omega)]
    rfl

/-! ### Sorted keys -/

@[simp] theorem lookupKey_insertKey_self {α : Type} (k : Nat) (a : α) (l : List (Nat × α)) :
    lookupKey k (insertKey k a l) = some a := by
  induction l with
  | nil => simp [insertKey, lookupKey]
  | cons e l ih =>
    simp only [insertKey]
    split
    · simp [lookupKey]
    · split
      · simp [lookupKey]
      · simp [lookupKey, *]

theorem lookupKey_insertKey_other {α : Type} (j k : Nat) (a : α) (l : List (Nat × α)) (h : j ≠ k) :
    lookupKey j (insertKey k a l) = lookupKey j l := by
  induction l with
  | nil => simp [insertKey, lookupKey, h]
  | cons e l ih =>
    simp only [insertKey]
    split
    · simp [lookupKey, h]
    · split
      · rename_i e1
        subst e1
        simp [lookupKey, h]
      · simp [lookupKey, ih]

/-- Two requesters, or two offsets, never share a held half. -/
theorem halfKey_inj {r r' : Requester} {o o' : BitVec 26} (h : halfKey r o = halfKey r' o') : r = r' ∧ o = o' := by
  have h1 := o.isLt
  have h2 := o'.isLt
  unfold halfKey at h
  have hr : requesterIx r = requesterIx r' := by omega
  have ho : o.toNat = o'.toNat := by omega
  refine ⟨?_, BitVec.eq_of_toNat_eq ho⟩
  cases r <;> cases r' <;> simp only [requesterIx] at hr <;> first | rfl | omega |
    (congr 1; exact Fin.ext (by omega))

@[simp] theorem heldLow_holdLow_self (s : State) (r : Requester) (off : BitVec 26) (v : Word) :
    (s.holdLow r off v).heldLow r off = v := by
  simp [State.holdLow, State.heldLow]

theorem heldLow_holdLow_other (s : State) (r r' : Requester) (off off' : BitVec 26) (v : Word) (h : ¬(r' = r ∧ off' = off)) :
    (s.holdLow r off v).heldLow r' off' = s.heldLow r' off' := by
  have hk : halfKey r' off' ≠ halfKey r off := fun e => h (halfKey_inj e)
  simp [State.holdLow, State.heldLow, lookupKey_insertKey_other _ _ _ _ hk]

end Sys2Proof.Machine
end

