-- ==== Sys2Proof/WellFormed.lean ====
section
/-! DEFINITION. Which commands are well formed: the bounds that the spec puts on operands and that their types do not
already carry. `exec` gives every command a meaning, well formed or not. -/

namespace Sys2Proof

/-- A member index that the spec allows (R315): 0 to 67, or 0x7F for none. -/
def Member.wf (m : Member) : Bool := m.toNat ≤ 67 || m == 0x7F

/-- Registers are words (R8). -/
def wordAligned (off : BitVec 26) : Bool := off.toNat % 4 == 0

/-- Verdict words name legal members, at most four of them missing, and no cause 0 (R60, Table 02-11). -/
def VerdictWord.wf (w : VerdictWord) : Bool :=
  Member.wf w.member && Member.wf w.mirrorOf && w.missing.all (fun e => Member.wf e.member) && w.missing.length ≤ 4
    && !w.causes.getLsbD 0

/-- A combined word names a legal source and a code of Table 02-2. -/
def FederationWord.wf (w : FederationWord) : Bool :=
  Member.wf w.source && w.reports.all (fun e => Member.wf e.1 && Member.wf e.2.member) && w.mirrors.all (fun e => Member.wf e.1 && Member.wf e.2) && w.code.toNat ≤ 12 && !w.causes.getLsbD 0

/-- A caravan verdict carries a code of Table 02-2 other than NONE. -/
def CaravanVerdict.wf (v : CaravanVerdict) : Bool :=
  Member.wf v.source && 1 ≤ v.code.toNat && v.code.toNat ≤ 12 && !v.causes.getLsbD 0

/-- A segment holds at most 2,048 elements (R230) and counts 1 to 4,096 contributions (Table 08-3). -/
def Segment.wf (g : Segment) : Bool :=
  Member.wf g.header.source && g.elems.length ≤ 2048 && 1 ≤ g.header.count.toNat && g.header.count.toNat ≤ 4096

/-- A flit has 256 payload bytes (R308). -/
def Flit.wf (f : Flit) : Bool := f.payload.length == 256

/-- A relayed post carries at most 256 bytes (R322, R383). -/
def RelayOp.wf : RelayOp → Bool
  | .read32 off => off.toNat % 4 == 0
  | .write32 off _ => off.toNat % 4 == 0
  | .post _ len buf => len.toNat ≤ 256 && buf.length ≤ 256

/-- Every member a relayed command names is legal. -/
def RelayedCommand.wf : RelayedCommand → Bool
  | .fence _ m sb => Member.wf m && Member.wf sb
  | _ => true

/-- A row of a unit (R281, R282): its bay exists, and a near-memory row lies in the unit's stripe group. -/
def MemUnit.rowWf (u : MemUnit) (bay : BitVec 10) (row : BitVec 18) : Bool :=
  match u with
  | .near pc => bay.toNat < 640 && row.toNat % 16 == pc.val % 16
  | .serai _ => bay.toNat < 992

/-- The symbols of one read, each listed once: 36 in near memory, 2,048 in a Serai block (R283, R284). -/
def MemUnit.errorsWf (u : MemUnit) (e : SymbolErrors) : Bool :=
  decide e.Nodup && (match u with | .near _ => e.all fun k => decide (k.val < 36) | .serai _ => true)

/-- The well-formed commands. -/
def Instr.wf : Instr → Bool
  | .registerWrite _ off _ => wordAligned off
  | .writeLowHalf _ off _ | .writeHighHalf _ off _ | .readLowHalf _ off => wordAligned off
  | .w1cWrite _ off _ _ => wordAligned off
  | .rcRead _ off _ => wordAligned off
  | .spareReady _ m | .settleLate _ m _ | .settled _ m _ _ | .recordAnswer _ m | .settleUnconfirmed _ m
  | .acceptedWord _ m _ _ | .withdraw _ m | .memberReady _ m => Member.wf m
  | .haltFlit _ m code _ => Member.wf m && 6 ≤ code.toNat && code.toNat ≤ 11 && code.toNat != 10
  | .verdictWord _ w => w.wf
  | .federationWord _ w => w.wf
  | .caravanVerdict _ v => v.wf
  | .commandRelay _ c => c.wf
  | .ledgerSegment _ g => g.wf
  | .shortNotice _ h => Member.wf h.source
  | .cxlMemWrite _ _ data => data.length ≤ 64
  | .flitReceive _ f _ => f.wf
  | .relayRequest _ m op => Member.wf m && op.wf
  | .relayEvent _ m _ => Member.wf m
  | .identMessage _ m => Member.wf m.member
  | .postAck _ _ _ _ reply => reply.length ≤ 256
  | .postNotice _ _ _ msg => msg.length ≤ 256
  | .arbiterFrame reqs => reqs.all fun q => !(q.charter && q.cxlMem)
  | .buddyCkptReceive _ m header _ => Member.wf m && header.length ≤ 88
  | .customsDeny _ _ cause _ => 1 ≤ cause.toNat
  | .memUncorrectable u bay r => u.rowWf bay r.row && u.errorsWf r.errors
  | .memRepeatRead u bay row e => u.rowWf bay row && u.errorsWf e
  | .memCorrected u e | .patrolScrub u e => u.errorsWf e
  | _ => true

end Sys2Proof
end

