-- ==== Sys2Proof/Tests/Slice0.lean ====
section
/-! SUPPORT. Tests: the worked cases and tables of the spec, and a witness for the hypotheses of every statement. -/

set_option Elab.async false

namespace Sys2Proof.Tests
open Sys2Proof.Machine Sys2Proof.Safety

/-! ### Well-formed commands: a term that each check refuses -/

theorem test_wf_accepts : (Instr.registerWrite (.link 0) 0x10000 5).wf = true ∧ (Instr.recordAnswer 0 67).wf = true := by decide

theorem test_wf_refuses_unaligned_register : (Instr.registerWrite (.link 0) 0x10001 5).wf = false := by decide
theorem test_wf_refuses_unaligned_low_half : (Instr.writeLowHalf (.link 0) 0x40006 5).wf = false := by decide
theorem test_wf_refuses_unaligned_high_half : (Instr.writeHighHalf (.link 0) 0x40009 5).wf = false := by decide
theorem test_wf_refuses_unaligned_pair_read : (Instr.readLowHalf (.link 0) 0x10001).wf = false := by decide
theorem test_wf_refuses_unaligned_w1c : (Instr.w1cWrite (.link 0) 0x10002 5 0).wf = false := by decide
theorem test_wf_refuses_unaligned_rc : (Instr.rcRead (.link 0) 0x10002 0).wf = false := by decide
theorem test_wf_refuses_member_68 : (Instr.memberReady 0 68).wf = false := by decide
theorem test_wf_refuses_halt_of_a_skip : (Instr.haltFlit 0 1 3 0x0201).wf = false := by decide
theorem test_wf_refuses_halt_code_10 : (Instr.haltFlit 0 1 10 0x0201).wf = false := by decide
theorem test_wf_refuses_word_of_cause_0 :
    (Instr.verdictWord 0 ⟨1, 1, 0x0201, 1, 0, 0, false, [], 0x7F, 0, none, none⟩).wf = false := by decide
theorem test_wf_refuses_federation_code_13 :
    (Instr.federationWord 0 ⟨1, 2, 13, 0x0201, 3, 1, 0, {}, [], []⟩).wf = false := by decide
theorem test_wf_refuses_verdict_none : (Instr.caravanVerdict 0 ⟨0, 0, 1, 2, 0, 0, 0⟩).wf = false := by decide
theorem test_wf_refuses_fence_of_member_99 : (Instr.commandRelay 0 (.fence 0 99 64)).wf = false := by decide
theorem test_wf_refuses_segment_without_count : (Instr.ledgerSegment 0 ⟨{
    march := 1, attempt := 0, bucket := 0, tariff := 0, maxexp := 0, width := 40, nonfinite := false, saturated := false
    short := false, survey := false, down := false, count := 0, source := 1, sourceCaravan := 0, step := 1, segment := 0
    segElems := 1 }, [0]⟩).wf = false := by decide
theorem test_wf_refuses_short_of_member_99 : (Instr.shortNotice 0 {
    march := 1, attempt := 0, bucket := 0, tariff := 0, maxexp := 0, width := 40, nonfinite := false, saturated := false
    short := true, survey := false, down := true, count := 1, source := 99, sourceCaravan := 0, step := 1, segment := 0
    segElems := 0 }).wf = false := by decide
theorem test_wf_refuses_65_bytes : (Instr.cxlMemWrite 0 0 (List.replicate 65 0)).wf = false := by decide
theorem test_wf_refuses_flit_of_3_bytes : (Instr.flitReceive 0 ⟨0, [1, 2, 3], 0⟩ []).wf = false := by decide
theorem test_wf_refuses_relayed_odd_read : (Instr.relayRequest 0 1 (.read32 2)).wf = false := by decide
theorem test_wf_refuses_relayed_post_of_300 : (Instr.relayRequest 0 1 (.post 4 300 [])).wf = false := by decide
theorem test_wf_refuses_event_of_member_99 : (Instr.relayEvent 0 99 0).wf = false := by decide
theorem test_wf_refuses_neighbour_99 : (Instr.identMessage 0 ⟨0, 0, 0, 0, 99, 0⟩).wf = false := by decide
theorem test_wf_refuses_reply_of_257 : (Instr.postAck 0 false 0 0 (List.replicate 257 0)).wf = false := by decide +kernel
theorem test_wf_refuses_notice_of_257 : (Instr.postNotice 0 false 20 (List.replicate 257 0)).wf = false := by decide +kernel
theorem test_wf_refuses_charter_request_of_a_link : (Instr.arbiterFrame [⟨0, 0, 64, true, true⟩]).wf = false := by decide
theorem test_wf_refuses_header_of_89 : (Instr.buddyCkptReceive 0 1 (List.replicate 89 0) []).wf = false := by decide
theorem test_wf_refuses_denial_without_cause : (Instr.customsDeny 0 0 0 0).wf = false := by decide
theorem test_wf_refuses_row_of_another_group : (Instr.memUncorrectable (.near 4) 0 ⟨5, []⟩).wf = false := by decide
theorem test_wf_refuses_bay_992 : (Instr.memRepeatRead (.serai 4) 992 5 []).wf = false := by decide
theorem test_wf_refuses_symbol_listed_twice : (Instr.memCorrected (.near 4) [3, 3]).wf = false := by decide
theorem test_wf_refuses_near_symbol_36 : (Instr.patrolScrub (.near 4) [36]).wf = false := by decide

/-! ### Words: no row of the table gives bits -/

theorem test_no_row_has_bits (n w : Nat) : decodeTableWord n w = none := rfl

/-! ### Values of the spec's worked cases and tables -/

/-- A record from its fields: first bit and value. -/
def fields {w : Nat} (l : List (Nat × Nat)) : BitVec w := BitVec.ofNat w (l.foldl (fun n e => n + e.2 * 2 ^ e.1) 0)

/-- Chapter 03, stochastic rounding to H16: x = 0x3F803400 is 0x3C02 with r = 0x3C21 and 0x3C01 with r = 0xB7E5. -/
theorem test_stochastic_rounding : encodeStochastic .h16 0x3C21 (val32 0x3F803400) = 0x3C02
    ∧ encodeStochastic .h16 0xB7E5 (val32 0x3F803400) = 0x3C01 := by decide

/-- Chapter 03, one fixed order: 0x4B800001 whole, and 2^24 where the first tile-op ends at k = 128. -/
def dotPair (k : Nat) : Option (Val × Val) :=
  let h (c : Nat) := decodeVal .h16 c
  some (if k = 3 then (h 0x6C00, h 0x6C00) else if k = 77 ∨ k = 130 ∨ k = 200 then (h 0x3C00, h 0x3C00) else (h 0, h 0))
theorem test_one_fixed_order : reference 128 0 ((List.range 256).map dotPair) = 0x4B800001
    ∧ reference 128 0 ((List.range 128).map dotPair) = 0x4B800000
    ∧ reference 128 0x4B800000 ((List.range 128).map fun k => dotPair (k + 128)) = 0x4B800001 := by decide +kernel

/-- Chapter 03, masked positions against special operands. -/
def oneChunk (at5 at9 : Option (Val × Val)) : List (Option (Val × Val)) :=
  (List.range 128).map fun k => if k = 5 then at5 else if k = 9 then at9 else none
theorem test_masked_positions :
    let h (c : Nat) := decodeVal .h16 c
    reference 128 0 (oneChunk (some (h 0, h 0x7C00)) none) = 0x7FC00000
    ∧ reference 128 0 (oneChunk none (some (h 0x4000, h 0x4200))) = 0x40C00000
    ∧ reference 128 0 (oneChunk none none) = 0
    ∧ reference 128 0 (oneChunk none (some (h 0x8000, h 0x4500))) = 0
    ∧ reference 128 0x80000000 (oneChunk none (some (h 0x8000, h 0x4500))) = 0x80000000
    ∧ reference 128 0 (oneChunk (some (h 0x7BFF, h 0x7C00)) (some (h 0xBC00, h 0x7C00))) = 0x7FC00000 := by decide +kernel

/-- Chapter 04, row compaction: 8 + 2944 + 128 + 6048 + 4 + 32 + 53 cycles. -/
theorem test_row_compaction : denseCycles 512 300 256 1008 false false true = 9217 := by decide

/-- Chapter 05, a dispatch that overflows: the verdict list entries of T0 to T7. -/
def overflowing : List RouterEntry :=
  [⟨.fin false 15 (-4), 0⟩, ⟨.fin false 3 (-2), 0⟩, ⟨.fin false 5 (-3), 1⟩, ⟨.fin false 3 (-2), 0⟩, ⟨.fin false 7 (-3), 0⟩,
    ⟨.fin false 31 (-5), 1⟩, ⟨.nan, 0⟩, ⟨.fin false 1 (-2), 1⟩]
theorem test_dispatch_overflows : (List.range 8).map (fun n =>
    verdictEntry (dispatchVerdict overflowing 3 1 3 2 n) ((overflowing[n]?.map fun e => e.dest).getD 0)) =
    [0x0000000000000000, 0x0000000200000001, 0x0001000100000000, 0x0000FFFF0B020002, 0x0000000100000000, 0x0001000000000000,
      0x0000FFFF0B040002, 0x0001000200000001] := by decide
theorem test_dispatch_without_spill : dispatchVerdict overflowing 3 1 3 3 3 = (2, 0x0B01, 0xFFFF)
    ∧ dispatchVerdict overflowing 3 1 3 3 7 = (0, 0, 2) := by decide

/-- Chapter 06, GT_ZERO of −0.5, +0, −0, 3.0, NaN, 0.25, −infinity and +infinity: the plane's byte is 0xA8. -/
theorem test_gt_zero : ([0xBF000000, 0, 0x80000000, 0x40400000, 0x7FC00000, 0x3E800000, 0xFF800000, 0x7F800000] : List Word).map
    (funcBit 1) = [false, false, false, true, false, true, false, true] := by decide

/-- Chapter 08, one bucket of a 64-member group: W = 41, E = −6. -/
theorem test_quantisation : contributionWidth 64 = 41
    ∧ (quantise (.fin false 3 (-8)) (-6) 41).q.toInt = 824633720832
    ∧ (quantise (.fin true 1 (-10)) (-6) 41).q.toInt = -68719476736
    ∧ (quantise (.fin false 3 (-47)) (-6) 41).q.toInt = 2
    ∧ (quantise (.fin false 1 (-47)) (-6) 41).q.toInt = 0
    ∧ (quantise (.fin false 5 (-48)) (-6) 41).q.toInt = 1
    ∧ (quantise (.fin true (2 ^ 24 - 1) (-30)) (-6) 41).q.toInt = -1099511562240
    ∧ (quantise (.fin true (2 ^ 24 - 1) (-30)) (-6) 41).saturated = false := by decide
theorem test_dequantisation : dequantise (BitVec.ofInt 48 755914244096) (-6) 41 = 0x3C300000
    ∧ dequantise 128 (-6) 41 = 0x2C000000 ∧ dequantise 1 (-6) 41 = 0x28800000
    ∧ dequantise (BitVec.ofInt 48 (-1099511562240)) (-6) 41 = 0xBC7FFFFF := by decide

/-- Chapter 08, a saturation and the tariff's return: the next E of marches 1,000 to 1,003 and 1,009. -/
theorem test_tariffs :
    let x (n : Int) : Bool × BitVec 8 := (true, BitVec.ofInt 8 n)
    nextTariff (-6) false (x (-6) :: List.replicate 7 (x (-8))) 2 = BitVec.ofInt 8 (-4)
    ∧ nextTariff (-4) true (x (-3) :: x (-6) :: List.replicate 6 (x (-8))) 2 = 0
    ∧ nextTariff 0 false (x (-6) :: x (-3) :: List.replicate 6 (x (-6))) 2 = BitVec.ofInt 8 (-1)
    ∧ nextTariff (-1) false (List.replicate 8 (x (-6))) 2 = BitVec.ofInt 8 (-2) := by decide

/-- Chapter 09, a first update with bias correction. -/
def group5 : BitVec 512 := fields [(0, 0x3F400000), (32, 0x3E800000), (64, 0), (96, 0x3F800000), (128, 0x37800000), (160, 0x3F800000),
  (192, 0), (224, 0x3A800000), (256, 0x3C800000), (288, 1), (290, 1), (292, 1)]
theorem test_first_update :
    (settleElem group5 (prologue group5 1 0x3F800000) 0x3F000000 0 0x3C300000).1 = 0x3EFF8AAB
    ∧ encodeStochastic .h16 21847 (val32 0x3EFF8AAB) = 0x37FD ∧ encodeStochastic .h16 21848 (val32 0x3EFF8AAB) = 0x37FC := by
  decide +kernel
theorem test_first_average : encodeRne .g16 (val32 (settleElem group5 (prologue group5 1 0x3F800000) 0x3F000000 0 0x3C300000).2)
    = 0x31F2 := by decide +kernel
theorem test_bias_correction : powT 0x3F400000 2 = 0x3F100000 ∧ (prologue group5 2 0x3F800000).hr = 0x40124925 := by decide +kernel

/-- Table 09-6: the test vectors of the lot generator. -/
theorem test_lot_vectors : lotCall 0 0 0 0 = 0x429A59EED50F03DD8322AB090A3A298A
    ∧ lotCall 0 0 0 1 = 0x1CADF3751E364AD42805063C6B13C457
    ∧ lotCall 0x0000000200000001 0x41 7 0 = 0x46995155F218AE875C033C6E4C41FECB
    ∧ lotDraw 0 0 0 0 = 0x298A := by decide +kernel

/-- Chapters 10 and 14, one near-memory address: byte 1,000,000 of near bay 5 is pseudo-channel 116 at 20,975,680. -/
theorem test_near_address : (cellOf (.near 5 1000000)).map (fun c => (c.unit, c.addr)) = some (.near 116, 20975680)
    ∧ parityUnit (.near 116) 20975680 = .near 4 := by decide

/-- Chapter 11, a transfer of 3,145,728 bytes over 16 lanes and 3 hops costs 15,729 + 4,500 ns. -/
theorem test_transfer_cost : transferCost 3145728 16 3 = 20229 := by decide

/-- Chapter 07: token 130, feature 37 of an A-weave lies 270,410 bytes into it. -/
theorem test_a_weave : elemPos (fields [(0, 0), (3, 1), (240, 2), (272, 262144)]) [37, 130] = 2 * 270410 := by decide +kernel

/-- Chapter 02: the costs of the backward leg at 1.8 GHz and at 1.75 GHz. -/
theorem test_fit_costs : clockNs 1800 1476000 = 820000 ∧ clockNs 1800 9000 = 5000 ∧ clockNs 1750 1476000 = 843429
    ∧ clockNs 1750 9000 = 5143 := by decide

/-! ### States of the witnesses -/

/-- Stall 0 composed on link 0 with alternate link 1, watcher link 2 and TEST privilege; the module is READY. -/
def up : State :=
  { (State.reset.modPage 0 fun p => { p with state := 2, comp := { factoryStall with alt := some 1, watchers := 4, test := true } }) with
    power := { state := 2, bringup := 9 }
    pins := { pwrok := true, lasers := true } }

/-- Links 0 and 1 in L0 with an IDE stream. -/
def linked : State :=
  (up.modHost 0 fun h => { h with rate := 1, width := 4, ideIo := true }).modHost 1 fun h => { h with rate := 1, width := 4, ideIo := true }

/-- A message of a link in an inbound post of stall 0. -/
def posted (s : State) (secure : Bool) (n : Fin 24) (l : LinkId) (bs : List Byte) : State :=
  s.modPost 0 secure n fun p => { p with
    full := true, sender := some l, len := BitVec.ofNat 9 bs.length, buf := Vector.ofFn fun k => bs.getD k.val 0, tag := 1 }

/-- Four legs of 10 us: one of FORWARD, the last REDUCE leg, two of SETTLE. -/
def legs4 : List (BitVec 64) :=
  [fields [(0, 10), (20, 1), (24, 1)], fields [(0, 10), (20, 3), (24, 1)], fields [(0, 10), (20, 4), (24, 1)],
    fields [(0, 10), (20, 4), (24, 1)]]

/-- A charter of two members, 0 and 1, with these legs and no entry; member 0 leads and member 1 is deputy. -/
def bare : Charter :=
  { legs := legs4, resource := fields [(0, 0xFFFFFFFF), (32, 0xFF), (40, 0xFF)]
    caravan := fields [(72, 0), (80, 0), (88, 1), (96, 1)] }

/-- Stall 0 with a charter, in a state of its march; its ports are UP. -/
def marched (c : Charter) (m : MarchState) (lead : Bool) : State :=
  (List.finRange 8).foldl (fun s p => (s.modPort p fun x => { x with state := 3 }).modLnk p freshLink)
    ((linked.modCharter 0 fun p => { p with active := some c, loader := 0 }).modMarch 0 fun x => { x with
      state := m, lead := lead, synced := true, num := 7, origin := 1000 })

/-- The next state of a command; the state itself where it stops. -/
def after (c : Instr) (s : State) : State := match exec c s with | .next t => t | _ => s

/-- No unit has failed, no read is repeated and no channel holds writes. -/
def quiet (s : State) : Bool :=
  ((List.finRange 256).all fun p => serves s.tiers (.near p)) && ((List.finRange 24).all fun c => serves s.tiers (.serai c))
    && s.tiers.repeatReads.isEmpty && (List.finRange 24).all fun ch =>
      !(s.tiers.serai.get ch).braceHold && (s.tiers.serai.get ch).buffer.isEmpty && (s.tiers.serai.get ch).waiting.isEmpty

/-- Then every place is plain. -/
theorem plain_of_quiet {s : State} (h : quiet s = true) (p : Place) : Plain s p := by
  intro c _
  simp only [quiet, Bool.and_eq_true, List.all_eq_true, List.mem_finRange, true_implies, Bool.not_eq_true', List.isEmpty_iff] at h
  have serving : serves s.tiers c.unit = true := by
    cases c.unit with
    | near p => exact h.1.1.1 p
    | serai q => exact h.1.1.2 q
  refine ⟨by simp [keepsByte, serving], by simp [rawCell, h.1.2], fun ch _ => ⟨(h.2 ch).1.1, (h.2 ch).1.2, (h.2 ch).2⟩⟩

/-- The places of one near bay share no byte (R281). -/
theorem nearKey_inj {b o o' : Nat} (h : placeKey (.near b o) = placeKey (.near b o')) : o = o' := by
  simp only [placeKey, cellOf, cellKey] at h
  obtain ⟨hu, ha⟩ := (unitKey_inj _ _ _ _).mp h
  simp only [MemUnit.near.injEq, Fin.ext_iff, Fin.ofNat, nearPlace] at hu ha
  have hq : o / 3840 / 16 = o' / 3840 / 16 ∧ o % 256 = o' % 256 := by omega
  have bound (x : Nat) : (if o / 3840 / 16 % 16 ≤ x % 3840 / 256 then x % 3840 / 256 + 1 else x % 3840 / 256) ≤ 15 := by
    split <;> omega
  rw [← hq.1] at hu
  have b1 := bound o
  have b2 := bound o'
  generalize he : (if o / 3840 / 16 % 16 ≤ o % 3840 / 256 then o % 3840 / 256 + 1 else o % 3840 / 256) = m at hu b1
  generalize he' : (if o / 3840 / 16 % 16 ≤ o' % 3840 / 256 then o' % 3840 / 256 + 1 else o' % 3840 / 256) = m' at hu b2
  have hj : o / 3840 % 16 = o' / 3840 % 16 ∧ m = m' := by omega
  have hd : o % 3840 / 256 = o' % 3840 / 256 := by
    rw [hj.2] at he
    split at he <;> split at he' <;> omega
  omega

/-- The bytes from an address up are the plain bytes of near bay 4 from an offset up. -/
def plainRange (s : State) (i : Stall) (lo o n : Nat) : Bool :=
  quiet s && (List.range n).all fun k => s.placeOf i (lo + k) == some (.near 4 (o + k))

theorem plainAt_of_range {s : State} {i : Stall} {lo o n : Nat} {addrs : Nat → Prop} (h : plainRange s i lo o n = true)
    (within : ∀ a, addrs a → lo ≤ a ∧ a < lo + n) : PlainAt s i addrs := by
  simp only [plainRange, List.all_eq_true, List.mem_range, Bool.and_eq_true, beq_iff_eq] at h
  have place (a : Nat) (ha : addrs a) : s.placeOf i a = some (.near 4 (o + (a - lo))) := by
    have w := within a ha
    have := h.2 (a - lo) (by omega)
    rwa [show lo + (a - lo) = a by omega] at this
  refine ⟨fun a ha => ⟨_, place a ha, plain_of_quiet h.1 _⟩, fun a b p q ha hb hp hq hk => ?_⟩
  rw [place a ha] at hp
  rw [place b hb] at hq
  cases hp
  cases hq
  have := nearKey_inj hk
  have wa := within a ha
  have wb := within b hb
  omega

/-- The codes of a list lie within a range of addresses. -/
theorem codeAddrs_within {n lo m : Nat} {l : List (Nat × Nat)} (h : (l.all fun e => decide (lo ≤ e.1) && decide (e.1 + n ≤ lo + m)) = true)
    (a : Nat) (ha : codeAddrs n l a) : lo ≤ a ∧ a < lo + m := by
  obtain ⟨e, he, h1, h2⟩ := ha
  have := List.all_eq_true.mp h e he
  simp only [Bool.and_eq_true, decide_eq_true_eq] at this
  omega

/-! ### Witnesses: the window, links, stalls and posts -/

theorem witness_EveryCommandCompletes : stopOf (.start (.link 0) 0 false) up = none
    ∧ stopOf (.channelSample 0 0x7FFF) up = some (.fault .beyondRatings) ∧ up.pending = [] := ⟨rfl, rfl, rfl⟩

theorem witness_StepKeepsSane : Sane up ∧ (match step up with | .next _ => true | _ => false) = true := by
  unfold Sane; decide +kernel

theorem witness_ResetValues : rcHome (.link 0) (.march 0 0x30) = some (.stall 0 .march) := by decide +kernel

theorem witness_PairsAreWrittenWhole :
    Allowed up (.link 0) (settleOff 0 4) ∧ Allowed up (.link 0) (settleOff 0 8) ∧ writableLow (regOf (settleOff 0 4)) = true
    ∧ writableHigh (regOf (settleOff 0 8)) = true ∧ testBusy up (regOf (settleOff 0 4)) = false ∧ testBusy up (regOf (settleOff 0 8)) = false
    ∧ testBusy (up.modLot 0 fun l => { l with busy := true }) (regOf (lotOff 0 0x10)) = true
    ∧ Allowed (up.modLot 0 fun l => { l with busy := true }) (.link 0) (lotOff 0 0x10) := by
  unfold Allowed; decide +kernel

theorem witness_PairReadsAreConsistent : lowHalf (regOf (marchOff 0 0x10)) = true
    ∧ mayRead up (.link 0) (regOf (marchOff 0 0x10)) = true ∧ mayRead up (.link 0) (regOf (marchOff 0 0x10 + 4)) = true := by
  decide +kernel

theorem witness_CountersClearWhenRead : rcHome (.link 0) (regOf (copyOff 0 0x24)) = some (.engine 0)
    ∧ mayRead up (.link 0) (regOf (copyOff 0 0x24)) = true ∧ rcHome (.link 0) (regOf (coreOff 31 0x214)) = some (.core 31)
    ∧ mayRead up (.link 0) (regOf (coreOff 31 0x214)) = true := by decide +kernel

theorem witness_WrittenOnesClear : Allowed up (.link 0) (marchOff 0 4) ∧ Allowed up (.link 0) (charterOff 0 4)
    ∧ Allowed up (.link 0) (ledgerOff 0 0x40) ∧ Allowed up (.link 0) (tallyOff 0 0xC) ∧ Allowed up (.link 0) (routeOff 7 0)
    ∧ Allowed up (.link 0) (routeOff 7 0x2C) ∧ Allowed up (.link 0) 0xB00004 := by unfold Allowed; decide +kernel

theorem witness_WindowWritesAreGuarded : meetsDebug up (.link 0) (marchOff 0 0x2C) = false ∧ Allowed up (.link 0) (marchOff 0 0x2C)
    ∧ Allowed up (.link 0) (stallOff 0 0x1C) ∧ Allowed up (.link 0) (settleOff 0 0xC)
    ∧ meetsDebug up (.link 3) (marchOff 0 0x2C) = false ∧ writeAccess up (.link 3) (regOf (marchOff 0 0x2C)) = .foreign 0
    ∧ meetsDebug { up with tollgate := { up.tollgate with debugFull := true } } .tollgate 0xF00000 = true := by
  unfold Allowed; decide +kernel

theorem witness_hole : ∃ off : BitVec 26, regOf off = .hole ∧ Allowed up (.link 0) off := by
  unfold Allowed; exact ⟨0x3FFFFFC, by decide +kernel⟩

theorem witness_LinksTrainAndAnswer : mayTrain up 0 = true ∧ inL0 up 0 = false ∧ inL0 linked 0 = true
    ∧ (3 : BitVec 3).toNat ≤ (modeWidth up.tollgate.mode).toNat := by decide +kernel

/-- The alternate's claim of an armed stall whose owner has been silent for 5 ms, with a timeout of 1 ms. -/
def silent : State := { (linked.modPage 0 fun p => { p with armed := true, hbTimeout := 1 }) with time := 5000000 }

theorem witness_LinksTrainAndAnswer_linkLossResetsItsStalls : inL0 linked 0 = true ∧ standbyDue linked = false ∧ (0 : Stall) ∈ ownedBy linked 0
    ∧ passes (linked.modHost 0 downHost) 0 = false ∧ inL0 silent 0 = true ∧ standbyDue silent = false
    ∧ (0 : Stall) ∈ ownedBy silent 0 ∧ passes (silent.modHost 0 downHost) 0 = true := by decide +kernel

theorem witness_StallControl : Allowed up (.link 0) (stallOff 0 4) ∧ (up.stall 0).page.comp.owner.isSome = true := by
  unfold Allowed; decide +kernel

theorem witness_ClaimNeedsSilence :
    let s := posted silent true 2 1 [2];
    let p := (s.stall 0).page;
    hasMessage s 0 true 2 0x02 = true ∧ (s.post 0 true 2).sender = some 1
    ∧ (altLink p = some 1 ∧ p.armed = true ∧ p.hbTimeout ≠ 0 ∧ p.hbLast.toNat + 1000000 * p.hbTimeout.toNat < s.time.toNat)
    ∧ hasMessage (posted linked true 2 1 [2]) 0 true 2 0x02 = true ∧ ((posted linked true 2 1 [2]).stall 0).page.armed = false := by
  decide +kernel

theorem witness_FramesServeOwnersFirst :
    ((([⟨0, 0, 100, false, false⟩] : List FrameRequest).filter fun q => q.resource == 0 && q.stall == 0).map
      fun q => 10 * q.bytes).sum ≤ ownTenths up 0 0 := by decide +kernel

theorem witness_PostsCarryMessages : postExists false 0 = true ∧ outbound false 0 = false
    ∧ Allowed linked (.link 0) (postOff 0 false 0 (4 * 63)) ∧ Allowed linked (.link 0) (postOff 0 false 0 0x100)
    ∧ (linked.stall 0).page.state ≠ 1 ∧ (linked.post 0 false 0).full = false
    ∧ claimedByOther (linked.post 0 false 0) (.link 0) = false ∧ noReceiver false 0 = false ∧ noReceiver true 5 = true
    ∧ ((posted linked false 0 0 [1]).post 0 false 0).full = true
    ∧ Allowed (posted linked false 0 0 [1]) (.link 0) (postOff 0 false 0 0x100) := by
  unfold Allowed; decide +kernel

theorem witness_PostsCarryMessages_outbound : ∃ n : Fin 24, postExists false n = true ∧ outbound false n.val = true
    ∧ Allowed (posted linked false n 0 [7]) (.link 0) (postOff 0 false n 0x100)
    ∧ ((posted linked false n 0 [7]).post 0 false n).full = true ∧ (linked.post 0 false n).full = false := by
  unfold Allowed; exact ⟨20, by decide +kernel⟩

/-! ### Witnesses: exchange buffers, keys, service commands -/

/-- A message with an opcode, a value at byte 4 and what follows. -/
def m8 (op v : Nat) (l : List Byte) : List Byte := [BitVec.ofNat 8 op, 0, 0, 0] ++ leBytes 4 (BitVec.ofNat 32 v) ++ l

theorem witness_ExchangeBuffersHoldBytes :
    let s := posted linked true 2 0 (m8 0xF0 8 [1, 2, 3]);
    hasMessage s 0 true 2 0xF0 = true ∧ 8 ≤ (s.post 0 true 2).len.toNat ∧ msgNat (s.post 0 true 2) 4 4 = 8
    ∧ (msgNat (s.post 0 true 2) 4 4) + ((postBytes (s.post 0 true 2)).drop 8).length ≤ 8192
    ∧ (let r := posted linked true 2 0 (m8 0xF0 6 [1]);
      hasMessage r 0 true 2 0xF0 = true ∧ msgNat (r.post 0 true 2) 4 4 % 4 ≠ 0) := by decide +kernel

theorem witness_ExchangeBuffersHoldBytes_get :
    let s := (posted linked true 2 0 (m8 0xF1 2 [])).setXchg 0 6 ⟨[], [1, 2, 3]⟩;
    hasMessage s 0 true 2 0xF1 = true ∧ xchgKey (s.post 0 true 2) true 2 = 6
    ∧ msgNat (s.post 0 true 2) 4 4 < (s.xchg 0 6).output.length
    ∧ (let r := posted linked true 2 0 (m8 0xF1 2 []);
      hasMessage r 0 true 2 0xF1 = true ∧ (r.xchg 0 6).output.length ≤ msgNat (r.post 0 true 2) 4 4) := by decide +kernel

theorem witness_ExchangeBuffersHoldBytes_recoveryWritesBankOne :
    let s := posted linked false 3 0 (m8 0xF0 4 [1, 2]);
    hasMessage s 0 false 3 0xF0 = true ∧ 8 ≤ (s.post 0 false 3).len.toNat ∧ msgNat (s.post 0 false 3) 4 4 % 4 = 0
    ∧ msgNat (s.post 0 false 3) 4 4 + ((postBytes (s.post 0 false 3)).drop 8).length ≤ 2 ^ 25
    ∧ (postBytes (s.post 0 false 3)).drop 8 ≠ []
    ∧ hasMessage (posted linked false 3 0 [1, 0, 0, 0]) 0 false 3 0x01 = true := by decide +kernel

/-- A complete input of an exchange buffer, with the message that names it. -/
def given (s : State) (secure : Bool) (n : Fin 24) (op : Nat) (x : List Byte) : State :=
  let p := posted s secure n 0 (m8 op x.length []);
  p.setXchg 0 (xchgKey (p.post 0 secure n) secure n.val) ⟨x, []⟩

theorem witness_KeysAndWaybills :
    let s := given linked false 1 1 (List.replicate 1216 7);
    hasMessage s 0 false 1 0x01 = true ∧ (s.post 0 false 1).sender = some 0 ∧ (xchgInput s 0 false 1).2 = true
    ∧ s.tollgate.identityErased = false ∧ (xchgInput s 0 false 1).1.length = 1216
    ∧ (let w := given linked true 1 1 (List.replicate 32 7);
      hasMessage w 0 true 1 0x01 = true ∧ (xchgInput w 0 true 1).2 = true ∧ (xchgInput w 0 true 1).1.length = 32
      ∧ w.tollgate.identityErased = false) := by decide +kernel

/-- The commit with the digest of the agreed key. -/
def committed : State :=
  given (linked.modHost 0 fun h => { h with secret := some 5 }) false 1 2
    (bytes256 (sha3 (bytes256 (5 : BitVec 256) ++ asciiBytes "ZG IDE commit")))

theorem witness_KeysAndWaybills_commit : hasMessage committed 0 false 1 0x02 = true ∧ (committed.post 0 false 1).sender = some 0
    ∧ (committed.host 0).secret = some 5 ∧ (xchgInput committed 0 false 1).2 = true
    ∧ (xchgInput committed 0 false 1).1 = bytes256 (sha3 (bytes256 (5 : BitVec 256) ++ asciiBytes "ZG IDE commit"))
    ∧ (let w := given (linked.modHost 0 fun h => { h with secret := some 5 }) false 1 2 (List.replicate 32 0);
      (xchgInput w 0 false 1).2 = true
      ∧ (xchgInput w 0 false 1).1 ≠ bytes256 (sha3 (bytes256 (5 : BitVec 256) ++ asciiBytes "ZG IDE commit"))) := by
  decide +kernel

/-- A signed command with its body (Table 15-6), signed with one byte and 2,419 zeros. -/
def signedBytes (cmd key : Nat) (body : List Byte) : List Byte :=
  [BitVec.ofNat 8 cmd, BitVec.ofNat 8 key, 0, 0] ++ leBytes 4 (5 : BitVec 32) ++ List.replicate 8 0
    ++ leBytes 4 (BitVec.ofNat 32 body.length) ++ List.replicate 12 0 ++ body
    ++ List.replicate ((if 0x80 ≤ key then 1312 else 0) + 2420) 0
def keyed (s : State) : State := { s with tollgate := { s.tollgate with keys := s.tollgate.keys.set 0 [1, 2, 3] } }
def service (s : State) (cmd key : Nat) (body : List Byte) : State := given (keyed s) true 2 1 (signedBytes cmd key body)
/-- What passes the checks of R408. -/
theorem signed_passes {g : Tollgate} {c : Signed} {who : Signer} {pk : List Byte} (key : signerKey g c = some pk)
    (allowed : signerAllowed g c who = true) (verified : Config.mldsaVerify pk (bytes256 (sha3 (c.header ++ c.body))) c.sig = true)
    (tag : c.target = identityTag) (fresh : g.counter.toNat < c.counter.toNat) : signedCode g c who = 0 := by
  simp [signedCode, key, allowed, verified, tag, Nat.not_le.mpr fresh]

/-- A signed command waits with this body, and its checks pass once its signature verifies and its target is this
module (`signed_passes`; these, and a vendor key, are values of Config). -/
def servable (s : State) (cmd : Nat) (body : List Byte) (who : Signer) : Bool :=
  hasMessage s 0 true 2 0x01 && (xchgInput s 0 true 2).2 && match readSigned (xchgInput s 0 true 2).1 with
    | some c => c.cmd == cmd && c.body == body && (decide (0x80 ≤ c.key) || (signerKey s.tollgate c).isSome) && signerAllowed s.tollgate c who
        && decide (s.tollgate.counter.toNat < c.counter.toNat)
    | none => false

/-- A composition: mode 0, links 0 to 7 of stall 0 with TEST; the other stalls absent. -/
def composed : List Byte := leBytes 8 (0 : BitVec 64) ++ leBytes 16 (fields [(3, 7), (10, 0xFF), (74, 4)] : BitVec 128)
  ++ (List.range 7).flatMap fun _ => leBytes 16 (fields [(0, 7), (3, 7)] : BitVec 128)

theorem witness_ServiceChecksComeFirst : servable (service linked 0x11 0 []) 0x11 [] .owner0 = true
    ∧ (service linked 0x11 9 []).tollgate.counter = 0
    ∧ ((readSigned (xchgInput (service linked 0x11 9 []) 0 true 2).1).map fun c =>
      signedCode (service linked 0x11 9 []).tollgate c .owner0) = some 0x0703 := by decide +kernel

theorem witness_ServiceCommandsAct :
    (servable (service linked 0x10 0 composed) 0x10 composed .owner0 = true ∧ (readCompose composed).isSome = true
      ∧ ∀ k, ((service linked 0x10 0 composed).stall k).page.state ≠ 1)
    ∧ (servable (service linked 0x10 0 (5 :: composed.drop 1)) 0x10 (5 :: composed.drop 1) .owner0 = true
      ∧ readCompose (5 :: composed.drop 1) = none) := by decide +kernel

def retiredOne : State := { linked with log := { linked.log with retired := [⟨1, 3, 5, 0, false⟩, ⟨2, 3, 5, 0, false⟩] } }
theorem witness_ServiceCommandsAct_lists :
    servable (service retiredOne 0x12 0 [1, 0, 0, 0, 1, 0, 3, 0]) 0x12 [1, 0, 0, 0, 1, 0, 3, 0] .owner0 = true
    ∧ readClear [1, 0, 0, 0, 1, 0, 3, 0] = some [(1, 3)]
    ∧ servable (service linked 0x16 0 [0]) 0x16 [0] .owner0 = true ∧ ofLe [(0 : Byte)] ≤ linked.tollgate.svn.toNat
    ∧ servable (service linked 0x16 0 [5]) 0x16 [5] .owner0 = true ∧ linked.tollgate.svn.toNat < ofLe [(5 : Byte)]
    ∧ servable (service linked 0x17 0 []) 0x17 [] .owner0 = true ∧ (linked.stall 0).page.comp.test = true
    ∧ servable (service linked 0x18 0x80 []) 0x18 [] .vendor = true
    ∧ servable (service linked 0x19 0 [2, 0, 5, 1]) 0x19 [2, 0, 5, 1] .owner0 = true
    ∧ servable (service linked 0x19 0 [31, 0, 5, 1]) 0x19 [31, 0, 5, 1] .owner0 = true
    ∧ servable (service linked 0x1A 0 [100, 110, 45, 0]) 0x1A [100, 110, 45, 0] .owner0 = true := by decide +kernel

theorem witness_ServiceCommandsAct_keys :
    let body : List Byte := [3] ++ List.replicate 7 0 ++ List.replicate 1312 5;
    servable (service linked 0x13 0 body) 0x13 body .enrol = true ∧ leAt body 0 1 = (3 : Fin 16).val ∧ zeroAt body 1 7 = true
    ∧ servable (service linked 0x14 0 [0]) 0x14 [0] .revoke = true := by decide +kernel

/-- Stall 0 with a near-memory region of 1 MiB at 0x1000 that the host sees. -/
def regioned : State := linked.modCustoms 0 fun c => { c with
  regions := [(0, { valid := true, tier := 1, perm := 15, va := 0x1000, size := 0x100000, place := 4 })] }
theorem witness_ServiceCommandsAct_image :
    let body := leBytes 8 (0x1000 : BitVec 64) ++ leBytes 8 (64 : BitVec 64);
    servable (service regioned 0x15 0 body) 0x15 body .owner0 = true
    ∧ tollgateDenied (service regioned 0x15 0 body) 0 (leAt body 0 8) (leAt body 8 8) = none := by decide +kernel

/-! ### Witnesses: resets, starts, power -/

theorem witness_ResetsClearTheModule : linked.power.tripLatch = false
    ∧ ({ linked with power := { linked.power with tripLatch := true } }).power.tripLatch = true
    ∧ (let s := { linked with power := { linked.power with state := 1, bringup := 3 }, starts := { linked.starts with fails := 2 } };
      s.power.state = 1 ∧ s.power.bringup ≠ 0 ∧ s.starts.fails ≠ 0 ∧ s.starts.fails ≠ 3 ∧ s.starts.waitImage = false) := by
  decide +kernel

/-- A start under way. -/
def begun : State := { State.reset with power := { State.reset.power with state := 1 }, pins := { State.reset.pins with pwrok := true } }

theorem witness_StartsAndStraps : State.reset.pins.pwrok = false ∧ State.reset.power.aux = true ∧ starting begun = true
    ∧ begun.pins.pwrok = true ∧ begun.power.tripLatch = false ∧ begun.power.waking = false := by decide +kernel

def report0 : BringupReport :=
  { banksValid := [0], failedCores := [], failedUnits := [], linksUp := [0], links256 := [0], links64 := [], interlock := true }
theorem witness_BringupReachesReady : starting begun = true ∧ begun.pins.perstN = true ∧ begun.starts.fails ≠ 3
    ∧ begun.starts.bootsrc ≠ 3 ∧ startBank begun report0.banksValid = some false ∧ report0.failedUnits = [] ∧ begun.log.retired = []
    ∧ startBank begun [] = none ∧ waitsForImage begun { report0 with banksValid := [] } = false := by decide +kernel

theorem witness_ChannelsAreFilteredAndJudged : beyondTable 0 0x7FFF = true ∧ beyondTable 0 6500 = false
    ∧ beyondTable 48 3961 = false ∧ linked.power.aux = true := by decide +kernel

/-- Core 0 throttled to 900 MHz and capped to 950 MHz, its last step at 50 ms. -/
def slowed (s : State) : State := s.modCore 0 fun c => { c with thrClock := 18, capClock := 19, clock := 18, stepAt := 50000000 }
def hot (s : State) : State := { s with power := { s.power with hotFlags := s.power.hotFlags.set 59 true } }
def capped (s : State) : State := { s with power := { s.power with capped := true } }
theorem witness_ClocksFollowTheLimits : linked.power.thermalHalt = false ∧ (linked.core 0).thrClock.toNat ≤ 36
    ∧ (linked.core 0).capClock.toNat ≤ 36 ∧ ((slowed linked).core 0).thrClock.toNat ≤ 36 ∧ ((slowed linked).core 0).capClock.toNat ≤ 36
    ∧ coreHot (hot linked) 0 = true ∧ coreHot linked 0 = false ∧ (capped linked).power.capped = true
    ∧ linked.power.capped = false ∧ linked.power.limited = false
    ∧ ({ linked with power := { linked.power with capSince := some 100 } }).power.capSince = some 100 := by decide +kernel

def braced (s : State) : State := { s with power := { s.power with brace := true, braceAt := 500 } }
theorem witness_BraceHoldsWrites : linked.power.brace = false ∧ linked.power.state = 2 ∧ (braced linked).power.brace = true
    ∧ (let s := braced (marched bare .legs true);
      s.power.brace = true ∧ s.power.supplyDone = false ∧ (0 : Stall) ∈ presentStalls s ∧ (s.stall 0).march.state = .legs
      ∧ (s.stall 0).seq.haltKnown = false) := by decide +kernel

def standby : State := { linked with power := { linked.power with
  state := 4, standbyAt := 1000, wake := (linked.power.wake.set 0 5).set 1 7 } }
theorem witness_PowerStatesFollowVotes : Allowed linked (.link 0) (voteOff 0) ∧ fld (0x50002 : Word) 0 2 ≠ 3 ∧ linked.power.state = 2
    ∧ standby.power.state = 4 ∧ standby.power.wake.get 0 ≠ 0
    ∧ (∀ j, standby.power.wake.get j = 0 ∨ (standby.power.wake.get 0).toNat ≤ (standby.power.wake.get j).toNat) := by
  unfold Allowed; decide +kernel

/-! ### Witnesses: marches and verdicts -/

def seqed (s : State) (f : Sequencer → Sequencer) : State := s.modSeq 0 f
def mar (s : State) (f : March → March) : State := s.modMarch 0 f
def led (s : State) (f : Ledger → Ledger) : State := s.modLedger 0 f
def plain0 (m : MarchState) (lead : Bool) : State := marched bare m lead
/-- Caravan `ix` of a federation of two; member 0 of each caravan leads it. -/
def federal (ix : Nat) : Charter :=
  { bare with
    caravan := fields [(64, ix), (70, 1), (72, 0), (80, 0), (88, 1), (96, 1)]
    fed := [fields [(6, 1), (19, 6), (29, 7)]] }
def fed0 (ix : Nat) (m : MarchState) : State := marched (federal ix) m true
def word (m : Member) (causes : BitVec 13) : VerdictWord := ⟨m, causes, 0x0201, 1, 0, 0x3F800000, false, [], 0x7F, 0, none, none⟩
def farWord (k : BitVec 6) (causes : BitVec 13) : FederationWord := ⟨k, causes, 6, 0x0201, 3, 1, 0, {}, [], []⟩
def verdictOf (k : BitVec 4) : CaravanVerdict := ⟨k, 0x0201, 1, 0x40, 7, 0, 0⟩

theorem witness_TimebasesFollowTheLead :
    ((plain0 .legs true).stall 0).charter.active = some bare ∧ furtherLead ((plain0 .legs true).stall 0) = false
    ∧ ((plain0 .legs true).stall 0).march.lead = true ∧ ((plain0 .legs false).stall 0).march.lead = false
    ∧ furtherLead ((fed0 1 .legs).stall 0) = true ∧ marching ((plain0 .legs false).stall 0) = true
    ∧ (∀ j, marching ((plain0 .ready false).stall j) = false)
    ∧ ((((plain0 .ready false).time.toNat + 1500 : Int) + ((plain0 .ready false).port 0).delay.toNat)
        - (plain0 .ready false).time.toNat).natAbs > 1000
    ∧ ((plain0 .legs false).stall 0).sync.outOfStep = false
    ∧ (let d := mar (plain0 .legs false) fun x => { x with member := 1, deputy := true };
      (d.stall 0).march.lead = false ∧ (d.stall 0).march.deputy = true ∧ (d.stall 0).seq.finished = false) := by decide +kernel

theorem witness_MembersActOnTheVerdict_haltsReachEveryMember : ((plain0 .legs true).stall 0).march.state = .legs ∧ ((plain0 .legs true).stall 0).march.lead = true
    ∧ isFenced ((plain0 .legs true).stall 0) 1 = false ∧ Allowed (plain0 .legs true) (.link 0) (marchOff 0 0) := by
  unfold Allowed; decide +kernel

/-- The token audit, the engines and the posts of a marching stall agree. -/
theorem audits_plain0 : AuditsAgree (plain0 .legs false) 0 := by unfold AuditsAgree; decide +kernel

/-- A charter with one transfer in leg 0. -/
def sending : Charter := { bare with sends := [{ raw := fields [(0, 1), (64, 300)], sched := { leg := 0 } }] }

theorem witness_MarchesRunOnTicks : ((plain0 .legs false).stall 0).charter.active = some bare
    ∧ ((plain0 .legs false).stall 0).seq.left = false ∧ AuditsAgree (plain0 .legs false) 0
    ∧ (let t := (seqed (plain0 .armed false) fun q => { q with repeatAt := some 1000 }).stall 0;
      t.march.state = .armed ∧ t.seq.repeatAt.isSome = true ∧ t.charter.swapAt ≠ some t.march.origin ∧ t.ledger.forgetPending = false)
    ∧ (let t := (plain0 .legs false).stall 0;
      t.march.state = .legs ∧ t.march.leg.toNat < bare.legs.length
      ∧ (∀ r ∈ t.ledger.runs, bkDeadline (bare.bucket r.bucket.toNat) = t.march.leg.toNat → r.complete = true)
      ∧ ¬(t.seq.haltKnown = true ∨ t.sync.outOfStep = true) ∧ t.seq.stopped = false ∧ t.march.leg.toNat ≠ bare.lastReduce
      ∧ (∀ e ∈ marchEntries t bare 0, unfinishedAt t (endTick t bare 0) e = false) ∧ selfFenced t = false)
    ∧ (let t := (marched sending .legs false).stall 0;
      ∃ e ∈ marchEntries t sending 0, unfinishedAt t (endTick t sending 0) e = true) := by
  refine ⟨by decide +kernel, by decide +kernel, audits_plain0, ?_⟩; decide +kernel

theorem witness_MarchesRunOnTicks_ends :
    (let s := mar (plain0 .legs false) (fun m => { m with leg := 1 });
      AuditsAgree s 0 ∧ (s.stall 0).march.leg.toNat = bare.lastReduce ∧ (s.stall 0).march.lead = false)
    ∧ (let s := mar (plain0 .settle false) (fun m => { m with leg := 2 });
      AuditsAgree s 0 ∧ ticking (s.stall 0) = true ∧ (s.stall 0).march.leg.toNat + 1 < bare.legs.length)
    ∧ (let s := mar (plain0 .settle false) (fun m => { m with leg := 3 });
      AuditsAgree s 0 ∧ (s.stall 0).seq.ended = false ∧ (s.stall 0).march.leg.toNat + 1 = bare.legs.length
      ∧ (s.stall 0).seq.finished = false ∧ (∀ n < bare.legs.length, ∀ e ∈ marchEntries (s.stall 0) bare n, isDone (s.stall 0) e = true)) := by
  unfold AuditsAgree; decide +kernel

theorem witness_HighestCauseWins :
    let reports : List Report := [⟨1, 0x40, 0x20B, 1⟩, ⟨0, 0x40, 0x20C, 1⟩];
    let v := combine reports [] 1 0 0 0 0 0 0 4;
    (∃ r ∈ reports, bit r.causes v.code.toNat = true) ∧ v.code ≠ 12 ∧ (∀ r ∈ reports, r.step = 1) ∧ v.causes ≠ 0
    ∧ repeats v.code = true ∧ v.source = 0 := by decide

theorem witness_VerdictsAreFormedAtTheLead :
    ((plain0 .legs true).stall 0).march.lead = true ∧ ((plain0 .legs true).stall 0).seq.sentVerdict = false
    ∧ isFenced ((plain0 .verdict true).stall 0) 1 = false ∧ bare.federated = false
    ∧ (∃ m ∈ liveMembers ((plain0 .verdict true).stall 0) bare, ∀ x ∈ [word 1 0], x.member ≠ m)
    ∧ (let s := seqed (plain0 .verdict true) fun q => { q with words := [word 0 0] };
      ∀ m ∈ liveMembers (s.stall 0) bare,
        ∃ x ∈ ((s.stall 0).seq.words.filter fun x => x.member != (word 1 0).member) ++ [word 1 0], x.member = m)
    ∧ ((liveMembers ((plain0 .verdict true).stall 0) bare).filter fun m =>
      !((plain0 .verdict true).stall 0).seq.words.any fun w => w.member == m) ≠ [] := by decide +kernel

theorem witness_VerdictsAreFormedAtTheLead_federal :
    (federal 1).federated = true ∧ (federal 1).caravanIx ≠ 0 ∧ (federal 0).federated = true ∧ (federal 0).caravanIx = 0
    ∧ ((fed0 1 .verdict).stall 0).charter.active = some (federal 1)
    ∧ (let s := seqed (fed0 1 .verdict) fun q => { q with words := [word 0 0] };
      ∀ m ∈ liveMembers (s.stall 0) (federal 1),
        ∃ x ∈ ((s.stall 0).seq.words.filter fun x => x.member != (word 1 0).member) ++ [word 1 0], x.member = m)
    ∧ (let s := seqed (fed0 0 .verdict) fun q => { q with words := [word 0 0, word 1 0], verdictTick := 5000 };
      ((liveMembers (s.stall 0) (federal 0)).filter fun m => !(s.stall 0).seq.words.any fun x => x.member == m) = []
      ∧ (∀ k ∈ otherCaravans (federal 0),
          ∃ x ∈ ((s.stall 0).seq.fedWords.filter fun x => x.caravan != (farWord 1 0).caravan) ++ [farWord 1 0], x.caravan = k)
      ∧ ((otherCaravans (federal 0)).filter fun k => !(s.stall 0).seq.fedWords.any fun w => w.caravan == k) ≠ []) := by
  decide +kernel

/-- A stall held since its verdict did not come, with the record of a march in which all was clear. -/
def undecided (lead : Bool) : State :=
  (mar (seqed (plain0 .held lead) fun q => { q with hold := 0x0208, verdictTick := 77 }) fun m => { m with
    leg := 2, verdict := { m.verdict with reason := 0x0208 } }).modSettle 0 fun x => { x with
      state := 4, record := some ⟨7, verdictOf 1, 0, 1⟩ }

theorem witness_MembersActOnTheVerdict :
    ((plain0 .verdict false).stall 0).march.state = .verdict ∧ ((plain0 .verdict false).stall 0).march.lead = false
    ∧ selfFenced ((plain0 .verdict false).stall 0) = false ∧ furtherLead ((fed0 1 .verdict).stall 0) = true
    ∧ selfFenced ((led (plain0 .verdict false) fun l => { l with fences := 1 }).stall 0) = true
    ∧ heldFor ((undecided false).stall 0) 0x0208 = true ∧ ((undecided false).stall 0).march.lead = false
    ∧ ((undecided true).stall 0).march.lead = true ∧ ((undecided true).stall 0).settle.record.isSome = true
    ∧ isFenced ((plain0 .settle true).stall 0) 1 = false ∧ ((plain0 .settle true).stall 0).settle.settledWords.contains 1 = false
    ∧ ((plain0 .settle true).stall 0).seq.finished = false := by decide +kernel

def heldWith (code : BitVec 4) : State :=
  mar (seqed (plain0 .held true) fun q => { q with hold := 0, waiting := [] }) fun m => { m with verdict := { m.verdict with code := code } }
def assembled (s : State) : State := s.modCharter 0 fun p => { p with assembled := true }

theorem witness_HostCommandsMoveTheMarch : Allowed (plain0 .ready true) (.link 0) (marchOff 0 0)
    ∧ ((plain0 .ready true).stall 0).charter.active = some bare ∧ ((plain0 .ready false).stall 0).march.lead = false
    ∧ ((plain0 .ready true).stall 0).march.lead = true ∧ ((assembled (plain0 .ready true)).stall 0).charter.assembled = true
    ∧ ((plain0 .ready true).stall 0).charter.assembled = false ∧ missingWords ((plain0 .ready true).stall 0) bare ≠ []
    ∧ ((heldWith 9).stall 0).march.state = .held ∧ ((heldWith 9).stall 0).seq.hold = 0 ∧ ((heldWith 9).stall 0).seq.waiting = []
    ∧ ((heldWith 12).stall 0).march.verdict.code = 12 ∧ ((seqed (heldWith 0) fun q => { q with hold := 0x0210 }).stall 0).seq.hold = 0x0210
    ∧ ((heldWith 2).stall 0).march.hostDecision = 0 ∧ ((heldWith 2).stall 0).seq.ended = false
    ∧ ((heldWith 10).stall 0).march.verdict.code = 10
    ∧ (let t := (seqed (plain0 .legs true) fun q => { q with continuous := true }).stall 0;
      t.march.state ≠ .empty ∧ t.march.state ≠ .ready ∧ t.seq.continuous = true) := by
  unfold Allowed; decide +kernel

def pended (s : State) : State := s.modCharter 0 fun p => { p with pending := some { bare with seq := 9 } }

theorem witness_RelayedCommandsAct : ((plain0 .ready false).stall 0).march.lead = false ∧ ((plain0 .held false).stall 0).march.hostDecision ≠ 2
    ∧ ((mar (plain0 .held false) fun m => { m with hostDecision := 2 }).stall 0).march.hostDecision = 2
    ∧ ((plain0 .armed false).stall 0).march.state = .armed ∧ ((pended (plain0 .armed false)).stall 0).march.state = .armed
    ∧ ((pended (plain0 .ready false)).stall 0).charter.pending = some { bare with seq := 9 }
    ∧ ((pended (plain0 .ready false)).stall 0).march.state = .ready ∧ ((plain0 .legs false).stall 0).march.state = .legs
    ∧ (let t := (mar (seqed (plain0 .held false) fun q => { q with hold := 0 }) fun m => { m with
        verdict := { m.verdict with code := 10 } }).stall 0;
      t.march.state = .held ∧ t.seq.hold = 0 ∧ t.march.verdict.code = 10)
    ∧ (0 : BitVec 6) = bare.caravanIx ∧ (1 : BitVec 6) ≠ bare.caravanIx := by decide +kernel

/-- A charter with a copy for each engine in leg 0 and two settlement entries in leg 2. -/
def working : Charter := { bare with
  copies := (List.range 8).map fun _ => ({ entries := [{ leg := 0 }], descs := [0], shapes := [] } : CopyList)
  settle := [{ raw := fields [(32, 4)], sched := { leg := 2 } }, { raw := fields [(32, 4)], sched := { leg := 2 } }] }
def worked (m : MarchState) (lead : Bool) (leg : BitVec 8) (ran done : List EntryRef) : State :=
  mar (seqed (marched working m lead) fun q => { q with ran := ran, done := done.map fun r => ⟨r, 5⟩, settles := true }) fun m => { m with
    leg := leg }
def moving : State := (worked .legs false 0 [.copy 0 0] []).modEngine 0 fun e => { e with state := 3 }

theorem witness_WorkCompletesAndMayBeLate :
    (moving.stall 0).charter.active = some working ∧ completable moving 0 (.copy 0 0) = true ∧ (moving.stall 0).march.state = .legs
    ∧ (∀ x, working.sched (.copy 0 0) = some x → x.leg.toNat ≤ working.lastReduce)
    ∧ (let s := worked .settle false 2 [.settle 0, .settle 1] [.settle 0];
      completable s 0 (.settle 1) = true ∧ (s.stall 0).march.state = .settle ∧ (s.stall 0).seq.ended = false
      ∧ (∀ k < working.settle.length, k = 1 ∨ isDone (s.stall 0) (.settle k) = true) ∧ (s.stall 0).settle.settled = false
      ∧ (s.stall 0).march.lead = false)
    ∧ (let t := (plain0 .armed true).stall 0;
      t.march.state = .armed ∧ t.march.origin.toNat < toMicro ((123456 : BitVec 64).toNat + 10000)) := by decide +kernel

/-- Member 64 in march 7, the standby of member 1, its mirror current to a march. -/
def standing (m : MarchState) (through : BitVec 40) : State :=
  (mar (seqed (marched working m false) fun q => { q with settles := true }) fun x => { x with member := 64, num := 7 }).modService 0 fun v => { v with
    mirrorMember := 1, mirrorCurrent := true, mirrorMarch := through }

theorem witness_RelayedCommandsAct_fence :
    (plain0 .verdict false).power.brace = false ∧ (plain0 .verdict false).power.thermalHalt = false
    ∧ ((plain0 .verdict false).stall 0).march.state = .verdict ∧ ((plain0 .waitRepeat false).stall 0).march.state = .waitRepeat
    ∧ ((plain0 .legs false).stall 0).march.member.toNat < 64
    ∧ (let t := (standing .settle 8).stall 0;
      t.march.lead = false ∧ t.march.state = .settle ∧ 64 ≤ t.march.member.toNat ∧ t.settle.settled = false
      ∧ (mirrorSettled t).isSome = true) := by decide +kernel

/-- The standby's word at the end of a march: member 64 mirrors member 1 of march 7. -/
def mirrored : VerdictWord := { word 64 0 with mirrorOf := 1, mirrorMarch := 7 }
def unsettled : State := seqed (worked .settle true 2 [] []) fun q => { q with words := [mirrored] }

theorem witness_WorkCompletesAndMayBeLate_unconfirmed :
    (1 : Member) ∈ settlingMembers (unsettled.stall 0) working ∧ (unsettled.stall 0).settle.settledWords.contains 1 = false
    ∧ (unsettled.stall 0).settle.requests.contains 1 = false ∧ (standbyFor (unsettled.stall 0) 1).isSome = true
    ∧ (unsettled.stall 0).seq.finished = false ∧ (unsettled.stall 0).seq.settles = true
    ∧ (let s := seqed (worked .settle true 2 [] []) fun q => { q with finished := true };
      (1 : Member) ∈ settlingMembers (s.stall 0) working ∧ standbyFor (s.stall 0) 1 = none ∧ (s.stall 0).seq.finished = true) := by
  decide +kernel

def lacking (f : Sequencer → Sequencer) : State := seqed (plain0 .waitRepeat true) fun q => f { q with verdictTick := 5000, repeatAt := none }

theorem witness_MissingMembersAreReplaced : ((lacking id).stall 0).march.lead = true ∧ ((lacking id).stall 0).march.state = .waitRepeat
    ∧ isFenced ((lacking id).stall 0) 1 = false ∧ ((lacking id).stall 0).seq.repeatAt = none
    ∧ (∀ x ∈ ((lacking fun q => { q with waiting := [1] }).stall 0).seq.waiting, x = 1)
    ∧ (∃ x ∈ ((lacking fun q => { q with waiting := [0, 1] }).stall 0).seq.waiting, x ≠ 1)
    ∧ (let t := (lacking fun q => { q with missing := [(1, 0x20C)], waiting := [1], words := [mirrored] }).stall 0;
      missingPeers t = [1] ∧ (standbyFor t 1).isSome = true)
    ∧ (let t := (lacking fun q => { q with missing := [(1, 0x207)], waiting := [1] }).stall 0;
      missingPeers t = [1] ∧ standbyFor t 1 = none) := by decide +kernel

/-! ### Witnesses: the engines of the cores -/

/-- Near bay 4 from offset 0x1000 at address 0x1000, and bay 6 at 0x3000 for the host to see. -/
def mapped (s : State) : State := s.modCustoms 0 fun c => { c with
  regions := [(0, { valid := true, tier := 1, perm := 3, va := 0x1000, size := 0x2000, place := 4 }),
    (1, { valid := true, tier := 1, perm := 15, va := 0x3000, size := 0x1000, place := 6 })] }
/-- A two-dimensional strided tensor: format, base, lengths and strides. -/
def tensorOf (f base n0 n1 s0 s1 : Nat) : BitVec 512 :=
  fields [(0, f), (14, 2), (32, base), (96, n0), (120, n1), (144, 1), (168, 1), (192, 1), (216, 1), (240, s0), (272, s1)]
def tensors : List (BitVec 512) :=
  [tensorOf 0 0x1000 8 8 2 16, tensorOf 0 0x1080 8 8 2 16, tensorOf 2 0x1100 8 8 4 32, tensorOf 2 0x3000 8 8 4 32]
def entryOf (d : BitVec 512) (mask : List Bool) : StreamEntry := { desc := d, sched := { leg := 0 }, mask := mask }
def charterOf (es : List StreamEntry) : Charter := { bare with tensors := tensors, streams := [es] }
def coreRuns (es : List StreamEntry) : State := mapped (marched (charterOf es) .legs true)
/-- The entry at the head of core 0's stream is due. -/
def isDue (es : List StreamEntry) (op : Nat) : Bool :=
  match es with
  | e :: _ => dueStream (coreRuns es) 0 0 [op] == some (0, charterOf es, e)
  | [] => false

theorem sane_runs : Sane (coreRuns []) := by unfold Sane; decide +kernel

/-- A tile-op of 2 rows, 3 columns and K = 4 (Table 04-2). -/
def mm (l : List (Nat × Nat)) (c : Nat) : BitVec 512 := fields ([(0, 0x10), (18, 2), (32, 2), (48, 3), (64, 4), (128, 0x1000),
  (192, 0x1080), (256, c), (320, 16), (352, 16), (384, 32), (464, 0), (480, 1), (496, 2)] ++ l)
theorem witness_DenseTileOpsMultiply : Sane (coreRuns [entryOf (mm [] 0x1100) []]) ∧ isDue [entryOf (mm [] 0x1100) []] 0x10 = true
    ∧ mmEmpty (mm [] 0x1100) = false ∧ mmPasses (entryOf (mm [] 0x1100) []) ≠ 0
    ∧ isDue [entryOf (mm [(11, 1)] 0x1100) [true, false]] 0x10 = true ∧ mmPreserve (mm [(9, 1), (11, 1)] 0x1100) = true
    ∧ mmEmpty (fields [(0, 0x10), (48, 3), (64, 4)]) = true ∧ isDue [entryOf (fields [(0, 0x10), (48, 3), (64, 4)]) []] 0x10 = true := by
  unfold Sane; decide +kernel
theorem witness_DenseTileOpsMultiply_stores :
    let d := mm [] 0x1100
    let l := (mmElements d).map fun rn => (mmDest d .f32 rn.1 rn.2, 0)
    PlainAt (coreRuns [entryOf d []]) 0 (codeAddrs 4 l) ∧ l.Pairwise (fun x y => x.1 + 4 ≤ y.1 ∨ y.1 + 4 ≤ x.1) :=
  ⟨plainAt_of_range (lo := 0x1100) (o := 0x100) (n := 64) (by decide +kernel) (codeAddrs_within (by decide +kernel)), by decide +kernel⟩

/-- A gather-merge entry of 3 rows, 2 columns and K = 4 (Table 05-3). -/
def gm (op ta c : Nat) : BitVec 512 := fields [(0, op), (17, 2), (32, 2), (48, 3), (64, 4), (128, 0x1000), (192, 0x1080), (256, c),
  (320, 16), (352, 16), (384, 32), (416, 0x1400), (464, ta), (480, 1), (496, 2)]
theorem witness_SparseProductsFollowTheReference : Sane (coreRuns [entryOf (gm 0x20 5 0x1100) []])
    ∧ isDue [entryOf (gm 0x20 5 0x1100) []] 0x20 = true ∧ isDue [entryOf (gm 0x21 0 0x1100) []] 0x21 = true
    ∧ ¬(gmRows (gm 0x20 5 0x1100) = 0 ∨ gmCols (gm 0x20 5 0x1100) = 0 ∨ gmKLen (gm 0x20 5 0x1100) = 0)
    ∧ gmRows (fields [(0, 0x20)]) = 0 ∧ isDue [entryOf (fields [(0, 0x20)]) []] 0x20 = true := by unfold Sane; decide +kernel
theorem witness_SparseProductsFollowTheReference_stores :
    let d := gm 0x21 0 0x1100
    let l := ((List.range (gmRows d)).flatMap fun r => (List.range (gmCols d)).map fun n => (r, n)).map fun x => (gmDest d .f32 x.1 x.2, 0)
    PlainAt (coreRuns [entryOf d []]) 0 (codeAddrs 4 l) ∧ l.Pairwise (fun x y => x.1 + 4 ≤ y.1 ∨ y.1 + 4 ≤ x.1) :=
  ⟨plainAt_of_range (lo := 0x1100) (o := 0x100) (n := 96) (by decide +kernel) (codeAddrs_within (by decide +kernel)), by decide +kernel⟩

/-- A dispatch of 4 tokens with 2 choices to 3 destinations of 2 slots, 4 features each (Table 05-6). -/
def dp (op : Nat) (l : List (Nat × Nat)) : BitVec 512 := fields ([(0, op), (16, 2), (32, 4), (64, 3), (80, 3), (96, 2), (112, 4),
  (128, 0x1000), (192, 0x1300), (256, 0x1100), (320, 0x1180), (384, 0x1020), (464, 0), (480, 2)] ++ l)
theorem witness_RoutersServeTheirRanks : Sane (coreRuns [entryOf (dp 0x22 []) []]) ∧ isDue [entryOf (dp 0x22 []) []] 0x22 = true
    ∧ dpSpill (dp 0x22 []) = false ∧ dpMain (dp 0x22 []) ≤ dpSlots (dp 0x22 []) ∧ dpEmpty (dp 0x22 []) = false
    ∧ isDue [entryOf (dp 0x22 [(9, 1)]) []] 0x22 = true ∧ dpSpill (dp 0x22 [(9, 1)]) = true
    ∧ isDue [entryOf (dp 0x23 []) []] 0x23 = true ∧ dpEmpty (fields [(0, 0x22)]) = true
    ∧ ranked overflowing 3 1 0 = true ∧ ranked overflowing 3 1 1 = true
    ∧ (coreRuns [entryOf (dp 0x23 []) []]).waits (.core 0) = false := by unfold Sane; decide +kernel
theorem witness_RoutersServeTheirRanks_stores :
    let d := dp 0x22 []
    let slots (a : Nat) : Prop := dpDst d ≤ a ∧ a < dpDst d + dpDests d * dpSlots d * dpRowBytes d
    let lists (a : Nat) : Prop := dpVerdict d ≤ a ∧ a < dpVerdict d + 8 * dpCount d + 4 * dpDests d
    PlainAt (coreRuns [entryOf d []]) 0 (fun a => slots a ∨ lists a) ∧ ∀ a, ¬(slots a ∧ lists a) := by
  have e : dpDst (dp 0x22 []) = 0x1100 ∧ dpDests (dp 0x22 []) * dpSlots (dp 0x22 []) * dpRowBytes (dp 0x22 []) = 72
      ∧ dpVerdict (dp 0x22 []) = 0x1180 ∧ 8 * dpCount (dp 0x22 []) = 64 ∧ 4 * dpDests (dp 0x22 []) = 12 := by decide +kernel
  simp only [e]
  exact ⟨plainAt_of_range (lo := 0x1100) (o := 0x100) (n := 256) (by decide +kernel) (fun a h => by omega), fun a h => by omega⟩
/-- A verdict list whose first entry is deferred into a spill slot, and one that is served alone for its token. -/
def verdictsAt (l : List (BitVec 64)) : State :=
  (l.zipIdx.flatMap fun e => (leBytes 8 e.1).zipIdx.map fun b => (0x1180 + 8 * e.2 + b.2, b.1)).foldl
    (fun s e => s.writeVa 0 e.1 e.2) (coreRuns [entryOf (dp 0x22 [(9, 1)]) []])
theorem witness_RoutersServeTheirRanks_spill :
    let s := verdictsAt [verdictEntry (1, 0, 2) 2, verdictEntry (2, 0x0B01, 0xFFFF) 0, verdictEntry (0, 0, 0) 1, verdictEntry (2, 0x0B02, 0xFFFF) 2];
    let d := dp 0x22 [(9, 1)]
    let v (m : Nat) := readVerdict s 0 (linkVerdict (charterOf [entryOf d []]) 0 d) m
    (v 0).1 = 1 ∧ (v 0).2.2 < dpDests d ∧ dpMain d ≤ (v 0).2.1 ∧ (v 0).2.1 < dpSlots d
    ∧ (v 2).1 < 2 ∧ (v 2).2.2 < dpDests d ∧ (v 2).2.1 < dpSlots d ∧ 2 ≤ (v 3).1 := by decide +kernel

/-- A sparse tensor of 16 by 16 codes with T_K = 16 (Tables 12-4 and 12-5), and the assay of its one tile. -/
def sparseCharter (es : List StreamEntry) : Charter := { bare with
  tensors := [tensorOf 0 0x1000 16 16 2 32, tensorOf 0 0x1000 16 16 2 32 ||| fields [(17, 1)]]
  exts := [fields [(0, 16), (16, 16), (32, 0x1400), (80, 0x13C0), (128, 16), (144, 16), (160, 0x1400), (208, 0x13C0)]]
  streams := [es] }
def assayOf (phase : Nat) : BitVec 512 :=
  fields [(0, 0x24), (11, 2), (32, 2), (48, phase), (80, 1), (112, 1), (464, 0), (480, 1)]
def assays (phase : Nat) : State := mapped (marched (sparseCharter [entryOf (assayOf phase) []]) .legs true)

theorem witness_AssayRewritesItsTiles : Sane (assays 1)
    ∧ dueStream (assays 1) 0 0 [0x24] = some (0, sparseCharter [entryOf (assayOf 1) []], entryOf (assayOf 1) [])
    ∧ asRowTiles (assayOf 1) ≠ 0 ∧ asKTiles (assayOf 1) ≠ 0 ∧ asRowTiles (fields [(0, 0x24)]) = 0 ∧ asTurned (assayOf 1) = false
    ∧ (let f := sparseForm (sparseCharter []) ((sparseCharter []).tensor (asTensorS (assayOf 1))) false;
      f.tk % 16 = 0 ∧ asFirstK (assayOf 1) + asKTiles (assayOf 1) ≤ f.kt ∧ f.slot = 4352)
    ∧ (sparseForm (sparseCharter []) ((sparseCharter []).tensor (asTensorS (assayOf 1))) true).tk % 16 = 0 := by
  unfold Sane; decide +kernel
theorem witness_AssayRewritesItsTiles_stores :
    let f := sparseForm (sparseCharter []) ((sparseCharter []).tensor (asTensorS (assayOf 1))) false
    let tile (a : Nat) : Prop := (f.slotAddr 0 ≤ a ∧ a < f.slotAddr 0 + f.slot) ∨ (f.dirAddr 0 ≤ a ∧ a < f.dirAddr 0 + 16)
    PlainAt (assays 1) 0 tile ∧ (∀ a, tile a → hostVisible (assays 1) 0 a = false)
    ∧ ∀ a, f.dirAddr 0 ≤ a → a < f.dirAddr 0 + 16 → ¬(f.slotAddr 0 ≤ a ∧ a < f.slotAddr 0 + f.slot) := by
  have e : (sparseForm (sparseCharter []) ((sparseCharter []).tensor (asTensorS (assayOf 1))) false).slotAddr 0 = 0x1400
      ∧ (sparseForm (sparseCharter []) ((sparseCharter []).tensor (asTensorS (assayOf 1))) false).dirAddr 0 = 0x13C0
      ∧ (sparseForm (sparseCharter []) ((sparseCharter []).tensor (asTensorS (assayOf 1))) false).slot = 4352 := by decide +kernel
  have hidden : ((List.range 0x1140).all fun k => !hostVisible (assays 1) 0 (0x13C0 + k)) = true := by decide +kernel
  simp only [List.all_eq_true, List.mem_range, Bool.not_eq_true'] at hidden
  simp only [e]
  refine ⟨plainAt_of_range (lo := 0x13C0) (o := 0x3C0) (n := 0x1140) (by decide +kernel) (fun a h => by omega), fun a h => ?_,
    fun a h => by omega⟩
  have := hidden (a - 0x13C0) (by omega)
  rwa [show 0x13C0 + (a - 0x13C0) = a by omega] at this

/-- A vector entry of 4 elements (Table 06-1). -/
def vv (op func : Nat) (l : List (Nat × Nat)) : BitVec 512 := fields ([(0, op), (8, func), (19, 2), (32, 4), (64, 0x3FC00000),
  (96, 0x40000000), (128, 0x1000), (176, 2), (192, 0x1040), (256, 0x1080), (336, 0x1100), (400, 1), (416, 2)] ++ l)
theorem witness_VectorOpsComputeTheirElements : Sane (coreRuns [entryOf (vv 0x30 0 []) []])
    ∧ (∀ n < 7, isDue [entryOf (vv 0x30 n []) []] 0x30 = true ∧ vuFunc (vv 0x30 n []) = n)
    ∧ (∀ b < 2, isDue [entryOf (vv 0x31 2 [(22, b)]) []] 0x31 = true ∧ vuBits (vv 0x31 2 [(22, b)]) = b)
    ∧ (∀ b < 2, isDue [entryOf (vv 0x32 2 [(22, b)]) []] 0x32 = true ∧ vuBits (vv 0x32 2 [(22, b)]) = b)
    ∧ (∀ n < 2, isDue [entryOf (vv 0x33 n []) []] 0x33 = true ∧ vuFunc (vv 0x33 n []) = n)
    ∧ isDue [entryOf (vv 0x34 0 []) []] 0x34 = true ∧ (coreRuns [entryOf (vv 0x31 2 []) []]).waits (.core 0) = false := by
  unfold Sane; decide +kernel
theorem witness_VectorOpsComputeTheirElements_stores :
    let d := vv 0x31 2 [(22, 1)]
    let c := charterOf [entryOf d []]
    let l := (List.range (vuCount d)).map fun n => (vuD d + n * 4, 0)
    let plane (x : Nat) : Prop := ∃ n < vuCount d, x = (planeBit c d n).1
    PlainAt (coreRuns [entryOf d []]) 0 (fun x => codeAddrs 4 l x ∨ plane x) ∧ (∀ x, ¬(codeAddrs 4 l x ∧ plane x))
    ∧ (∀ x, plane x → hostVisible (coreRuns [entryOf d []]) 0 x = false)
    ∧ ∀ m < vuCount d, ∀ n < vuCount d, planeBit c d m = planeBit c d n → m = n := by
  have at1080 : ∀ n < 4, (planeBit (charterOf [entryOf (vv 0x31 2 [(22, 1)]) []]) (vv 0x31 2 [(22, 1)]) n).1 = 0x1080 := by decide +kernel
  have four : vuCount (vv 0x31 2 [(22, 1)]) = 4 := by decide +kernel
  have codes (x : Nat) (h : codeAddrs 4 ((List.range (vuCount (vv 0x31 2 [(22, 1)]))).map fun n => (vuD (vv 0x31 2 [(22, 1)]) + n * 4, 0)) x) :
      0x1100 ≤ x ∧ x < 0x1100 + 16 := codeAddrs_within (by decide +kernel) x h
  refine ⟨plainAt_of_range (lo := 0x1080) (o := 0x80) (n := 144) (by decide +kernel) (fun x h => ?_), fun x h => ?_, fun x h => ?_,
    by decide +kernel⟩
  · rcases h with h | ⟨n, hn, rfl⟩
    · have := codes x h; omega
    · rw [at1080 n (by omega)]; omega
  · obtain ⟨h1, n, hn, rfl⟩ := h
    have := codes _ h1
    rw [at1080 n (by omega)] at this
    omega
  · obtain ⟨n, hn, rfl⟩ := h
    rw [at1080 n (by omega)]
    decide +kernel

/-- Array 0 of core 0 at a level, with a target. -/
def leveled (level target : BitVec 7) (hold : Bool) : State :=
  up.modCore 0 fun c => { c with da := c.da.set 0 { level := level, target := target, hold := hold } }
theorem witness_CoresFollowTheirControls :
    ((leveled 3 20 false).core 0).da[(0 : Fin 2)].level.toNat < governorTarget ((leveled 3 20 false).core 0) ((leveled 3 20 false).core 0).da[(0 : Fin 2)]
    ∧ governorTarget ((leveled 30 20 true).core 0) ((leveled 30 20 true).core 0).da[(0 : Fin 2)]
      < ((leveled 30 20 true).core 0).da[(0 : Fin 2)].level.toNat
    ∧ ((leveled 20 20 true).core 0).da[(0 : Fin 2)].level.toNat = governorTarget ((leveled 20 20 true).core 0) ((leveled 20 20 true).core 0).da[(0 : Fin 2)]
    ∧ ((leveled 20 20 true).core 0).da[(0 : Fin 2)].hold = true ∧ ((leveled 3 20 false).core 0).da[(0 : Fin 2)].hold = false
    ∧ Allowed up (.link 0) (coreOff 0 0x140) := by unfold Allowed; decide +kernel

/-- An update message of stall 0: OP, core, slot, clip and counts, and the digest of the data at 0x1000, which is zero. -/
def updating (l : List Byte) (len : Nat) : State :=
  mapped (posted (marched bare .legs true) true 0 0 (l ++ [0, 0x10, 0, 0, 0, 0, 0, 0] ++ bytes256 (sha3 (List.replicate len 0))))
theorem witness_CoresFollowTheirControls_updates :
    (let s := updating [2, 0, 0, 1, 0, 0, 0, 0] 8;
      hasUpdate s 0 true true = true ∧ checkUpdate s 0 true = .inr (.coef ⟨0, [], some (0, 0)⟩) ∧ (s.post 0 true 0).len = 48)
    ∧ (let s := updating [2, 0, 0, 2, 0, 0, 0, 0] 8;
      updateFieldsOk (s.post 0 true 0) = false ∧ checkUpdate s 0 true = .inl 0x0109)
    ∧ ((posted up true 0 0 [1, 0]).post 0 true 0).len ≠ 48 := by decide +kernel
/-- What passes the checks of an update message (R361). -/
theorem update_passes {s : State} {i : Stall} {secure : Bool} {va len : Nat} (given : (s.post i secure 0).len = 48)
    (ok : updateFieldsOk (s.post i secure 0) = true) (hva : msgNat (s.post i secure 0) 8 6 = va)
    (hlen : updateLength (s.post i secure 0) = len) (open_ : updateDenied s i secure va len = none)
    (digest : slice (s.post i secure 0).buf.toList 16 32 = bytes256 (sha3 (s.readBytes i va len)))
    (signed_ : updateSigned s i secure va len = true) :
    checkUpdate s i secure = updateOf s i (s.post i secure 0) (s.readBytes i va len) := by
  simp [checkUpdate, given, ok, hva, hlen, open_, digest, signed_]
theorem zero_word (k : Nat) (h : k + 4 ≤ 3136) : tblWord (List.replicate 3136 0) k = 0 := by
  simp only [tblWord, slice, List.drop_replicate, List.take_replicate]
  rw [show min 4 (3136 - k) = 4 by omega]
  decide
theorem tableOk_zero : tableOk (List.replicate 3136 0) = true := by
  have f : finite32 0 = true := by decide
  have w : tblWexp (List.replicate 3136 0) = 0 := by
    simp only [tblWexp, slice, List.drop_replicate, List.take_replicate]
    rw [show min 1 (3136 - 4) = 1 by omega]
    decide
  have all4 (k : Nat) (hk : k < 4) : finite32 (tblWord (List.replicate 3136 0) (8 + 4 * k)) = true := by rw [zero_word _ (by omega)]; exact f
  have all768 (k : Nat) (hk : k < 768) : finite32 (tblWord (List.replicate 3136 0) (64 + 4 * k)) = true := by rw [zero_word _ (by omega)]; exact f
  simp only [tableOk, w, zero_word 0 (by omega), f, List.length_replicate, slice, List.drop_replicate, List.take_replicate,
    List.all_replicate, Bool.and_eq_true, List.all_eq_true, List.mem_range]
  refine ⟨⟨⟨by decide, ?_⟩, all4⟩, all768⟩
  decide
theorem witness_CoresFollowTheirControls_function :
    let s := updating [1, 2, 3, 0, 0, 0, 0, 0] 0
    (hasUpdate s 0 true false = true ∧ (s.post 0 true 0).len = 48 ∧ updateFieldsOk (s.post 0 true 0) = true
      ∧ msgNat (s.post 0 true 0) 8 6 = 0x1000 ∧ updateLength (s.post 0 true 0) = 3136 ∧ updateSigned s 0 true 0x1000 3136 = true)
    ∧ updateOf s 0 (s.post 0 true 0) (List.replicate 3136 0) = .inr (.function 2 3 (List.replicate 3136 0)) := by
  refine ⟨by decide +kernel, ?_⟩
  have e : msgNat ((updating [1, 2, 3, 0, 0, 0, 0, 0] 0).post 0 true 0) 0 1 = 1
      ∧ msgNat ((updating [1, 2, 3, 0, 0, 0, 0, 0] 0).post 0 true 0) 1 1 = 2
      ∧ msgNat ((updating [1, 2, 3, 0, 0, 0, 0, 0] 0).post 0 true 0) 2 1 = 3
      ∧ coreStall (updating [1, 2, 3, 0, 0, 0, 0, 0] 0) 2 = some 0 := by decide +kernel
  generalize hs : updating [1, 2, 3, 0, 0, 0, 0, 0] 0 = s at e
  generalize hp : s.post 0 true 0 = p at e
  generalize hd : List.replicate 3136 (0 : Byte) = data
  have ok : tableOk data = true := hd ▸ tableOk_zero
  simp [updateOf, e, ok]

/-! ### Witnesses: copies and queues -/

/-- A copy of 3 by 2 elements from one strided tensor to another (Tables 07-3 and 07-4). -/
def cp (l : List (Nat × Nat)) (dst td : Nat) : BitVec 512 := fields ([(0, 0x40), (8, 2), (35, 1), (38, 2), (41, 3), (44, 4), (47, 5),
  (64, 0x1000), (128, dst), (176, td), (192, 3), (208, 2), (224, 1), (240, 1), (256, 1), (272, 1), (288, 0x1400), (416, 1), (448, 77)] ++ l)
def shape0 : BitVec 640 := fields [(0, 2), (32, 16), (192, 2), (224, 16), (384, 3), (400, 2)]
def copying (ds : List (BitVec 512)) : Charter := { bare with
  tensors := tensors ++ [tensorOf 0 0x1300 8 8 2 16, tensorOf 0 0x3000 8 8 2 16]
  copies := [{ entries := [{ leg := 0 }], descs := ds, shapes := ds.map fun _ => shape0 }] }
def copies (ds : List (BitVec 512)) : State := mapped (marched (copying ds) .legs true)
def putBytes (s : State) (a : Nat) (l : List Byte) : State := l.zipIdx.foldl (fun s x => s.writeVa 0 (a + x.2) x.1) s
/-- The copy entry of engine 0 is due, and the scan of its list ends with this. -/
def copyDue (ds : List (BitVec 512)) (r : Option Reason) : Bool :=
  let s := copies ds;
  due (s.stall 0) (copying ds) (.copy 0 0) && ((copying ds).copies.getD 0 {}).entries[0]? == some { leg := 0 }
    && engineStall s 0 == some 0 && !(s.engine 0).retired
    && listCheck (s.seen (.copy 0)) 0 (copying ds) (batchFrom ((copying ds).copies.getD 0 {}) 0) == r

theorem writes_within {lo m : Nat} {l : List CopyWrite}
    (h : (l.all fun w => decide (lo ≤ w.dst) && decide (w.dst + w.bytes.length ≤ lo + m)) = true)
    (a : Nat) (ha : ∃ w ∈ l, w.dst ≤ a ∧ a < w.dst + w.bytes.length) : lo ≤ a ∧ a < lo + m := by
  obtain ⟨w, hw, h1, h2⟩ := ha
  have := List.all_eq_true.mp h w hw
  simp only [Bool.and_eq_true, decide_eq_true_eq] at this
  omega

theorem witness_CopiesMoveTheirElements : Sane (copies [cp [] 0x1300 4]) ∧ copyDue [cp [] 0x1300 4] none = true
    
    ∧ (let c := copying [cp [(20, 1), (352, 0x1500)] 0x1300 4];
      listCheck ((putBytes (copies [cp [(20, 1), (352, 0x1500)] 0x1300 4]) 0x1500 (List.replicate 16 0xFF)).seen (.copy 0)) 0 c
        (batchFrom (c.copies.getD 0 {}) 0) = some 0x0503) := by unfold Sane; decide +kernel
theorem witness_CopiesMoveTheirElements_writes :
    let s := copies [cp [] 0x1300 4]
    let o := (batchFrom ((copying [cp [] 0x1300 4]).copies.getD 0 {}) 0).headD ⟨0, 0⟩
    let ws := copyWrites s 0 (copying [cp [] 0x1300 4]) o (scanBoxes s 0 o)
    (batchFrom ((copying [cp [] 0x1300 4]).copies.getD 0 {}) 0).length = 1 ∧ ws.length = 6
    ∧ PlainAt s 0 (fun a => ∃ w ∈ ws, w.dst ≤ a ∧ a < w.dst + w.bytes.length)
    ∧ ws.Pairwise (fun p q => p.dst + p.bytes.length ≤ q.dst ∨ q.dst + q.bytes.length ≤ p.dst) :=
  ⟨by decide +kernel, by decide +kernel,
    plainAt_of_range (lo := 0x1300) (o := 0x300) (n := 64) (by decide +kernel) (writes_within (by decide +kernel)), by decide +kernel⟩

/-- Engine 0's queue of a stall holds one descriptor, with its shape at 0x1400. -/
def queued0 (s : State) (d : BitVec 512) : State :=
  putBytes (putBytes (s.modEngine 0 fun k => { k with qen := true, qbase := 0x1100, cbase := 0x1200, qtail := 1 }) 0x1100 (leBytes 64 d))
    0x1400 (leBytes 80 shape0)
def takeable (s : State) : Bool :=
  let k := s.engine 0;
  k.qen && !k.retired && k.batch.isNone && k.state != 3 && (s.stall 0).page.state == 2 && headBatch s 0 k == some (1, false)
def slotsOpen (s : State) : Bool := (denyCause (s.stall 0).customs .copy permWrite (recordSlot (s.engine 0) (s.engine 0).cbase 0) 16).isNone
def slotsReadable (s : State) : Bool := (denyCause (s.stall 0).customs .copy permRead (queueSlot (s.engine 0) 0) 64).isNone
def opsOf (s : State) : List CopyOp := [⟨queueDesc s 0 (s.engine 0) 0,
  if cpEmpty (queueDesc s 0 (s.engine 0) 0) then 0 else BitVec.ofNat 640 (s.readNat 0 (cpShape (queueDesc s 0 (s.engine 0) 0)) 80)⟩]

theorem witness_QueuesMoveWholeBatches :
    (let s := queued0 (copies []) (cp [] 0x1300 4);
      takeable s = true ∧ slotsOpen s = true ∧ slotsReadable s = true ∧ batchCheck s 0 (copying []) (opsOf s) true = none
      ∧ noShare s 0 (((opsOf s).filter fun o => !cpEmpty o.d).flatMap fun o => [cpSrc o.d, cpDst o.d]) = false
      ∧ listCheck s 0 (copying []) (opsOf s) = none)
    ∧ (let s := queued0 (copies []) (cp [(3, 1)] 0x1300 4);
      takeable s = true ∧ (batchCheck s 0 (copying []) (opsOf s) true).isSome = true) := by decide +kernel
theorem witness_QueuesMoveWholeBatches_bare :
    (let s := queued0 (mapped up) (fields [(0, 0x40)]);
      Sane s ∧ takeable s = true ∧ (s.stall 0).charter.active = none ∧ slotsOpen s = true ∧ slotsReadable s = true
      ∧ ((opsOf s).all fun o => cpEmpty o.d && cpReservedOk o.d) = true)
    ∧ ((opsOf (queued0 (mapped up) (cp [] 0x1300 4))).any fun o => !cpEmpty o.d) = true
    ∧ (let s := (queued0 (mapped up) (fields [(0, 0x40)])).modEngine 0 fun k => { k with cbase := 0x9000 };
      takeable s = true ∧ slotsOpen s = false)
    ∧ (let s := (queued0 (mapped up) (fields [(0, 0x40)])).modEngine 0 fun k => { k with qbase := 0x9000 };
      takeable s = true ∧ slotsOpen s = true ∧ slotsReadable s = false) := by unfold Sane; decide +kernel

/-- A batch of one descriptor that has been moved. -/
def taken (cbase : BitVec 48) (recorded : Bool) : State :=
  (mapped up).modEngine 0 fun k => { k with qen := true, state := 3, batch := some ⟨0, cbase, [12], [], recorded, [77], 0, 0, false⟩ }
theorem witness_QueuesMoveWholeBatches_records :
    (let s := taken 0x1200 false;
      (s.engine 0).batch.isSome = true ∧ s.waits (.copy 0) = false ∧ (s.engine 0).state ≠ 4 ∧ 1 ≤ ringSize (s.engine 0)
      ∧ denyCause (s.stall 0).customs .copy permWrite (recordSlot (s.engine 0) 0x1200 0) 16 = none
      ∧ ∀ k < 16, hostVisible s 0 (recordSlot (s.engine 0) 0x1200 0 + k) = false)
    ∧ denyCause ((taken 0x9000 false).stall 0).customs .copy permWrite (recordSlot ((taken 0x9000 false).engine 0) 0x9000 0) 16 ≠ none
    ∧ hostVisible (taken 0x3000 false) 0 (recordSlot ((taken 0x3000 false).engine 0) 0x3000 0) = true
    ∧ ((taken 0x1200 true).engine 0).batch.map (fun b => b.recorded) = some true
    ∧ (let s := { (mapped up) with tiers := { (mapped up).tiers with snoops := [⟨.copy 0, 0, 0x3000, 7⟩] } };
      s.tiers.snoops.find? (fun x => x.writer == .copy 0) = some ⟨.copy 0, 0, 0x3000, 7⟩) := by decide +kernel
theorem witness_QueuesMoveWholeBatches_plain :
    let s := taken 0x1200 false
    PlainAt s 0 (fun a => ∃ j < 1, recordSlot (s.engine 0) 0x1200 (0 + j) ≤ a ∧ a < recordSlot (s.engine 0) 0x1200 (0 + j) + 16) := by
  refine plainAt_of_range (lo := 0x1200) (o := 0x200) (n := 16) (by decide +kernel) (fun a h => ?_)
  obtain ⟨j, hj, h⟩ := h
  have : recordSlot ((taken 0x1200 false).engine 0) 0x1200 (0 + 0) = 0x1200 := by decide +kernel
  obtain rfl : j = 0 := by omega
  omega

theorem witness_RegistersKeepTheirRules :
    Allowed (copies []) (.link 0) (copyOff 0 0x1C) ∧ engineStall (copies []) 0 = some 0 ∧ ((copies []).stall 0).page.state ≠ 1
    ∧ Allowed (copies []) (.link 0) (copyOff 0 0x18) ∧ Allowed (copies []) (.link 0) (copyOff 0 0x04) ∧ ((copies []).engine 0).qen = false
    ∧ (let k := (copies []).engine 0;
      ((17 + 2 * ringSize k - k.qhead.toNat) % (2 * ringSize k)) > ringSize k
      ∧ ((5 + 2 * ringSize k - k.qhead.toNat) % (2 * ringSize k)) ≤ ringSize k)
    ∧ (let s := (copies []).modPage 0 fun p => { p with state := 1 };
      (s.stall 0).page.state = 1 ∧ Allowed s (.link 0) (copyOff 0 0x1C)) := by unfold Allowed; decide +kernel

/-! ### Witnesses: the ledger and the settlement -/

theorem witness_LedgerSumsNeverWrap :
    let qs := [val32 0xBF800000, val32 0x42000000].map fun x => quantise x 7 (contributionWidth 2)
    ∀ q ∈ qs, q.nonfinite = false ∧ q.saturated = false := by decide +kernel

/-- One bucket of 6 elements that two members sum in tree 0, member 0 at the root, into a tensor. -/
def summing (dst td n : Nat) : Charter := { bare with
  tensors := tensors ++ [tensorOf 2 0x1200 8 8 4 32]
  trees := [[fields [(0, 0), (13, 0x7F), (26, 1)], fields [(0, 1), (26, 1)]]]
  tariffBase := 0x1500
  buckets := [fields [(0, 6), (32, n), (48, 1), (64, 0x1100), (112, 2), (128, dst), (176, td), (192, 1)]]
  ledger := [{ raw := 0, sched := { leg := 0 } }] }
/-- A member at the origin of a march, its bucket's tariff valid. -/
def sums (c : Charter) (self : Nat) : State :=
  (putBytes (mapped ((marched c .legs true).modMarch 0 fun m => { m with member := BitVec.ofNat 7 self, lead := decide (self = 0) })) 0x1500
    (leBytes 16 (fields [(0, 100), (8, 1), (16, 6)] : BitVec 128))).ledgerOrigin 0 c true
def runHas (s : State) (p : BucketRun → Bool) : Bool := match runOf (s.stall 0) 0 with | some r => p r | none => false
def headerFrom (s : State) (c : Charter) (src : Nat) : SegmentHeader := match runOf (s.stall 0) 0 with
  | some r => { segmentHeader (s.stall 0) c r with source := BitVec.ofNat 7 src, segElems := 6 }
  | none => { march := 0, attempt := 0, bucket := 0, tariff := 0, maxexp := 0, width := 0, nonfinite := false, saturated := false
              short := false, survey := false, down := false, count := 1, source := 0, sourceCaravan := 0, step := 0, segment := 0
              segElems := 0 }
def segmentFrom (s : State) (c : Charter) (src : Nat) : Segment := ⟨headerFrom s c src, [1, 2, 3, 4, 5, 6]⟩
def root : Charter := summing 0x1200 4 2
/-- The root with its own values and with its child's sum. -/
def rootOwn : State := after (.contribute 0 0) (sums root 0)
def rootBoth : State := after (.ledgerSegment 0 (segmentFrom (sums root 0) root 1)) rootOwn

theorem witness_LedgerEntriesAddUp :
    (let s := sums root 0;
      Sane s ∧ due (s.stall 0) root (.ledger 0) = true ∧ (s.stall 0).ledger.retired = false ∧ selfFenced (s.stall 0) = false
      ∧ quantiseBlocked (s.stall 0) root 0 = false ∧ runHas s (fun r => r.known && r.own.isNone) = true ∧ bucketOpen (s.stall 0) root 0 = true
      ∧ segmentRefusal (s.stall 0) root (headerFrom s root 1) = none ∧ headerOnlySurvey (headerFrom s root 1) = false
      ∧ (headerFrom s root 1).step = (s.stall 0).settle.step
      ∧ segmentRefusal (s.stall 0) root { headerFrom s root 1 with march := 99 } = some 0x0308
      ∧ segmentRefusal (s.stall 0) root { headerFrom s root 1 with short := true, down := true, segElems := 0, segment := 0 } = some 0x030C)
    ∧ (runOf ((sums { root with buckets := [0] } 0).stall 0) 0).isNone = true := by unfold Sane; decide +kernel
theorem witness_LedgerEntriesAddUp_root :
    runHas rootBoth (fun r => !r.sent && !r.complete && r.known && r.own.isSome
      && ((root.children (bkTree (root.bucket 0)) (ownRole (rootBoth.stall 0))).filterMap (partialOf r)).length
        == (root.children (bkTree (root.bucket 0)) (ownRole (rootBoth.stall 0))).length && !addBlocked (rootBoth.stall 0) root r) = true
    ∧ bucketOpen (rootBoth.stall 0) root 0 = true ∧ parentOf (rootBoth.stall 0) root 0 = none
    ∧ runHas rootBoth (fun r => match r.own with
      | some own => (partialSum (segmentHeader (rootBoth.stall 0) root r) own
          ((root.children (bkTree (root.bucket 0)) (ownRole (rootBoth.stall 0))).filterMap (partialOf r))).1.count == 2
      | none => false) = true
    ∧ runHas rootOwn (fun r => r.own.isSome) = true
    ∧ segmentRefusal (rootOwn.stall 0) root (headerFrom rootOwn root 1) = none := by decide +kernel
theorem witness_LedgerEntriesAddUp_leaf :
    let s := after (.contribute 0 0) (sums root 1)
    runHas s (fun r => !r.sent && !r.complete && r.known && r.own.isSome && !addBlocked (s.stall 0) root r) = true
    ∧ root.children (bkTree (root.bucket 0)) (ownRole (s.stall 0)) = [] ∧ (parentOf (s.stall 0) root 0).isSome = true
    ∧ (let h := { headerFrom s root 0 with short := true, segElems := 0, segment := 0, down := true };
      segmentRefusal (s.stall 0) root h = none ∧ h.step = (s.stall 0).settle.step)
    ∧ (s.stall 0).march.state = .legs ∧ (s.stall 0).seq.left = false ∧ (s.stall 0).march.leg.toNat < root.legs.length := by decide +kernel

theorem witness_RegistersKeepTheirRules_ledger : (∀ r : Fin 3, Allowed (plain0 .legs true) (.link 0) (ledgerOff 0 (0x2C + 4 * r.val)))
    ∧ ((plain0 .legs true).stall 0).march.lead = true ∧ ((plain0 .legs false).stall 0).march.lead = false
    ∧ Allowed (plain0 .legs true) (.link 0) (ledgerOff 0 0) := by unfold Allowed; decide +kernel

/-- One settlement entry of 5 elements, frozen by a plane or not, in the full format or in the compatible one. -/
def settleEntry (l : List (Nat × Nat)) : BitVec 512 := fields ([(32, 5), (64, 0x1300), (112, 4), (128, 0x1340), (176, 4), (192, 0x1100),
  (240, 2), (256, 0x1380), (304, 4), (320, 0x1500), (384, 3), (408, 4)] ++ l)
def settling (l : List (Nat × Nat)) : Charter := { bare with
  tensors := (copying []).tensors
  settle := [{ raw := settleEntry l, sched := { leg := 2 } }]
  groups := [fields [(0, 0x3F000000), (32, 0x3F000000), (64, 0x3F000000), (96, 0x3F000000), (160, 0x3DCCCCCD)]] }
def settles0 (l : List (Nat × Nat)) : State :=
  (seqed ((mapped (marched (settling l) .settle true)).modMarch 0 fun m => { m with leg := 2, kind := 4 }) fun q => { q with
    settles := true }).modSettle 0 fun x => { x with coef := (settling l).groups }

theorem witness_SettlementUpdatesItsElements : Sane (settles0 []) ∧ due ((settles0 []).stall 0) (settling []) (.settle 0) = true
    ∧ due ((settles0 [(8, 1)]).stall 0) (settling [(8, 1)]) (.settle 0) = true ∧ seCompat (settleEntry [(8, 1)]) = true
    ∧ due ((settles0 [(9, 2)]).stall 0) (settling [(9, 2)]) (.settle 0) = true ∧ seFreeze (settleEntry [(9, 2)]) = 2
    ∧ (∀ n < 5, frozenElem (settles0 []) 0 (settleEntry []) n = false)
    ∧ (∃ n < 5, frozenElem (settles0 [(9, 1)]) 0 (settleEntry [(9, 1)]) n = true)
    ∧ (settles0 []).waits (.settle 0) = false := by unfold Sane; decide +kernel
theorem witness_SettlementUpdatesItsElements_plain :
    let e := settleEntry []
    let inW (a : Nat) : Prop := seW e ≤ a ∧ a < seW e + 2 * seCount e
    let inS (a : Nat) : Prop := seS e ≤ a ∧ a < seS e + 2 * seCount e
    let inH (a : Nat) : Prop := seCompat e = true ∧ seH e ≤ a ∧ a < seH e + 2 * seCount e
    let read (a : Nat) : Prop := (seG e ≤ a ∧ a < seG e + 4 * seCount e) ∨ (seFreeze e = 2 ∧ sePlane e ≤ a ∧ a ≤ sePlane e + seCount e / 8)
    PlainAt (settles0 []) 0 (fun a => (inW a ∨ inS a ∨ inH a) ∨ read a) ∧ (∀ a, inW a ∨ inS a ∨ inH a → ¬read a)
    ∧ ∀ a, ¬(inW a ∧ inS a) ∧ ¬(inW a ∧ inH a) ∧ ¬(inS a ∧ inH a) := by
  have e : seW (settleEntry []) = 0x1300 ∧ seS (settleEntry []) = 0x1340 ∧ seG (settleEntry []) = 0x1100 ∧ seCount (settleEntry []) = 5
      ∧ seCompat (settleEntry []) = false ∧ seFreeze (settleEntry []) = 0 := by decide +kernel
  simp only [e, Bool.false_eq_true, false_and, and_false, or_false, not_false_eq_true, and_true]
  exact ⟨plainAt_of_range (lo := 0x1100) (o := 0x100) (n := 0x300) (by decide +kernel) (fun a h => by omega), fun a h => by omega,
    fun a => by omega⟩

theorem witness_RegistersKeepTheirRules_settlement : Allowed (plain0 .ready true) (.link 0) (settleOff 0 8)
    ∧ (∀ k : Fin 3, Allowed (plain0 .ready true) (.link 0) (tallyOff 0 (0x14 + 4 * k.val)))
    ∧ Allowed (plain0 .ready true) (.link 0) (tallyOff 0 4) ∧ Allowed (plain0 .ready true) (.link 0) (lotOff 0 4)
    ∧ Allowed (plain0 .ready true) (.link 0) (lotOff 0 0x24) ∧ ((plain0 .ready true).stall 0).march.state = .ready
    ∧ ((heldWith 10).stall 0).march.state = .held ∧ ((heldWith 10).stall 0).march.verdict.code = 10
    ∧ ((plain0 .legs true).stall 0).march.state ≠ .ready
    ∧ nonFinite32 0x3F800000 = false ∧ ltVal (.fin false 0 0) (val32 0x3F800000) = true ∧ nonFinite32 0x7F800000 = true
    ∧ ltVal (.fin false 0 0) (val32 0xBF800000) = false ∧ ((plain0 .ready true).stall 0).lot.busy = false
    ∧ (((plain0 .ready true).modLot 0 fun l => { l with busy := true }).stall 0).lot.busy = true := by
  unfold Allowed; decide +kernel

/-! ### Witnesses: the memory tiers and the host's windows -/

def repeated (l : List (MemUnit × BitVec 10 × BitVec 18)) (s : State) : State := { s with tiers := { s.tiers with repeatReads := l } }
theorem witness_ErrorsAreCountedAndRepeated :
    classify (.near 37) [3] = .correctable ∧ classify (.near 37) [1, 2, 3] = .uncorrectable ∧ classify (.serai 5) [3] = .correctable
    ∧ classify (.serai 5) [0, 16, 32] = .uncorrectable ∧ unitServes up (.near 37) = true ∧ unitServes up (.serai 5) = true
    ∧ ((.near 37, 7, 0) : MemUnit × BitVec 10 × BitVec 18) ∉ up.tiers.repeatReads ∧ unitGroup up (.near 37) ≠ 3 ∧ unitGroup up (.serai 5) ≠ 3
    ∧ ((.near 37, 7, 0) : MemUnit × BitVec 10 × BitVec 18) ∈ (repeated [(.near 37, 7, 0)] up).tiers.repeatReads := by decide +kernel

/-- A near unit whose repeated read failed, and a Serai unit whose corrected symbols passed its limit, before and after the
retirement. -/
def failing0 : State := after (.memRepeatRead (.near 37) 7 0 [1, 2, 3]) (repeated [(.near 37, 7, 0)] up)
def worn : State := { up with
  time := 10000000
  tiers := { up.tiers with serai := up.tiers.serai.set 5 { up.tiers.serai[5] with ceLimit := 1, recent := [(9000000, 3), (9500000, 4)] } } }
def stepped (s : State) : State := match step s with | .next t => t | _ => s
def nearLost : State := stepped failing0
def seraiLost : State := stepped (after (.ceRate (.serai 5)) worn)

theorem witness_FailingUnitsAreRetired : unitServes worn (.serai 5) = true ∧ (recentSymbols worn (.serai 5)).2 ≠ 0
    ∧ (recentSymbols worn (.serai 5)).2 < (recentSymbols worn (.serai 5)).1 ∧ worn.tiers.failing = []
    ∧ (recentSymbols up (.serai 5)).1 ≤ (recentSymbols up (.serai 5)).2 ∧ unitServes (repeated [(.near 37, 7, 0)] up) (.near 37) = true
    ∧ failing0.tiers.failing = [⟨.near 37, 7, 0, 0x0903⟩] ∧ failing0.pending = [] ∧ (∀ i, (failing0.stall i).page.state ≠ 1)
    ∧ unitGroup failing0 (.near 37) = 1 := by decide +kernel

def rebuildAt (s : State) (bay row : Nat) : State := { s with tiers := { s.tiers with
  seraiRebuild := { s.tiers.seraiRebuild with bay := BitVec.ofNat 10 bay, row := BitVec.ofNat 18 row }
  nearRebuilds := s.tiers.nearRebuilds.map fun r => { r with bay := BitVec.ofNat 10 bay, row := BitVec.ofNat 18 row } } }
/-- Serai bays 3 to 8 are guarded in a region of stall 0. -/
def guarded (s : State) : State := s.modCustoms 0 fun c => { c with
  regions := c.regions ++ [(2, { valid := true, tier := 2, guarded := true, perm := 3, va := 0x1000000000, size := 0x200000000, place := 3 })] }
theorem witness_RebuildsRunToTheEnd : Sane nearLost ∧ nearTurnOf up = none ∧ up.tiers.seraiRebuild.active = false
    ∧ nearTurnOf nearLost = some 5 ∧ (nearLost.tiers.nearRebuilds.get 5).member = some (.near 37) ∧ groupOf 37 = 5
    ∧ (nearLost.tiers.nearRebuilds.get 5).row.toNat + 16 < 262144
    ∧ (let r := (rebuildAt nearLost 3 262133).tiers.nearRebuilds.get 5; 262144 ≤ r.row.toNat + 16 ∧ r.bay.toNat < 639)
    ∧ (let r := (rebuildAt nearLost 639 262133).tiers.nearRebuilds.get 5; 262144 ≤ r.row.toNat + 16 ∧ 639 ≤ r.bay.toNat) := by
  unfold Sane; decide +kernel
theorem witness_RebuildsRunToTheEnd_serai : (guarded seraiLost).tiers.seraiRebuild.active = true
    ∧ (guarded seraiLost).tiers.seraiRebuild.member = some (.serai 5) ∧ bayGuarded (rebuildAt (guarded seraiLost) 3 0) 3 = true
    ∧ (rebuildAt (guarded seraiLost) 3 0).tiers.seraiRebuild.row.toNat < 262143
    ∧ (guardedBays (rebuildAt (guarded seraiLost) 3 262143)).find? (fun b => decide (3 < b)) = some 4
    ∧ (guardedBays (rebuildAt (guarded seraiLost) 8 262143)).all (fun b => decide (b ≤ 8)) = true
    ∧ bayGuarded (rebuildAt (guarded seraiLost) 8 262143) 8 = true := by decide +kernel
def holding (h : Bool) : State := { up with tiers := { up.tiers with
  serai := up.tiers.serai.set 5 { up.tiers.serai[5] with braceHold := h, waiting := [(.serai 3 9000 false, 7)] } } }
/-- A charter with enough time in every leg. -/
def roomy : Charter := { bare with legs := legs4.map fun l => l ||| fields [(7, 63)] }
theorem witness_RebuildsRunToTheEnd_held : (holding true).tiers.serai[(5 : Fin 24)].waiting ≠ []
    ∧ (holding true).tiers.serai[(5 : Fin 24)].braceHold = true ∧ (holding false).tiers.serai[(5 : Fin 24)].braceHold = false
    ∧ ((plain0 .ready true).stall 0).charter.pending.isNone = true ∧ ((marched roomy .ready true).stall 0).charter.pending.isNone = true
    ∧ fitProof (marched roomy .ready true) 0 roomy = none ∧ usesLost (marched roomy .ready true) 0 roomy = false
    ∧ overBandwidth (marched roomy .ready true) 0 roomy = false ∧ (fitProof (plain0 .ready true) 0 bare).isSome = true := by decide +kernel

/-- The host may use memory on link 0. -/
def windowed : State := (mapped up).modHost 0 fun h => { h with mem := true }
theorem witness_HostWindowsReachTheirStall : Sane windowed ∧ windowAt windowed 0 0x3000 = some (0, 0x3000)
    ∧ cxlRefusal windowed 0 0 (permRead ||| permHost) 0x3000 64 = none ∧ cxlRefusal windowed 0 0 (permWrite ||| permHost) 0x3000 3 = none
    ∧ cxlRefusal windowed 0 0 (permRead ||| permHost) 0x1000 64 ≠ none ∧ windowAt windowed 0 0x1000 = some (0, 0x1000)
    ∧ cxlRefusal windowed 0 0 (permWrite ||| permHost) 0x1000 3 ≠ none ∧ slotOf 0x3000 = none := by unfold Sane; decide +kernel
theorem witness_HostWindowsReachTheirStall_plain : PlainAt ((mapped up).modHost 0 fun h => { h with mem := true }) 0
    (fun a => 0x1000 ≤ a ∧ a < 0x1000 + 3) := plainAt_of_range (lo := 0x1000) (o := 0) (n := 3) (by decide +kernel) (fun _ h => h)
/-- The window over the last 2 GiB of near memory, where the slots lie. -/
def slotted : State := ((up.modHost 0 fun h => { h with mem := true }).modCustoms 0 fun c => { c with
  regions := [(0, { valid := true, tier := 1, perm := 15, va := 2 ^ 41 - 2 ^ 31, size := 2 ^ 31, place := 4 })] }).modCharter 0 fun p => { p with
    active := some bare }
/-- The group of near unit 16 is DEGRADED by that unit, which is lost, or by another that is spared. -/
def rawLost : State := after (.memRepeatRead (.near 16) 6 0 [1, 2, 3]) (repeated [(.near 16, 6, 0)] windowed)
def rawLeft : State := repeated [(.near 16, 6, 0)] { windowed with tiers := { windowed.tiers with
  nearGroups := windowed.tiers.nearGroups.set 0 2 } }
theorem witness_HostWindowsReachTheirStall_raw : rawPlace windowed (.near 6 0) = false ∧ windowed.placeOf 0 0x3000 = some (.near 6 0)
    ∧ rawPlace rawLost (.near 6 0) = true ∧ rawLost.placeOf 0 0x3000 = some (.near 6 0)
    ∧ cellOf (.near 6 0) = some ⟨.near 16, 25165824, true⟩ ∧ unitGroup rawLost (.near 16) = 1 ∧ serves rawLost.tiers (.near 16) = false
    ∧ rawPlace rawLeft (.near 6 0) = true ∧ unitGroup rawLeft (.near 16) = 2
    ∧ cxlRefusal rawLost 0 0 (permRead ||| permHost) 0x3000 64 = none := by decide +kernel
theorem witness_HostWindowsReachTheirStall_slots : windowAt slotted 0 (BitVec.ofNat 48 (2 ^ 41 - 2 ^ 31)) = some (0, 2 ^ 41 - 2 ^ 31)
    ∧ cxlRefusal slotted 0 0 (permWrite ||| permHost) (2 ^ 41 - 2 ^ 31) 3 = none ∧ slotOf (2 ^ 41 - 2 ^ 31) = some false
    ∧ slotLocked (slotted.stall 0) false = true := by decide +kernel

/-! ### Witnesses: the route ports -/

/-- A flit of a class from a member to a member of caravan 0. -/
def flitOf (src dst cls len msg idx : Nat) (last : Bool) : Flit :=
  let h := flitHeader cls last len (BitVec.ofNat 7 dst) 0 (BitVec.ofNat 7 src) 0 msg idx;
  let p := List.replicate 256 (7 : Byte);
  { header := h, payload := p, crc := flitCrc h p }
/-- A transfer entry: member, message number, bytes and address. -/
def transferOf (m msg bytes addr : Nat) : BitVec 256 := fields [(0, m), (16, 1), (32, msg), (64, bytes), (112, addr)]
def carrying : Charter := { bare with
  recvs := [{ raw := transferOf 1 7 300 0x1300, sched := { leg := 0 } }, { raw := transferOf 1 8 300 0x3000, sched := { leg := 0 } }]
  sends := [{ raw := transferOf 1 0 300 0x1000, sched := { leg := 0 } }, { raw := transferOf 1 0 0 0x1000, sched := { leg := 0 } }] }
def carries : State := mapped (marched carrying .legs true)

theorem flip_ne (x : BitVec 64) : x ^^^ 1 ≠ x := by
  intro h
  have := congrArg (fun b => b.getLsbD 0) h
  simp at this
theorem crc_flitOf (src dst cls len msg idx : Nat) (last : Bool) :
    let f := flitOf src dst cls len msg idx last
    f.crc = flitCrc f.header f.payload ∧ ({ f with crc := f.crc ^^^ 1 } : Flit).crc ≠ flitCrc f.header f.payload :=
  ⟨rfl, flip_ne _⟩
theorem witness_FlitsAreNumberedAndResent :
    let f := flitOf 1 0 0 256 7 0 false
    flClass f.header = 0 ∧ portUp carries 1 = true ∧ flSeq f.header = (carries.lnk 1).rxSeq
    ∧ flNak f.header = false ∧ portCharter carries 1 = some (0, carrying) ∧ flDst f.header = (carries.stall 0).march.member
    ∧ flDstCaravan f.header = carrying.caravanIx ∧ flLen f.header ≠ 0
    ∧ (carries.fabric.delivered.any fun e => e.1 == 0 && e.2 == flitIdentity f.header) = false
    ∧ rtMember (transferOf 1 7 300 0x1300) = flSrc f.header ∧ rtCaravan (transferOf 1 7 300 0x1300) = flSrcCaravan f.header
    ∧ rtMsg (transferOf 1 7 300 0x1300) = flMsg f.header := by decide +kernel
theorem witness_FlitsAreNumberedAndResent_onward :
    let f := flitOf 0 1 0 256 3 0 true
    ¬((flDst f.header = (carries.stall 0).march.member ∨ flDst f.header = ownRole (carries.stall 0)) ∧ flDstCaravan f.header = carrying.caravanIx)
    ∧ (exitPort carries carrying (carries.stall 0) (flDst f.header) (flDstCaravan f.header) (some 0)).isSome = true
    ∧ (∀ lane ∈ ([0, 3] : List (Fin 18)), (carries.lnk 0).laneUe.get lane + 1 < 8) := by decide +kernel
theorem witness_FlitsAreNumberedAndResent_plain : PlainAt carries 0 (fun a => 0x1300 ≤ a ∧ a < 0x1300 + 256) :=
  plainAt_of_range (lo := 0x1300) (o := 0x300) (n := 256) (by decide +kernel) (fun _ h => h)

/-- Two flits that port 0 has sent and no one has acknowledged. -/
def unacked (stuck : Nat) : State := carries.modLnk 0 fun l => { l with
  window := [⟨0, flitOf 0 1 0 256 0 0 false, 0⟩, ⟨1, flitOf 0 1 0 44 0 1 true, 0⟩], stuck := stuck }
theorem witness_FlitsAreNumberedAndResent_resent :
    (((unacked 0).lnk 0).window.findIdx? fun w => w.seq == 0) = some 0 ∧ ((unacked 0).lnk 0).window ≠ []
    ∧ ((unacked 0).lnk 0).stuck + 1 < 64 ∧ 64 ≤ ((unacked 63).lnk 0).stuck + 1 := by decide +kernel
theorem witness_FlitsAreNumberedAndResent_audits :
    (let l := carries.lnk 0; l.granted.get 0 = l.granted.get 0 - classBuffers 0 + l.occupied.get 0 + classBuffers 0)
    ∧ (let l := carries.lnk 0; l.granted.get 0 ≠ l.granted.get 0 - classBuffers 0 + l.occupied.get 0 + 5)
    ∧ (carries.log.auditFails.any fun e => e.1 == 0x0500 && decide (carries.time.toNat ≤ e.2.toNat + 1000000000)) = false
    ∧ (carries.lnk 0).stuck + 1 < 64
    ∧ (let s := { carries with log := { carries.log with auditFails := [(0x0500, 0)] } };
      (s.log.auditFails.any fun e => e.1 == 0x0500 && decide (s.time.toNat ≤ e.2.toNat + 1000000000)) = true)
    ∧ (let l := (carries.modLnk 0 fun l => { l with heldFlits := [flitOf 0 1 0 10 1 1 true], heldUntil := 5000 }).lnk 0;
      l.heldFlits ≠ [] ∧ l.reordered = none) := by decide +kernel

def portsDown : State := (List.finRange 8).foldl (fun s p => s.modPort p fun x => { x with state := 4 }) carries
theorem witness_TransfersLeaveAsFlits : (carries.stall 0).charter.active = some carrying ∧ due (carries.stall 0) carrying (.send 0) = true
    ∧ due (carries.stall 0) carrying (.send 1) = true ∧ rtBytes (transferOf 1 0 0 0x1000) = 0 ∧ 0 < rtBytes (transferOf 1 0 300 0x1000)
    ∧ (match exitPort carries carrying (carries.stall 0) 1 0 none with
      | some (p, _) => sendBlocked carries 0 carrying 0 p == false
      | none => false) = true
    ∧ exitPort portsDown carrying (portsDown.stall 0) 1 0 none = none ∧ (portsDown.stall 0).march.state = .legs
    ∧ due (portsDown.stall 0) carrying (.send 0) = true
    ∧ (transferFlits carries 0 carrying (transferOf 1 0 300 0x1000) 0).length = 2
    ∧ issuing (carries.stall 0) = true ∧ carries.waits .route = false ∧ isDone (carries.stall 0) (.recv 0) = false
    ∧ gotBytes carries 0 0 < rtBytes (transferOf 1 7 300 0x1300)
    ∧ (let s := { carries with fabric := { carries.fabric with got := [((0, 0), 300)] } };
      rtBytes (transferOf 1 7 300 0x1300) ≤ gotBytes s 0 0) := by decide +kernel

def neighbour1 : IdentMessage := { tag := 0, seat := 0, port := 1, timeDomain := 0, member := 1, caravan := 0 }
/-- Port 0 is wired to member 1. -/
def wired : State := marched { bare with wiring := [fields [(64, 1), (80, 1)]] } .legs true
def ported0 (f : Port → Port) : State := carries.modPort 0 f
theorem witness_LanesRetireAndRecalibrate : (txLanesSoon carries 0).get 3 ≠ 2 ∧ (carries.lnk 0).recalOf false = none
    ∧ 13 ≤ workingLanes (txLanesSoon carries 0) ∧ (carries.lnk 0).txSeq = 0 ∧ (carries.lnk 0).txSeq ≠ 5
    ∧ (carries.lnk 0).switches = []
    ∧ Allowed carries (.link 0) (routeOff 0 4) ∧ bit (0x83 : Word) 7 = true ∧ fldN (0x83 : Word) 0 5 < 18 ∧ bit (0xC3 : Word) 6 = true
    ∧ 1 ∈ (carries.port 0).txLanes.toList ∧ 1 ∈ (carries.port 0).rxLanes.toList
    ∧ 1 ∉ ((ported0 fun x => { x with txLanes := x.txLanes.map fun v => if v = 1 then 2 else v }).port 0).txLanes.toList
    ∧ ((ported0 fun x => { x with auto := true }).port 0).auto = true ∧ (carries.port 0).txLanes.get 0 ≠ 2
    ∧ ((carries.modLnk 0 fun l => l.setRecal true (some 3)).lnk 0).recalOf true = some 3
    ∧ Allowed carries (.link 0) (routeOff 0 0x50) ∧ portStall carries 0 = some 0 ∧ (carries.stall 0).page.comp.test = true := by
  unfold Allowed; decide +kernel
theorem witness_LanesRetireAndRecalibrate_retired :
    (txLanesSoon (ported0 fun x => { x with txLanes := x.txLanes.set 3 2 }) 0).get 3 = 2
    ∧ (txLanesSoon (carries.modLnk 0 fun l => { l with switches := [(5, 3)] }) 0).get 3 = 2 := by decide +kernel
theorem witness_LanesRetireAndRecalibrate_neighbours :
    ((ported0 fun x => { x with state := 1 }).port 0).state = 1
    ∧ (let s := ported0 fun x => { x with state := 2 }; (s.port 0).state = 2 ∧ (s.port 0).delay.toNat ≤ delayLimit s 0)
    ∧ (let s := ported0 fun x => { x with state := 4 }; (s.port 0).state = 4)
    ∧ (let s := ported0 (fun x => { x with state := 2, delay := 2000 }); delayLimit s 0 < (s.port 0).delay.toNat)
    ∧ wrongNeighbour wired 0 { neighbour1 with member := 2 } = true ∧ wrongNeighbour wired 0 neighbour1 = false
    ∧ (let s := (ported0 (fun x => { x with state := 4, neighbour := some neighbour1 })).modOptic 0 (fun o => { o with lightIn := true });
      (s.optic 0).lightIn = true ∧ 12 ≤ workingLanes (s.port 0).txLanes ∧ 12 ≤ workingLanes (s.port 0).rxLanes
      ∧ (s.port 0).delay.toNat ≤ delayLimit s 0 ∧ (s.port 0).neighbour = some neighbour1) := by decide +kernel
def litUp (s : State) : State := (List.finRange 8).foldl (fun s p => s.modOptic p fun o => { o with
  interlock := true, mated := true, sources := #v[2, 2, 1], lightIn := true }) { s with power := { s.power with interlock := true } }
theorem witness_LightFollowsItsInterlocks :
    (let s := (litUp up).modOptic 0 fun o => { o with lightIn := false }; mayEmit s 0 = true ∧ (s.optic 0).lightIn = false)
    ∧ mayEmit (litUp up) 0 = true ∧ ((litUp up).optic 0).lightIn = true ∧ mayEmit ((litUp up).modOptic 0 fun o => { o with mated := false }) 0 = false
    ∧ ((litUp up).optic 0).sources.get 0 = 2 ∧ ((litUp up).optic 0).sources.get 2 ≠ 3 ∧ ((litUp up).optic 0).onStandby = none
    ∧ (((litUp up).modOptic 0 fun o => { o with onStandby := some 1 }).optic 0).onStandby.isSome = true
    ∧ (litUp up).power.interlock = true := by decide +kernel

/-- Caravan 0 relays through member 0. -/
def relaying : Charter := { bare with caravan := fields [(71, 1), (88, 1), (96, 1)] }
def relays : State := marched relaying .legs true
def withRelay (f : Relay → Relay) : State := { relays with fabric := { relays.fabric with relay := f relays.fabric.relay } }
def goTo (m op : Nat) : Word := BitVec.ofNat 32 (op + 4 + m * 512)
/-- Stall 0 owned by the relay. -/
def owned : State := relays.modPage 0 fun p => { p with comp := { p.comp with owner := some none } }
theorem witness_RelayedAccessesReachTheirMember : Allowed relays (.link 0) (routeOff 0 0x8000) ∧ relayStall relays = some (0, relaying)
    ∧ (∀ op < 3, bit (goTo 1 op) 2 = true ∧ fld (goTo 1 op) 0 2 = BitVec.ofNat 2 op ∧ fld (goTo 1 op) 9 7 ∈ relaying.members)
    ∧ relays.fabric.relay.busy = false ∧ exitPort relays relaying (relays.stall 0) 1 relaying.caravanIx none ≠ none
    ∧ fld (goTo 9 0) 9 7 ∉ relaying.members ∧ (withRelay fun y => { y with busy := true }).fabric.relay.busy = true
    ∧ relays.fabric.relay.events.length < 64 ∧ (withRelay fun y => { y with events := List.replicate 64 (1, 3) }).fabric.relay.events.length = 64
    ∧ mayRead relays (.link 0) (.route 0 0x8010) = true := by unfold Allowed; decide +kernel
theorem witness_RelayedAccessesReachTheirMember_requests :
    wordOff 0x400B = marchOff 0 0x2C ∧ relayOwns owned 0 = true := by decide +kernel

/-! ### Witnesses: charters, checkpoints, failures and restarts -/

/-- A stall without a charter, its links connected. -/
def vacant : State := (linked.modCharter 0 fun p => { p with active := none }).modMarch 0 fun m => { m with state := .empty }
/-- A charter that passes every check: a BACKWARD, a REDUCE and a SETTLE leg of 4 ms with guards of 100 us. -/
def fitting : Charter := { bare with
  legs := [fields [(0, 4000), (20, 2), (24, 100)], fields [(0, 4000), (20, 3), (24, 100)], fields [(0, 4000), (20, 4), (24, 100)]]
  resource := fields [(56, 28)], caravan := fields [(72, 0), (80, 0), (88, 1), (96, 1), (104, 1)] }
def chartered (s : State) (f : CharterPage → CharterPage) : State := s.modCharter 0 f
def checked (s : State) (c : Charter) : State := chartered s fun p => { p with loader := 3, checking := some c }

theorem witness_ChartersAreCheckedBeforeTheyRun : Allowed vacant (.link 0) (charterOff 0 0) ∧ (vacant.stall 0).charter.loader = 0
    ∧ (vacant.stall 0).charter.pending.isNone = true ∧ vacant.tollgate.restarting ≠ some 6
    ∧ (vacant.chooseSlot 0).1 = .refuse 0x0101 0x0102 ∧ chooseBy vacant 0 0 0x0102 = .winner false
    ∧ ((chartered vacant fun p => { p with loader := 1 }).stall 0).charter.loader ≠ 0
    ∧ ({ vacant with tollgate := { vacant.tollgate with restarting := some 6 } } : State).tollgate.restarting = some 6
    ∧ ((plain0 .ready true).stall 0).march.state = .ready ∧ ((plain0 .legs true).stall 0).march.state ≠ .ready
    ∧ ((plain0 .legs true).stall 0).march.state ≠ .held := by unfold Allowed; decide +kernel
theorem witness_ChartersAreCheckedBeforeTheyRun_cancel :
    (let t := (chartered (plain0 .ready true) fun p => { p with pending := some fitting, loader := 4 }).stall 0;
      t.charter.pending.isSome = true ∧ t.charter.scheduled = false ∧ t.charter.swapAt = none ∧ t.march.lead = true)
    ∧ (let t := (chartered (plain0 .ready false) fun p => { p with pending := some fitting, loader := 4 }).stall 0;
      t.charter.pending.isSome = true ∧ t.march.lead = false) := by decide +kernel
/-- Some charter is accepted, one is refused for an item, one waits beside the running one. -/
theorem witness_ChartersAreCheckedBeforeTheyRun_accepted : regionsDiffer ((checked vacant fitting).stall 0) fitting = false
    ∧ ((checked vacant fitting).stall 0).charter.loader = 3
    ∧ (checkCharter (checked vacant fitting) 0 [] (captureCharter (checked vacant fitting) 0 fitting)).isNone = true := by decide +kernel
theorem witness_ChartersAreCheckedBeforeTheyRun_refused : regionsDiffer ((checked vacant bare).stall 0) bare = false
    ∧ (checkCharter (checked vacant bare) 0 [] (captureCharter (checked vacant bare) 0 bare)).isSome = true := by decide +kernel
def replacing : State := checked (marched fitting .ready false) fitting
theorem witness_ChartersAreCheckedBeforeTheyRun_replacing : (replacing.stall 0).march.state ≠ .empty ∧ (replacing.stall 0).march.lead = false
    ∧ (replacing.stall 0).charter.oddFields = []
    ∧ (checkCharter replacing 0 [] (captureCharter replacing 0 fitting)).isNone = true := by decide +kernel
theorem witness_ChartersAreCheckedBeforeTheyRun_words :
    (let s := chartered (plain0 .ready true) fun p => { p with pending := some fitting, loader := 4, epochs := [(0, 0, 0)] };
      (s.stall 0).march.lead = true ∧ ∀ m' ∈ fitting.members, isFenced (s.stall 0) m' = false →
        m' = 1 ∧ (0 : Word) = fitting.epoch ∨ m' ≠ 1 ∧ ∃ e ∈ (s.stall 0).charter.epochs, e.1 = m' ∧ e.2.1 = fitting.epoch)
    ∧ Allowed vacant (.link 0) (charterOff 0 0x44) ∧ slotLocked (vacant.stall 0) (vacant.stall 0).charter.portSlot = false
    ∧ (vacant.stall 0).charter.portWord.toNat < slotWords
    ∧ slotWords ≤ ((chartered vacant fun p => { p with portWord := BitVec.ofNat 28 slotWords }).stall 0).charter.portWord.toNat := by
  unfold Allowed; decide +kernel
theorem witness_ChartersAreCheckedBeforeTheyRun_plain (k : Nat) :
    Plain vacant (.near ((vacant.stall 0).page.comp.nearFirst.toNat) k) := plain_of_quiet (by decide +kernel) _

/-- A region record: index, kind, place in the space, size; near memory, guarded, readable and writable. -/
def regionOf (ix kind va size : Nat) : BitVec 256 := fields [(0, ix), (10, 1), (13, kind), (17, 3), (32, va), (80, size), (128, 4)]
/-- A charter whose member keeps checkpoints in a space of some size. -/
def keeping (space self : Nat) : Charter := { bare with
  regions := [regionOf 0 0 0x1000 0x100, regionOf 1 3 0x2000 space]
  buckets := [fields [(0, 6), (32, 2), (48, 1), (64, 0x1100), (112, 2), (128, 0x1200), (176, 7), (192, 1)]]
  tariffBase := 0x10F0, caravan := fields [(72, self), (80, 0), (88, 1), (96, 1), (136, 1)] }
def keeps (space self : Nat) (f : Service → Service) : State :=
  (((marched (keeping space self) .ready (self == 0)).modCustoms 0 fun c => { c with
      regions := [(0, { valid := true, tier := 1, perm := 3, va := 0x1000, size := 0x9000, place := 4 })] }).modMarch 0 fun m => { m with
    member := BitVec.ofNat 7 self }).modService 0 f
theorem witness_CheckpointsAreWrittenAndRestored :
    (let s := keeps 0x2300 0 fun v => { v with ckptState := 1 };
      (s.stall 0).service.ckptState = 1 ∧ oneGeneration (keeping 0x2300 0) = true ∧ (s.stall 0).charter.active = some (keeping 0x2300 0))
    ∧ (let s := keeps 0x2300 64 fun v => { v with mirrorMember := 1, mirrorMarch := 7 };
      (s.stall 0).service.mirrorMember = 1 ∧ 64 ≤ (s.stall 0).march.member.toNat ∧ (s.stall 0).service.mirrorMember ≠ 0x7F
      ∧ (s.stall 0).service.mirrorMarch = 7)
    ∧ (let s := keeps 0x2300 1 fun v => { v with mirrorMember := 1, mirrorMarch := 7 }; (s.stall 0).march.member.toNat < 64)
    ∧ (List.replicate 88 (3 : Byte)).length = 88 ∧ oneGeneration (keeping 0x1000 0) = false
    ∧ Allowed (keeps 0x2300 0 id) (.link 0) (faultOff 0 0) ∧ ((keeps 0x2300 0 id).stall 0).march.lead = true
    ∧ (∀ j, ((keeps 0x2300 0 id).stall j).march.state ≠ .legs) ∧ ((keeps 0x2300 0 id).stall 0).march.state = .ready
    ∧ ((keeps 0x2300 1 id).stall 0).march.lead = false
    ∧ restoreFrom (keeps 0x1000 0 id) 0 (keeping 0x1000 0) 9 = none
    ∧ Allowed (keeps 0x2300 0 id) (.link 0) (faultOff 0 0x18) := by unfold Allowed; decide +kernel

theorem witness_CheckpointsAreWrittenAndRestored_mirror :
    (let t := (standing .settle 7).stall 0;
      64 ≤ t.march.member.toNat ∧ t.service.mirrorMember ≠ 0x7F ∧ t.service.mirrorCurrent = true ∧ t.service.mirrorMarch = 7
      ∧ t.march.num = 7 ∧ t.seq.settles = true ∧ t.seq.finished = false ∧ t.seq.ended = false ∧ idleStandby t = true)
    ∧ (let t := (standing .legs 6).stall 0;
      t.service.mirrorMarch = 6 ∧ t.march.num = 6 + 1 ∧ t.settle.started = false ∧ idleStandby t = true)
    ∧ (let t := (led (standing .settle 7) fun l => { l with subst := [(1, 64)] }).stall 0;
      idleStandby t = false ∧ t.seq.settles = true ∧ ∀ n < working.settle.length, hasRun t (.settle n) = false) := by decide +kernel

/-- A machine whose core 3 of die 0 has been replaced. -/
def spared : State := after (.permanentCoreFault 0 3 0x0A01) (plain0 .legs true)
/-- Core 5 of die 0 fails after the spare has gone. -/
def bereft : State := after (.permanentCoreFault 0 5 0x0A01) spared
def tolled (s : State) (f : Tollgate → Tollgate) : State := { s with tollgate := f s.tollgate }

theorem witness_FailedUnitsAreReplacedOrLost :
    qmRestarting (plain0 .legs true) 0 = false ∧ slotOfPc ((plain0 .legs true).anatomy.dies.get 0) 3 = some 3
    ∧ spareOf ((plain0 .legs true).anatomy.dies.get 0) = some 8
    ∧ coreStall (plain0 .legs true) (slotCore 0 3) = some 0 ∧ bit bare.cores (slotCore 0 3).val = true
    ∧ (plain0 .legs true).anatomy.d2d.get 3 = false
    ∧ ((plain0 .legs true).anatomy.dies.get 0).map.get 3 = BitVec.ofNat 4 (3 : Fin 9).val ∧ (plain0 .legs true).anatomy.osc156 = true
    ∧ ((plain0 .legs true).stall 0).page.comp.owner.isSome = true ∧ starting (plain0 .legs true) = false
    ∧ (plain0 .legs true).power.state = 2 ∧ (plain0 .legs true).anatomy.heldFaults = []
    ∧ ((posted (plain0 .legs true) false 5 0 []).post 0 false 5).full = true := by decide +kernel
theorem witness_FailedUnitsAreReplacedOrLost_again : spareOf (spared.anatomy.dies.get 0) = none
    ∧ slotOfPc (spared.anatomy.dies.get 0) 3 = none ∧ slotOfPc (spared.anatomy.dies.get 0) 5 = some 5
    ∧ (bereft.anatomy.dies.get 0).map.get 5 = 0xF ∧ qmRestarting (tolled (plain0 .legs true) fun g => { g with restarting := some 2 }) 0 = true := by
  decide +kernel
def unlinked : State := { up with anatomy := { up.anatomy with d2d := up.anatomy.d2d.set 3 true } }
theorem witness_FailedUnitsAreReplacedOrLost_link : unlinked.anatomy.d2d.get 3 = true ∧ unlinked.anatomy.d2d.get 4 = false := by decide +kernel
/-- A batch of copy engine 0 that has moved two pieces of two bytes. -/
def halfBatch : Batch :=
  { first := 0, cbase := 0x1200, counts := [6], recorded := false, tags := [1], verdict := 0, reason := 0, notify := false
    moved := [{ desc := 0, src := none, dst := 0x1300, old := [1, 2] }, { desc := 0, src := none, dst := 0x1304, old := [3, 4] }] }
def halfway : State := (mapped (plain0 .legs true)).modEngine 0 fun k => { k with batch := some halfBatch }
theorem witness_FailedUnitsAreReplacedOrLost_denied :
    (match (halfway.engine 0).batch with
      | some b => !b.recorded && b.verdict != 2 && (b.moved.findIdx? fun m => m.touches 0x1304) == some 1
      | none => false) = true
    ∧ (halfway.engine 0).state ≠ 4 ∧ failedLately halfway (0x0701 + BitVec.ofNat 16 (0x1000 * 0)) = false
    ∧ ((plain0 .legs true).engine 0).batch = none ∧ (halfway.stall 0).march.state = .legs := by decide +kernel
theorem witness_FailedUnitsAreReplacedOrLost_plain : PlainAt halfway 0 (fun a => 0x1304 ≤ a ∧ a < 0x1306) :=
  plainAt_of_range (lo := 0x1304) (o := 0x304) (n := 2) (by decide +kernel) (fun _ h => h)

def tapped (f : Tap → Tap) : State := { up with tap := f up.tap }
def queued (s : State) (l : List (BitVec 4)) (k : Option (BitVec 4)) : State := tolled s fun g => { g with restart := l, restarting := k }
theorem witness_ComponentsRestartInTurn : (queued (plain0 .ready true) [1, 2] none).tollgate.restarting = none
    ∧ (∀ i, ((queued (plain0 .ready true) [1, 2] none).stall i).march.state ≠ .legs
      ∧ ((queued (plain0 .ready true) [1, 2] none).stall i).march.state ≠ .verdict)
    ∧ ((queued (plain0 .legs true) [1, 2] none).stall 0).march.state = .legs := by decide +kernel
theorem witness_ComponentsRestartInTurn_running : (queued up [2, 6] (some 2)).tollgate.restarting = some 2
    ∧ (queued up [2, 6] (some 2)).anatomy.heldFaults = [] ∧ (∀ i, ((queued up [6] (some 6)).stall i).charter.loader ≠ 1)
    ∧ (queued up [2, 6] (some 2)).time.toNat ≤ (queued up [2, 6] (some 2)).tollgate.restartAt.toNat + restartLimit 2
    ∧ (let s := queued { up with time := 90000000000 } [6] (some 6); s.tollgate.restartAt.toNat + restartLimit 6 < s.time.toNat)
    ∧ starting State.reset = true ∧ starting up = false ∧ up.power.state = 2 ∧ up.tollgate.restarting ≠ some 6 := by decide +kernel
theorem witness_ComponentsRestartInTurn_tap :
    ¬(up.tap.instr = 3 ∧ up.tollgate.debugFull = true ∧ up.tap.state = .captureDr) ∧ up.tap.tck = false
    ∧ (tapped fun x => { x with state := .shiftDr, shift := [true, false] }).tap.shift ≠ []
    ∧ (tapped fun x => { x with state := .captureDr, instr := 0 }).tap.instr = 0
    ∧ (let s := tapped fun x => { x with state := .updateIr, irShift := [true, true, true, true], tck := true };
      s.tap.tck = true ∧ s.tap.state = .updateIr ∧ ∀ b ∈ s.tap.irShift, b = true)
    ∧ (let s := tolled (tapped fun x => { x with state := .captureDr, instr := 3 }) fun g => { g with debugFull := true };
      s.tap.instr = 3 ∧ s.tollgate.debugFull = true ∧ s.tap.state = .captureDr ∧ s.tap.tck = false)
    ∧ ({ up with power := { up.power with aux := true } } : State).power.aux = true
    ∧ ({ up with power := { up.power with aux := false } } : State).power.aux = false := by decide +kernel

end Sys2Proof.Tests
end

section
/-! PROOFS. The control window (R8 to R11): what its commands are made of, what a write and a read of each kind of register
do, and the statements about the window. -/

namespace Sys2Proof.Machine

open Sys2Proof.Safety

/-! ### The commands of the window -/

theorem runs_of_exec {c : Instr} {s t : State} {post : State → Prop} (he : exec c s = .next t) (hp : post t) :
    Runs c s post :=
  ⟨t, he, hp⟩

/-- No register but those of the DEBUG block meets an open debug path (R418). -/
theorem meetsDebug_of_not_debug {s : State} {r : Requester} {off : BitVec 26} (h : ∀ o, regOf off ≠ .debug o) :
    meetsDebug s r off = false := by
  unfold meetsDebug
  split
  · next o e => exact absurd e (h o)
  · rfl

/-- An allowed write of the window is performed. -/
theorem hostWrite_allowed {s : State} {r : Requester} {off : BitVec 26} (v : Word) (h : Allowed s r off) :
    s.hostWrite r off v = writeReg r off v s :=
  guardWrite_allowed _ h

theorem hostWrite_foreign {s : State} {l : LinkId} {off : BitVec 26} {c : BitVec 4} (v : Word)
    (h : writeAccess s (.link l) (regOf off) = .foreign c) : s.hostWrite (.link l) off v = s.foreignWrite l off c := by
  simp only [State.hostWrite, State.guardWrite, h]

section commands
variable {s : State} {r : Requester} {off : BitVec 26}

theorem exec_registerWrite (v : Word) (h : meetsDebug s r off = false) :
    exec (.registerWrite r off v) s = .next (s.hostWrite r off v) := by
  change execRegisterWrite r off v s = _
  simp [execRegisterWrite, h]

theorem exec_writeLowHalf (v : Word) (h : meetsDebug s r off = false) :
    exec (.writeLowHalf r off v) s = .next (s.hostWrite r off v) := by
  change execWriteLowHalf r off v s = _
  simp [execWriteLowHalf, h]

theorem exec_writeHighHalf (v : Word) (h : meetsDebug s r off = false) :
    exec (.writeHighHalf r off v) s = .next (s.hostWrite r off v) := by
  change execWriteHighHalf r off v s = _
  simp [execWriteHighHalf, h]

theorem exec_w1cWrite (v sets : Word) (h : meetsDebug s r off = false) :
    exec (.w1cWrite r off v sets) s = .next (setW1c (regOf off) sets (s.hostWrite r off v)) := by
  change execW1cWrite r off v sets s = _
  simp [execW1cWrite, h]

theorem exec_readLowHalf (h : meetsDebug s r off = false) :
    exec (.readLowHalf r off) s = .next { (readReg s r off 0).2 with data := (readReg s r off 0).1 } := by
  change execReadLowHalf r off s = _
  simp [execReadLowHalf, h]

theorem exec_rcRead (events : Word) (h : meetsDebug s r off = false) :
    exec (.rcRead r off events) s = .next { (readReg s r off events).2 with data := (readReg s r off events).1 } := by
  change execRcRead r off events s = _
  simp [execRcRead, h]

/-! ### What a taken write does -/

theorem writeReg_busy (v : Word) (h : testBusy s (regOf off) = true) : writeReg r off v s = s := by
  simp [writeReg, h]

theorem writeReg_low (v : Word) (hb : testBusy s (regOf off) = false) (hl : writableLow (regOf off) = true) :
    writeReg r off v s = s.holdLow r off v := by
  simp [writeReg, hb, hl]

theorem writeReg_high (v : Word) (hb : testBusy s (regOf off) = false) (hl : writableLow (regOf off) = false)
    (hh : writableHigh (regOf off) = true) :
    writeReg r off v s = commitPair (regOf off) (joinHalves (s.heldLow r (off - 4)) v) s := by
  simp [writeReg, hb, hl, hh]

theorem writeReg_alone (v : Word) (hb : testBusy s (regOf off) = false) (hl : writableLow (regOf off) = false)
    (hh : writableHigh (regOf off) = false) : writeReg r off v s = writeAlone r (regOf off) v s := by
  simp [writeReg, hb, hl, hh]

end commands

/-! ### The halves of written pairs (R9, R278) -/

theorem not_debug_of_testBusy {s : State} {g : Reg} (h : testBusy s g = true) (o : Nat) : g ≠ .debug o := by
  rintro rfl
  cases h

theorem not_debug_of_writableLow {g : Reg} (h : writableLow g = true) (o : Nat) : g ≠ .debug o := by
  rintro rfl
  cases h

theorem not_debug_of_writableHigh {g : Reg} (h : writableHigh g = true) (o : Nat) : g ≠ .debug o := by
  rintro rfl
  cases h

/-- No register is both halves of a pair. -/
theorem writableLow_of_writableHigh {g : Reg} (h : writableHigh g = true) : writableLow g = false := by
  cases g <;> simp only [writableHigh, Bool.or_eq_true, beq_iff_eq, Bool.false_eq_true] at h
  case settle i o => subst h; rfl
  case lot i o => obtain rfl | rfl := h <;> rfl
  case copy e o => obtain rfl | rfl := h <;> rfl
  case route p o => subst h; rfl

theorem unchanged_holdLow (s : State) (r : Requester) (off : BitVec 26) (v : Word) :
    Unchanged s (s.holdLow r off v) [.held] :=
  unchanged_set_held _ (by simp) (unchanged_refl s _)

/-- Settles O6: a write of a half goes through `writeReg`, whose cases are the three of the statement. -/
theorem pairsAreWrittenWhole : Obligations.PairsAreWrittenWhole := by
  intro s r off v ha
  refine ⟨fun hb => ?_, fun hl hb => ?_, fun hh hb => ?_⟩
  · have hd := meetsDebug_of_not_debug (s := s) (r := r) (not_debug_of_testBusy hb)
    rw [exec_writeLowHalf v hd, exec_writeHighHalf v hd, hostWrite_allowed v ha, writeReg_busy v hb]
    exact ⟨rfl, rfl⟩
  · refine runs_of_exec (exec_writeLowHalf v (meetsDebug_of_not_debug (not_debug_of_writableLow hl))) ?_
    rw [hostWrite_allowed v ha, writeReg_low v hb hl]
    exact ⟨heldLow_holdLow_self s r off v, fun r' off' hne => heldLow_holdLow_other s r r' off off' v hne,
      unchanged_holdLow s r off v⟩
  · rw [exec_writeHighHalf v (meetsDebug_of_not_debug (not_debug_of_writableHigh hh)), hostWrite_allowed v ha,
      writeReg_high v hb (writableLow_of_writableHigh hh) hh]

/-! ### Registers that stand alone (R8) -/

/-- A register that takes a written value by itself: no half of a pair that can be written, no LOT_TEST register during a
test (R278), and none of the DEBUG block. -/
def StandsAlone (s : State) (g : Reg) : Prop :=
  testBusy s g = false ∧ writableLow g = false ∧ writableHigh g = false ∧ ∀ o, g ≠ .debug o

section alone
variable {s : State} {r : Requester} {off : BitVec 26} {g : Reg}

theorem StandsAlone.meetsDebug_eq (h : StandsAlone s g) (hg : regOf off = g) : meetsDebug s r off = false := by
  obtain ⟨-, -, -, hd⟩ := h
  exact meetsDebug_of_not_debug (hg ▸ hd)

theorem StandsAlone.hostWrite_eq (h : StandsAlone s g) (hg : regOf off = g) (ha : Allowed s r off) (v : Word) :
    s.hostWrite r off v = writeAlone r g v s := by
  subst hg
  obtain ⟨hb, hl, hh, -⟩ := h
  rw [hostWrite_allowed v ha, writeReg_alone v hb hl hh]

theorem StandsAlone.exec_registerWrite_eq (h : StandsAlone s g) (hg : regOf off = g) (ha : Allowed s r off) (v : Word) :
    exec (.registerWrite r off v) s = .next (writeAlone r g v s) := by
  rw [exec_registerWrite v (h.meetsDebug_eq hg), h.hostWrite_eq hg ha]

theorem StandsAlone.exec_w1cWrite_eq (h : StandsAlone s g) (hg : regOf off = g) (ha : Allowed s r off) (v sets : Word) :
    exec (.w1cWrite r off v sets) s = .next (setW1c g sets (writeAlone r g v s)) := by
  rw [exec_w1cWrite v sets (h.meetsDebug_eq hg), h.hostWrite_eq hg ha, hg]

end alone

/-! ### Foreign writes (R381) -/

/-- A foreign write other than NOT_SECURE is counted at its link, and nothing else happens. -/
theorem foreignWrite_of_ne {c : BitVec 4} (s : State) (l : LinkId) (off : BitVec 26) (hc : c ≠ 3) :
    s.foreignWrite l off c = s.modHost l fun h => { h with
      foreign := satAdd h.foreign 1, foreignLast := put c 28 ||| put (fld off 2 24) 2 } := by
  unfold State.foreignWrite
  rw [if_neg hc]

/-- Settles O10: the guard splits a write by its access; of the registers named, each stands alone. -/
theorem windowWritesAreGuarded : Obligations.WindowWritesAreGuarded := by
  intro s r off v
  refine ⟨fun hd ha => ?_, fun l c hr hd hf hc => ?_, fun i ha => ?_, fun i ha => ?_, fun i ha => ?_, fun hg ha => ?_,
    fun hd => ?_⟩
  · rw [exec_registerWrite v hd, hostWrite_allowed v ha]
  · subst hr
    refine runs_of_exec (exec_registerWrite v hd) ?_
    rw [hostWrite_foreign v hf, foreignWrite_of_ne s l off hc]
    exact ⟨by simp, by simp, unchanged_modHost _ (by simp) (unchanged_refl s _)⟩
  · have alone : StandsAlone s (.march i 0x2C) := ⟨rfl, rfl, rfl, nofun⟩
    refine runs_of_exec (alone.exec_registerWrite_eq (regOf_marchOff i _ (by decide)) ha v) ?_
    exact ⟨State.modMarch_march s i _, unchanged_modMarch _ (by simp) (unchanged_refl s _)⟩
  · have alone : StandsAlone s (.stall i 0x1C) := ⟨rfl, rfl, rfl, nofun⟩
    refine runs_of_exec (alone.exec_registerWrite_eq (regOf_stallOff i _ (by decide)) ha v) ?_
    exact ⟨State.modPage_page s i _, unchanged_modPage _ (by simp) (unchanged_refl s _)⟩
  · have alone : StandsAlone s (.settle i 0x0C) := ⟨rfl, rfl, rfl, nofun⟩
    exact alone.exec_registerWrite_eq (regOf_settleOff i _ (by decide)) ha v
  · have alone : StandsAlone s .hole := ⟨rfl, rfl, rfl, nofun⟩
    exact alone.exec_registerWrite_eq hg ha v
  · change execRegisterWrite r off v s = _
    rw [execRegisterWrite, if_pos hd]

/-! ### Bits that a written one clears (R11) -/

section w1c
variable (s : State) (r : Requester) (v sets : Word)

theorem marchState_w1c (i : Stall) :
    let t := setW1c (.march i 0x04) sets (writeAlone r (.march i 0x04) v s)
    (t.stall i).march.cmdIgnored = ((s.stall i).march.cmdIgnored && !bit v 6 || bit sets 6)
      ∧ Unchanged s t [.stall i .march] := by
  simp only [setW1c, writeAlone, writeMarchReg, State.ignored]
  cases bit v 6 <;> cases bit sets 6 <;> simp

theorem charterState_w1c (i : Stall) :
    let t := setW1c (.charter i 0x04) sets (writeAlone r (.charter i 0x04) v s)
    (t.stall i).charter.cmdIgnored = ((s.stall i).charter.cmdIgnored && !bit v 7 || bit sets 7)
      ∧ Unchanged s t [.stall i .charter] := by
  simp only [setW1c, writeAlone, writeCharterReg, State.loaderIgnores]
  cases bit v 7 <;> cases bit sets 7 <;> simp

theorem ledgerAudit_w1c (i : Stall) :
    let t := setW1c (.ledger i 0x40) sets (writeAlone r (.ledger i 0x40) v s)
    (t.stall i).ledger.auditFail = ((s.stall i).ledger.auditFail && !bit v 31 || bit sets 31)
      ∧ Unchanged s t [.stall i .ledger] := by
  simp only [setW1c, writeAlone, writeLedgerReg]
  cases bit v 31 <;> cases bit sets 31 <;> simp

theorem tallyAlarm_w1c (i : Stall) :
    let t := setW1c (.tally i 0x0C) sets (writeAlone r (.tally i 0x0C) v s)
    (t.stall i).tally.alarm = ((s.stall i).tally.alarm &&& ~~~(fld v 0 4)) ||| fld sets 0 4
      ∧ Unchanged s t [.stall i .tally] := by
  simp [setW1c, writeAlone, writeTallyReg]

theorem banditDenied_w1c (p : PortId) :
    let t := setW1c (.route p 0x00) sets (writeAlone r (.route p 0x00) v s)
    (t.port p).banditDenied = ((s.port p).banditDenied && !bit v 18 || bit sets 18) ∧ Unchanged s t [.port p] := by
  simp only [setW1c, writeAlone, writeRouteReg]
  cases bit v 18 <;> cases bit sets 18 <;> simp

theorem portAudit_w1c (p : PortId) :
    let t := setW1c (.route p 0x2C) sets (writeAlone r (.route p 0x2C) v s)
    (t.port p).auditFail = ((s.port p).auditFail && !bit v 31 || bit sets 31) ∧ Unchanged s t [.port p] := by
  simp only [setW1c, writeAlone, writeRouteReg]
  cases bit v 31 <;> cases bit sets 31 <;> simp

/-- PWR_ALARM and ALERT_N change together. -/
theorem unchanged_set_powerPins {s t : State} (x : Power) (y : Pins) (h : Unchanged s t [.power, .pins]) :
    Unchanged s { t with power := x, pins := y } [.power, .pins] :=
  unchanged_set_pins y (by simp) (unchanged_set_power x (by simp) h)

/-- ALERT_N follows the alarms (R436, R448). -/
theorem powerAlarm_w1c :
    let t := setW1c (.power 0x04) sets (writeAlone r (.power 0x04) v s)
    t.power.alarm = (s.power.alarm &&& ~~~(fld v 0 9)) ||| fld sets 0 9
      ∧ t.pins.alertN = (t.power.alarm == 0) ∧ Unchanged s t [.power, .pins] := by
  refine ⟨rfl, rfl, ?_⟩
  have written := unchanged_set_powerPins (writePowerReg 0x04 v s).power (writePowerReg 0x04 v s).pins (unchanged_refl s _)
  exact unchanged_set_powerPins _ _ written

end w1c

/-- Settles O9: each W1C register stands alone, and what it does is said by its lemma above. -/
theorem writtenOnesClear : Obligations.WrittenOnesClear := by
  intro s r v sets i p
  refine ⟨fun ha => ?_, fun ha => ?_, fun ha => ?_, fun ha => ?_, fun ha => ?_, fun ha => ?_, fun ha => ?_⟩
  · have alone : StandsAlone s (.march i 0x04) := ⟨rfl, rfl, rfl, nofun⟩
    exact runs_of_exec (alone.exec_w1cWrite_eq (regOf_marchOff i _ (by decide)) ha v sets) (marchState_w1c s r v sets i)
  · have alone : StandsAlone s (.charter i 0x04) := ⟨rfl, rfl, rfl, nofun⟩
    exact runs_of_exec (alone.exec_w1cWrite_eq (regOf_charterOff i _ (by decide)) ha v sets) (charterState_w1c s r v sets i)
  · have alone : StandsAlone s (.ledger i 0x40) := ⟨rfl, rfl, rfl, nofun⟩
    exact runs_of_exec (alone.exec_w1cWrite_eq (regOf_ledgerOff i _ (by decide)) ha v sets) (ledgerAudit_w1c s r v sets i)
  · have alone : StandsAlone s (.tally i 0x0C) := ⟨rfl, rfl, rfl, nofun⟩
    exact runs_of_exec (alone.exec_w1cWrite_eq (regOf_tallyOff i _ (by decide)) ha v sets) (tallyAlarm_w1c s r v sets i)
  · have alone : StandsAlone s (.route p 0x00) := ⟨rfl, rfl, rfl, nofun⟩
    exact runs_of_exec (alone.exec_w1cWrite_eq (regOf_routeOff p _ (by decide)) ha v sets) (banditDenied_w1c s r v sets p)
  · have alone : StandsAlone s (.route p 0x2C) := ⟨rfl, rfl, rfl, nofun⟩
    exact runs_of_exec (alone.exec_w1cWrite_eq (regOf_routeOff p _ (by decide)) ha v sets) (portAudit_w1c s r v sets p)
  · have alone : StandsAlone s (.power 0x04) := ⟨rfl, rfl, rfl, nofun⟩
    exact runs_of_exec (alone.exec_w1cWrite_eq (by decide) ha v sets) (powerAlarm_w1c s r v sets)

/-! ### The halves of read pairs (R10) -/

/-- The high half of a pair begins no other pair and is not the relay's event register, and neither half is a counter. -/
theorem lowHalf_apart {g : Reg} (r : Requester) (h : lowHalf g = true) :
    lowHalf (nextReg g) = false ∧ nextReg g ≠ .route 0 0x8010 ∧ rcHome r g = none ∧ rcHome r (nextReg g) = none := by
  cases g <;> simp only [lowHalf, Bool.or_eq_true, beq_iff_eq, Bool.false_eq_true] at h
  case march i o => obtain (rfl | rfl) | rfl := h <;> exact ⟨rfl, nofun, rfl, rfl⟩
  case charter i o => obtain ((rfl | rfl) | rfl) | rfl := h <;> exact ⟨rfl, nofun, rfl, rfl⟩
  case settle i o => obtain rfl | rfl := h <;> exact ⟨rfl, nofun, rfl, rfl⟩
  case lot i o => obtain rfl | rfl := h <;> exact ⟨rfl, nofun, rfl, rfl⟩
  case copy e o => obtain (rfl | rfl) | rfl := h <;> exact ⟨rfl, nofun, rfl, rfl⟩
  case core k o => obtain (((rfl | rfl) | rfl) | rfl) | rfl := h <;> exact ⟨rfl, nofun, rfl, rfl⟩
  case route p o => obtain (rfl | rfl) | rfl := h <;> exact ⟨rfl, nofun, rfl, rfl⟩
  case near k o => obtain rfl | rfl := h <;> exact ⟨rfl, nofun, rfl, rfl⟩
  case serai k o => obtain rfl | rfl := h <;> exact ⟨rfl, nofun, rfl, rfl⟩
  case customs i o => subst h; exact ⟨rfl, nofun, rfl, rfl⟩
  case faultPage i o => obtain (rfl | rfl) | rfl := h <;> exact ⟨rfl, nofun, rfl, rfl⟩

theorem not_debug_of_lowHalf {g : Reg} (h : lowHalf g = true) (o : Nat) : g ≠ .debug o ∧ nextReg g ≠ .debug o := by
  cases g
  case debug => cases h
  all_goals exact ⟨nofun, nofun⟩

section reads
variable {s : State} {r : Requester} {off : BitVec 26}

/-- A read of a low half answers it and captures the high half. -/
theorem readReg_low (events : Word) (hl : lowHalf (regOf off) = true) (hr : mayRead s r (regOf off) = true) :
    readReg s r off events = (loHalf (pairValue s r off), s.capture r (off + 4) (hiHalf (pairValue s r off))) := by
  have hq : regOf off ≠ .route 0 0x8010 := fun e => by rw [e] at hl; cases hl
  simp [readReg, hl, hr, hq]

/-- A read of a high half that has been captured answers what was captured, and uses it up. -/
theorem readReg_captured {x : Word} (events : Word) (hl : lowHalf (regOf off) = true)
    (hr : mayRead s r (regOf (off + 4)) = true) (hc : lookupKey (halfKey r (off + 4)) s.caught = some x) :
    readReg s r (off + 4) events = (x, { s with caught := eraseKey (halfKey r (off + 4)) s.caught }) := by
  obtain ⟨hn, hq, -, -⟩ := lowHalf_apart r hl
  rw [← regOf_high off hl] at hn hq
  simp only [readReg, hn, hr, hq, hl, hc, BitVec.add_sub_cancel, Bool.not_true, Bool.false_eq_true, if_false, if_true]

end reads

theorem lookupKey_capture (s : State) (r : Requester) (off : BitVec 26) (x : Word) :
    lookupKey (halfKey r off) (s.capture r off x).caught = some x :=
  lookupKey_insertKey_self _ _ _

/-- Settles O7: the captured half waits under the requester's key until its next read of the high half. -/
theorem pairReadsAreConsistent : Obligations.PairReadsAreConsistent := by
  intro s r off hl hr pair
  have noDebugLow := meetsDebug_of_not_debug (s := s) (r := r) fun o => (not_debug_of_lowHalf hl o).1
  refine runs_of_exec (exec_readLowHalf noDebugLow) ?_
  rw [readReg_low 0 hl hr]
  refine ⟨rfl, unchanged_set_data _ (by simp) (unchanged_set_caught _ (by simp) (unchanged_refl s _)),
    fun u hu hru => ?_⟩
  have noDebugHigh : meetsDebug u r (off + 4) = false :=
    meetsDebug_of_not_debug fun o => regOf_high off hl ▸ (not_debug_of_lowHalf hl o).2
  have captured : lookupKey (halfKey r (off + 4)) u.caught = some (hiHalf pair) := hu ▸ lookupKey_capture s r (off + 4) _
  refine runs_of_exec (exec_readLowHalf noDebugHigh) ?_
  rw [readReg_captured 0 hl hru captured]
  exact ⟨rfl, unchanged_set_data _ (by simp) (unchanged_set_caught _ (by simp) (unchanged_refl u _))⟩

/-! ### Counters that a read clears (R11) -/

/-- A counter is no half of a pair, so its read answers the value and leaves the events of the cycle. -/
theorem readReg_counter {s : State} {r : Requester} {off : BitVec 26} {p : Part} (events : Word)
    (hp : rcHome r (regOf off) = some p) (hr : mayRead s r (regOf off) = true) :
    readReg s r off events = (regValue s r (regOf off), setCounter r (regOf off) events s) := by
  have hq : regOf off ≠ .route 0 0x8010 := fun e => by rw [e] at hp; cases hp
  have hlow : lowHalf (regOf off) = false := by
    refine Bool.eq_false_iff.mpr fun h => ?_
    obtain ⟨-, -, hn, -⟩ := lowHalf_apart r h
    rw [hn] at hp
    cases hp
  have hhigh : lowHalf (regOf (off - 4)) = false := by
    refine Bool.eq_false_iff.mpr fun h => ?_
    obtain ⟨-, -, -, hn⟩ := lowHalf_apart r h
    rw [← regOf_high _ h, BitVec.sub_add_cancel, hp] at hn
    cases hn
  simp only [readReg, hr, hq, hlow, hhigh, Bool.not_true, Bool.false_eq_true, if_false]
  split
  · next q e => rw [e] at hp; cases hp
  · rfl

/-- The word of the last read is in no register of the window. -/
theorem regValue_set_data (s : State) (x : Word) (r : Requester) (g : Reg) :
    regValue { s with data := x } r g = regValue s r g := by
  cases g <;> rfl

theorem daValue_setDa (a : DenseArray) (v : Word) {o : Nat} (h : o = 0x04 ∨ o = 0x10 ∨ o = 0x14 ∨ o = 0x18 ∨ o = 0x1C) :
    daValue (setDa a o v) o = v := by
  obtain rfl | rfl | rfl | rfl | rfl := h <;> rfl

theorem gmeValue_setGme (g : Gme) (v : Word) {o : Nat} (h : o = 0x04 ∨ o = 0x10 ∨ o = 0x14 ∨ o = 0x18 ∨ o = 0x1C) :
    gmeValue (setGme g o v) o = v := by
  obtain rfl | rfl | rfl | rfl | rfl := h <;> rfl

theorem ledgerValue_setLedgerCounter {r : Requester} {i : Stall} {o : Nat} {p : Part} (s : State) (v : Word)
    (h : rcHome r (.ledger i o) = some p) : ledgerValue (s.modLedger i fun l => setLedgerCounter l o v) i o = v := by
  simp only [rcHome, Option.ite_none_right_eq_some] at h
  obtain ⟨rfl | rfl | rfl | rfl | rfl | rfl, -⟩ := h <;> simp [ledgerValue, setLedgerCounter]

theorem tallyValue_group (s : State) (i : Stall) {o : Nat} (h : 0x400 ≤ o ∧ o < 0x800 ∧ o % 4 = 0) :
    tallyValue s i o = (s.stall i).tally.groupNf.getD ((o - 0x400) / 4) 0 := by
  unfold tallyValue
  simp only []
  split
  case h_14 => exact if_pos h
  all_goals omega

theorem setTallyCounter_group (y : Tally) (v : Word) {o : Nat} (h : 0x400 ≤ o ∧ o < 0x800 ∧ o % 4 = 0) :
    setTallyCounter y o v = { y with
      groupNf := (List.range 256).map fun k => if k = (o - 0x400) / 4 then v else y.groupNf.getD k 0 } := by
  unfold setTallyCounter
  split
  case h_5 => exact if_pos h
  all_goals omega

theorem tallyValue_setTallyCounter {r : Requester} {i : Stall} {o : Nat} {p : Part} (s : State) (v : Word)
    (h : rcHome r (.tally i o) = some p) : tallyValue (s.modTally i fun y => setTallyCounter y o v) i o = v := by
  simp only [rcHome, Option.ite_none_right_eq_some] at h
  obtain ⟨rfl | rfl | rfl | rfl | hg, -⟩ := h
  · simp [tallyValue, setTallyCounter]
  · simp [tallyValue, setTallyCounter]
  · simp [tallyValue, setTallyCounter]
  · simp [tallyValue, setTallyCounter]
  · have hk : (o - 0x400) / 4 < 256 := by omega
    rw [tallyValue_group _ i hg, State.modTally_tally, setTallyCounter_group _ v hg]
    simp [List.getD, hk]

/-- The dense arrays and the gather-merge engines show their counters in eight words each, and the core the others. -/
theorem coreValue_setCoreCounter {r : Requester} {k : CoreId} {o : Nat} {p : Part} (s : State) (v : Word)
    (h : rcHome r (.core k o) = some p) : coreValue (s.modCore k fun x => setCoreCounter x o v) k o = v := by
  simp only [rcHome, Option.ite_none_right_eq_some] at h
  obtain ⟨rfl | rfl | rfl | rfl | rfl | rfl | rfl | rfl | rfl | rfl
    | rfl | rfl | rfl | rfl | rfl | rfl | rfl | rfl | rfl | rfl
    | rfl | rfl | rfl | rfl | rfl | rfl | rfl, -⟩ := h <;>
    simp [coreValue, setCoreCounter, daValue_setDa, gmeValue_setGme]

theorem post_modPost_self (s : State) (i : Stall) (secure : Bool) (n : Fin 24) (f : Post → Post)
    (h : secure = true → n.val < 8) : (s.modPost i secure n f).post i secure n = f (s.post i secure n) := by
  cases secure
  · simp [State.modPost, State.post]
  · simp [State.modPost, State.post, h rfl, Vector.getD]

/-- A secure post page has eight posts (R392). -/
def postInPage : Reg → Bool
  | .post _ true n _ => decide (n.val < 8)
  | _ => true

theorem postInPage_of_ne {g : Reg} (h : ∀ i n o, g ≠ .post i true n o) : postInPage g = true := by
  unfold postInPage
  split
  · next i n o => exact absurd rfl (h i n o)
  · rfl

theorem postReg_inPage (secure : Bool) (i : Stall) (o : Nat) : postInPage (postReg secure i o) = true := by
  simp only [postReg]
  split
  · cases secure
    · rfl
    · by_cases h : 8 ≤ o / 0x400
      · simp [h, postInPage]
      · simp [h, postInPage, Nat.lt_of_not_le h]
  · rfl

theorem pageOf_inPage {base o : Nat} {f : Stall → Nat → Reg} (h : ∀ i n, postInPage (f i n) = true) :
    postInPage (pageOf base o f) = true := by
  simp only [pageOf]
  split
  · exact h _ _
  · rfl

theorem unitBlock_inPage {m base o : Nat} {f : Fin m → Nat → Reg} (h : ∀ i n, postInPage (f i n) = true) :
    postInPage (unitBlock m base o f) = true := by
  simp only [unitBlock]
  split
  · exact h _ _
  · rfl

/-- Beyond the eight secure posts of a page the window has holes. -/
theorem regOf_inPage (off : BitVec 26) : postInPage (regOf off) = true := by
  simp only [regOf, apply_ite postInPage, apply_dite postInPage]
  simp [pageOf_inPage, unitBlock_inPage, postReg_inPage, postInPage_of_ne]

/-- An RC register reads as the value that its counter takes, and only the part that holds the counter changes. -/
theorem setCounter_spec {r : Requester} {g : Reg} {p : Part} (s : State) (v : Word) (hp : rcHome r g = some p)
    (hg : postInPage g = true) : regValue (setCounter r g v s) r g = v ∧ Unchanged s (setCounter r g v s) [p] := by
  have home := hp
  cases g <;> simp only [rcHome, Option.ite_none_right_eq_some, Option.some.injEq, reduceCtorEq] at hp
  case march i o =>
    obtain ⟨rfl | rfl, rfl⟩ := hp <;> simp [regValue, setCounter, marchValue]
  case charter i o =>
    obtain ⟨rfl | rfl | rfl, rfl⟩ := hp <;> simp [regValue, setCounter, charterValue]
  case ledger i o =>
    obtain ⟨-, rfl⟩ := hp
    exact ⟨ledgerValue_setLedgerCounter s v home, unchanged_modLedger _ (by simp) (unchanged_refl s _)⟩
  case settle i o =>
    obtain ⟨rfl | rfl, rfl⟩ := hp <;> simp [regValue, setCounter, settleValue]
  case tally i o =>
    obtain ⟨-, rfl⟩ := hp
    exact ⟨tallyValue_setTallyCounter s v home, unchanged_modTally _ (by simp) (unchanged_refl s _)⟩
  case copy e o =>
    obtain ⟨rfl | rfl | rfl, rfl⟩ := hp <;> simp [regValue, setCounter, copyValue]
  case core k o =>
    obtain ⟨-, rfl⟩ := hp
    exact ⟨coreValue_setCoreCounter s v home, unchanged_modCore _ (by simp) (unchanged_refl s _)⟩
  case route q o =>
    split at hp
    · next ho =>
      cases hp
      obtain rfl | rfl := ho <;> simp [regValue, setCounter, routeValue]
    · obtain ⟨rfl, hl⟩ := Option.ite_none_right_eq_some.mp hp
      cases hl
      simp [regValue, setCounter, routeValue]
  case stall i o =>
    obtain ⟨rfl | rfl | rfl | rfl, rfl⟩ := hp <;> simp [regValue, setCounter, stallValue]
  case link o =>
    cases r with
    | link l =>
      obtain ⟨ho, hl⟩ := Option.ite_none_right_eq_some.mp hp
      cases hl
      obtain rfl | rfl := ho <;> simp [regValue, setCounter, linkValue]
    | _ => cases hp
  case post i secure n o =>
    obtain ⟨rfl, rfl⟩ := hp
    have hn : secure = true → n.val < 8 := by
      rintro rfl
      simpa [postInPage] using hg
    refine ⟨?_, unchanged_modPost _ (by simp) (unchanged_refl s _)⟩
    simp only [regValue, setCounter, postValue, post_modPost_self s i secure n _ hn]
    rfl
  case customs i o =>
    obtain ⟨rfl, rfl⟩ := hp
    simp [regValue, setCounter, customsValue]

/-- A register that holds a counter is none of the DEBUG block. -/
theorem not_debug_of_rcHome {r : Requester} {g : Reg} {p : Part} (hp : rcHome r g = some p) (o : Nat) : g ≠ .debug o := by
  rintro rfl
  cases hp

/-- Settles O8: the read answers the register, and its counter takes the events of the cycle in its stead. -/
theorem countersClearWhenRead : Obligations.CountersClearWhenRead := by
  intro s r off events p hp hr
  obtain ⟨value, frame⟩ := setCounter_spec s events hp (regOf_inPage off)
  refine runs_of_exec (exec_rcRead events (meetsDebug_of_not_debug (not_debug_of_rcHome hp))) ?_
  rw [readReg_counter events hp hr]
  exact ⟨rfl, (regValue_set_data _ _ r _).trans value, unchanged_set_data _ (by simp) (Unchanged.mono frame (by simp))⟩

end Sys2Proof.Machine
end

section
/-! PROOFS. A Quartermaster's restart on a die that has lost a core without a spare. -/

namespace Sys2Proof.Machine

open Sys2Proof.Safety

/-- Out of bring-up, with its die's Quartermaster at work, a watchdog resets the Quartermaster (R395). -/
theorem exec_qmWatchdog {s : State} {d : DieId} (hs : starting s = false) (hq : qmRestarting s d = false)
    (hp : s.power.state = 2 ∨ s.power.state = 3) :
    exec (.qmWatchdog d) s = .next (((s.record { reason := 0x020B, cls := clsRepeat }).resetQm d).releaseFaults d) := by
  change execQmWatchdog d s = _
  obtain hp | hp := hp <;> simp [execQmWatchdog, hs, hq, hp]

/-- A module in ACTIVE whose die 0 has lost two cores: its spare took the first one's slot, and slot 1 is absent
(R18, R19). -/
def spentDie : State :=
  let active : State := { State.reset with power := { State.reset.power with state := 2 } }
  (active.failCore 0 0 0x0A01).failCore 0 1 0x0A01

theorem spentDie_slots : ((spentDie.anatomy.dies.get 0).map.get 0 = 8) ∧ (spentDie.anatomy.dies.get 0).map.get 1 = 0xF := by
  decide +kernel

/-- The arrays of the absent core are OFF after the Quartermaster's restart, not IDLE: nothing powers them. -/
theorem qmWatchdog_spentDie_off :
    (((((spentDie.record { reason := 0x020B, cls := clsRepeat }).resetQm 0).releaseFaults 0).core (slotCore 0 1)).da.get 0).state = 0 := by
  decide +kernel

/-- Refutes O59: a Quartermaster's restart leaves the arrays of an absent core (R19) OFF, where the statement has those of
every slot of the die IDLE. -/
theorem not_failedUnitsAreReplacedOrLost : ¬ Obligations.FailedUnitsAreReplacedOrLost := by
  intro h
  obtain ⟨-, -, -, -, -, -, -, -, restart, -⟩ := h spentDie
  have started : starting spentDie = false := by decide +kernel
  have active : spentDie.power.state = 2 := by decide +kernel
  have atWork : qmRestarting spentDie 0 = false := by decide +kernel
  have noneHeld : spentDie.anatomy.heldFaults = [] := by decide +kernel
  obtain ⟨t, ran, -, -, -, idle, -⟩ := (restart 0).1 started (.inl active) atWork (by simp [noneHeld])
  cases (exec_qmWatchdog started atWork (.inl active)).symm.trans ran
  obtain ⟨-, isIdle⟩ := idle 1 _ (Vector.mem_toList_iff.mpr (Vector.getElem_mem (i := 0) (by decide)))
  exact absurd (qmWatchdog_spentDie_off.symm.trans isIdle) (by decide)

end Sys2Proof.Machine
end

section
/-! PROOFS. Frames of the fit proofs and of the link layer, and what a port that goes down keeps. -/

namespace Sys2Proof.Machine

open Sys2Proof.Safety

variable {s t : State} {l : List Part}

/-! ### Frames -/

theorem Unchanged.trans {u : State} (h : Unchanged s t l) (h' : Unchanged t u l) : Unchanged s u l := by
  intro p hp
  have front := h p hp
  have back := h' p hp
  cases p with
  | stall i k => cases k <;> exact back.trans front
  | groups =>
    obtain ⟨a1, a2, a3, a4, a5, a6, a7⟩ := front
    obtain ⟨b1, b2, b3, b4, b5, b6, b7⟩ := back
    exact ⟨b1.trans a1, b2.trans a2, b3.trans a3, b4.trans a4, b5.trans a5, b6.trans a6, b7.trans a7⟩
  | delivered => exact ⟨back.1.trans front.1, back.2.trans front.2⟩
  | messages => exact ⟨back.1.trans front.1, back.2.trans front.2⟩
  | _ => exact Eq.trans back front

/-- Where no core is named, the cores stay, and so for the engines, the host links and the parts of the tiers. -/
theorem Unchanged.cores_eq (h : Unchanged s t l) (hl : ∀ k, Part.core k ∉ l) : t.cores = s.cores :=
  Vector.ext fun k hk => h (.core ⟨k, hk⟩) (hl _)

theorem Unchanged.engines_eq (h : Unchanged s t l) (hl : ∀ e, Part.engine e ∉ l) : t.engines = s.engines :=
  Vector.ext fun e he => h (.engine ⟨e, he⟩) (hl _)

theorem Unchanged.hosts_eq (h : Unchanged s t l) (hl : ∀ k, Part.host k ∉ l) : t.hosts = s.hosts :=
  Vector.ext fun k hk => h (.host ⟨k, hk⟩) (hl _)

theorem Unchanged.tiers_eq (h : Unchanged s t l) (hn : ∀ k, Part.stack k ∉ l) (hs : ∀ k, Part.channel k ∉ l)
    (hg : Part.groups ∉ l) (hw : Part.snoops ∉ l) : t.tiers = s.tiers := by
  have near : t.tiers.near = s.tiers.near := Vector.ext fun k hk => h (.stack ⟨k, hk⟩) (hn _)
  have serai : t.tiers.serai = s.tiers.serai := Vector.ext fun k hk => h (.channel ⟨k, hk⟩) (hs _)
  have snoops : t.tiers.snoops = s.tiers.snoops := h .snoops hw
  obtain ⟨groups, rebuilds, turn, seraiGroup, seraiRebuild, reads, failing⟩ := h .groups hg
  calc t.tiers
    _ = ⟨t.tiers.near, t.tiers.nearGroups, t.tiers.nearRebuilds, t.tiers.nearTurn, t.tiers.serai, t.tiers.seraiGroup,
          t.tiers.seraiRebuild, t.tiers.repeatReads, t.tiers.failing, t.tiers.snoops⟩ := rfl
    _ = s.tiers := by rw [near, groups, rebuilds, turn, serai, seraiGroup, seraiRebuild, reads, failing, snoops]

/-! ### Causes and fit proofs -/

section causes
variable {i : Stall} (code : BitVec 4) (reason : Reason)

theorem unchanged_causeNow (ho : Part.out ∈ l) (hq : Part.stall i .seq ∈ l) (h : Unchanged s t l) :
    Unchanged s (t.causeNow i code reason) l := by
  have noted := unchanged_modSeq (fun q => { q with
    causes := setBit q.causes code.toNat, reasons := addReason q.reasons code reason }) hq h
  have halted := unchanged_send (.halt i code reason) ho
    (unchanged_modSeq (fun q => { q with stopped := true }) hq (unchanged_modSeq (fun q => { q with haltKnown := true }) hq noted))
  unfold State.causeNow
  simp only []
  split
  · split
    · exact unchanged_send _ ho halted
    · exact halted
  · exact noted

theorem unchanged_causeNext (hq : Part.stall i .seq ∈ l) (h : Unchanged s t l) :
    Unchanged s (t.causeNext i code reason) l := unchanged_modSeq _ hq h

theorem unchanged_cause (ho : Part.out ∈ l) (hq : Part.stall i .seq ∈ l) (h : Unchanged s t l) :
    Unchanged s (t.cause i code reason) l := by
  have now := unchanged_causeNow code reason ho hq h
  have next := unchanged_causeNext code reason hq h
  unfold State.cause
  simp only []
  split
  · exact now
  · split
    · exact now
    · exact next
  · exact next
  · exact next
  · exact next
  · split
    · exact next
    · exact h
  · exact h

end causes

/-- What a repeated fit proof may change (R55, R56, R360). -/
def refitParts (i : Stall) : List Part := [.out, .stall i .march, .stall i .seq, .stall i .charter]

section refits
variable {i : Stall} (hl : ∀ q ∈ refitParts i, q ∈ l)
include hl

theorem unchanged_nofit (h : Unchanged s t l) : Unchanged s (t.nofit i) l := by
  have ho : Part.out ∈ l := hl _ (by simp [refitParts])
  have hq : Part.stall i .seq ∈ l := hl _ (by simp [refitParts])
  unfold State.nofit
  split
  · exact unchanged_causeNext _ _ hq h
  · exact unchanged_causeNext _ _ hq h
  · exact unchanged_cause _ _ ho hq h

theorem unchanged_refitActive (c : Charter) (h : Unchanged s t l) : Unchanged s (t.refitActive i c) l := by
  have hm : Part.stall i .march ∈ l := hl _ (by simp [refitParts])
  unfold State.refitActive
  split
  · exact unchanged_nofit hl (unchanged_modMarch _ hm h)
  · split
    · exact unchanged_nofit hl h
    · exact unchanged_modSeq _ (hl _ (by simp [refitParts])) (unchanged_modMarch _ hm h)

theorem unchanged_refitPending (c : Charter) (h : Unchanged s t l) : Unchanged s (t.refitPending i c) l := by
  have ho : Part.out ∈ l := hl _ (by simp [refitParts])
  have hc : Part.stall i .charter ∈ l := hl _ (by simp [refitParts])
  unfold State.refitPending
  extract_lets f u s1
  have dropped : Unchanged s s1 l :=
    unchanged_raiseEvent _ _ ho (unchanged_modCharter _ hc (unchanged_modCharter _ hc h))
  split
  · split
    · exact unchanged_modCharter _ hc dropped
    · exact unchanged_send _ ho dropped
  · exact h

theorem unchanged_refit (h : Unchanged s t l) : Unchanged s (t.refit i) l := by
  have active : Unchanged s (match (t.stall i).charter.active with | none => t | some c => t.refitActive i c) l := by
    split
    · exact h
    · exact unchanged_refitActive hl _ h
  unfold State.refit
  simp only []
  split
  · exact active
  · exact unchanged_refitPending hl _ active

end refits

/-! ### The link layer -/

/-- A frame that names the ports that are up, the link layer of every port, and what the flits of a link and their records
reach. A port that is down carries nothing, so the frame may leave it out. -/
def NamesTraffic (s : State) (l : List Part) : Prop :=
  Part.out ∈ l ∧ Part.log ∈ l ∧ (∀ q, Part.lnk q ∈ l) ∧ ∀ q, Part.port q ∈ l ∨ portUp s q = false

theorem NamesTraffic.port_mem (hn : NamesTraffic s l) (h : Unchanged s t l) {q : PortId} (hq : portUp t q = true) :
    Part.port q ∈ l := by
  obtain ⟨-, -, -, ports⟩ := hn
  refine (ports q).elim id fun down => by_contra fun hm => ?_
  have same : t.port q = s.port q := h (.port q) hm
  have up : portUp s q = true := by rwa [portUp, ← same]
  exact absurd (up.symm.trans down) (by decide)

section traffic
variable {p : PortId}

theorem unchanged_leaveBuffer (q : QueuedFlit) (ho : Part.out ∈ l) (hk : ∀ r, Part.lnk r ∈ l) (h : Unchanged s t l) :
    Unchanged s (t.leaveBuffer q) l := by
  unfold State.leaveBuffer State.freeBuffer
  split
  · exact unchanged_send _ ho (unchanged_modLnk _ (hk _) h)
  · exact h

theorem unchanged_emit (f : Flit) (ho : Part.out ∈ l) (hk : Part.lnk p ∈ l) (h : Unchanged s t l) :
    Unchanged s (t.emit p f) l := by
  have sent := unchanged_send (.flit p f) ho h
  unfold State.emit
  simp only []
  split
  · exact unchanged_modLnk _ hk (unchanged_send _ ho sent)
  · exact sent

theorem unchanged_countInjection (a : BitVec 2) (ho : Part.out ∈ l) (hm : Part.log ∈ l) (hk : Part.lnk p ∈ l)
    (h : Unchanged s t l) : Unchanged s (t.countInjection p a) l := by
  unfold State.countInjection
  extract_lets k a n due s1
  have h1 : Unchanged s s1 l := unchanged_modLnk _ hk h
  split
  · exact unchanged_record _ hm ho h1
  · exact h1

theorem unchanged_checkSwitch (hk : Part.lnk p ∈ l) (hp : Part.port p ∈ l) (h : Unchanged s t l) :
    Unchanged s (t.checkSwitch p) l := unchanged_modLnk _ hk (unchanged_modPort _ hp h)

theorem unchanged_transmit (f : Flit) (ho : Part.out ∈ l) (hm : Part.log ∈ l) (hk : Part.lnk p ∈ l) (hp : Part.port p ∈ l)
    (h : Unchanged s t l) : Unchanged s (t.transmit p f) l := by
  unfold State.transmit
  extract_lets k hd g kk s1 offered s2
  have h1 : Unchanged s s1 l := unchanged_modPort _ hp (unchanged_modLnk _ hk h)
  have h2 : Unchanged s s2 l := by
    unfold s2
    split
    · exact unchanged_modLnk _ hk h1
    · exact h1
  have h3 := unchanged_countInjection k.banditAction ho hm hk h2
  clear_value s2
  obtain ⟨x0, x1⟩ := banditDraw t p k.offered
  apply unchanged_checkSwitch hk hp
  simp only []
  split
  · exact unchanged_emit g ho hk h2
  · split
    · exact h3
    · split
      · exact unchanged_emit _ ho hk h3
      · split <;> exact unchanged_modLnk _ hk h3

theorem unchanged_pump (hn : NamesTraffic s l) (n : Nat) (h : Unchanged s t l) : Unchanged s (t.pump p n) l := by
  induction n generalizing t with
  | zero => exact h
  | succ n ih =>
    unfold State.pump
    simp only []
    split
    · exact h
    · next idle =>
      have up : portUp t p = true := by
        by_contra down
        exact idle (by simp [down])
      have hp := hn.port_mem h up
      obtain ⟨ho, hm, hk, -⟩ := hn
      split
      · exact h
      · next q _ => exact ih (unchanged_leaveBuffer q ho hk
          (unchanged_transmit _ ho hm (hk p) hp (unchanged_modLnk _ (hk p) h)))

theorem unchanged_queueFlits (hn : NamesTraffic s l) (fs : List QueuedFlit) (h : Unchanged s t l) :
    Unchanged s (t.queueFlits p fs) l :=
  have ⟨_, _, hk, _⟩ := hn
  unchanged_pump hn _ (unchanged_modLnk _ (hk p) h)

theorem unchanged_reroute (hn : NamesTraffic s l) (i : Stall) (c : Charter) (qs : List QueuedFlit) (h : Unchanged s t l) :
    Unchanged s (t.reroute i c qs) l := by
  refine unchanged_forEach _ _ (fun u q hu => ?_) h
  split
  · exact unchanged_queueFlits hn _ hu
  · obtain ⟨ho, -, hk, -⟩ := hn
    exact unchanged_leaveBuffer q ho hk hu

theorem unchanged_cutLink (st : BitVec 4) (hk : ∀ r, Part.lnk r ∈ l) (hp : Part.port p ∈ l) (h : Unchanged s t l) :
    Unchanged s (t.cutLink p st) l :=
  unchanged_forEach _ _ (fun _ r hu => unchanged_modLnk _ (hk r) hu) (unchanged_modLnk _ (hk p) (unchanged_modPort _ hp h))

end traffic

/-! ### Ports that go down -/

/-- What a port that goes down may change beside the port itself: what it sends and records, the link layers, the other
ports, and the marches and charters whose fit proofs are repeated. -/
def besidePort (p : PortId) : List Part :=
  [.out, .free, .log] ++ (List.finRange 8).map Part.lnk ++ ((List.finRange 8).filter (· ≠ p)).map Part.port
    ++ allStalls.flatMap refitParts

theorem mem_allStalls (i : Stall) : i ∈ allStalls := List.mem_finRange i

theorem refitParts_besidePort (p : PortId) (i : Stall) : ∀ q ∈ refitParts i, q ∈ besidePort p := by
  intro q hq
  have : q ∈ allStalls.flatMap refitParts := List.mem_flatMap.mpr ⟨i, mem_allStalls i, hq⟩
  simp [besidePort, this]

/-- A frame of a port that is down need not name it. -/
theorem namesTraffic_besidePort {p : PortId} (hp : portUp s p = false) : NamesTraffic s (besidePort p) := by
  refine ⟨by simp [besidePort], by simp [besidePort], fun q => by simp [besidePort], fun q => ?_⟩
  obtain rfl | hq := eq_or_ne q p
  · exact .inr hp
  · exact .inl (by simp [besidePort, hq])

/-- A port is down with the transmit lanes that it had, and beside it only what a port that goes down may change has
changed. -/
def DownFrom (s : State) (p : PortId) (t : State) : Prop :=
  (t.port p).state = 4 ∧ (t.port p).txLanes = (s.port p).txLanes ∧ Unchanged s t (.port p :: besidePort p)

section downFrom
variable {p : PortId}

theorem DownFrom.step {u : State} (h : DownFrom s p t) (hu : Unchanged t u (besidePort p)) : DownFrom s p u := by
  obtain ⟨state, lanes, frame⟩ := h
  have same : u.port p = t.port p := hu (.port p) (by simp [besidePort, refitParts])
  exact ⟨same ▸ state, same ▸ lanes, Unchanged.trans frame (Unchanged.mono hu fun q hq => List.mem_cons_of_mem _ hq)⟩

theorem DownFrom.state_eq (h : DownFrom s p t) : (t.port p).state = 4 := by
  obtain ⟨state, -, -⟩ := h
  exact state

theorem DownFrom.not_up (h : DownFrom s p t) : portUp t p = false := by
  obtain ⟨state, -, -⟩ := h
  simp [portUp, state]

/-- An update of other fields of the port leaves it down. -/
theorem DownFrom.modPort (h : DownFrom s p t) (f : Port → Port) (hs : ∀ x, (f x).state = x.state)
    (hl : ∀ x, (f x).txLanes = x.txLanes) : DownFrom s p (t.modPort p f) := by
  obtain ⟨state, lanes, frame⟩ := h
  refine ⟨?_, ?_, unchanged_modPort f (by simp) frame⟩
  · rw [State.modPort_port_self, hs, state]
  · rw [State.modPort_port_self, hl, lanes]

theorem DownFrom.portEvent (h : DownFrom s p t) (reason : Reason) (dir : Bool) (lane : Nat) :
    DownFrom s p (t.portEvent p reason dir lane) :=
  h.modPort _ (fun _ => rfl) (fun _ => rfl)

theorem DownFrom.record (h : DownFrom s p t) (r : Rec) : DownFrom s p (t.record r) :=
  h.step (unchanged_record r (by simp [besidePort]) (by simp [besidePort]) (unchanged_refl t _))

theorem DownFrom.leaveBuffers (h : DownFrom s p t) (qs : List QueuedFlit) :
    DownFrom s p (forEach qs t fun s q => s.leaveBuffer q) :=
  h.step (unchanged_forEach _ _ (fun _ q hu => unchanged_leaveBuffer q (by simp [besidePort]) (by simp [besidePort]) hu)
    (unchanged_refl t _))

theorem DownFrom.reroute (h : DownFrom s p t) (i : Stall) (c : Charter) (qs : List QueuedFlit) :
    DownFrom s p (t.reroute i c qs) :=
  h.step (unchanged_reroute (namesTraffic_besidePort h.not_up) i c qs (unchanged_refl t _))

theorem DownFrom.refit (h : DownFrom s p t) (i : Stall) : DownFrom s p (t.refit i) :=
  h.step (unchanged_refit (refitParts_besidePort p i) (unchanged_refl t _))

theorem DownFrom.cause (h : DownFrom s p t) (i : Stall) (code : BitVec 4) (reason : Reason) :
    DownFrom s p (t.cause i code reason) :=
  h.step (unchanged_cause code reason (by simp [besidePort])
    (refitParts_besidePort p i _ (by simp [refitParts])) (unchanged_refl t _))

end downFrom

theorem forgetBuffers_port (s : State) (p q : PortId) : (s.forgetBuffers p).port q = s.port q :=
  unchanged_forEach (l := (List.finRange 8).map Part.lnk) _ _ (fun _ _ hu => unchanged_modLnk _ (by simp) hu)
    (unchanged_refl s _) (.port q) (by simp)

/-- A link that is cut leaves its port in the given state, its far end unknown. -/
theorem cutLink_port (s : State) (p : PortId) (st : BitVec 4) :
    (s.cutLink p st).port p = { s.port p with state := st, neighbour := none } := by
  unfold State.cutLink
  rw [forgetBuffers_port]
  simp

theorem downFrom_cutLink (s : State) (p : PortId) : DownFrom s p (s.cutLink p 4) := by
  refine ⟨by simp [cutLink_port], by simp [cutLink_port], ?_⟩
  exact unchanged_cutLink 4 (by simp [besidePort]) (by simp) (unchanged_refl s _)

/-- A port that goes down keeps its lanes, whatever way its flits take (R327, R328). -/
theorem downFrom_portDown (s : State) (p : PortId) (reason : Reason) : DownFrom s p (s.portDown p reason) := by
  unfold State.portDown
  split
  · next down => exact ⟨by simpa using down, rfl, unchanged_refl s _⟩
  · extract_lets flits s2
    have cut : DownFrom s p s2 :=
      ((downFrom_cutLink s p).portEvent reason false 0x1F).step
        (unchanged_recordPause _ (by simp [besidePort]) (by simp [besidePort]) (by simp [besidePort]) (unchanged_refl _ _))
    clear_value s2
    split
    · exact cut.leaveBuffers _
    · next i c _ =>
      split
      · exact cut.reroute i c _
      · split
        · have turned := cut.modPort (fun x => { x with sideDir := x.sideDir || (6 ≤ p.val && portMode s p == 1) })
            (fun _ => rfl) (fun _ => rfl)
          split
          · exact turned.reroute i c _
          · exact (turned.record _).reroute i c _
        · extract_lets d
          split
          · exact ((cut.modPort (fun x => { x with detour := true }) (fun _ => rfl) (fun _ => rfl)).record _).reroute i c _
          · exact (cut.leaveBuffers _).cause i _ _

theorem DownFrom.refitPort {p : PortId} (h : DownFrom s p t) (was : State) : DownFrom s p (t.refitPort was p) := by
  unfold State.refitPort
  split
  · exact h
  · split
    · exact h.refit _
    · exact h

end Sys2Proof.Machine
end

section
/-! PROOFS. The fault log and the light of the route ports. -/

namespace Sys2Proof.Machine

open Sys2Proof.Safety

variable {s t : State} {l : List Part}

/-! ### The fault log -/

theorem recBits_reason (s : State) (r : Rec) : fld (recBits s r) 32 16 = r.reason := by
  unfold recBits fld
  rw [BitVec.extractLsb'_append_eq_of_le (by decide)]
  rw [BitVec.extractLsb'_append_eq_of_add_le (by decide)]
  simp

theorem record_log (s : State) (r : Rec) : (s.record r).log = { s.log with
    ring := (recBits s r :: s.log.ring).take 1024
    newest := s.log.newest + 1
    injected := if r.injected then satAdd s.log.injected 1 else s.log.injected } := by
  unfold State.record
  simp only []
  split
  · exact unchanged_raiseEvent (l := [.out]) _ _ (by simp) (unchanged_refl _ _) .log (by simp)
  · rfl

/-- A record is one more than before, whatever has happened to the log's other fields. -/
theorem recorded_record (r : Rec) (hn : t.log.newest = s.log.newest) (hr : t.log.ring = s.log.ring) :
    Recorded s (t.record r) r.reason := by
  rw [Recorded, record_log]
  exact ⟨by rw [hn], _, by rw [hr], recBits_reason t r⟩

theorem recorded_recordPause (r : Rec) (hn : t.log.newest = s.log.newest) (hr : t.log.ring = s.log.ring) :
    Recorded s (t.recordPause r) r.reason :=
  recorded_record (t := { t with free := t.free + 1 }) _ hn hr

theorem Recorded.of_log_eq {u : State} {reason : Reason} (h : Recorded s t reason) (hu : u.log = t.log) :
    Recorded s u reason := by
  rwa [Recorded, hu]

/-- A unit stands in the retired list (R18). -/
def Listed (s : State) (kind : BitVec 8) (index : Nat) : Prop :=
  ∃ e ∈ s.log.retired, e.kind = kind ∧ e.index.toNat = index

theorem listed_retire (s : State) (kind : BitVec 8) {index : Nat} (reason : Reason) (hi : index < 2 ^ 16) :
    Listed (s.retire kind (BitVec.ofNat 16 index) reason) kind index := by
  have small : (BitVec.ofNat 16 index).toNat = index := by simpa using hi
  unfold State.retire
  split
  · next known =>
    obtain ⟨e, he, same⟩ := List.any_eq_true.mp known
    simp only [Bool.and_eq_true, beq_iff_eq] at same
    exact ⟨e, he, same.1, same.2 ▸ small⟩
  · exact ⟨_, List.mem_append_right _ (List.mem_singleton_self _), rfl, small⟩

theorem retire_newest (s : State) (kind : BitVec 8) (index : BitVec 16) (reason : Reason) :
    (s.retire kind index reason).log.newest = s.log.newest := by
  unfold State.retire
  split <;> rfl

theorem retire_ring (s : State) (kind : BitVec 8) (index : BitVec 16) (reason : Reason) :
    (s.retire kind index reason).log.ring = s.log.ring := by
  unfold State.retire
  split <;> rfl

theorem Listed.record {kind : BitVec 8} {index : Nat} (h : Listed s kind index) (r : Rec) : Listed (s.record r) kind index := by
  rwa [Listed, record_log]

theorem Listed.recordPause {kind : BitVec 8} {index : Nat} (h : Listed s kind index) (r : Rec) :
    Listed (s.recordPause r) kind index :=
  Listed.record (s := { s with free := s.free + 1 }) h _

/-! ### Sources -/

/-- An engine that emits nothing: no far light, and every source off or failed. -/
def Dark (t : State) (q : PortId) : Prop :=
  (t.optic q).lightIn = false ∧ ∀ k, (t.optic q).sources.get k = 0 ∨ (t.optic q).sources.get k = 3

/-- The working sources A and B of a port stand at a bias; a failed one stays failed (R331, R332). -/
def Lit (s : State) (p : PortId) (t : State) (v : BitVec 2) : Prop :=
  ∀ k : Fin 3, k.val < 2 → (t.optic p).sources.get k = if (s.optic p).sources.get k = 3 then 3 else v

theorem setSources_get (o : Optics) (v : BitVec 2) (k : Fin 3) : (setSources o v).sources.get k =
    if o.sources.get k = 3 then 3 else if k.val < 2 then v else if o.onStandby.isSome then v else 0 := by
  simp [setSources]

theorem setSources_working (o : Optics) (v : BitVec 2) {k : Fin 3} (hk : k.val < 2) :
    (setSources o v).sources.get k = if o.sources.get k = 3 then 3 else v := by
  rw [setSources_get, if_pos hk]

theorem setSources_off (o : Optics) (k : Fin 3) : (setSources o 0).sources.get k = 0 ∨ (setSources o 0).sources.get k = 3 := by
  rw [setSources_get, ite_self, ite_self]
  split
  · exact .inr rfl
  · exact .inl rfl

theorem mayEmit_of_interlock {p : PortId} (h : (s.optic p).interlock = false) : mayEmit s p = false := by
  simp [mayEmit, h]

theorem mayEmit_of_unmated {p : PortId} (h : (s.optic p).mated = false) : mayEmit s p = false := by
  simp [mayEmit, h]

end Sys2Proof.Machine
end

section
/-! PROOFS. The commands of the light (R27, R28, R329 to R332). -/

namespace Sys2Proof.Machine

open Sys2Proof.Safety

variable {s t : State} {l : List Part}

/-! ### What a port that goes down leaves -/

/-- What a command that takes a port down may change: the engine's light, the port, and what lies beside it. -/
def downParts (p : PortId) : List Part := .optic p :: .port p :: besidePort p

theorem DownFrom.unchanged {p : PortId} {u : State} (h : DownFrom t p u) (ht : Unchanged s t (downParts p)) :
    Unchanged s u (downParts p) := by
  obtain ⟨-, -, frame⟩ := h
  exact Unchanged.trans ht (Unchanged.mono frame fun q hq => List.mem_cons_of_mem _ hq)

theorem DownFrom.optic_eq {p : PortId} (h : DownFrom s p t) (q : PortId) : t.optic q = s.optic q := by
  obtain ⟨-, -, frame⟩ := h
  exact frame (.optic q) (by simp [besidePort, refitParts])

/-- The memory, the engines, the cores, the tiers and the host links have no part in it. -/
theorem units_of_unchanged_downParts {p : PortId} (h : Unchanged s t (downParts p)) :
    t.mem = s.mem ∧ t.engines = s.engines ∧ t.cores = s.cores ∧ t.tiers = s.tiers ∧ t.hosts = s.hosts := by
  refine ⟨h .mem ?_, Unchanged.engines_eq h fun _ => ?_, Unchanged.cores_eq h fun _ => ?_,
    Unchanged.tiers_eq h (fun _ => ?_) (fun _ => ?_) ?_ ?_, Unchanged.hosts_eq h fun _ => ?_⟩
  all_goals simp [downParts, besidePort, refitParts]

/-! ### Probe bursts and far light (R331) -/

section light
variable {p : PortId}

theorem runs_probeBurst (he : mayEmit s p = true) (hd : (s.optic p).lightIn = false) : Runs (.probeBurst p) s fun t =>
    Lit s p t 1 ∧ (t.port p).state = (if (s.port p).state = 0 then 1 else (s.port p).state) ∧ t.out = s.out ++ [.probe p]
      ∧ Unchanged s t [.out, .port p, .optic p] := by
  have taken : execProbeBurst p s = .next (((s.modOptic p fun o => setSources o 1).modPort p fun x => { x with
      state := if x.state = 0 then 1 else x.state }).send (.probe p)) := by
    simp [execProbeBurst, he, hd]
  refine runs_of_exec taken ⟨fun k hk => ?_, ?_, rfl, ?_⟩
  · simp [setSources_working _ _ hk]
  · rw [State.send_port, State.modPort_port_self, State.modOptic_port]
  · exact unchanged_send _ (by simp) (unchanged_modPort _ (by simp) (unchanged_modOptic _ (by simp) (unchanged_refl s _)))

theorem exec_probeBurst_held (h : mayEmit s p = false ∨ (s.optic p).lightIn = true) : exec (.probeBurst p) s = .next s := by
  change execProbeBurst p s = _
  obtain h | h := h <;> simp [execProbeBurst, h]

theorem unchanged_sendIdent (ho : Part.out ∈ l) (hf : Part.free ∈ l) (h : Unchanged s t l) :
    Unchanged s (t.sendIdent p) l := by
  unfold State.sendIdent
  simp only []
  split
  · exact unchanged_send _ ho h
  · exact unchanged_send _ ho (unchanged_set_free _ hf h)

/-- The IDENT message that a port sends (R319): tag, seat and port, and the caravan's fields where a charter is in force. -/
def IdentOf (s : State) (p : PortId) (m : IdentMessage) : Prop :=
  m.tag = identityTag ∧ m.seat = s.starts.seat ∧ m.port.toNat = p.val
    ∧ (∀ i c, portCharter s p = some (i, c) →
        m.timeDomain = c.timeDomain ∧ m.member = (s.stall i).march.member ∧ m.caravan = c.caravanIx)
    ∧ (portCharter s p = none → m.member = 0x7F ∧ m.caravan = 0x3F)

theorem sendIdent_out (s : State) (p : PortId) : ∃ m, (s.sendIdent p).out = s.out ++ [.ident p m] ∧ IdentOf s p m := by
  have number : (BitVec.ofNat 3 p.val).toNat = p.val := by simp
  unfold State.sendIdent
  simp only []
  split
  · next i c charter =>
    refine ⟨_, rfl, rfl, rfl, number, fun j d same => ?_, fun none => ?_⟩
    · cases charter.symm.trans same
      exact ⟨rfl, rfl, rfl⟩
    · cases charter.symm.trans none
  · next charter =>
    refine ⟨_, rfl, rfl, rfl, number, fun j d same => ?_, fun _ => ⟨rfl, rfl⟩⟩
    cases charter.symm.trans same

theorem runs_lightIn (he : mayEmit s p = true) : Runs (.lightIn p) s fun t =>
    Lit s p t 2 ∧ (t.optic p).lightIn = true
      ∧ (t.port p).state = (if (s.port p).state = 3 ∨ (s.port p).state = 4 then (s.port p).state else 2)
      ∧ (∃ m, t.out = s.out ++ [.ident p m] ∧ IdentOf s p m) ∧ Unchanged s t [.out, .free, .port p, .optic p] := by
  let trained := ((s.modOptic p fun o => { o with lightIn := true }).modOptic p fun o => setSources o 2).modPort p fun x =>
    { x with state := if x.state = 4 ∨ x.state = 3 then x.state else 2 }
  have taken : execLightIn p s = .next (trained.sendIdent p) := by simp [execLightIn, he, trained]
  have ident : Unchanged trained (trained.sendIdent p) [.out, .free] :=
    unchanged_sendIdent (by simp) (by simp) (unchanged_refl _ _)
  have optic : (trained.sendIdent p).optic p = trained.optic p := ident (.optic p) (by simp)
  have port : (trained.sendIdent p).port p = trained.port p := ident (.port p) (by simp)
  have lights : Unchanged s trained [.out, .free, .port p, .optic p] :=
    unchanged_modPort _ (by simp) (unchanged_modOptic _ (by simp) (unchanged_modOptic _ (by simp) (unchanged_refl s _)))
  refine runs_of_exec taken ⟨fun k hk => ?_, ?_, ?_, sendIdent_out trained p, Unchanged.trans lights (Unchanged.mono ident (by simp))⟩
  · rw [optic]
    simp [trained, setSources_working _ _ hk]
  · rw [optic]
    simp [trained, setSources]
  · rw [port, State.modPort_port_self]
    simp only [State.modOptic_port, or_comm]

theorem runs_lightIn_kept (he : mayEmit s p = false) : Runs (.lightIn p) s fun t =>
    t.optic p = { s.optic p with lightIn := true } ∧ Unchanged s t [.optic p] := by
  have taken : execLightIn p s = .next (s.modOptic p fun o => { o with lightIn := true }) := by simp [execLightIn, he]
  exact runs_of_exec taken ⟨by simp, unchanged_modOptic _ (by simp) (unchanged_refl s _)⟩

/-! ### Ports without light, and mating (R330, R331) -/

theorem runs_portDark : Runs (.portDark p) s fun t =>
    (t.optic p).lightIn = false ∧ Lit s p t (if mayEmit s p then 1 else 0)
      ∧ (t.port p).state = (if (s.port p).state = 2 ∨ (s.port p).state = 3 then 4 else (s.port p).state)
      ∧ ((s.port p).state ≠ 2 → (s.port p).state ≠ 3 → Unchanged s t [.optic p])
      ∧ t.mem = s.mem ∧ t.engines = s.engines ∧ t.cores = s.cores ∧ t.tiers = s.tiers ∧ t.hosts = s.hosts := by
  let bias : BitVec 2 := if mayEmit s p then 1 else 0
  let dimmed := s.modOptic p fun o => { setSources o bias with lightIn := false }
  have frame : Unchanged s dimmed [.optic p] := unchanged_modOptic _ (by simp) (unchanged_refl s _)
  have optic : dimmed.optic p = { setSources (s.optic p) bias with lightIn := false } := by simp [dimmed]
  by_cases linked : (s.port p).state = 2 ∨ (s.port p).state = 3
  · have taken : execPortDark p s = .next ((dimmed.portDown p 0x0808).refitPort s p) := if_pos linked
    have down : DownFrom dimmed p ((dimmed.portDown p 0x0808).refitPort s p) := (downFrom_portDown _ p _).refitPort s
    have units := units_of_unchanged_downParts (down.unchanged (Unchanged.mono frame (by simp [downParts])))
    refine runs_of_exec taken ⟨?_, fun k hk => ?_, ?_, fun not2 not3 => absurd linked (not_or.mpr ⟨not2, not3⟩), units⟩
    · rw [down.optic_eq, optic]
    · rw [down.optic_eq, optic]
      exact setSources_working _ _ hk
    · rw [if_pos linked]
      exact down.state_eq
  · have taken : execPortDark p s = .next dimmed := if_neg linked
    refine runs_of_exec taken ⟨?_, fun k hk => ?_, ?_, fun _ _ => frame, rfl, rfl, rfl, rfl, rfl⟩
    · rw [optic]
    · rw [optic]
      exact setSources_working _ _ hk
    · rw [if_neg linked]
      rfl

theorem runs_mateOpen : Runs (.mateOpen p) s fun t =>
    Dark t p ∧ (t.optic p).mated = false ∧ mayEmit t p = false
      ∧ (t.port p).state = (if (s.port p).state = 2 ∨ (s.port p).state = 3 then 4
          else if (s.port p).state = 1 then 0 else (s.port p).state)
      ∧ ((s.port p).state ≠ 2 → (s.port p).state ≠ 3 → Unchanged s t [.optic p, .port p])
      ∧ t.mem = s.mem ∧ t.engines = s.engines ∧ t.cores = s.cores ∧ t.tiers = s.tiers ∧ t.hosts = s.hosts := by
  let opened := (s.modOptic p fun o => { o with mated := false }).darken p
  have frame : Unchanged s opened [.optic p, .port p] :=
    unchanged_modOptic _ (by simp) (unchanged_modOptic _ (by simp) (unchanged_refl s _))
  have optic : opened.optic p = { setSources { s.optic p with mated := false } 0 with lightIn := false } := by
    simp [opened, State.darken]
  by_cases linked : (s.port p).state = 2 ∨ (s.port p).state = 3
  · have taken : execMateOpen p s = .next ((opened.portDown p 0x0808).refitPort s p) := if_pos linked
    have down : DownFrom opened p ((opened.portDown p 0x0808).refitPort s p) := (downFrom_portDown _ p _).refitPort s
    have units := units_of_unchanged_downParts (down.unchanged (Unchanged.mono frame (by simp [downParts])))
    have unmated : (((opened.portDown p 0x0808).refitPort s p).optic p).mated = false := by rw [down.optic_eq, optic]; rfl
    refine runs_of_exec taken ⟨⟨?_, fun k => ?_⟩, unmated, mayEmit_of_unmated unmated, ?_,
      fun not2 not3 => absurd linked (not_or.mpr ⟨not2, not3⟩), units⟩
    · rw [down.optic_eq, optic]
    · rw [down.optic_eq, optic]
      exact setSources_off _ k
    · rw [if_pos linked]
      exact down.state_eq
  · let closed := opened.modPort p fun x => { x with state := if x.state = 1 then 0 else x.state }
    have taken : execMateOpen p s = .next closed := if_neg linked
    have unmated : (closed.optic p).mated = false := by
      change (opened.optic p).mated = false
      rw [optic]
      rfl
    refine runs_of_exec taken ⟨⟨?_, fun k => ?_⟩, unmated, mayEmit_of_unmated unmated, ?_,
      fun _ _ => unchanged_modPort _ (by simp) frame, rfl, rfl, rfl, rfl, rfl⟩
    · change (opened.optic p).lightIn = false
      rw [optic]
    · change (opened.optic p).sources.get k = 0 ∨ (opened.optic p).sources.get k = 3
      rw [optic]
      exact setSources_off _ k
    · rw [if_neg linked, State.modPort_port_self]
      rfl

theorem runs_mateClose : Runs (.mateClose p) s fun t =>
    t.optic p = { s.optic p with mated := true } ∧ Unchanged s t [.optic p] :=
  runs_of_exec rfl ⟨by simp, unchanged_modOptic _ (by simp) (unchanged_refl s _)⟩

end light

end Sys2Proof.Machine
end

section
/-! PROOFS. Failing sources and the eye-safety interlock (R27, R28, R329, R332). -/

namespace Sys2Proof.Machine

open Sys2Proof.Safety

variable {s t : State} {l : List Part}

/-! ### Failing sources (R27, R332) -/

theorem vector_get_set_eq {α : Type} {n i : Nat} (v : Vector α n) (x : α) (hi : i < n) {k : Fin n} (h : i = k.val) :
    (v.set i x hi).get k = x := by
  simp [Vector.get_eq_getElem, h]

theorem vector_get_set_ne {α : Type} {n i : Nat} (v : Vector α n) (x : α) (hi : i < n) {k : Fin n} (h : i ≠ k.val) :
    (v.set i x hi).get k = v.get k := by
  simp [Vector.get_eq_getElem, Vector.getElem_set_ne, h]

section sources
variable {p : PortId} {src : Fin 2}

/-- The place of a working source among the three of its engine. -/
def sourceIx (src : Fin 2) : Fin 3 := ⟨src.val, by omega⟩

theorem sourceIx_ne_standby (src : Fin 2) : 2 ≠ (sourceIx src).val := by
  simp only [sourceIx]
  omega

/-- A working source is marked failed and listed. -/
def State.failSource (s : State) (p : PortId) (src : Fin 2) : State :=
  (s.modOptic p fun o => { o with sources := o.sources.set (sourceIx src) 3 }).retire 7
    (BitVec.ofNat 16 (3 * p.val + src.val)) 0x0807

theorem failSource_optic (s : State) (p : PortId) (src : Fin 2) :
    (s.failSource p src).optic p = { s.optic p with sources := (s.optic p).sources.set (sourceIx src) 3 } := by
  have listed := unchanged_retire (l := [.log]) 7 (BitVec.ofNat 16 (3 * p.val + src.val)) 0x0807 false (by simp)
    (unchanged_refl (s.modOptic p fun o => { o with sources := o.sources.set (sourceIx src) 3 }) _) (.optic p) (by simp)
  exact listed.trans (State.modOptic_optic_self s p _)

theorem unchanged_failSource (hm : Part.log ∈ l) (ho : Part.optic p ∈ l) (h : Unchanged s t l) :
    Unchanged s (t.failSource p src) l := unchanged_retire _ _ _ _ hm (unchanged_modOptic _ ho h)

theorem listed_failSource (s : State) (p : PortId) (src : Fin 2) : Listed (s.failSource p src) 7 (3 * p.val + src.val) :=
  listed_retire _ _ _ (by omega)

/-- What the record of a failed source says (Table 16-8). -/
def sourceRec (s : State) (p : PortId) (k : Nat) (reason : Reason) : Rec :=
  { portRec s p reason clsRetired with kind := 7, unit := BitVec.ofNat 16 (3 * p.val + k) }

/-- The standby source lights the lanes of a failed one. -/
def State.takeLanes (s : State) (p : PortId) (src : Fin 2) : State :=
  ((s.failSource p src).modOptic p fun o => { o with sources := o.sources.set 2 2, onStandby := some src }).portEvent p 0x0807
    false 0x1F

theorem takeLanes_optic (s : State) (p : PortId) (src : Fin 2) : (s.takeLanes p src).optic p = { s.optic p with
    sources := ((s.optic p).sources.set (sourceIx src) 3).set 2 2, onStandby := some src } := by
  unfold State.takeLanes State.portEvent
  rw [State.modPort_optic, State.modOptic_optic_self, failSource_optic]

theorem takeLanes_port (s : State) (p : PortId) (src : Fin 2) : (s.takeLanes p src).port p =
    { s.port p with lastReason := 0x0807, lastDir := false, lastLane := 0x1F } := by
  have failed : (s.failSource p src).port p = s.port p :=
    unchanged_failSource (l := [.log, .optic p]) (by simp) (by simp) (unchanged_refl s _) (.port p) (by simp)
  rw [← failed]
  exact State.modPort_port_self _ p _

theorem exec_sourceFailover_taken (h2 : (s.optic p).sources.get (sourceIx src) = 2) (hs : (s.optic p).sources.get 2 ≠ 3)
    (hn : (s.optic p).onStandby = none) : exec (.sourceFailover p src true) s =
      .next ((s.takeLanes p src).recordPause (sourceRec s p src.val 0x0807)) := by
  have works : ((s.optic p).sources.get ⟨src.val, by omega⟩ != 2) = false := bne_eq_false_iff_eq.mpr h2
  have standby : ((s.optic p).sources.get 2 != 3) = true := bne_iff_ne.mpr hs
  change execSourceFailover p src true s = _
  simp only [execSourceFailover]
  rw [works, standby, hn]
  rfl

theorem runs_sourceFailover_taken (h2 : (s.optic p).sources.get (sourceIx src) = 2) (hs : (s.optic p).sources.get 2 ≠ 3)
    (hn : (s.optic p).onStandby = none) : Runs (.sourceFailover p src true) s fun t =>
      (t.optic p).sources.get (sourceIx src) = 3 ∧ (t.optic p).sources.get 2 = 2 ∧ (t.optic p).onStandby = some src
      ∧ (t.port p).state = (s.port p).state ∧ (t.port p).txLanes = (s.port p).txLanes ∧ Recorded s t 0x0807
      ∧ Listed t 7 (3 * p.val + src.val) ∧ Unchanged s t [.free, .log, .out, .port p, .optic p] := by
  let r := sourceRec s p src.val 0x0807
  let switched := s.takeLanes p src
  have frame : Unchanged s switched [.free, .log, .out, .port p, .optic p] :=
    unchanged_modPort _ (by simp) (unchanged_modOptic _ (by simp) (unchanged_failSource (by simp) (by simp) (unchanged_refl s _)))
  have paused : Unchanged switched (switched.recordPause r) [.free, .log, .out] :=
    unchanged_recordPause r (by simp) (by simp) (by simp) (unchanged_refl _ _)
  have optic : (switched.recordPause r).optic p = _ := (paused (.optic p) (by simp)).trans (takeLanes_optic s p src)
  have port : (switched.recordPause r).port p = _ := (paused (.port p) (by simp)).trans (takeLanes_port s p src)
  have listed : Listed switched 7 (3 * p.val + src.val) := listed_failSource s p src
  refine runs_of_exec (exec_sourceFailover_taken h2 hs hn) ⟨?_, ?_, ?_, ?_, ?_, ?_, listed.recordPause r,
    Unchanged.trans frame (Unchanged.mono paused (by simp))⟩
  · rw [optic]
    exact (vector_get_set_ne _ _ (by decide) (sourceIx_ne_standby src)).trans (vector_get_set_eq _ _ (sourceIx src).isLt rfl)
  · rw [optic]
    exact vector_get_set_eq _ _ (by decide) rfl
  · rw [optic]
  · rw [port]
  · rw [port]
  · exact recorded_recordPause r (retire_newest _ _ _ _) (retire_ring _ _ _ _)

/-- A lane that has lost its source is retired and listed (R27). -/
def State.loseLane (s : State) (p : PortId) (lane : Fin 18) : State :=
  (s.modPort p fun x => { x with txLanes := lanesFix (x.txLanes.set lane 2) }).retire 4
    (BitVec.ofNat 16 (64 * p.val + lane.val)) 0x0801

theorem unchanged_loseLane (lane : Fin 18) (hm : Part.log ∈ l) (hp : Part.port p ∈ l) (h : Unchanged s t l) :
    Unchanged s (t.loseLane p lane) l := unchanged_retire _ _ _ _ hm (unchanged_modPort _ hp h)

theorem lanesFix_retired {v : Vector (BitVec 2) 18} {k : Fin 18} (h : v.get k = 2) : (lanesFix v).get k = 2 := by
  simp [lanesFix, h]

theorem loseLane_txLanes (s : State) (p : PortId) (lane : Fin 18) :
    ((s.loseLane p lane).port p).txLanes = lanesFix ((s.port p).txLanes.set lane 2) := by
  have listed := unchanged_retire (l := [.log]) 4 (BitVec.ofNat 16 (64 * p.val + lane.val)) 0x0801 false (by simp)
    (unchanged_refl (s.modPort p fun x => { x with txLanes := lanesFix (x.txLanes.set lane 2) }) _) (.port p) (by simp)
  rw [show (s.loseLane p lane).port p = _ from listed.trans (State.modPort_port_self s p _)]

/-- Lanes that lose their source one after another are all retired in the end. -/
theorem loseLanes_retired (lanes : List (Fin 18)) (s : State) {k : Fin 18} (h : k ∈ lanes ∨ (s.port p).txLanes.get k = 2) :
    ((forEach lanes s fun s lane => s.loseLane p lane).port p).txLanes.get k = 2 := by
  induction lanes generalizing s with
  | nil => exact h.resolve_left (by simp)
  | cons lane lanes ih =>
    refine ih (s.loseLane p lane) ?_
    rw [loseLane_txLanes]
    by_cases here : lane = k
    · exact .inr (lanesFix_retired (vector_get_set_eq _ _ _ (congrArg Fin.val here)))
    · refine h.imp (fun hk => (List.mem_cons.mp hk).resolve_left (Ne.symm here)) fun hk => ?_
      exact lanesFix_retired ((vector_get_set_ne _ _ _ fun e => here (Fin.ext e)).trans hk)

/-- A source fails, and where the standby is free to take its lanes but gives no light, the standby with it (R332). -/
def State.failWithStandby (s : State) (p : PortId) (src : Fin 2) (free : Bool) : State :=
  if free then (s.failSource p src).modOptic p fun o => { o with sources := o.sources.set 2 3 } else s.failSource p src

theorem unchanged_failWithStandby (free : Bool) (hm : Part.log ∈ l) (ho : Part.optic p ∈ l) (h : Unchanged s t l) :
    Unchanged s (t.failWithStandby p src free) l := by
  have failed : Unchanged s (t.failSource p src) l := unchanged_failSource hm ho h
  cases free
  · exact failed
  · exact unchanged_modOptic (fun o => { o with sources := o.sources.set 2 3 }) ho failed

theorem failWithStandby_failed (s : State) (p : PortId) (src : Fin 2) (free : Bool) :
    ((s.failWithStandby p src free).optic p).sources.get (sourceIx src) = 3 := by
  have failed : ((s.failSource p src).optic p).sources.get (sourceIx src) = 3 := by
    rw [failSource_optic]
    exact vector_get_set_eq _ _ (sourceIx src).isLt rfl
  cases free
  · exact failed
  · rw [State.failWithStandby, if_pos rfl, State.modOptic_optic_self]
    exact (vector_get_set_ne _ _ (by decide) (sourceIx_ne_standby src)).trans failed

/-- The lanes of a source are lost with it, and the event is recorded. -/
def State.loseSource (s : State) (p : PortId) (src : Fin 2) (free : Bool) : State :=
  ((forEach (sourceLanes src) (s.failWithStandby p src free) fun s lane => s.loseLane p lane).portEvent p 0x0801 false
    (9 * src.val)).record (sourceRec s p src.val 0x0801)

theorem unchanged_loseSource (s : State) (p : PortId) (src : Fin 2) (free : Bool) :
    Unchanged (s.failWithStandby p src free) (s.loseSource p src free) [.log, .out, .port p] :=
  unchanged_record _ (by simp) (by simp) (unchanged_modPort _ (by simp)
    (unchanged_forEach _ _ (fun _ lane hu => unchanged_loseLane lane (by simp) (by simp) hu) (unchanged_refl _ _)))

theorem loseSource_failed (s : State) (p : PortId) (src : Fin 2) (free : Bool) :
    ((s.loseSource p src free).optic p).sources.get (sourceIx src) = 3 := by
  have same : (s.loseSource p src free).optic p = (s.failWithStandby p src free).optic p :=
    unchanged_loseSource s p src free (.optic p) (by simp)
  rw [same, failWithStandby_failed]

theorem mem_sourceLanes {k : Fin 18} : k ∈ sourceLanes src ↔ k.val / 9 = src.val := by
  simp [sourceLanes]

theorem loseSource_lanes (s : State) (p : PortId) (src : Fin 2) (free : Bool) {k : Fin 18} (hk : k.val / 9 = src.val) :
    ((s.loseSource p src free).port p).txLanes.get k = 2 := by
  have lost := loseLanes_retired (p := p) (sourceLanes src) (s.failWithStandby p src free) (.inl (mem_sourceLanes.mpr hk))
  have same := unchanged_record (l := [.log, .out]) (sourceRec s p src.val 0x0801) (by simp) (by simp) (unchanged_refl
    ((forEach (sourceLanes src) (s.failWithStandby p src free) fun s lane => s.loseLane p lane).portEvent p 0x0801 false
      (9 * src.val)) _) (.port p) (by simp)
  rw [State.loseSource, same.trans (State.modPort_port_self _ p _)]
  exact lost

/-- Is the standby source free to take the lanes of a failed one? -/
def standbyFree (o : Optics) : Bool := o.sources.get 2 != 3 && o.onStandby.isNone

theorem exec_sourceFailover_lost (h2 : (s.optic p).sources.get (sourceIx src) = 2) {lights : Bool}
    (hl : lights = false ∨ (s.optic p).sources.get 2 = 3 ∨ (s.optic p).onStandby.isSome = true) :
    exec (.sourceFailover p src lights) s =
      .next (((s.loseSource p src (standbyFree (s.optic p))).portDown p 0x0802).refitPort s p) := by
  have works : ((s.optic p).sources.get ⟨src.val, by omega⟩ != 2) = false := bne_eq_false_iff_eq.mpr h2
  have alone : (standbyFree (s.optic p) && lights) = false := by
    obtain h | h | h := hl
    · simp [h]
    · simp [standbyFree, h]
    · simp [standbyFree, Option.isNone_eq_false_iff.mpr h]
  change execSourceFailover p src lights s = _
  unfold standbyFree at alone
  simp only [execSourceFailover]
  rw [works, if_neg (by decide), if_neg (by rw [alone]; decide)]
  rfl

theorem runs_sourceFailover_lost (h2 : (s.optic p).sources.get (sourceIx src) = 2) (lights : Bool)
    (hl : lights = false ∨ (s.optic p).sources.get 2 = 3 ∨ (s.optic p).onStandby.isSome = true) :
    Runs (.sourceFailover p src lights) s fun t =>
      (t.optic p).sources.get (sourceIx src) = 3 ∧ (t.port p).state = 4
      ∧ (∀ k : Fin 18, k.val / 9 = src.val → (t.port p).txLanes.get k = 2)
      ∧ t.mem = s.mem ∧ t.engines = s.engines ∧ t.cores = s.cores ∧ t.tiers = s.tiers ∧ t.hosts = s.hosts := by
  let free := standbyFree (s.optic p)
  let lost := s.loseSource p src free
  have down : DownFrom lost p ((lost.portDown p 0x0802).refitPort s p) := (downFrom_portDown _ p _).refitPort s
  have frame : Unchanged s lost (downParts p) :=
    Unchanged.trans (unchanged_failWithStandby free (by simp [downParts, besidePort]) (by simp [downParts]) (unchanged_refl s _))
      (Unchanged.mono (unchanged_loseSource s p src free) (by simp [downParts, besidePort]))
  have units := units_of_unchanged_downParts (down.unchanged frame)
  have optic := down.optic_eq p
  obtain ⟨state, lanes, -⟩ := down
  refine runs_of_exec (exec_sourceFailover_lost h2 hl) ⟨?_, state, fun k hk => ?_, units⟩
  · rw [optic]
    exact loseSource_failed s p src free
  · rw [lanes]
    exact loseSource_lanes s p src free hk

/-- The idle standby source fails: it is marked, listed and recorded (R332). -/
theorem runs_standbySourceFailed (hn : (s.optic p).onStandby = none) (hs : (s.optic p).sources.get 2 ≠ 3) :
    Runs (.standbySourceFailed p) s fun t =>
      t.optic p = { s.optic p with sources := (s.optic p).sources.set 2 3 } ∧ Recorded s t 0x080E
      ∧ Listed t 7 (3 * p.val + 2) ∧ Unchanged s t [.log, .out, .port p, .optic p] := by
  let marked := s.modOptic p fun o => { o with sources := o.sources.set 2 3 }
  let noted := (marked.retire 7 (BitVec.ofNat 16 (3 * p.val + 2)) 0x080E).portEvent p 0x080E false 0x1F
  let r := sourceRec s p 2 0x080E
  have taken : execStandbySourceFailed p s = .next (noted.record r) := by
    have works : ((s.optic p).sources.get 2 == 3) = false := beq_eq_false_iff_ne.mpr hs
    simp only [execStandbySourceFailed]
    rw [hn, works]
    rfl
  have listed : Listed noted 7 (3 * p.val + 2) := listed_retire marked 7 0x080E (by omega)
  have rest : Unchanged marked (noted.record r) [.log, .out, .port p] :=
    unchanged_record _ (by simp) (by simp) (unchanged_modPort _ (by simp) (unchanged_retire _ _ _ _ (by simp)
      (unchanged_refl _ _)))
  have frame : Unchanged s marked [.log, .out, .port p, .optic p] := unchanged_modOptic _ (by simp) (unchanged_refl s _)
  refine runs_of_exec taken ⟨?_, ?_, listed.record r, Unchanged.trans frame (Unchanged.mono rest (by simp))⟩
  · exact (rest (.optic p) (by simp)).trans (State.modOptic_optic_self s p _)
  · exact recorded_record r (retire_newest _ _ _ _) (retire_ring _ _ _ _)

end sources

end Sys2Proof.Machine
end

section
/-! PROOFS. The eye-safety interlock (R28, R329), and the statement about the light. -/

namespace Sys2Proof.Machine

open Sys2Proof.Safety

variable {s t : State} {l : List Part}

/-! ### Module faults (R449) -/

theorem unchanged_moduleFault (r : Rec) (ho : Part.out ∈ l) (hm : Part.log ∈ l) (hq : ∀ i, Part.stall i .seq ∈ l)
    (h : Unchanged s t l) : Unchanged s (t.moduleFault r) l :=
  unchanged_forEach _ _ (fun _ i hu => unchanged_cause _ _ ho (hq i) hu) (unchanged_record _ hm ho h)

/-- The causes that follow a module fault's record leave the log. -/
theorem recorded_moduleFault (r : Rec) (h : t.log = s.log) : Recorded s (t.moduleFault r) r.reason := by
  have recorded : Recorded s (t.record { r with cls := clsModule }) r.reason :=
    recorded_record _ (by rw [h]) (by rw [h])
  refine Recorded.of_log_eq recorded (unchanged_forEach (l := .out :: allStalls.map (Part.stall · .seq)) _ _
    (fun _ i hu => unchanged_cause _ _ (by simp) ?_ hu) (unchanged_refl _ _) .log (by simp))
  simp [mem_allStalls]

/-! ### Every engine dark -/

/-- What each step of a pass gives its own item, and no other step takes away, holds for every item after the pass. -/
theorem forEach_each {α : Type} (P : α → State → Prop) (f : State → α → State) (own : ∀ u x, P x (f u x))
    (keep : ∀ u x y, P x u → P x (f u y)) (xs : List α) (s : State) : ∀ x ∈ xs, P x (forEach xs s f) := by
  have kept (x : α) (ys : List α) : ∀ u, P x u → P x (forEach ys u f) := by
    induction ys with
    | nil => exact fun _ hu => hu
    | cons y ys ih => exact fun u hu => ih _ (keep u x y hu)
  induction xs generalizing s with
  | nil => nofun
  | cons y ys ih =>
    intro x hx
    obtain rfl | hx := List.mem_cons.mp hx
    · exact kept x ys _ (own s x)
    · exact ih _ x hx

/-- A port whose engine is dark, its interlock lost, and whose link carries nothing. -/
def Darkened (q : PortId) (t : State) : Prop := Dark t q ∧ (t.optic q).interlock = false ∧ portUp t q = false

theorem Darkened.of_same {q : PortId} {u : State} (h : Darkened q t) (ho : u.optic q = t.optic q) (hp : u.port q = t.port q) :
    Darkened q u := by
  rwa [Darkened, Dark, portUp, ho, hp]

/-- What a port that goes dark may change: its light, its own state, and the buffers of every link. -/
theorem unchanged_darkPort (p : PortId) (ho : Part.optic p ∈ l) (hp : Part.port p ∈ l) (hk : ∀ q, Part.lnk q ∈ l)
    (h : Unchanged s t l) : Unchanged s (t.darkPort p) l := by
  have dark := unchanged_modOptic (fun o => { o with interlock := false }) ho
    (unchanged_modOptic (fun o => { setSources o 0 with lightIn := false }) ho h)
  unfold State.darkPort
  extract_lets s1
  split
  · exact unchanged_cutLink 4 hk hp dark
  · exact unchanged_modPort _ hp dark

theorem darkened_darkPort (s : State) (p : PortId) : Darkened p (s.darkPort p) := by
  let dark := (s.darken p).modOptic p fun o => { o with interlock := false }
  have optic : dark.optic p = { setSources (s.optic p) 0 with lightIn := false, interlock := false } := by
    simp [dark, State.darken]
  have engine (u : State) (hu : u.optic p = dark.optic p) : Dark u p ∧ (u.optic p).interlock = false := by
    rw [Dark, hu, optic]
    exact ⟨⟨rfl, setSources_off (s.optic p)⟩, rfl⟩
  have ends : s.darkPort p = dark.cutLink p 4 ∨
      ((s.port p).state ≠ 3 ∧ s.darkPort p = dark.modPort p fun x => { x with state := if x.state = 1 then 0 else x.state }) := by
    unfold State.darkPort
    simp only []
    split
    · exact .inl rfl
    · next idle => exact .inr ⟨fun up => idle (by simp [up]), rfl⟩
  obtain cut | ⟨idle, closed⟩ := ends
  · rw [cut]
    have kept : (dark.cutLink p 4).optic p = dark.optic p := (downFrom_cutLink dark p).optic_eq p
    obtain ⟨isDark, interlock⟩ := engine _ kept
    exact ⟨isDark, interlock, (downFrom_cutLink dark p).not_up⟩
  · rw [closed]
    obtain ⟨isDark, interlock⟩ := engine (dark.modPort p fun x => { x with state := if x.state = 1 then 0 else x.state }) rfl
    refine ⟨isDark, interlock, ?_⟩
    have same : dark.port p = s.port p := rfl
    rw [portUp, State.modPort_port_self, same]
    dsimp only
    split
    · rfl
    · exact beq_eq_false_iff_ne.mpr idle

/-- The laser rail is off, and the Waystation knows that the interlock is lost. -/
def State.lasersOff (s : State) : State :=
  { s with power := { s.power with interlock := false }, pins := { s.pins with lasers := false } }

theorem unchanged_lasersOff (hw : Part.power ∈ l) (hp : Part.pins ∈ l) (h : Unchanged s t l) : Unchanged s t.lasersOff l :=
  unchanged_set_pins { t.pins with lasers := false } hp (unchanged_set_power { t.power with interlock := false } hw h)

theorem allDark_eq (s : State) : s.allDark = (forEach (List.finRange 8) s fun s p => s.darkPort p).lasersOff := by
  simp only [State.allDark, State.lasersOff]

/-- Once the interlock is lost every engine is dark, whichever order they go dark in. -/
theorem darkened_allDark (s : State) (q : PortId) : Darkened q s.allDark := by
  have keep (u : State) (x y : PortId) (hx : Darkened x u) : Darkened x (u.darkPort y) := by
    obtain rfl | other := eq_or_ne x y
    · exact darkened_darkPort u x
    · have frame : Unchanged u (u.darkPort y) (.optic y :: .port y :: (List.finRange 8).map Part.lnk) :=
        unchanged_darkPort y (by simp) (by simp) (by simp) (unchanged_refl u _)
      exact hx.of_same (frame (.optic x) (by simp [other])) (frame (.port x) (by simp [other]))
  have all := forEach_each Darkened (fun s p => s.darkPort p) darkened_darkPort keep (List.finRange 8) s q (List.mem_finRange q)
  have off := unchanged_lasersOff (l := [.power, .pins]) (by simp) (by simp)
    (unchanged_refl (forEach (List.finRange 8) s fun s p => s.darkPort p) _)
  rw [allDark_eq]
  exact all.of_same (off (.optic q) (by simp)) (off (.port q) (by simp))

theorem unchanged_allDark (s : State) : Unchanged s s.allDark ([.power, .pins] ++ everyPort) := by
  rw [allDark_eq]
  refine unchanged_lasersOff (by simp) (by simp) (unchanged_forEach _ _ (fun _ p hu => ?_) (unchanged_refl s _))
  exact unchanged_darkPort p (by simp [everyPort]) (by simp [everyPort]) (by simp [everyPort]) hu

theorem runs_interlockLost (h : s.power.interlock = true) : Runs .interlockLost s fun t =>
    (∀ q, Dark t q ∧ mayEmit t q = false ∧ portUp t q = false) ∧ t.power.interlock = false ∧ t.pins.lasers = false
      ∧ Recorded s t 0x0809
      ∧ Unchanged s t ([.power, .pins, .log, .out] ++ everyPort ++ allStalls.map (Part.stall · .seq)) := by
  have taken : execInterlockLost s = .next (s.allDark.moduleFault { reason := 0x0809 }) := by simp [execInterlockLost, h]
  have seqs (i : Stall) : Part.stall i .seq ∈ allStalls.map (Part.stall · .seq) := List.mem_map_of_mem (mem_allStalls i)
  have dark := unchanged_allDark s
  have fault : Unchanged s.allDark (s.allDark.moduleFault { reason := 0x0809 })
      ([.log, .out] ++ allStalls.map (Part.stall · .seq)) :=
    unchanged_moduleFault _ (by simp) (by simp) (fun i => List.mem_append_right _ (seqs i)) (unchanged_refl _ _)
  have power : (s.allDark.moduleFault { reason := 0x0809 }).power = s.allDark.power := fault .power (by simp)
  have pins : (s.allDark.moduleFault { reason := 0x0809 }).pins = s.allDark.pins := fault .pins (by simp)
  refine runs_of_exec taken ⟨fun q => ?_, by rw [power]; rfl, by rw [pins]; rfl,
    recorded_moduleFault _ (dark .log (by simp [everyPort])), ?_⟩
  · obtain ⟨isDark, interlock, down⟩ := (darkened_allDark s q).of_same (fault (.optic q) (by simp)) (fault (.port q) (by simp))
    exact ⟨isDark, mayEmit_of_interlock interlock, down⟩
  · exact Unchanged.trans (Unchanged.mono dark (by simp +contextual)) (Unchanged.mono fault (by simp +contextual))

/-- Settles O55: each command of the light sets the sources of its engine by what the interlocks allow; a port that loses its
light goes down with its lanes as they are. -/
theorem lightFollowsItsInterlocks : Obligations.LightFollowsItsInterlocks := by
  intro s p
  exact ⟨fun emits dark => runs_probeBurst emits dark, exec_probeBurst_held, runs_lightIn, runs_lightIn_kept, runs_portDark,
    runs_mateOpen, runs_mateClose,
    fun src works => ⟨runs_sourceFailover_taken works, runs_sourceFailover_lost works⟩,
    fun idle works => runs_standbySourceFailed idle works, runs_interlockLost⟩

end Sys2Proof.Machine
end

section
/-! PROOFS. The caravan verdict as a combination of reports (R60, R64). -/

namespace Sys2Proof.Machine

open Sys2Proof.Safety

/-! ### Bits, and extremes of lists -/

theorem bit_setBit {w : Nat} (x : BitVec w) (i k : Nat) : bit (setBit x i) k = (bit x k || (k == i && decide (i < w))) := by
  unfold bit setBit
  rw [BitVec.getLsbD_or, ← BitVec.twoPow_eq, BitVec.getLsbD_twoPow]
  by_cases hk : k = i
  · subst hk; simp
  · simp [hk, Ne.symm hk]

theorem bit_setBit_self {w : Nat} (x : BitVec w) {i : Nat} (hi : i < w) : bit (setBit x i) i = true := by
  simp [bit_setBit, hi]

theorem bit_setBit_of_bit {w : Nat} {x : BitVec w} {k : Nat} (i : Nat) (h : bit x k = true) : bit (setBit x i) k = true := by
  simp [bit_setBit, h]

theorem le_maxOf {l : List Nat} {d n : Nat} (h : n ≤ d ∨ n ∈ l) : n ≤ maxOf l d := by
  induction l generalizing d with
  | nil => exact h.resolve_right List.not_mem_nil
  | cons a l ih =>
    refine ih (d := max d a) ?_
    obtain h | h := h
    · exact .inl (h.trans (Nat.le_max_left d a))
    · exact (List.mem_cons.mp h).imp_left fun (same : n = a) => same ▸ Nat.le_max_right d a

theorem maxOf_mem (l : List Nat) (d : Nat) : maxOf l d = d ∨ maxOf l d ∈ l := by
  unfold maxOf
  induction l generalizing d with
  | nil => exact .inl rfl
  | cons a l ih =>
    obtain h | h := ih (max d a)
    · rw [List.foldl_cons, h]
      obtain e | e := max_choice d a <;> simp [e]
    · exact .inr (List.mem_cons_of_mem _ h)

theorem minOf_le {l : List Nat} {d n : Nat} (h : d ≤ n ∨ n ∈ l) : minOf l d ≤ n := by
  induction l generalizing d with
  | nil => exact h.resolve_right List.not_mem_nil
  | cons a l ih =>
    refine ih (d := min d a) ?_
    obtain h | h := h
    · exact .inl ((Nat.min_le_left d a).trans h)
    · exact (List.mem_cons.mp h).imp_left fun (same : n = a) => same ▸ Nat.min_le_right d a

theorem minOf_mem (l : List Nat) (d : Nat) : minOf l d = d ∨ minOf l d ∈ l := by
  unfold minOf
  induction l generalizing d with
  | nil => exact .inl rfl
  | cons a l ih =>
    obtain h | h := ih (min d a)
    · rw [List.foldl_cons, h]
      obtain e | e := min_choice d a <;> simp [e]
    · exact .inr (List.mem_cons_of_mem _ h)

/-! ### The highest cause -/

theorem topCause_toNat (cs : BitVec 13) : (topCause cs).toNat = maxOf ((List.range 13).filter fun k => bit cs k) 0 := by
  have small : maxOf ((List.range 13).filter fun k => bit cs k) 0 < 16 := by
    obtain h | h := maxOf_mem ((List.range 13).filter fun k => bit cs k) 0
    · omega
    · have := List.mem_range.mp (List.mem_of_mem_filter h)
      omega
  simp [topCause, Nat.mod_eq_of_lt small]

theorem le_topCause {cs : BitVec 13} {k : Nat} (hk : k < 13) (h : bit cs k = true) : k ≤ (topCause cs).toNat := by
  rw [topCause_toNat]
  exact le_maxOf (.inr (List.mem_filter.mpr ⟨List.mem_range.mpr hk, h⟩))

/-- Where there is a cause, the highest is one of them. -/
theorem bit_topCause {cs : BitVec 13} (h : cs ≠ 0) : bit cs (topCause cs).toNat = true := by
  obtain ⟨k, hk, hb⟩ : ∃ k < 13, bit cs k = true := by
    by_contra none
    push Not at none
    exact h (BitVec.eq_of_getLsbD_eq fun k hk => by simpa [bit] using none k hk)
  rw [topCause_toNat]
  obtain zero | mem := maxOf_mem ((List.range 13).filter fun k => bit cs k) 0
  · have : k = 0 := by
      have := le_topCause hk hb
      rw [topCause_toNat, zero] at this
      omega
    rw [zero, ← this]
    exact hb
  · exact (List.mem_filter.mp mem).2

/-! ### The lowest member -/

theorem lowest_toNat (l : List Member) : (lowest l).toNat = minOf (l.map BitVec.toNat) 0x7F := by
  have small : minOf (l.map BitVec.toNat) 0x7F < 128 := Nat.lt_of_le_of_lt (minOf_le (.inl Nat.le.refl)) (by decide)
  simp [lowest, Nat.mod_eq_of_lt small]

theorem lowest_le {l : List Member} {m : Member} (h : m ∈ l) : (lowest l).toNat ≤ m.toNat := by
  rw [lowest_toNat]
  exact minOf_le (.inr (List.mem_map_of_mem h))

theorem lowest_mem {l : List Member} (h : l ≠ []) : lowest l ∈ l := by
  obtain top | mem := minOf_mem (l.map BitVec.toNat) 0x7F
  · -- the lowest is 0x7F, so every member is
    obtain ⟨m, hm⟩ := List.exists_mem_of_ne_nil l h
    have : m = lowest l := by
      have := lowest_le hm
      rw [lowest_toNat, top] at this
      apply BitVec.eq_of_toNat_eq
      rw [lowest_toNat, top]
      omega
    exact this ▸ hm
  · obtain ⟨m, hm, same⟩ := List.mem_map.mp mem
    have : lowest l = m := BitVec.eq_of_toNat_eq ((lowest_toNat l).trans same.symm)
    exact this ▸ hm

/-! ### The combination -/

/-- The causes that the combination finds: the reported ones, a missing word, a differing step and an alarm that holds. -/
def combinedCauses (reports : List Report) (lost : List Member) (leadStep : BitVec 40) (held : BitVec 4) : BitVec 13 :=
  let differ := (reports.filter fun r => r.step != leadStep).map fun r => r.member
  let base := reports.foldl (fun acc r => acc ||| r.causes) (0 : BitVec 13)
  let c1 := if lost.isEmpty then base else setBit base 6
  let c2 := if differ.isEmpty then c1 else setBit c1 10
  if held = 0 then c2 else setBit c2 2

theorem bit_foldl_or (reports : List Report) (k : Nat) (acc : BitVec 13) :
    bit (reports.foldl (fun acc r => acc ||| r.causes) acc) k = (bit acc k || reports.any fun r => bit r.causes k) := by
  induction reports generalizing acc with
  | nil => simp
  | cons r rs ih =>
    rw [List.foldl_cons, ih, List.any_cons, ← Bool.or_assoc]
    simp [bit]

section combine
variable {reports : List Report} {lost : List Member} {leadStep : BitVec 40} {alarms holdEn : BitVec 4} {norm2 loss : Word}
  {leadMember : Member} {sinceStart limit : BitVec 8}

theorem bit_combinedCauses_of_report {held : BitVec 4} {r : Report} (hr : r ∈ reports) {k : Nat} (h : bit r.causes k = true) :
    bit (combinedCauses reports lost leadStep held) k = true := by
  have found : bit (reports.foldl (fun acc r => acc ||| r.causes) (0 : BitVec 13)) k = true := by
    rw [bit_foldl_or]
    simp only [Bool.or_eq_true, List.any_eq_true]
    exact .inr ⟨r, hr, h⟩
  unfold combinedCauses
  extract_lets differ base c1 c2
  have h1 : bit c1 k = true := by
    unfold c1
    split
    · exact found
    · exact bit_setBit_of_bit _ found
  have h2 : bit c2 k = true := by
    unfold c2
    split
    · exact h1
    · exact bit_setBit_of_bit _ h1
  split
  · exact h2
  · exact bit_setBit_of_bit _ h2

/-- A missing word counts as REPEAT_FAULT (R62). -/
theorem bit_combinedCauses_of_lost {held : BitVec 4} (h : lost ≠ []) : bit (combinedCauses reports lost leadStep held) 6 = true := by
  unfold combinedCauses
  extract_lets differ base c1 c2
  have h1 : bit c1 6 = true := by
    simp only [c1, List.isEmpty_iff, h, if_false]
    exact bit_setBit_self _ (by decide)
  have h2 : bit c2 6 = true := by
    unfold c2
    split
    · exact h1
    · exact bit_setBit_of_bit _ h1
  split
  · exact h2
  · exact bit_setBit_of_bit _ h2

/-- Either the highest cause is the verdict, or it would repeat the march once too often and the march is held (R64). -/
theorem combine_code :
    let cs := combinedCauses reports lost leadStep (alarms &&& holdEn)
    let v := combine reports lost leadStep alarms holdEn norm2 loss leadMember sinceStart limit
    (v.code = topCause cs ∧ v.causes = cs ∧ (repeats v.code = true → sinceStart.toNat + 1 ≤ limit.toNat))
      ∨ (v.code = 12 ∧ v.causes = setBit cs 12) := by
  intro cs v
  by_cases late : (repeats (topCause cs) && decide (limit.toNat < sinceStart.toNat + 1)) = true
  · have : v = if repeats (topCause cs) && decide (limit.toNat < sinceStart.toNat + 1) then _ else _ := rfl
    rw [if_pos late] at this
    rw [this]
    exact .inr ⟨rfl, rfl⟩
  · have : v = if repeats (topCause cs) && decide (limit.toNat < sinceStart.toNat + 1) then _ else _ := rfl
    rw [if_neg late] at this
    rw [this]
    refine .inl ⟨rfl, rfl, fun again => ?_⟩
    simp only [Bool.and_eq_true, decide_eq_true_eq, not_and, not_lt] at late
    exact late again

theorem combine_source_eq (h : ∀ r ∈ reports, r.step = leadStep)
    (some : (reports.filter fun r => bit r.causes (topCause (combinedCauses reports lost leadStep (alarms &&& holdEn))).toNat) ≠ []) :
    (combine reports lost leadStep alarms holdEn norm2 loss leadMember sinceStart limit).source
      = lowest ((reports.filter fun r => bit r.causes (topCause (combinedCauses reports lost leadStep (alarms &&& holdEn))).toNat).map
          fun r => r.member) := by
  have agree : (reports.filter fun r => r.step != leadStep) = [] := by simpa [List.filter_eq_nil_iff] using h
  have source : (combine reports lost leadStep alarms holdEn norm2 loss leadMember sinceStart limit).source
      = if topCause (combinedCauses reports lost leadStep (alarms &&& holdEn)) = vCounter
            ∧ !((reports.filter fun r => r.step != leadStep).map fun r => r.member).isEmpty
          then lowest ((reports.filter fun r => r.step != leadStep).map fun r => r.member)
        else if !(reports.filter fun r =>
            bit r.causes (topCause (combinedCauses reports lost leadStep (alarms &&& holdEn))).toNat).isEmpty
          then lowest ((reports.filter fun r =>
            bit r.causes (topCause (combinedCauses reports lost leadStep (alarms &&& holdEn))).toNat).map fun r => r.member)
        else if topCause (combinedCauses reports lost leadStep (alarms &&& holdEn)) = vFault then lowest lost else leadMember :=
    apply_ite CaravanVerdict.source _ _ _ |>.trans (ite_self _)
  rw [source, agree, if_neg (by simp), if_pos (by simpa [List.isEmpty_iff] using some)]

end combine

/-- Settles O29: the causes of the reports are joined, and the highest decides unless it would repeat the march once too often. -/
theorem highestCauseWins : Obligations.HighestCauseWins := by
  intro reports lost leadStep alarms holdEn norm2 loss leadMember sinceStart limit v
  have report {k : Nat} {r : Report} (hr : r ∈ reports) (h : bit r.causes k = true) :
      bit (combinedCauses reports lost leadStep (alarms &&& holdEn)) k = true := bit_combinedCauses_of_report hr h
  have cases := combine_code (reports := reports) (lost := lost) (leadStep := leadStep) (alarms := alarms) (holdEn := holdEn)
    (norm2 := norm2) (loss := loss) (leadMember := leadMember) (sinceStart := sinceStart) (limit := limit)
  change (v.code = _ ∧ v.causes = _ ∧ _) ∨ (v.code = 12 ∧ v.causes = _) at cases
  obtain ⟨code, causes, within⟩ | ⟨code, causes⟩ := cases
  · rw [code, causes]
    refine ⟨fun r hr k _ h => report hr h, fun k hk h => le_topCause hk h, bit_topCause, fun said _ same => ?_, ?_⟩
    · obtain ⟨r, hr, hb⟩ := said
      have saying : (reports.filter fun r =>
          bit r.causes (topCause (combinedCauses reports lost leadStep (alarms &&& holdEn))).toNat) ≠ [] :=
        List.ne_nil_of_mem (List.mem_filter.mpr ⟨hr, hb⟩)
      have source : v.source = _ := combine_source_eq same saying
      obtain ⟨x, hx, member⟩ := List.mem_map.mp (lowest_mem (List.map_eq_nil_iff.not.mpr saying))
      obtain ⟨hx, xb⟩ := List.mem_filter.mp hx
      refine ⟨x, hx, member.trans source.symm, xb, fun y hy yb => ?_⟩
      rw [source]
      exact lowest_le (List.mem_map_of_mem (List.mem_filter.mpr ⟨hy, yb⟩))
    · rw [← code]
      exact within
  · rw [code, causes]
    refine ⟨fun r hr k _ h => bit_setBit_of_bit _ (report hr h), fun k hk _ => ?_, fun _ => bit_setBit_self _ (by decide),
      fun _ never => absurd rfl never, fun again => absurd again (by decide)⟩
    exact Nat.le_of_lt_succ hk

end Sys2Proof.Machine
end

section
/-! PROOFS. What the march's operations share: what they send, what a record leaves as it was, and the paths of flits. -/

namespace Sys2Proof.Machine

open Sys2Proof.Safety

variable {s t : State} {l : List Part}

@[simp] theorem State.atTime_time (s : State) (b : BitVec 64) : (s.atTime b).time = maxU s.time b := rfl

/-! ### What is sent -/

/-- Between two states nothing but messages of one kind has been sent. -/
def SendsOnly (P : Out → Prop) (s t : State) : Prop := ∃ os, t.out = s.out ++ os ∧ ∀ o ∈ os, P o

section sends
variable {P : Out → Prop}

theorem sendsOnly_of_out_eq (h : t.out = s.out) : SendsOnly P s t := ⟨[], by simp [h], by simp⟩

theorem SendsOnly.trans {u : State} (h : SendsOnly P s t) (h' : SendsOnly P t u) : SendsOnly P s u := by
  obtain ⟨os, out, all⟩ := h
  obtain ⟨os', out', all'⟩ := h'
  refine ⟨os ++ os', by rw [out', out, List.append_assoc], fun o ho => ?_⟩
  exact (List.mem_append.mp ho).elim (all o) (all' o)

theorem SendsOnly.send (h : SendsOnly P s t) {o : Out} (ho : P o) : SendsOnly P s (t.send o) :=
  h.trans ⟨[o], rfl, by simpa using ho⟩

theorem SendsOnly.subset (h : SendsOnly P s t) : s.out ⊆ t.out := by
  obtain ⟨os, out, -⟩ := h
  rw [out]
  exact List.subset_append_left _ _

theorem sendsOnly_forEach {α : Type} (xs : List α) (f : State → α → State) (hf : ∀ u x, SendsOnly P s u → SendsOnly P s (f u x))
    (h : SendsOnly P s t) : SendsOnly P s (forEach xs t f) := by
  unfold forEach
  induction xs generalizing t with
  | nil => exact h
  | cons x xs ih => exact ih (hf t x h)

end sends

theorem mem_send_out (s : State) (o : Out) : o ∈ (s.send o).out := List.mem_append_right _ (List.mem_singleton_self o)

@[simp] theorem mem_out_send {o m : Out} : o ∈ (s.send m).out ↔ o ∈ s.out ∨ o = m := by simp [State.send]

/-! ### Events and records -/

/-- The messages by which a stall raises a vector (R323, R388). -/
def IsEvent (o : Out) : Prop := (∃ i v, o = .relayEvent i v) ∨ ∃ l n, o = .msix l n

theorem raise_eq (s : State) (i : Stall) (v : BitVec 6) :
    ∃ os, s.raise i v = { s with out := s.out ++ os } ∧ ∀ o ∈ os, IsEvent o := by
  have silent : s = { s with out := s.out ++ [] } := by simp
  unfold State.raise
  split
  · exact ⟨[], silent, by simp⟩
  · exact ⟨[.relayEvent i v], rfl, by simp [IsEvent]⟩
  · split
    · exact ⟨[_], rfl, by simp [IsEvent]⟩
    · exact ⟨[], silent, by simp⟩

theorem raiseEvent_eq (s : State) (i : Stall) (k : Nat) :
    ∃ os, s.raiseEvent i k = { s with out := s.out ++ os } ∧ ∀ o ∈ os, IsEvent o := by
  unfold State.raiseEvent
  simp only []
  split
  · exact raise_eq s i _
  · exact ⟨[], by simp, by simp⟩

/-- The log with one more record. -/
def logged (s : State) (r : Rec) : State :=
  { s with log := { s.log with
    ring := (recBits s r :: s.log.ring).take 1024
    newest := s.log.newest + 1
    injected := if r.injected then satAdd s.log.injected 1 else s.log.injected } }

theorem record_eq (s : State) (r : Rec) :
    ∃ os, s.record r = { logged s r with out := s.out ++ os } ∧ ∀ o ∈ os, IsEvent o := by
  unfold State.record
  simp only []
  split
  · exact raiseEvent_eq (logged s r) _ 2
  · exact ⟨[], by simp [logged], by simp⟩

section fields
variable (s) (i j : Stall) (v : BitVec 6) (k : Nat) (r : Rec)

@[simp] theorem raise_stall : (s.raise i v).stall j = s.stall j := by
  obtain ⟨os, h, -⟩ := raise_eq s i v
  exact h ▸ rfl

@[simp] theorem raise_log : (s.raise i v).log = s.log := by
  obtain ⟨os, h, -⟩ := raise_eq s i v
  exact h ▸ rfl

@[simp] theorem raiseEvent_stall : (s.raiseEvent i k).stall j = s.stall j := by
  obtain ⟨os, h, -⟩ := raiseEvent_eq s i k
  exact h ▸ rfl

@[simp] theorem raiseEvent_time : (s.raiseEvent i k).time = s.time := by
  obtain ⟨os, h, -⟩ := raiseEvent_eq s i k
  exact h ▸ rfl

@[simp] theorem raiseEvent_power : (s.raiseEvent i k).power = s.power := by
  obtain ⟨os, h, -⟩ := raiseEvent_eq s i k
  exact h ▸ rfl

@[simp] theorem raiseEvent_log : (s.raiseEvent i k).log = s.log := by
  obtain ⟨os, h, -⟩ := raiseEvent_eq s i k
  exact h ▸ rfl

@[simp] theorem record_stall : (s.record r).stall j = s.stall j := by
  obtain ⟨os, h, -⟩ := record_eq s r
  exact h ▸ rfl

@[simp] theorem record_time : (s.record r).time = s.time := by
  obtain ⟨os, h, -⟩ := record_eq s r
  exact h ▸ rfl

@[simp] theorem record_power : (s.record r).power = s.power := by
  obtain ⟨os, h, -⟩ := record_eq s r
  exact h ▸ rfl

@[simp] theorem record_fabric : (s.record r).fabric = s.fabric := by
  obtain ⟨os, h, -⟩ := record_eq s r
  exact h ▸ rfl

theorem sendsOnly_raise : SendsOnly IsEvent s (s.raise i v) := by
  obtain ⟨os, h, events⟩ := raise_eq s i v
  exact ⟨os, by rw [h], events⟩

theorem sendsOnly_raiseEvent : SendsOnly IsEvent s (s.raiseEvent i k) := by
  obtain ⟨os, h, events⟩ := raiseEvent_eq s i k
  exact ⟨os, by rw [h], events⟩

theorem sendsOnly_record : SendsOnly IsEvent s (s.record r) := by
  obtain ⟨os, h, events⟩ := record_eq s r
  exact ⟨os, by rw [h], events⟩

@[simp] theorem mem_raise {o : Out} (h : o ∈ s.out) : o ∈ (s.raise i v).out := (sendsOnly_raise s i v).subset h

@[simp] theorem mem_raiseEvent {o : Out} (h : o ∈ s.out) : o ∈ (s.raiseEvent i k).out := (sendsOnly_raiseEvent s i k).subset h

@[simp] theorem mem_record {o : Out} (h : o ∈ s.out) : o ∈ (s.record r).out := (sendsOnly_record s r).subset h

end fields

/-! ### Stalls -/

/-- Where no group of a stall is named, the stall stays. -/
theorem Unchanged.stall_eq {j : Stall} (h : Unchanged s t l) (hl : ∀ k, Part.stall j k ∉ l) : t.stall j = s.stall j := by
  have same (k : StallPart) : sameIn (s.stall j) (t.stall j) k := h (.stall j k) (hl k)
  have march := same .march
  have sync := same .sync
  have seq := same .seq
  have ledger := same .ledger
  have settle := same .settle
  have tally := same .tally
  have lot := same .lot
  have charter := same .charter
  have page := same .page
  have posts := same .posts
  have secure := same .secure
  have customs := same .customs
  have service := same .service
  have xchg := same .xchg
  simp only [sameIn] at march sync seq ledger settle tally lot charter page posts secure customs service xchg
  cases hs : s.stall j
  cases ht : t.stall j
  simp_all

/-! ### Causes (R60, R61, R65) -/

section causes
variable (s) (i : Stall) (code : BitVec 4) (reason : Reason)

/-- The sequencer with a cause of the march in progress. -/
def withCause (q : Sequencer) : Sequencer :=
  { q with causes := setBit q.causes code.toNat, reasons := addReason q.reasons code reason }

/-- A halting cause in LEGS stops the member's work and makes the halt known to it (R61). -/
theorem causeNow_halts (hs : (s.stall i).march.state = .legs) (hh : halts code = true) :
    ((s.causeNow i code reason).stall i).seq = { withCause code reason (s.stall i).seq with haltKnown := true, stopped := true }
      ∧ Out.halt i code reason ∈ (s.causeNow i code reason).out := by
  unfold State.causeNow State.learnHalt withCause
  simp only [hs, hh]
  split
  · next legs =>
    split <;> simp
  · next never => exact absurd rfl never

theorem cause_cases : s.cause i code reason = s.causeNow i code reason ∨ s.cause i code reason = s.causeNext i code reason
    ∨ s.cause i code reason = s := by
  unfold State.cause
  simp only []
  split
  · exact .inl rfl
  · split
    · exact .inl rfl
    · exact .inr (.inl rfl)
  · exact .inr (.inl rfl)
  · exact .inr (.inl rfl)
  · exact .inr (.inl rfl)
  · split
    · exact .inr (.inl rfl)
    · exact .inr (.inr rfl)
  · exact .inr (.inr rfl)

variable {s} {i}

theorem cause_legs (hs : (s.stall i).march.state = .legs) : s.cause i code reason = s.causeNow i code reason := by
  simp [State.cause, hs]

theorem cause_next (hs : (s.stall i).march.state = .settle ∨ (s.stall i).march.state = .armed ∨ (s.stall i).march.state = .waitRepeat) :
    s.cause i code reason = s.causeNext i code reason := by
  obtain hs | hs | hs := hs <;> simp [State.cause, hs]

/-- A field of the sequencer that says nothing of causes and halts. -/
def CauseFree {α : Type} (f : Sequencer → α) : Prop := ∀ q causes reasons nextCauses nextReasons haltKnown stopped,
  f { q with causes := causes, reasons := reasons, nextCauses := nextCauses, nextReasons := nextReasons
             haltKnown := haltKnown, stopped := stopped } = f q

variable {α : Type} {f : Sequencer → α} (hf : CauseFree f)
include hf

theorem CauseFree.causeNow_eq : f ((s.causeNow i code reason).stall i).seq = f (s.stall i).seq := by
  have h := hf (s.stall i).seq (setBit (s.stall i).seq.causes code.toNat) (addReason (s.stall i).seq.reasons code reason)
    (s.stall i).seq.nextCauses (s.stall i).seq.nextReasons
  unfold State.causeNow State.learnHalt
  simp only []
  split
  · split
    · simpa using h true true
    · simpa using h true true
  · simpa using h (s.stall i).seq.haltKnown (s.stall i).seq.stopped

theorem CauseFree.causeNext_eq : f ((s.causeNext i code reason).stall i).seq = f (s.stall i).seq := by
  simpa [State.causeNext] using hf (s.stall i).seq (s.stall i).seq.causes (s.stall i).seq.reasons
    (setBit (s.stall i).seq.nextCauses code.toNat) (addReason (s.stall i).seq.nextReasons code reason)
    (s.stall i).seq.haltKnown (s.stall i).seq.stopped

theorem CauseFree.cause_eq : f ((s.cause i code reason).stall i).seq = f (s.stall i).seq := by
  obtain h | h | h := cause_cases s i code reason <;> rw [h]
  · exact hf.causeNow_eq code reason
  · exact hf.causeNext_eq code reason

end causes

theorem unchanged_missingPeer {i : Stall} (m : Member) (reason : Reason) (ho : Part.out ∈ l) (hq : Part.stall i .seq ∈ l)
    (h : Unchanged s t l) : Unchanged s (t.missingPeer i m reason) l :=
  unchanged_cause _ _ ho hq (unchanged_modSeq _ hq h)

theorem sendsOnly_causeNow (s : State) (i : Stall) (code : BitVec 4) (reason : Reason) :
    SendsOnly (fun o => o = .halt i code reason ∨ o = .haltBroadcast i) s (s.causeNow i code reason) := by
  unfold State.causeNow
  simp only []
  split
  · split
    · exact ((sendsOnly_of_out_eq rfl).send (.inl rfl)).send (.inr rfl)
    · exact (sendsOnly_of_out_eq rfl).send (.inl rfl)
  · exact sendsOnly_of_out_eq rfl

theorem sendsOnly_cause (s : State) (i : Stall) (code : BitVec 4) (reason : Reason) :
    SendsOnly (fun o => o = .halt i code reason ∨ o = .haltBroadcast i) s (s.cause i code reason) := by
  obtain h | h | h := cause_cases s i code reason <;> rw [h]
  · exact sendsOnly_causeNow s i code reason
  · exact sendsOnly_of_out_eq rfl
  · exact sendsOnly_of_out_eq rfl

theorem mem_missingPeer (s : State) (i : Stall) (m : Member) (reason : Reason) : s.out ⊆ (s.missingPeer i m reason).out :=
  (sendsOnly_cause (s.modSeq i _) i vFault reason).subset

/-- A peer that is missing while the march is in LEGS halts it with REPEAT_FAULT (Table 02-2). -/
theorem missingPeer_legs (s : State) (i : Stall) (m : Member) (reason : Reason) (hs : (s.stall i).march.state = .legs) :
    let q := ((s.missingPeer i m reason).stall i).seq
    bit q.causes 6 = true ∧ (∃ e ∈ q.missing, e.1 = m) ∧ q.stopped = true := by
  intro q
  let noted := s.modSeq i fun q => { q with
    missing := if q.missing.any fun e => e.1 == m then q.missing else q.missing ++ [(m, reason)] }
  have legs : (noted.stall i).march.state = .legs := by simpa [noted] using hs
  have run : q = { withCause vFault reason (noted.stall i).seq with haltKnown := true, stopped := true } := by
    have : q = ((noted.cause i vFault reason).stall i).seq := rfl
    rw [this, cause_legs _ _ legs]
    exact (causeNow_halts noted i vFault reason legs rfl).1
  rw [run]
  refine ⟨bit_setBit_self _ (by decide), ?_, rfl⟩
  change ∃ e ∈ (noted.stall i).seq.missing, e.1 = m
  simp only [noted, State.modSeq_seq]
  split
  · next known =>
    obtain ⟨e, he, same⟩ := List.any_eq_true.mp known
    exact ⟨e, he, by simpa using same⟩
  · exact ⟨(m, reason), by simp, rfl⟩

/-- A member out of step learns of the halt and reports it (R44). -/
theorem outOfStepCause_halts (s : State) (i : Stall) :
    let u := s.outOfStepCause i
    bit (u.stall i).seq.causes 6 = true ∧ (u.stall i).seq.haltKnown = true ∧ Out.halt i 6 0x0206 ∈ u.out := by
  have found : bit (setBit (s.stall i).seq.causes 6) 6 = true := bit_setBit_self _ (by decide)
  unfold State.outOfStepCause State.learnHalt
  simp only []
  split <;> simp [found, vFault]

theorem unchanged_outOfStepCause {i : Stall} (ho : Part.out ∈ l) (hq : Part.stall i .seq ∈ l) (h : Unchanged s t l) :
    Unchanged s (t.outOfStepCause i) l := by
  have learnt : Unchanged s (((t.modSeq i fun q => { q with
      causes := setBit q.causes vFault.toNat, reasons := addReason q.reasons vFault 0x0206 }).learnHalt i).send
        (.halt i vFault 0x0206)) l :=
    unchanged_send _ ho (unchanged_modSeq _ hq (unchanged_modSeq _ hq h))
  unfold State.outOfStepCause
  simp only []
  split
  · exact unchanged_send _ ho learnt
  · exact learnt

/-! ### Paths (R316 to R318, R328) -/

/-- The way of a flit depends on the ports that are up, this member's index and the places that standbys took. -/
theorem exitPort_congr {s' : State} {u u' : StallState} (hp : s'.fabric.ports = s.fabric.ports)
    (hm : u'.march.member = u.march.member) (hl : u'.ledger.subst = u.ledger.subst) (c : Charter) :
    exitPort s' c u' = exitPort s c u := by
  have up : portUp s' = portUp s := by
    funext p
    simp only [portUp, State.port, hp]
  have role : ownRole u' = ownRole u := by simp only [ownRole, standsFor, hm, hl]
  have ring : ringOut s' = ringOut s := by
    funext c j self target came
    simp only [ringOut, up]
  have within : portWithin s' c u' = portWithin s c u := by
    funext d came
    simp only [portWithin, hm, hl, role, ring]
  have normal : normalPort s' c u' = normalPort s c u := by
    funext dst car came
    simp only [normalPort, hm, up, within]
  funext dst car came
  simp only [exitPort, hm, up, normal]

end Sys2Proof.Machine
end

section
/-! PROOFS. Timebases (R41 to R45): sync flits, holdover and the deputy that takes the lead. -/

namespace Sys2Proof.Machine

open Sys2Proof.Safety

variable {s t : State} {l : List Part}

/-! ### Sync flits (R41) -/

/-- The sync flits of an instant change nothing but what is sent, and leave for every target that a path leads to. -/
theorem sendSync_eq (s : State) (i : Stall) (stamp : BitVec 64) (hops : BitVec 8) {c : Charter}
    (hc : (s.stall i).charter.active = some c) :
    ∃ os, s.sendSync i stamp hops = { s with out := s.out ++ os }
      ∧ ∀ x ∈ syncTargets (s.stall i) c, ∀ e, exitPort s c (s.stall i) x.1 x.2.1 none = some e →
          Out.sync i e.1 x.1 x.2.1 stamp (hops + BitVec.ofNat 8 x.2.2) ∈ os := by
  unfold State.sendSync
  simp only [hc]
  generalize syncTargets (s.stall i) c = xs
  generalize ht : s.stall i = u
  clear ht hc
  unfold forEach
  induction xs generalizing s with
  | nil => exact ⟨[], by simp, by simp⟩
  | cons x xs ih =>
    have path (os : List Out) : exitPort { s with out := os } c u = exitPort s c u := exitPort_congr rfl rfl rfl c
    rw [List.foldl_cons]
    split
    · next p b out =>
      obtain ⟨os, run, sent⟩ := ih (s.send (.sync i p x.1 x.2.1 stamp (hops + BitVec.ofNat 8 x.2.2)))
      refine ⟨.sync i p x.1 x.2.1 stamp (hops + BitVec.ofNat 8 x.2.2) :: os, ?_, fun y hy e he => ?_⟩
      · rw [run]
        simp [State.send]
      · obtain rfl | hy := List.mem_cons.mp hy
        · cases out.symm.trans he
          exact List.mem_cons_self
        · exact List.mem_cons_of_mem _ (sent y hy e ((congrFun (congrFun (congrFun (path _) _) _) _).trans he))
    · next out =>
      obtain ⟨os, run, sent⟩ := ih s
      refine ⟨os, run, fun y hy e he => ?_⟩
      obtain rfl | hy := List.mem_cons.mp hy
      · cases out.symm.trans he
      · exact sent y hy e he

/-- Whom a member's sync flits go to depends on its charter, its index and its lead. -/
theorem syncTargets_congr {u u' : StallState} (hm : u'.march.member = u.march.member) (hl : u'.march.lead = u.march.lead)
    (c : Charter) : syncTargets u' c = syncTargets u c := by
  simp only [syncTargets, hm, hl]

section fields
variable (s) (i j : Stall) (stamp : BitVec 64) (hops : BitVec 8)

theorem sendSync_cases : ∃ os, s.sendSync i stamp hops = { s with out := s.out ++ os } := by
  cases hc : (s.stall i).charter.active with
  | none => exact ⟨[], by simp [State.sendSync, hc]⟩
  | some c =>
    obtain ⟨os, run, -⟩ := sendSync_eq s i stamp hops hc
    exact ⟨os, run⟩

@[simp] theorem sendSync_stall : (s.sendSync i stamp hops).stall j = s.stall j := by
  obtain ⟨os, run⟩ := sendSync_cases s i stamp hops
  exact run ▸ rfl

@[simp] theorem sendSync_time : (s.sendSync i stamp hops).time = s.time := by
  obtain ⟨os, run⟩ := sendSync_cases s i stamp hops
  exact run ▸ rfl

@[simp] theorem sendSync_log : (s.sendSync i stamp hops).log = s.log := by
  obtain ⟨os, run⟩ := sendSync_cases s i stamp hops
  exact run ▸ rfl

@[simp] theorem mem_sendSync {o : Out} (h : o ∈ s.out) : o ∈ (s.sendSync i stamp hops).out := by
  obtain ⟨os, run⟩ := sendSync_cases s i stamp hops
  rw [run]
  exact List.mem_append_left _ h

end fields

theorem unchanged_sendSync (i : Stall) (stamp : BitVec 64) (hops : BitVec 8) (ho : Part.out ∈ l) (h : Unchanged s t l) : Unchanged s (t.sendSync i stamp hops) l := by
  obtain ⟨os, run⟩ := sendSync_cases t i stamp hops
  rw [run]
  exact unchanged_set_out _ ho h

/-- The sync flits leave for the targets of a stall whose ports, index, lead and places are those of the state that sends
them. -/
theorem syncsTo_sendSync {s t : State} {i : Stall} {c : Charter} {u : StallState} {stamp : BitVec 64} {hops : BitVec 8}
    (hc : (t.stall i).charter.active = some c) (hp : t.fabric.ports = s.fabric.ports)
    (hm : u.march.member = (t.stall i).march.member) (hl : u.march.lead = (t.stall i).march.lead)
    (hs : u.ledger.subst = (t.stall i).ledger.subst) : SyncsTo s (t.sendSync i stamp hops) i c u stamp hops := by
  obtain ⟨os, run, sent⟩ := sendSync_eq t i stamp hops hc
  intro x hx e he
  rw [run]
  rw [exitPort_congr hp.symm hm hs c] at he
  rw [syncTargets_congr hm hl c] at hx
  exact List.mem_append_right _ (sent x hx e he)

theorem SyncsTo.subset {u : State} {i : Stall} {c : Charter} {x : StallState} {stamp : BitVec 64} {hops : BitVec 8}
    (h : SyncsTo s t i c x stamp hops) (hu : t.out ⊆ u.out) : SyncsTo s u i c x stamp hops :=
  fun y hy e he => hu (h y hy e he)

section sync
variable {i : Stall} {c : Charter} (hc : (s.stall i).charter.active = some c)
include hc

theorem runs_syncFlitSend (hl : (s.stall i).march.lead = true) (hf : furtherLead (s.stall i) = false) :
    Runs (.syncFlitSend i) s fun t =>
      t.time = maxU s.time ((s.stall i).sync.last + 50000) ∧ (t.stall i).sync.last = t.time ∧ (t.stall i).sync.hops = 0
      ∧ SyncsTo s t i c (s.stall i) t.time 0 ∧ Unchanged s t [.time, .stall i .sync, .out] := by
  obtain ⟨b, hb⟩ : ∃ b, (s.stall i).sync.last + 50000 = b := ⟨_, rfl⟩
  rw [hb]
  let timed := s.atTime b
  let noted := timed.modSync i fun y => { y with last := timed.time, hops := 0 }
  have taken : execSyncFlitSend i s = .next (noted.sendSync i timed.time 0) := by
    simp only [execSyncFlitSend, hl, hc, hf, hb]
    rfl
  have clock : (noted.sendSync i timed.time 0).time = timed.time := by simp [noted]
  have charter : (noted.stall i).charter.active = some c := by simpa [noted, timed] using hc
  refine runs_of_exec taken ⟨?_, ?_, ?_, ?_, ?_⟩
  · simp [noted, timed]
  · simp [noted]
  · simp [noted]
  · rw [clock]
    exact syncsTo_sendSync charter rfl (by simp [noted, timed]) (by simp [noted, timed]) (by simp [noted, timed])
  · exact unchanged_sendSync _ _ _ (by simp) (unchanged_modSync _ (by simp) (unchanged_atTime _ (by simp) (unchanged_refl s _)))

omit hc in
/-- A march that is not finished does not close (R59). -/
theorem closeMarch_unfinished {s : State} {i : Stall} (h : (s.stall i).seq.finished = false) : s.closeMarch i = s := by
  unfold State.closeMarch
  simp only []
  split
  · rfl
  · rw [if_pos (by simp [h])]

/-! ### Corrections (R42) -/

omit hc in
theorem ofNat_toNat_add {w : Nat} (x : BitVec w) {d : Int} (h : 0 ≤ (x.toNat : Int) + d) :
    BitVec.ofNat w ((x.toNat : Int) + d).toNat = x + BitVec.ofInt w d := by
  rw [← BitVec.ofInt_natCast, Int.toNat_of_nonneg h, BitVec.ofInt_add]
  simp

omit hc in
/-- While a march of a stall is in progress a timebase slews by at most 1 ns in every 10 µs. -/
theorem syncCorrection_slews (off : Int) (hj : ∃ j, marching (s.stall j) = true) :
    (syncCorrection s i off).natAbs ≤ (s.time.toNat - (s.stall i).sync.last.toNat) / 10000 := by
  obtain ⟨j, hj⟩ := hj
  have busy : (allStalls.all fun j => !marching (s.stall j)) = false := by
    simp only [List.all_eq_false]
    exact ⟨j, mem_allStalls j, by simp [hj]⟩
  simp only [syncCorrection, busy, Bool.false_and, Bool.false_eq_true, if_false]
  omega

omit hc in
/-- Without a march a large offset is corrected at once. -/
theorem syncCorrection_steps {off : Int} (hj : ∀ j, marching (s.stall j) = false) (large : 1000 < off.natAbs) :
    syncCorrection s i off = off := by
  have idle : (allStalls.all fun j => !marching (s.stall j)) = true := by simp [hj]
  simp [syncCorrection, idle, large]

theorem runs_syncFlitReceive (p : PortId) (stamp : BitVec 64) (hops : BitVec 8)
    (hf : (s.stall i).march.lead = false ∨ furtherLead (s.stall i) = true) :
    let off : Int := ((stamp.toNat : Int) + (s.port p).delay.toNat) - s.time.toNat
    let bound : Nat := if (s.stall i).march.lead then 100 else 20
    Runs (.syncFlitReceive i p stamp hops) s fun t =>
      (t.stall i).sync.holdover = false ∧ (t.stall i).sync.last = t.time ∧ (t.stall i).sync.hops = hops
      ∧ ((∃ j, marching (s.stall j) = true) →
          ∃ d : Int, d.natAbs ≤ (s.time.toNat - (s.stall i).sync.last.toNat) / 10000 ∧ t.time = s.time + BitVec.ofInt 64 d)
      ∧ ((∀ j, marching (s.stall j) = false) → 1000 < off.natAbs → t.time = stamp + (s.port p).delay.setWidth 64)
      ∧ (off.natAbs ≤ bound → (t.stall i).march.synced = true ∧ (t.stall i).sync.outOfStep = false)
      ∧ (bound < off.natAbs →
          (t.stall i).march.synced = (s.stall i).march.synced ∧ (t.stall i).sync.outOfStep = (s.stall i).sync.outOfStep)
      ∧ SyncsTo s t i c (s.stall i) t.time hops
      ∧ Unchanged s t [.time, .stall i .sync, .stall i .march, .out] := by
  intro off bound
  let time := BitVec.ofNat 64 ((s.time.toNat : Int) + syncCorrection s i off).toNat
  let within := decide (off.natAbs ≤ bound)
  let noted := ({ s with time := time }.modSync i fun y => { y with
      holdover := false, last := time, hops := hops
      offset := BitVec.ofInt 16 (max (-32767) (min 32767 off))
      outOfStep := y.outOfStep && !within }).modMarch i fun m => { m with synced := m.synced || within }
  have stall (j : Stall) : ({ s with time := time } : State).stall j = s.stall j := rfl
  have follows : ((s.stall i).march.lead && !furtherLead (s.stall i)) = false := by
    obtain h | h := hf <;> simp [h]
  have taken : execSyncFlitReceive i p stamp hops s = .next (noted.sendSync i time hops) := by
    simp only [execSyncFlitReceive, follows]
    rfl
  have clock : (noted.sendSync i time hops).time = time := by simp [noted]
  have charter : (noted.stall i).charter.active = some c := by simpa [noted, stall] using hc
  refine runs_of_exec taken ⟨?_, ?_, ?_, fun hj => ?_, fun hj large => ?_, fun near => ?_, fun far => ?_, ?_, ?_⟩
  · simp [noted]
  · simp [noted]
  · simp [noted]
  · have slew := syncCorrection_slews (i := i) off hj
    refine ⟨syncCorrection s i off, slew, ?_⟩
    rw [clock]
    exact ofNat_toNat_add s.time (by omega)
  · have there : (s.time.toNat : Int) + off = ((stamp.toNat + (s.port p).delay.toNat : Nat) : Int) := by omega
    rw [clock]
    simp only [time, syncCorrection_steps hj large, there, Int.toNat_natCast]
    apply BitVec.eq_of_toNat_eq
    simp
  · simp [noted, within, near]
  · simp [noted, within, Nat.not_le.mpr far, stall]
  · rw [clock]
    exact syncsTo_sendSync charter rfl (by simp [noted, stall]) (by simp [noted, stall]) (by simp [noted, stall])
  · exact unchanged_sendSync _ _ _ (by simp) (unchanged_modMarch _ (by simp) (unchanged_modSync _ (by simp)
      (unchanged_set_time _ (by simp) (unchanged_refl s _))))

/-! ### Holdover (R44) -/

section silent
variable (hf : (s.stall i).march.lead = false ∨ furtherLead (s.stall i) = true)
include hf

theorem follows_of_charter : follows (s.stall i) = true := by
  obtain h | h := hf <;> simp [follows, hc, h]

theorem runs_holdover : Runs (.holdover i) s fun t =>
    t.time = maxU s.time ((s.stall i).sync.last + 50000) ∧ (t.stall i).sync = { (s.stall i).sync with holdover := true }
    ∧ Unchanged s t [.time, .stall i .sync] := by
  obtain ⟨b, hb⟩ : ∃ b, (s.stall i).sync.last + 50000 = b := ⟨_, rfl⟩
  rw [hb]
  have taken : execHoldover i s = .next ((s.atTime b).modSync i fun y => { y with holdover := true }) := by
    simp only [execHoldover, follows_of_charter hc hf, hb]
    rfl
  refine runs_of_exec taken ⟨by simp, by simp, ?_⟩
  exact unchanged_modSync _ (by simp) (unchanged_atTime _ (by simp) (unchanged_refl s _))

theorem runs_syncedLost : Runs (.syncedLost i) s fun t =>
    t.time = maxU s.time ((s.stall i).sync.last + 200000) ∧ (t.stall i).sync = { (s.stall i).sync with holdover := true }
    ∧ (t.stall i).march = { (s.stall i).march with synced := false }
    ∧ Unchanged s t [.time, .stall i .sync, .stall i .march] := by
  obtain ⟨b, hb⟩ : ∃ b, (s.stall i).sync.last + 200000 = b := ⟨_, rfl⟩
  rw [hb]
  have taken : execSyncedLost i s = .next (((s.atTime b).modSync i fun y =>
      { y with holdover := true }).modMarch i fun m => { m with synced := false }) := by
    simp only [execSyncedLost, follows_of_charter hc hf, hb]
    rfl
  refine runs_of_exec taken ⟨by simp, by simp, by simp, ?_⟩
  exact unchanged_modMarch _ (by simp) (unchanged_modSync _ (by simp) (unchanged_atTime _ (by simp) (unchanged_refl s _)))

theorem runs_outOfStep (hy : (s.stall i).sync.outOfStep = false) : Runs (.outOfStep i) s fun t =>
    t.time = maxU s.time ((s.stall i).sync.last + 1000000)
    ∧ (t.stall i).sync = { (s.stall i).sync with holdover := false, outOfStep := true }
    ∧ (t.stall i).march = { (s.stall i).march with synced := false }
    ∧ ((s.stall i).march.state = .legs → bit (t.stall i).seq.causes 6 = true ∧ (t.stall i).seq.haltKnown = true
        ∧ Out.halt i 6 0x0206 ∈ t.out)
    ∧ ((s.stall i).march.state = .armed → bit (t.stall i).seq.nextCauses 6 = true)
    ∧ Unchanged s t [.time, .out, .stall i .sync, .stall i .march, .stall i .seq] := by
  obtain ⟨b, hb⟩ : ∃ b, (s.stall i).sync.last + 1000000 = b := ⟨_, rfl⟩
  rw [hb]
  let lost := ((s.atTime b).modSync i fun y =>
    { y with holdover := false, outOfStep := true }).modMarch i fun m => { m with synced := false }
  let found := if (s.stall i).march.state == .legs then lost.outOfStepCause i else lost.cause i vFault 0x0206
  have taken : execOutOfStep i s = .next found := by
    simp only [execOutOfStep, follows_of_charter hc hf, hy, hb]
    rfl
  have frame : Unchanged lost found [.out, .stall i .seq] := by
    unfold found
    split
    · exact unchanged_outOfStepCause (by simp) (by simp) (unchanged_refl lost _)
    · exact unchanged_cause _ _ (by simp) (by simp) (unchanged_refl lost _)
  have time : found.time = lost.time := frame .time (by simp)
  have sync : (found.stall i).sync = (lost.stall i).sync := frame (.stall i .sync) (by simp)
  have march : (found.stall i).march = (lost.stall i).march := frame (.stall i .march) (by simp)
  refine runs_of_exec taken ⟨?_, ?_, ?_, fun legs => ?_, fun armed => ?_, ?_⟩
  · rw [time]
    simp [lost]
  · rw [sync]
    simp [lost]
  · rw [march]
    simp [lost]
  · have : found = lost.outOfStepCause i := by simp [found, legs]
    rw [this]
    exact outOfStepCause_halts lost i
  · have : found = lost.causeNext i vFault 0x0206 := by
      have : (lost.stall i).march.state = .armed := by simp [lost, armed]
      rw [← cause_next _ _ (.inr (.inl this))]
      simp [found, armed]
    rw [this]
    simp only [State.causeNext, State.modSeq_seq]
    exact bit_setBit_self _ (by decide)
  · refine Unchanged.trans ?_ (Unchanged.mono frame (by simp))
    exact unchanged_modMarch _ (by simp) (unchanged_modSync _ (by simp) (unchanged_atTime _ (by simp) (unchanged_refl s _)))

end silent

/-! ### The deputy takes the lead (R45) -/

theorem runs_leadChange (hl : (s.stall i).march.lead = false) (hd : (s.stall i).march.deputy = true)
    (hf : (s.stall i).seq.finished = false) : Runs (.leadChange i) s fun t =>
      t.time = maxU s.time ((s.stall i).sync.last + 200000) ∧ (t.stall i).march.lead = true ∧ (t.stall i).march.deputy = false
      ∧ (t.stall i).sync.holdover = false ∧ (t.stall i).sync.last = t.time ∧ SyncsTo s t i c (t.stall i) t.time 0
      ∧ Out.resendWords i ∈ t.out ∧ Recorded s t 0x020A
      ∧ ((s.stall i).march.state = .legs →
          bit (t.stall i).seq.causes 6 = true ∧ ∃ e ∈ (t.stall i).seq.missing, e.1 = c.lead)
      ∧ Unchanged s t [.time, .out, .log, .stall i .march, .stall i .sync, .stall i .charter, .stall i .seq] := by
  obtain ⟨b, hb⟩ : ∃ b, (s.stall i).sync.last + 200000 = b := ⟨_, rfl⟩
  rw [hb]
  let timed := s.atTime b
  let leading := (timed.modMarch i fun m => { m with lead := true, deputy := false, synced := true }).modSync i fun y =>
    { y with holdover := false, hops := 0, last := timed.time }
  let logged := leading.record
    { reason := 0x020A, stall := some i, kind := 13, unit := (s.stall i).march.member.setWidth 16 }
  let told := (logged.modCharter i fun p => { p with
    epochs := [((s.stall i).march.member, ((s.stall i).charter.pending.getD c).epoch, ((s.stall i).charter.pending.getD c).seq)]
    assembled := (s.stall i).seq.lastNum.isSome }).send (.resendWords i)
  let synced := told.sendSync i timed.time 0
  let left := if marching (s.stall i) then synced.missingPeer i c.lead 0x020A else synced
  have frame : Unchanged synced left [.out, .stall i .seq] := by
    unfold left
    split
    · exact unchanged_missingPeer _ _ (by simp) (by simp) (unchanged_refl synced _)
    · exact unchanged_refl synced _
  have unfinished : (left.stall i).seq.finished = false := by
    have before : (synced.stall i).seq.finished = false := by
      simp [synced, told, logged, leading, timed, hf]
    unfold left
    split
    · have : ((synced.missingPeer i c.lead 0x020A).stall i).seq.finished = ((synced.modSeq i _).stall i).seq.finished :=
        CauseFree.cause_eq _ _ (f := fun q => q.finished) fun _ _ _ _ _ _ _ => rfl
      rw [this, State.modSeq_seq]
      exact before
    · exact before
  have taken : execLeadChange i s = .next left := by
    rw [← closeMarch_unfinished (i := i) unfinished]
    simp only [execLeadChange, hc, hl, hd, hb]
    rfl
  have time : left.time = synced.time := frame .time (by simp)
  have sync : (left.stall i).sync = (synced.stall i).sync := frame (.stall i .sync) (by simp)
  have march : (left.stall i).march = (synced.stall i).march := frame (.stall i .march) (by simp)
  have ledger : (left.stall i).ledger = (synced.stall i).ledger := frame (.stall i .ledger) (by simp)
  have log : left.log = logged.log := (frame .log (by simp)).trans (by simp [synced, told])
  have kept : synced.out ⊆ left.out := by
    unfold left
    split
    · exact mem_missingPeer synced i c.lead 0x020A
    · exact List.Subset.refl _
  refine runs_of_exec taken ⟨?_, ?_, ?_, ?_, ?_, ?_, ?_, ?_, fun legs => ?_, ?_⟩
  · rw [time]
    simp [synced, told, logged, leading, timed]
  · rw [march]
    simp [synced, told, logged, leading]
  · rw [march]
    simp [synced, told, logged, leading]
  · rw [sync]
    simp [synced, told, logged, leading]
  · rw [sync, time]
    simp [synced, told, logged, leading]
  · have sent : SyncsTo s synced i c (left.stall i) timed.time 0 :=
      syncsTo_sendSync (by simp [told, logged, leading, timed, hc]) (by simp [told, logged, leading, timed])
        (by rw [march]; simp [synced]) (by rw [march]; simp [synced]) (by rw [ledger]; simp [synced])
    have clock : left.time = timed.time := time.trans (by simp [synced, told, logged, leading])
    rw [clock]
    exact SyncsTo.subset sent kept
  · exact kept (by simp [synced, told])
  · refine Recorded.of_log_eq (t := logged) ?_ log
    exact recorded_record _ (by simp [leading, timed]) (by simp [leading, timed])
  · have running : (synced.stall i).march.state = .legs := by simp [synced, told, logged, leading, timed, legs]
    have : left = synced.missingPeer i c.lead 0x020A := by simp [left, marching, legs]
    obtain ⟨fault, missing, -⟩ := missingPeer_legs synced i c.lead 0x020A running
    rw [this]
    exact ⟨fault, missing⟩
  · refine Unchanged.trans ?_ (Unchanged.mono frame (by simp))
    refine unchanged_sendSync _ _ _ (by simp) (unchanged_send _ (by simp) (unchanged_modCharter _ (by simp) ?_))
    refine unchanged_record _ (by simp) (by simp) (unchanged_modSync _ (by simp) (unchanged_modMarch _ (by simp) ?_))
    exact unchanged_atTime _ (by simp) (unchanged_refl s _)

end sync

/-- Settles O27, one command at a time. -/
theorem timebasesFollowTheLead : Obligations.TimebasesFollowTheLead := by
  intro s i c hc
  refine ⟨runs_syncFlitSend hc, fun p stamp hops follow => runs_syncFlitReceive hc p stamp hops follow,
    fun follow => ⟨runs_holdover hc follow, runs_syncedLost hc follow, runs_outOfStep hc follow⟩, fun p ns => ?_,
    runs_leadChange hc⟩
  exact runs_of_exec rfl ⟨by simp, unchanged_modPort _ (by simp) (unchanged_refl s _)⟩

end Sys2Proof.Machine
end

section
/-! PROOFS. How a march closes: the swap of charters, the boundary effects, and what neither of them touches (R66, R358). -/

namespace Sys2Proof.Machine

open Sys2Proof.Safety

variable {s t : State} {l : List Part} {i : Stall}

/-! ### Members of the lists of parts -/

@[simp] theorem core_mem_everyCore (k : CoreId) : Part.core k ∈ everyCore := List.mem_map_of_mem (List.mem_finRange k)

@[simp] theorem port_mem_everyPort (p : PortId) : Part.port p ∈ everyPort :=
  List.mem_flatMap.mpr ⟨p, List.mem_finRange p, by simp⟩

@[simp] theorem optic_mem_everyPort (p : PortId) : Part.optic p ∈ everyPort :=
  List.mem_flatMap.mpr ⟨p, List.mem_finRange p, by simp⟩

@[simp] theorem lnk_mem_everyPort (p : PortId) : Part.lnk p ∈ everyPort :=
  List.mem_flatMap.mpr ⟨p, List.mem_finRange p, by simp⟩

@[simp] theorem stall_not_mem_everyCore (j : Stall) (k : StallPart) : Part.stall j k ∉ everyCore := by simp [everyCore]

@[simp] theorem stall_not_mem_everyPort (j : Stall) (k : StallPart) : Part.stall j k ∉ everyPort := by simp [everyPort]

@[simp] theorem stall_not_mem_tierParts (j : Stall) (k : StallPart) : Part.stall j k ∉ tierParts := by simp [tierParts]

@[simp] theorem stall_not_mem_storeParts (j : Stall) (k : StallPart) : Part.stall j k ∉ storeParts := by simp [storeParts]

theorem tierParts_subset_storeParts {p : Part} (h : p ∈ tierParts) : p ∈ storeParts := by simp [storeParts, h]

/-! ### The swap (R353, R358, R359, R330) -/

theorem unchanged_installTables (c : Charter) (hk : ∀ k, Part.core k ∈ l) (h : Unchanged s t l) :
    Unchanged s (t.installTables i c) l :=
  unchanged_forEach _ _ (fun _ k hu => unchanged_modCore _ (hk k) hu) h

theorem unchanged_darkenUnused (hp : ∀ x ∈ everyPort, x ∈ l) (h : Unchanged s t l) : Unchanged s (t.darkenUnused i) l :=
  unchanged_forEach _ _ (fun _ p hu => unchanged_cutLink _ (fun r => hp _ (lnk_mem_everyPort r)) (hp _ (port_mem_everyPort p))
    (unchanged_modOptic _ (hp _ (optic_mem_everyPort p)) hu)) h

/-- What a swap changes beside the tables and the ports: the groups of registers that name a charter. -/
def swapParts (i : Stall) : List Part :=
  everyCore ++ everyPort ++ ([.charter, .ledger, .settle, .seq] : List StallPart).map (Part.stall i)

theorem unchanged_swapIn (hl : ∀ p ∈ swapParts i, p ∈ l) (h : Unchanged s t l) : Unchanged s (t.swapIn i) l := by
  have part {k : StallPart} (hk : k ∈ ([.charter, .ledger, .settle, .seq] : List StallPart)) : Part.stall i k ∈ l :=
    hl _ (List.mem_append_right _ (List.mem_map_of_mem hk))
  unfold State.swapIn State.activate
  split
  · refine unchanged_darkenUnused (fun p hp => hl p (by simp [swapParts, hp])) ?_
    refine unchanged_installTables _ (fun k => hl _ (by simp [swapParts])) ?_
    exact unchanged_modSeq _ (part (by simp)) (unchanged_modSettle _ (part (by simp)) (unchanged_modLedger _ (part (by simp))
      (unchanged_modCharter _ (part (by simp)) h)))
  · exact h

/-- The ports and tables that a swap sets hold nothing of a stall. -/
theorem swapIn_stall (s : State) (i j : Stall) {c : Charter} (hc : (s.stall i).charter.pending = some c) :
    (s.swapIn i).stall j = ((((s.modCharter i fun p => { p with
      active := some c, activeSlot := c.slot, pending := none, checking := none, loader := 0
      loads := satAdd p.loads 1, scheduled := false, swapAt := none }).modLedger i fun l => { l with
        buckets := BitVec.ofNat 21 c.buckets.length, runs := [] }).modSettle i fun x => { x with
          compat := c.settle.any fun e => seCompat e.raw
          coef := c.groups, tau := c.tau, nscale := c.nscale, heldCoef := [] }).modSeq i fun q => { q with
            nextCauses := clearBit q.nextCauses 11 }).stall j := by
  have dark (u : State) : (u.darkenUnused i).stall j = u.stall j :=
    Unchanged.stall_eq (unchanged_darkenUnused (l := everyPort) (fun _ hp => hp) (unchanged_refl u _)) (by simp)
  have tables (u : State) : (u.installTables i c).stall j = u.stall j :=
    Unchanged.stall_eq (unchanged_installTables (l := everyCore) c (by simp) (unchanged_refl u _)) (by simp)
  unfold State.swapIn
  rw [hc]
  exact (dark _).trans (tables _)

section swapped
variable (s) (i)

@[simp] theorem swapIn_march : ((s.swapIn i).stall i).march = (s.stall i).march := by
  cases hc : (s.stall i).charter.pending with
  | none => simp [State.swapIn, hc]
  | some c => simp [swapIn_stall s i i hc]

@[simp] theorem swapIn_step : ((s.swapIn i).stall i).settle.step = (s.stall i).settle.step := by
  cases hc : (s.stall i).charter.pending with
  | none => simp [State.swapIn, hc]
  | some c => simp [swapIn_stall s i i hc]

theorem swapIn_seq : ∃ n, ((s.swapIn i).stall i).seq = { (s.stall i).seq with nextCauses := n } := by
  cases hc : (s.stall i).charter.pending with
  | none => exact ⟨_, by simp [State.swapIn, hc]; rfl⟩
  | some c => exact ⟨_, by simp [swapIn_stall s i i hc]; rfl⟩

end swapped

/-! ### Closing -/

theorem unchanged_enterHeld (hold : Reason) (ho : Part.out ∈ l) (hm : Part.stall i .march ∈ l) (hq : Part.stall i .seq ∈ l)
    (h : Unchanged s t l) : Unchanged s (t.enterHeld i hold) l :=
  unchanged_raiseEvent _ _ ho (unchanged_modSeq _ hq (unchanged_modMarch _ hm h))

/-- What closing a march may change: a swap, the origin announced, and the state that the stall enters. -/
def closeParts (i : Stall) : List Part := [.out, .log, .stall i .march] ++ swapParts i

/-- The lead stops running at the march boundary, and the pending charter takes effect at once (R67, R358). -/
def State.endRun (s : State) (i : Stall) : State :=
  let ready := (s.modMarch i fun m => { m with state := .ready }).modSeq i fun q => { q with hold := 0 }
  if swapReady (s.stall i) then (ready.swapIn i).send (.relayed i (.swap s.time)) else ready

/-- The origin that the lead gives the next march of a run: the march boundary, or as much later as its settlement is late
(R59). -/
def nextOrigin (s : State) (q : Sequencer) : BitVec 64 :=
  let plain := q.boundary.toNat
  BitVec.ofNat 64 (max (if q.late.toNat = 0 then plain else max plain (toMicro (q.late.toNat + 10000))) s.time.toNat)

/-- The lead arms the next march of a run, and announces its origin or the swap with it (R59, R358). -/
def State.armNext (s : State) (i : Stall) : State :=
  let t := s.stall i
  let o := nextOrigin s t.seq
  let armed := (s.modMarch i fun m => { m with state := .armed, origin := o }).modSeq i fun q =>
    { q with hold := 0, repeatAt := some o }
  let noted := if t.seq.boundary.toNat < o.toNat then
      armed.record { reason := 0x0209, stall := some i, detail := BitVec.ofNat 32 (o.toNat - t.seq.boundary.toNat) } else armed
  let told := if swapReady t then
      (noted.modCharter i fun p => { p with scheduled := true, swapAt := some o }).send (.relayed i (.swap o))
    else noted.send (.relayed i (.origin o))
  if t.settle.requests.isEmpty || t.seq.settles then told else told.send (.relayed i (.start (some o)))

/-- What closing a march does: nothing yet; the lead is held for a member whose report does not come; the run ends; or the
next march is armed, at a member with the origin that it was told. -/
theorem closeMarch_cases (s : State) (i : Stall) :
    s.closeMarch i = s
    ∨ ((s.stall i).seq.hold = 0x0402 ∧ (s.stall i).march.state = .settle ∧ s.closeMarch i = s.enterHeld i 0x0402)
    ∨ s.closeMarch i = s.endRun i ∨ s.closeMarch i = s.armNext i
    ∨ s.closeMarch i = s.modMarch i (fun m => { m with state := .ready })
    ∨ ∃ o, s.closeMarch i = s.modMarch i fun m => { m with state := .armed, origin := o } := by
  unfold State.closeMarch
  extract_lets t
  split
  · exact .inl rfl
  split
  · exact .inl rfl
  split
  · split
    · split
      · next h =>
        simp only [Bool.and_eq_true, beq_iff_eq, decide_eq_true_eq] at h
        exact .inr (.inl ⟨h.1, h.2, rfl⟩)
      · exact .inl rfl
    · split
      · exact .inr (.inr (.inl rfl))
      · exact .inr (.inr (.inr (.inl rfl)))
  · split
    · exact .inr (.inr (.inr (.inr (.inl rfl))))
    · split
      · next o _ => exact .inr (.inr (.inr (.inr (.inr ⟨o, rfl⟩))))
      · exact .inl rfl

theorem unchanged_endRun (hl : ∀ p ∈ closeParts i, p ∈ l) (h : Unchanged s t l) : Unchanged s (t.endRun i) l := by
  have ready : Unchanged s ((t.modMarch i fun m => { m with state := .ready }).modSeq i fun q => { q with hold := 0 }) l :=
    unchanged_modSeq _ (hl _ (by simp [closeParts, swapParts])) (unchanged_modMarch _ (hl _ (by simp [closeParts])) h)
  unfold State.endRun
  extract_lets
  split
  · exact unchanged_send _ (hl _ (by simp [closeParts])) (unchanged_swapIn (fun p hp => hl p (by simp [closeParts, hp])) ready)
  · exact ready

theorem unchanged_armNext (hl : ∀ p ∈ closeParts i, p ∈ l) (h : Unchanged s t l) : Unchanged s (t.armNext i) l := by
  have ho : Part.out ∈ l := hl _ (by simp [closeParts])
  unfold State.armNext
  extract_lets t0 o armed noted told
  have h1 : Unchanged s armed l :=
    unchanged_modSeq _ (hl _ (by simp [closeParts, swapParts])) (unchanged_modMarch _ (hl _ (by simp [closeParts])) h)
  have h2 : Unchanged s noted l := by
    unfold noted
    split
    · exact unchanged_record _ (hl _ (by simp [closeParts])) ho h1
    · exact h1
  have h3 : Unchanged s told l := by
    unfold told
    split
    · exact unchanged_send _ ho (unchanged_modCharter _ (hl _ (by simp [closeParts, swapParts])) h2)
    · exact unchanged_send _ ho h2
  split
  · exact h3
  · exact unchanged_send _ ho h3

theorem unchanged_closeMarch (hl : ∀ p ∈ closeParts i, p ∈ l) (h : Unchanged s t l) : Unchanged s (t.closeMarch i) l := by
  have ho : Part.out ∈ l := hl _ (by simp [closeParts])
  have hm : Part.stall i .march ∈ l := hl _ (by simp [closeParts])
  have hq : Part.stall i .seq ∈ l := hl _ (by simp [closeParts, swapParts])
  obtain e | ⟨-, -, e⟩ | e | e | e | ⟨o, e⟩ := closeMarch_cases t i <;> rw [e]
  · exact h
  · exact unchanged_enterHeld _ ho hm hq h
  · exact unchanged_endRun hl h
  · exact unchanged_armNext hl h
  · exact unchanged_modMarch _ hm h
  · exact unchanged_modMarch _ hm h

/-- From `s` to `t` a stall has at most left its march: its march has another state and origin, its sequencer no other hold,
announced origin or cause of the next march than those of another march. -/
structure Closes (i : Stall) (s t : State) : Prop where
  march : ∃ x o, (t.stall i).march = { (s.stall i).march with state := x, origin := o }
  seq : ∃ h r n, (t.stall i).seq = { (s.stall i).seq with hold := h, repeatAt := r, nextCauses := n }
  step : (t.stall i).settle.step = (s.stall i).settle.step

theorem closes_refl (s : State) (i : Stall) : Closes i s s := ⟨⟨_, _, rfl⟩, ⟨_, _, _, rfl⟩, rfl⟩

theorem closes_endRun (s : State) (i : Stall) : Closes i s (s.endRun i) ∧ ((s.endRun i).stall i).march.state = .ready := by
  unfold State.endRun
  extract_lets ready
  split
  · obtain ⟨n, seq⟩ := swapIn_seq ready i
    refine ⟨⟨⟨.ready, (s.stall i).march.origin, ?_⟩, ⟨0, (s.stall i).seq.repeatAt, n, ?_⟩, ?_⟩, ?_⟩
    · simp [ready]
    · simpa [ready] using seq
    · simp [ready]
    · simp [ready]
  · exact ⟨⟨⟨.ready, (s.stall i).march.origin, by simp [ready]⟩,
      ⟨0, (s.stall i).seq.repeatAt, (s.stall i).seq.nextCauses, by simp [ready]⟩, by simp [ready]⟩, by simp [ready]⟩

theorem armNext_stall (s : State) (i : Stall) : ∃ o, ((s.armNext i).stall i).march = { (s.stall i).march with state := .armed, origin := o }
    ∧ ((s.armNext i).stall i).seq = { (s.stall i).seq with hold := 0, repeatAt := some o }
    ∧ ((s.armNext i).stall i).settle = (s.stall i).settle := by
  generalize hu : s.armNext i = u
  unfold State.armNext at hu
  extract_lets t0 o armed noted told at hu
  have h1 : noted.stall i = armed.stall i := by
    unfold noted
    split <;> simp
  have h2 : (told.stall i).march = (armed.stall i).march ∧ (told.stall i).seq = (armed.stall i).seq
      ∧ (told.stall i).settle = (armed.stall i).settle := by
    unfold told
    split <;> simp [h1]
  obtain ⟨march, seq, settle⟩ := h2
  refine ⟨o, ?_⟩
  rw [← hu]
  split <;> simp [march, seq, settle, armed]

theorem closes_closeMarch (s : State) (i : Stall) : Closes i s (s.closeMarch i) := by
  obtain e | ⟨-, -, e⟩ | e | e | e | ⟨o, e⟩ := closeMarch_cases s i <;> rw [e]
  · exact closes_refl s i
  · exact ⟨⟨.held, (s.stall i).march.origin, by simp [State.enterHeld]⟩,
      ⟨0x0402, (s.stall i).seq.repeatAt, (s.stall i).seq.nextCauses, by simp [State.enterHeld]⟩, by simp [State.enterHeld]⟩
  · exact (closes_endRun s i).1
  · obtain ⟨o, march, seq, settle⟩ := armNext_stall s i
    exact ⟨⟨.armed, o, march⟩, ⟨0, some o, (s.stall i).seq.nextCauses, seq⟩, by rw [settle]⟩
  · exact ⟨⟨.ready, (s.stall i).march.origin, by simp⟩,
      ⟨(s.stall i).seq.hold, (s.stall i).seq.repeatAt, (s.stall i).seq.nextCauses, by simp⟩, by simp⟩
  · exact ⟨⟨.armed, o, by simp⟩, ⟨(s.stall i).seq.hold, (s.stall i).seq.repeatAt, (s.stall i).seq.nextCauses, by simp⟩, by simp⟩

/-- Closing a march holds it only where the lead waits for a report (R263). -/
theorem closeMarch_not_held (hs : (s.stall i).march.state ≠ .held) (hh : (s.stall i).seq.hold ≠ 0x0402) :
    ((s.closeMarch i).stall i).march.state ≠ .held := by
  obtain e | ⟨waits, -, -⟩ | e | e | e | ⟨o, e⟩ := closeMarch_cases s i
  · rwa [e]
  · exact absurd waits hh
  · simp [e, (closes_endRun s i).2]
  · obtain ⟨o, march, -⟩ := armNext_stall s i
    simp [e, march]
  · simp [e]
  · simp [e]

end Sys2Proof.Machine
end

section
/-! PROOFS. How a march finishes: the boundary effects of a march whose work is over (R66). -/

namespace Sys2Proof.Machine

open Sys2Proof.Safety

variable {s t : State} {l : List Part} {i : Stall}

/-! ### The parts of the boundary effects -/

theorem unchanged_setTariff (w : Writer) (c : Charter) (b : Nat) (r : BitVec 128) (hl : ∀ q ∈ storeParts, q ∈ l)
    (h : Unchanged s t l) : Unchanged s (t.setTariff w i c b r) l :=
  unchanged_countBytes _ _ _ (fun _ hq => hl _ (tierParts_subset_storeParts hq)) (unchanged_store _ _ _ _ hl h)

theorem unchanged_ledgerBoundary (c : Charter) (hl : ∀ q ∈ storeParts, q ∈ l) (h : Unchanged s t l) :
    Unchanged s (t.ledgerBoundary i c) l :=
  unchanged_forEach _ _ (fun _ _ hu => unchanged_setTariff _ c _ _ hl hu) h

theorem unchanged_writeRegions (rs : List (BitVec 256)) (off : Nat) (bs : List Byte) (hl : ∀ q ∈ storeParts, q ∈ l)
    (h : Unchanged s t l) : Unchanged s (t.writeRegions i rs off bs) l := by
  refine unchanged_forEach _ _ (fun u k hu => ?_) h
  split
  · exact unchanged_countBytes _ _ _ (fun _ hq => hl _ (tierParts_subset_storeParts hq)) (unchanged_store _ _ _ _ hl hu)
  · exact hu

theorem unchanged_startCheckpoint (c : Charter) (hr : Part.log ∈ l) (hv : Part.stall i .service ∈ l)
    (hl : ∀ q ∈ storeParts, q ∈ l) (h : Unchanged s t l) : Unchanged s (t.startCheckpoint i c) l := by
  have ho : Part.out ∈ l := hl _ (by simp [storeParts])
  unfold State.startCheckpoint
  extract_lets p s1
  split
  · exact h
  split
  · exact unchanged_record _ hr ho (unchanged_modService _ hv h)
  · exact unchanged_send _ ho (unchanged_writeRegions _ _ _ hl (unchanged_modService _ hv h))

theorem unchanged_abandonCheckpoint (ho : Part.out ∈ l) (hr : Part.log ∈ l) (hv : Part.stall i .service ∈ l)
    (h : Unchanged s t l) : Unchanged s (t.abandonCheckpoint i) l := by
  unfold State.abandonCheckpoint
  split
  · exact unchanged_record _ hr ho (unchanged_modService _ hv h)
  · exact h

/-! ### Finishing -/

/-- The march after its boundary effects. -/
def State.countMarch (s : State) (i : Stall) (c : Charter) : State :=
  let settled := if (s.stall i).seq.settles then s.settleBoundary i c else s
  (((settled.ledgerBoundary i c).modMarch i fun m => { m with num := m.num + 1, repeats := 0, sinceStart := 0 }).modSeq i fun q =>
    { q with finished := true, noSettle := true }).modSettle i fun x => { x with state := 0 }

/-- The boundary effects, up to the close of the march. -/
def State.finishWork (s : State) (i : Stall) (c : Charter) : State :=
  let t := s.stall i
  let counted := s.countMarch i c
  (if t.seq.settles && c.standbys != 0 then counted.send (.mirror i t.march.num) else counted).startCheckpoint i c

/-- Is all work after the verdict of a march over, the entries that no longer run left out (R66)? -/
def workOver (t : StallState) (c : Charter) : Bool :=
  ((List.range c.legs.length).filter fun k =>
    decide (c.lastReduce < k) && !((marchEntries t c k).all fun r => isDone t r || (t.seq.noSettle && !hasRun t r))).isEmpty

/-- A march finishes once it has ended and its work is over. -/
theorem finishMarch_eq (s : State) (i : Stall) {c : Charter} (hc : (s.stall i).charter.active = some c) :
    s.finishMarch i = if (s.stall i).seq.finished || !(s.stall i).seq.ended || !workOver (s.stall i) c then s
      else (s.finishWork i c).closeMarch i := by
  unfold State.finishMarch
  simp only [hc]
  rfl

theorem finishMarch_cases (s : State) (i : Stall) :
    s.finishMarch i = s ∨ ∃ c, s.finishMarch i = (s.finishWork i c).closeMarch i := by
  cases hc : (s.stall i).charter.active with
  | none => exact .inl (by simp [State.finishMarch, hc])
  | some c =>
    rw [finishMarch_eq s i hc]
    split
    · exact .inl rfl
    · exact .inr ⟨c, rfl⟩

/-- What the boundary effects may change: stored tariffs and checkpoints, statistics and the registers of the march. -/
def finishParts (i : Stall) : List Part :=
  .log :: storeParts ++ ([.march, .seq, .settle, .tally, .service] : List StallPart).map (Part.stall i)

theorem unchanged_countMarch (c : Charter) (hl : ∀ p ∈ finishParts i, p ∈ l) (h : Unchanged s t l) :
    Unchanged s (t.countMarch i c) l := by
  have hs : ∀ q ∈ storeParts, q ∈ l := fun q hq => hl q (by simp [finishParts, hq])
  have part {k : StallPart} (hk : k ∈ ([.march, .seq, .settle, .tally, .service] : List StallPart)) : Part.stall i k ∈ l :=
    hl _ (by simp only [finishParts, List.cons_append, List.mem_cons, List.mem_append]; exact .inr (.inr (List.mem_map_of_mem hk)))
  refine unchanged_modSettle _ (part (by simp)) (unchanged_modSeq _ (part (by simp)) (unchanged_modMarch _ (part (by simp))
    (unchanged_ledgerBoundary c hs ?_)))
  split
  · exact unchanged_modTally _ (part (by simp)) (unchanged_modSettle _ (part (by simp)) h)
  · exact h

theorem unchanged_finishWork (c : Charter) (hl : ∀ p ∈ finishParts i, p ∈ l) (h : Unchanged s t l) :
    Unchanged s (t.finishWork i c) l := by
  have counted := unchanged_countMarch c hl h
  unfold State.finishWork
  extract_lets
  refine unchanged_startCheckpoint c (hl _ (by simp [finishParts])) (hl _ (by simp [finishParts]))
    (fun q hq => hl q (by simp [finishParts, hq])) ?_
  split
  · exact unchanged_send _ (hl _ (by simp [finishParts, storeParts])) counted
  · exact counted

theorem unchanged_finishMarch (hl : ∀ p ∈ finishParts i ++ closeParts i, p ∈ l) (h : Unchanged s t l) :
    Unchanged s (t.finishMarch i) l := by
  obtain e | ⟨c, e⟩ := finishMarch_cases t i <;> rw [e]
  · exact h
  · exact unchanged_closeMarch (fun p hp => hl p (List.mem_append_right _ hp))
      (unchanged_finishWork c (fun p hp => hl p (List.mem_append_left _ hp)) h)

section counted
variable (s) (i) (c : Charter)

theorem ledgerBoundary_stall (j : Stall) : (s.ledgerBoundary i c).stall j = s.stall j :=
  Unchanged.stall_eq (unchanged_ledgerBoundary c (fun _ hp => hp) (unchanged_refl s storeParts)) (by simp)

/-- The registers of a finished march: its number has advanced, and t has where it settled (R66, R250). -/
theorem countMarch_stall :
    ((s.countMarch i c).stall i).march = { (s.stall i).march with num := (s.stall i).march.num + 1, repeats := 0, sinceStart := 0 }
    ∧ ((s.countMarch i c).stall i).seq = { (s.stall i).seq with finished := true, noSettle := true }
    ∧ ((s.countMarch i c).stall i).settle.step = (s.stall i).settle.step + (if (s.stall i).seq.settles then 1 else 0) := by
  generalize hu : s.countMarch i c = u
  unfold State.countMarch at hu
  extract_lets settled at hu
  have base : (settled.stall i).march = (s.stall i).march ∧ (settled.stall i).seq = (s.stall i).seq
      ∧ (settled.stall i).settle.step = (s.stall i).settle.step + (if (s.stall i).seq.settles then 1 else 0) := by
    unfold settled
    split <;> simp [State.settleBoundary]
  obtain ⟨march, seq, step⟩ := base
  simp [← hu, ledgerBoundary_stall, march, seq, step]

theorem finishWork_stall :
    ((s.finishWork i c).stall i).march = { (s.stall i).march with num := (s.stall i).march.num + 1, repeats := 0, sinceStart := 0 }
    ∧ ((s.finishWork i c).stall i).seq = { (s.stall i).seq with finished := true, noSettle := true }
    ∧ ((s.finishWork i c).stall i).settle.step = (s.stall i).settle.step + (if (s.stall i).seq.settles then 1 else 0) := by
  have counted := countMarch_stall s i c
  generalize hw : s.finishWork i c = w
  unfold State.finishWork at hw
  extract_lets t0 u at hw
  generalize hv : (if t0.seq.settles && c.standbys != 0 then u.send (.mirror i t0.march.num) else u) = v at hw
  have same : v.stall i = u.stall i := by
    rw [← hv]
    split <;> rfl
  have frame := unchanged_startCheckpoint (i := i) c (by simp) (by simp) (fun q hq => by simp [hq])
    (unchanged_refl v (.log :: .stall i .service :: storeParts))
  have march : ((v.startCheckpoint i c).stall i).march = (v.stall i).march := frame (.stall i .march) (by simp)
  have seq : ((v.startCheckpoint i c).stall i).seq = (v.stall i).seq := frame (.stall i .seq) (by simp)
  have settle : ((v.startCheckpoint i c).stall i).settle = (v.stall i).settle := frame (.stall i .settle) (by simp)
  rw [← hw, march, seq, settle, same]
  exact counted

end counted

/-- From `s` to `t` a stall has at most finished its march. -/
structure Finishes (i : Stall) (s t : State) : Prop where
  march : ∃ x o n r e, (t.stall i).march = { (s.stall i).march with state := x, origin := o, num := n, repeats := r, sinceStart := e }
  seq : ∃ f b h r n, (t.stall i).seq = { (s.stall i).seq with
    finished := f, noSettle := b, hold := h, repeatAt := r, nextCauses := n }

theorem finishes_finishMarch (s : State) (i : Stall) : Finishes i s (s.finishMarch i) := by
  obtain e | ⟨c, e⟩ := finishMarch_cases s i <;> rw [e]
  · exact ⟨⟨_, _, _, _, _, rfl⟩, ⟨_, _, _, _, _, rfl⟩⟩
  · obtain ⟨march, seq, -⟩ := finishWork_stall s i c
    obtain ⟨⟨x, o, march'⟩, ⟨h, r, n, seq'⟩, -⟩ := closes_closeMarch (s.finishWork i c) i
    rw [march] at march'
    rw [seq] at seq'
    exact ⟨⟨x, o, _, _, _, march'⟩, ⟨_, _, h, r, n, seq'⟩⟩

theorem finishMarch_not_held (hs : (s.stall i).march.state ≠ .held) (hh : (s.stall i).seq.hold ≠ 0x0402) :
    ((s.finishMarch i).stall i).march.state ≠ .held := by
  obtain e | ⟨c, e⟩ := finishMarch_cases s i <;> rw [e]
  · exact hs
  · obtain ⟨march, seq, -⟩ := finishWork_stall s i c
    exact closeMarch_not_held (by rw [march]; exact hs) (by rw [seq]; exact hh)

theorem finishMarch_stall_other {j : Stall} (h : j ≠ i) : (s.finishMarch i).stall j = s.stall j := by
  refine Unchanged.stall_eq (unchanged_finishMarch (fun _ hp => hp) (unchanged_refl s _)) fun k => ?_
  simp [finishParts, closeParts, swapParts, h]

@[simp] theorem finishMarch_time : (s.finishMarch i).time = s.time := by
  refine unchanged_finishMarch (fun _ hp => hp) (unchanged_refl s _) .time ?_
  simp [finishParts, closeParts, swapParts, storeParts, tierParts, everyCore, everyPort]

end Sys2Proof.Machine
end

section
/-! PROOFS. The commands of the host at a lead (R67, R68, R251, R358). -/

namespace Sys2Proof.Machine

open Sys2Proof.Safety

variable {s t : State} {l : List Part} {i : Stall} {c : Charter}

/-! ### Arming (R67, R443) -/

section roused
variable (s) (i)

@[simp] theorem rouse_stall : s.rouse.stall i = s.stall i := by
  unfold State.rouse
  split <;> rfl

@[simp] theorem rouse_out : s.rouse.out = s.out := by
  unfold State.rouse
  split <;> rfl

@[simp] theorem rouse_time : s.rouse.time = s.time := by
  unfold State.rouse
  split <;> rfl

theorem rouse_power_state : s.rouse.power.state ≠ 3 := by
  unfold State.rouse
  split
  · simp
  · assumption

end roused

theorem unchanged_rouse (hw : t.power.state = 3 → Part.power ∈ l) (h : Unchanged s t l) : Unchanged s t.rouse l := by
  unfold State.rouse
  split
  · next idle => exact unchanged_set_power _ (hw idle) h
  · exact h

theorem unchanged_armAt (o : BitVec 64) (on : Bool) (hw : t.power.state = 3 → Part.power ∈ l) (hm : Part.stall i .march ∈ l)
    (hq : Part.stall i .seq ∈ l) (h : Unchanged s t l) : Unchanged s (t.armAt i o on) l :=
  unchanged_modSeq _ hq (unchanged_modMarch _ hm (unchanged_rouse hw h))

/-! ### Repeats (R64) -/

theorem unchanged_waitRepeat (hm : Part.stall i .march ∈ l) (hq : Part.stall i .seq ∈ l) (ht : Part.stall i .tally ∈ l)
    (h : Unchanged s t l) : Unchanged s (t.waitRepeat i) l :=
  unchanged_modTally _ ht (unchanged_modSeq _ hq (unchanged_modMarch _ hm h))

/-- The origin of a repeat: 100 µs after every member holds the verdict, and not before now. -/
def repeatOrigin (s : State) (i : Stall) : BitVec 64 :=
  BitVec.ofNat 64 (max ((s.stall i).seq.verdictTick.toNat + 116000) s.time.toNat)

/-- The origin of a repeat that is set and announced. -/
def State.setRepeat (s : State) (i : Stall) : State :=
  ((s.modMarch i fun m => { m with origin := repeatOrigin s i }).modSeq i fun q =>
    { q with repeatAt := some (repeatOrigin s i) }).send (.relayed i (.origin (repeatOrigin s i)))

theorem announceRepeat_eq (s : State) (i : Stall) : s.announceRepeat i =
    if (s.stall i).march.lead && (s.stall i).march.state == .waitRepeat && (s.stall i).seq.waiting.isEmpty
      && (s.stall i).seq.repeatAt.isNone then s.setRepeat i else s := rfl

theorem unchanged_announceRepeat (ho : Part.out ∈ l) (hm : Part.stall i .march ∈ l) (hq : Part.stall i .seq ∈ l)
    (h : Unchanged s t l) : Unchanged s (t.announceRepeat i) l := by
  rw [announceRepeat_eq]
  split
  · exact unchanged_send _ ho (unchanged_modSeq _ hq (unchanged_modMarch _ hm h))
  · exact h

/-- What the announcement of a repeat origin leaves of the march and its sequencer. -/
theorem announceRepeat_stall (s : State) (i : Stall) :
    (∃ o, ((s.announceRepeat i).stall i).march = { (s.stall i).march with origin := o })
    ∧ ∃ r, ((s.announceRepeat i).stall i).seq = { (s.stall i).seq with repeatAt := r } := by
  rw [announceRepeat_eq]
  split
  · exact ⟨⟨repeatOrigin s i, by simp [State.setRepeat]⟩, ⟨some (repeatOrigin s i), by simp [State.setRepeat]⟩⟩
  · exact ⟨⟨_, rfl⟩, ⟨_, rfl⟩⟩

theorem mem_announceRepeat (s : State) (i : Stall) : s.out ⊆ (s.announceRepeat i).out := by
  rw [announceRepeat_eq]
  split
  · exact List.subset_append_left _ _
  · exact List.Subset.refl _

/-! ### Commands that nobody takes -/

section lead
variable {r : Requester} (ha : Allowed s r (marchOff i 0))
include ha

theorem exec_start (stop : Bool) : exec (.start r i stop) s = .next (writeMarchCmd i (if stop then 4 else 1) s) :=
  congrArg Host.Outcome.next (guardWrite_allowed _ ha)

theorem exec_single : exec (.single r i) s = .next (writeMarchCmd i 2 s) :=
  congrArg Host.Outcome.next (guardWrite_allowed _ ha)

theorem exec_stop : exec (.stop r i) s = .next (writeMarchCmd i 3 s) :=
  congrArg Host.Outcome.next (guardWrite_allowed _ ha)

theorem exec_stopNow : exec (.stopNow r i) s = .next (writeMarchCmd i 4 s) :=
  congrArg Host.Outcome.next (guardWrite_allowed _ ha)

theorem exec_accept : exec (.accept r i) s = .next (writeMarchCmd i 5 s) :=
  congrArg Host.Outcome.next (guardWrite_allowed _ ha)

theorem exec_discard : exec (.discard r i) s = .next (writeMarchCmd i 6 s) :=
  congrArg Host.Outcome.next (guardWrite_allowed _ ha)

omit ha in
theorem writeMarchCmd_lead (cmd : BitVec 3) (hl : (s.stall i).march.lead = true) : writeMarchCmd i cmd s =
    if cmd = 0 ∨ cmd = 7 then s else if cmd = 1 then cmdStart i s else if cmd = 2 then cmdSingle i s
    else if cmd = 3 then cmdStop i s else if cmd = 4 then cmdStopNow i s else if cmd = 5 then cmdAccept i s
    else cmdDiscard i s := by
  simp [writeMarchCmd, hl]

omit ha in
theorem writeMarchCmd_member {cmd : BitVec 3} (h0 : cmd ≠ 0) (h7 : cmd ≠ 7) (hl : (s.stall i).march.lead = false) :
    writeMarchCmd i cmd s = s.ignored i := by
  unfold writeMarchCmd
  rw [if_neg (not_or.mpr ⟨h0, h7⟩)]
  simp [hl]

omit ha in
theorem runs_ignored {cmd : Instr} (hx : exec cmd s = .next (s.ignored i)) : Runs cmd s fun t =>
    (t.stall i).march = { (s.stall i).march with cmdIgnored := true } ∧ Unchanged s t [.stall i .march] :=
  runs_of_exec hx ⟨by simp [State.ignored], unchanged_modMarch _ (by simp) (unchanged_refl s _)⟩

/-- A member that is no lead takes no command of the host (R68). -/
theorem runs_command_member (hl : (s.stall i).march.lead = false) :
    ∀ cmd ∈ [Instr.start r i false, .single r i, .stop r i, .stopNow r i, .accept r i, .discard r i],
      Runs cmd s fun t => (t.stall i).march = { (s.stall i).march with cmdIgnored := true } ∧ Unchanged s t [.stall i .march] := by
  have ignored {cmd : BitVec 3} (h0 : cmd ≠ 0) (h7 : cmd ≠ 7) := writeMarchCmd_member h0 h7 hl
  simp only [List.mem_cons, List.not_mem_nil, or_false]
  rintro cmd (rfl | rfl | rfl | rfl | rfl | rfl)
  · exact runs_ignored (by rw [exec_start ha]; exact congrArg _ (ignored (by decide) (by decide)))
  · exact runs_ignored (by rw [exec_single ha]; exact congrArg _ (ignored (by decide) (by decide)))
  · exact runs_ignored (by rw [exec_stop ha]; exact congrArg _ (ignored (by decide) (by decide)))
  · exact runs_ignored (by rw [exec_stopNow ha]; exact congrArg _ (ignored (by decide) (by decide)))
  · exact runs_ignored (by rw [exec_accept ha]; exact congrArg _ (ignored (by decide) (by decide)))
  · exact runs_ignored (by rw [exec_discard ha]; exact congrArg _ (ignored (by decide) (by decide)))

/-! ### START and SINGLE -/

variable (hc : (s.stall i).charter.active = some c) (hl : (s.stall i).march.lead = true)
include hc hl

/-- The state after the lead has armed a march for the host, before the command is relayed. -/
def armedBy (s : State) (i : Stall) (on : Bool) : State :=
  (s.modCharter i fun p => { p with assembled := true }).armAt i (startOrigin s) on

omit ha hc hl in
theorem armedBy_facts (on : Bool) (cmd : RelayedCommand) :
    let t := (armedBy s i on).send (.relayed i cmd)
    ((t.stall i).march = { (s.stall i).march with state := .armed, origin := startOrigin s, sinceStart := 0 }
      ∧ (t.stall i).seq.continuous = on ∧ (t.stall i).seq.repeatAt = some (startOrigin s)
      ∧ t.power.state ≠ 3
      ∧ Unchanged s t ([.out, .stall i .march, .stall i .seq, .stall i .charter] ++ if s.power.state = 3 then [.power] else []))
    ∧ t.out = s.out ++ [.relayed i cmd] := by
  intro t
  refine ⟨⟨?_, ?_, ?_, ?_, ?_⟩, ?_⟩
  · simp [t, armedBy, State.armAt]
  · simp [t, armedBy, State.armAt]
  · simp [t, armedBy, State.armAt]
  · exact rouse_power_state _
  · refine unchanged_send _ (by simp) (unchanged_armAt _ _ (fun idle => ?_) (by simp) (by simp)
      (unchanged_modCharter _ (by simp) (unchanged_refl s _)))
    have : s.power.state = 3 := idle
    simp [this]
  · simp [t, armedBy, State.armAt, State.send]

theorem runs_arm (hs : (s.stall i).march.state = .ready)
    (hw : (s.stall i).charter.assembled = true ∨ missingWords (s.stall i) c = []) :
    let armed (on : Bool) (t : State) : Prop :=
      (t.stall i).march = { (s.stall i).march with state := .armed, origin := s.time + 100000, sinceStart := 0 }
      ∧ (t.stall i).seq.continuous = on ∧ (t.stall i).seq.repeatAt = some (s.time + 100000)
      ∧ t.power.state ≠ 3
      ∧ Unchanged s t ([.out, .stall i .march, .stall i .seq, .stall i .charter] ++ if s.power.state = 3 then [.power] else [])
    (Runs (.start r i false) s fun t => armed true t ∧ t.out = s.out ++ [.relayed i (.start (some (s.time + 100000)))])
    ∧ Runs (.single r i) s fun t => armed false t ∧ t.out = s.out ++ [.relayed i (.single (s.time + 100000))] := by
  intro armed
  have words : ((s.stall i).charter.assembled || (missingWords (s.stall i) c).isEmpty) = true := by
    obtain h | h := hw <;> simp [h]
  have start : cmdStart i s = (armedBy s i true).send (.relayed i (.start (some (startOrigin s)))) := by
    simp only [cmdStart, hc, hs, words]
    rfl
  have single : cmdSingle i s = (armedBy s i false).send (.relayed i (.single (startOrigin s))) := by
    simp only [cmdSingle, hc, hs, words]
    rfl
  refine ⟨runs_of_exec (exec_start ha false) ?_, runs_of_exec (exec_single ha) ?_⟩
  · have : writeMarchCmd i (if false then 4 else 1) s = cmdStart i s := writeMarchCmd_lead 1 hl
    rw [this, start]
    exact armedBy_facts true _
  · have : writeMarchCmd i 2 s = cmdSingle i s := writeMarchCmd_lead 2 hl
    rw [this, single]
    exact armedBy_facts false _

theorem runs_start_unassembled (hs : (s.stall i).march.state = .ready) (hw : (s.stall i).charter.assembled = false)
    (missing : missingWords (s.stall i) c ≠ []) : Runs (.start r i false) s fun t =>
      (t.stall i).march = { (s.stall i).march with cmdIgnored := true } ∧ Unchanged s t [.stall i .march] := by
  refine runs_ignored ((exec_start ha false).trans (congrArg _ ?_))
  have : writeMarchCmd i 1 s = cmdStart i s := writeMarchCmd_lead 1 hl
  refine this.trans ?_
  simp [cmdStart, hc, hs, hw, missing, startRepeats]

/-- START repeats a held march (Table 02-2). -/
theorem runs_start_held (hs : (s.stall i).march.state = .held)
    (hh : (s.stall i).seq.hold = 0 ∧ ((s.stall i).march.verdict.code = 9 ∨ (s.stall i).march.verdict.code = 10
      ∨ (s.stall i).march.verdict.code = 12) ∨ (s.stall i).seq.hold = 0x0210) :
    let o := BitVec.ofNat 64 (max (s.time.toNat + 116000) s.time.toNat)
    Runs (.start r i false) s fun t =>
      (t.stall i).march.state = .waitRepeat ∧ (t.stall i).march.sinceStart = 0
      ∧ (t.stall i).march.repeats = satAdd (s.stall i).march.repeats 1 ∧ (t.stall i).march.num = (s.stall i).march.num
      ∧ (t.stall i).seq.continuous = true ∧ Out.relayed i (.start none) ∈ t.out
      ∧ ((s.stall i).seq.waiting = [] → (t.stall i).march.origin = o ∧ (t.stall i).seq.repeatAt = some o
          ∧ Out.relayed i (.origin o) ∈ t.out)
      ∧ ((s.stall i).seq.waiting ≠ [] → (t.stall i).seq.repeatAt = none)
      ∧ Unchanged s t [.out, .stall i .march, .stall i .seq, .stall i .tally] := by
  intro o
  let waits := (((s.modMarch i fun m => { m with sinceStart := 0 }).modSeq i fun q =>
    { q with continuous := true, verdictTick := s.time }).waitRepeat i).send (.relayed i (.start none))
  have again : startRepeats (s.stall i) = true := by
    obtain ⟨hold, code | code | code⟩ | hold := hh <;> simp [startRepeats, heldFor, vHost, vCounter, vLimit, *]
  have notReady : ((s.stall i).march.state == .ready) = false := by simp [hs]
  have taken : exec (.start r i false) s = .next (waits.announceRepeat i) := by
    refine (exec_start ha false).trans (congrArg _ ?_)
    have : writeMarchCmd i 1 s = cmdStart i s := writeMarchCmd_lead 1 hl
    refine this.trans ?_
    simp only [cmdStart, hc, again, notReady]
    rfl
  have origin : repeatOrigin waits i = o := by simp [repeatOrigin, waits, State.waitRepeat, o]
  obtain ⟨⟨o', march⟩, ⟨r', seq⟩⟩ := announceRepeat_stall waits i
  refine runs_of_exec taken ⟨?_, ?_, ?_, ?_, ?_, ?_, fun none => ?_, fun some => ?_, ?_⟩
  · rw [march]
    simp [waits, State.waitRepeat]
  · rw [march]
    simp [waits, State.waitRepeat]
  · rw [march]
    simp [waits, State.waitRepeat]
  · rw [march]
    simp [waits, State.waitRepeat]
  · rw [seq]
    simp [waits, State.waitRepeat]
  · exact mem_announceRepeat waits i (mem_send_out _ _)
  · have : waits.announceRepeat i = waits.setRepeat i := by
      rw [announceRepeat_eq]
      simp [waits, State.waitRepeat, hl, none]
    rw [this]
    simp [State.setRepeat, origin]
  · have : waits.announceRepeat i = waits := by
      rw [announceRepeat_eq]
      simp [waits, State.waitRepeat, some]
    rw [this]
    simp [waits, State.waitRepeat]
  · refine unchanged_announceRepeat (by simp) (by simp) (by simp) (unchanged_send _ (by simp)
      (unchanged_waitRepeat (by simp) (by simp) (by simp) (unchanged_modSeq _ (by simp) (unchanged_modMarch _ (by simp) ?_))))
    exact unchanged_refl s _

/-! ### STOP and STOP_NOW -/

omit hc in
theorem runs_stop (he : (s.stall i).march.state ≠ .empty) (hr : (s.stall i).march.state ≠ .ready)
    (hq : (s.stall i).seq.continuous = true) : Runs (.stop r i) s fun t =>
      (t.stall i).seq = { (s.stall i).seq with continuous := false } ∧ t.out = s.out ++ [.relayed i .stop]
      ∧ Unchanged s t [.out, .stall i .seq] := by
  have taken : exec (.stop r i) s = .next ((s.stopRunning i).send (.relayed i .stop)) := by
    refine (exec_stop ha).trans (congrArg _ ((writeMarchCmd_lead 3 hl).trans ?_))
    have : cmdStop i s = (s.stopRunning i).send (.relayed i .stop) := by simp [cmdStop, he, hr, hq]
    exact this
  refine runs_of_exec taken ⟨by simp [State.stopRunning], rfl, ?_⟩
  exact unchanged_send _ (by simp) (unchanged_modSeq _ (by simp) (unchanged_refl s _))

omit hc in
theorem stopNow_late (hs : (s.stall i).march.state = .verdict ∨ (s.stall i).march.state = .settle) :
    exec (.stopNow r i) s = exec (.stop r i) s := by
  rw [exec_stopNow ha, exec_stop ha]
  refine congrArg _ ((writeMarchCmd_lead 4 hl).trans (Eq.trans ?_ (writeMarchCmd_lead 3 hl).symm))
  have : cmdStopNow i s = cmdStop i s := by
    unfold cmdStopNow
    obtain h | h := hs <;> simp [h]
  exact this

end lead

end Sys2Proof.Machine
end

section
/-! PROOFS. The host's decision in a hold: ACCEPT settles the march, DISCARD ends it without settlement (R66, R67, R251). -/

namespace Sys2Proof.Machine

open Sys2Proof.Safety

variable {s t : State} {l : List Part} {i : Stall} {c : Charter}

/-! ### Settlement begins (R249, R262) -/

theorem unchanged_stlLast (reason : Reason) (hx : Part.stall i .settle ∈ l) (h : Unchanged s t l) :
    Unchanged s (t.stlLast i reason) l := unchanged_modSettle _ hx h

theorem unchanged_settlePrologue (ho : Part.out ∈ l) (hr : Part.log ∈ l) (hx : Part.stall i .settle ∈ l) (h : Unchanged s t l) :
    Unchanged s (t.settlePrologue i) l := by
  unfold State.settlePrologue
  extract_lets t0 clip s1
  split
  · exact h
  split
  · exact unchanged_record _ hr ho (unchanged_stlLast _ hx (unchanged_modSettle _ hx h))
  · exact unchanged_modSettle _ hx h

theorem unchanged_sendSettled (ho : Part.out ∈ l) (hx : Part.stall i .settle ∈ l) (h : Unchanged s t l) :
    Unchanged s (t.sendSettled i) l := by
  unfold State.sendSettled
  extract_lets t0 s1
  split
  · exact h
  split
  · exact unchanged_modSettle _ hx h
  · exact unchanged_send _ ho (unchanged_modSettle _ hx h)

/-- What settlement's first steps may change beside the march and its sequencer. -/
theorem unchanged_beginSettle_rest (c : Charter) :
    Unchanged ((s.modMarch i fun m => { m with state := .settle }).modSeq i fun q => { q with settles := true, hold := 0 })
      (s.beginSettle i c) [.out, .log, .stall i .settle] := by
  unfold State.beginSettle
  extract_lets s1 s2
  have prologue : Unchanged (s1.modSeq i fun q => { q with settles := true, hold := 0 }) s2 [.out, .log, .stall i .settle] :=
    unchanged_settlePrologue (by simp) (by simp) (by simp) (unchanged_refl _ _)
  split
  · exact unchanged_sendSettled (by simp) (by simp) prologue
  · exact prologue

theorem beginSettle_march (s : State) (i : Stall) (c : Charter) :
    ((s.beginSettle i c).stall i).march = { (s.stall i).march with state := .settle } := by
  have frame := unchanged_beginSettle_rest (s := s) (i := i) c
  exact (frame (.stall i .march) (by simp)).trans (by simp)

theorem beginSettle_seq (s : State) (i : Stall) (c : Charter) :
    ((s.beginSettle i c).stall i).seq = { (s.stall i).seq with settles := true, hold := 0 } := by
  have frame := unchanged_beginSettle_rest (s := s) (i := i) c
  exact (frame (.stall i .seq) (by simp)).trans (by simp)

theorem unchanged_beginSettle (c : Charter) (ho : Part.out ∈ l) (hr : Part.log ∈ l) (hm : Part.stall i .march ∈ l)
    (hq : Part.stall i .seq ∈ l) (hx : Part.stall i .settle ∈ l) (h : Unchanged s t l) : Unchanged s (t.beginSettle i c) l := by
  refine Unchanged.trans (unchanged_modSeq _ hq (unchanged_modMarch _ hm h)) (Unchanged.mono (unchanged_beginSettle_rest c) ?_)
  simp [ho, hr, hx]

theorem abandonCheckpoint_march (s : State) (i : Stall) : ((s.abandonCheckpoint i).stall i).march = (s.stall i).march :=
  unchanged_abandonCheckpoint (l := [.out, .log, .stall i .service]) (by simp) (by simp) (by simp) (unchanged_refl s _)
    (.stall i .march) (by simp)

theorem abandonCheckpoint_seq (s : State) (i : Stall) : ((s.abandonCheckpoint i).stall i).seq = (s.stall i).seq :=
  unchanged_abandonCheckpoint (l := [.out, .log, .stall i .service]) (by simp) (by simp) (by simp) (unchanged_refl s _)
    (.stall i .seq) (by simp)

/-! ### ACCEPT (R251) -/

/-- The decision of the host, noted in the march and in the lead's record (R251, R263). -/
def State.noteAccept (s : State) (i : Stall) : State :=
  (s.modMarch i fun m => { m with hostDecision := if m.verdict.code = vTally then 1 else m.hostDecision }).modSettle i fun x => { x with
    record := x.record.map fun r => { r with hostDecision := if r.verdict.code = vTally then 1 else r.hostDecision }, state := 0 }

/-- The march that the host has accepted, before it may finish at once. -/
def State.acceptWork (s : State) (i : Stall) (c : Charter) : State :=
  (((s.noteAccept i).abandonCheckpoint i).beginSettle i c).modSeq i fun q => { q with
    runAll := decide ((legStart (s.stall i) c c.firstSettle).toNat ≤ s.time.toNat) || q.ended }

theorem acceptHold_eq (s : State) (i : Stall) (c : Charter) : s.acceptHold i c = (s.acceptWork i c).finishMarch i := rfl

theorem acceptWork_march (s : State) (i : Stall) (c : Charter) : ((s.acceptWork i c).stall i).march = { (s.stall i).march with
    state := .settle
    hostDecision := if (s.stall i).march.verdict.code = vTally then 1 else (s.stall i).march.hostDecision } := by
  simp [State.acceptWork, beginSettle_march, abandonCheckpoint_march, State.noteAccept]

theorem acceptWork_seq (s : State) (i : Stall) (c : Charter) :
    ∃ b, ((s.acceptWork i c).stall i).seq = { (s.stall i).seq with settles := true, hold := 0, runAll := b } :=
  ⟨_, by simp [State.acceptWork, beginSettle_seq, abandonCheckpoint_seq, State.noteAccept]; rfl⟩

theorem acceptWork_stall_other {j : Stall} (hj : j ≠ i) : (s.acceptWork i c).stall j = s.stall j := by
  refine Unchanged.stall_eq (l := [.out, .log] ++ wholeStall i) ?_ (by simp [wholeStall, hj])
  exact unchanged_modSeq _ (by simp [wholeStall]) (unchanged_beginSettle c (by simp) (by simp) (by simp [wholeStall])
    (by simp [wholeStall]) (by simp [wholeStall]) (unchanged_abandonCheckpoint (by simp) (by simp) (by simp [wholeStall])
      (unchanged_modSettle _ (by simp [wholeStall]) (unchanged_modMarch _ (by simp [wholeStall]) (unchanged_refl s _)))))

/-- An accepted march settles: it has left its hold, and a HALT_TALLY notes the host's decision. -/
theorem acceptHold_facts (s : State) (i : Stall) (c : Charter) :
    let t := s.acceptHold i c
    (t.stall i).march.state ≠ .held ∧ (t.stall i).seq.settles = true
    ∧ (t.stall i).march.verdict = (s.stall i).march.verdict
    ∧ (t.stall i).march.hostDecision = (if (s.stall i).march.verdict.code = vTally then 1 else (s.stall i).march.hostDecision)
    ∧ ∀ j, j ≠ i → t.stall j = s.stall j := by
  rw [acceptHold_eq]
  have march := acceptWork_march s i c
  obtain ⟨b, seq⟩ := acceptWork_seq s i c
  obtain ⟨⟨x, o, n, r, e, march'⟩, ⟨f, a, h, k, m, seq'⟩⟩ := finishes_finishMarch (s.acceptWork i c) i
  refine ⟨finishMarch_not_held ?_ ?_, ?_, ?_, ?_, fun j hj => (finishMarch_stall_other hj).trans (acceptWork_stall_other hj)⟩
  · simp [march]
  · simp [seq]
  · simp [seq', seq]
  · simp [march', march]
  · simp [march', march]

section lead
variable {r : Requester} (ha : Allowed s r (marchOff i 0)) (hl : (s.stall i).march.lead = true)
  (hs : (s.stall i).march.state = .held) (hh : (s.stall i).seq.hold = 0) (hd : (s.stall i).march.hostDecision = 0)
include ha hl hs hh hd

theorem runs_accept (hc : (s.stall i).charter.active = some c) (hv : (s.stall i).march.verdict.code = 2) :
    Runs (.accept r i) s fun t =>
      (t.stall i).march.hostDecision = 1 ∧ (t.stall i).march.state ≠ .held ∧ (t.stall i).seq.settles = true
      ∧ (t.stall i).march.verdict.code = 2 ∧ Out.relayed i .accept ∈ t.out ∧ ∀ j, j ≠ i → t.stall j = s.stall j := by
  have taken : exec (.accept r i) s = .next ((s.acceptHold i c).send (.relayed i .accept)) := by
    refine (exec_accept ha).trans (congrArg _ ((writeMarchCmd_lead 5 hl).trans ?_))
    have : cmdAccept i s = (s.acceptHold i c).send (.relayed i .accept) := by simp [cmdAccept, hc, hs, hh, hv, hd, vTally]
    exact this
  obtain ⟨left, settles, verdict, decision, others⟩ := acceptHold_facts s i c
  refine runs_of_exec taken ⟨?_, left, settles, ?_, mem_send_out _ _, others⟩
  · exact decision.trans (by simp [hv, vTally])
  · exact (congrArg CaravanVerdict.code verdict).trans hv

/-! ### DISCARD (R66, R67) -/

theorem exec_discard_hold (hv : (s.stall i).march.verdict.code = 2 ∨ (s.stall i).march.verdict.code = 10) :
    exec (.discard r i) s = .next ((s.discardHold i).send (.relayed i .discard)) := by
  refine (exec_discard ha).trans (congrArg _ ((writeMarchCmd_lead 6 hl).trans ?_))
  have : cmdDiscard i s = (s.discardHold i).send (.relayed i .discard) := by
    obtain hv | hv := hv <;> simp [cmdDiscard, hs, hh, hv, hd, vTally, vCounter]
  exact this

theorem runs_discard_tally (hc : (s.stall i).charter.active = some c) (hv : (s.stall i).march.verdict.code = 2)
    (he : (s.stall i).seq.ended = false) : Runs (.discard r i) s fun t =>
      (t.stall i).march = { (s.stall i).march with
        hostDecision := 2, kind := if c.lastReduce < (s.stall i).march.leg.toNat then 0 else (s.stall i).march.kind }
      ∧ (t.stall i).settle.step = (s.stall i).settle.step ∧ (t.stall i).seq.noSettle = true
      ∧ t.out = s.out ++ [.relayed i .discard] ∧ Unchanged s t [.out, .stall i .march, .stall i .settle, .stall i .seq] := by
  let noted := ((s.modMarch i fun m => { m with
    hostDecision := 2, kind := if c.lastReduce < m.leg.toNat then 0 else m.kind }).modSettle i fun x => { x with
      record := x.record.map fun r => { r with hostDecision := 2 }, state := 0 }).modSeq i fun q => { q with
        noSettle := true, continuous := false, repeatAt := none }
  have taken : exec (.discard r i) s = .next (noted.send (.relayed i .discard)) := by
    rw [exec_discard_hold ha hl hs hh hd (.inl hv)]
    have : s.discardHold i = noted := by simp [State.discardHold, hv, hc, he, noted, vCounter]
    rw [this]
  refine runs_of_exec taken ⟨?_, ?_, ?_, rfl, ?_⟩
  · simp [noted]
  · simp [noted]
  · simp [noted]
  · exact unchanged_send _ (by simp) (unchanged_modSeq _ (by simp) (unchanged_modSettle _ (by simp) (unchanged_modMarch _ (by simp)
      (unchanged_refl s _))))

omit ha hl hs hh hd in
/-- A COUNTER_MISMATCH that is discarded leaves the stall READY (Table 02-2). -/
theorem discardHold_counter (hv : (s.stall i).march.verdict.code = 10) : s.discardHold i =
    (s.modMarch i fun m => { m with state := .ready, hostDecision := 2 }).modSeq i fun q =>
      { q with continuous := false, hold := 0 } := by
  simp [State.discardHold, hv, vCounter]

theorem runs_discard_counter (hv : (s.stall i).march.verdict.code = 10) : Runs (.discard r i) s fun t =>
    (t.stall i).march = { (s.stall i).march with state := .ready, hostDecision := 2 } ∧ (t.stall i).seq.continuous = false
    ∧ t.out = s.out ++ [.relayed i .discard] ∧ Unchanged s t [.out, .stall i .march, .stall i .seq] := by
  refine runs_of_exec ((exec_discard_hold ha hl hs hh hd (.inr hv)).trans (congrArg _ (by rw [discardHold_counter hv]))) ⟨?_, ?_, rfl, ?_⟩
  · simp
  · simp
  · exact unchanged_send _ (by simp) (unchanged_modSeq _ (by simp) (unchanged_modMarch _ (by simp) (unchanged_refl s _)))

end lead

/-- Settles O32, one command at a time. -/
theorem hostCommandsMoveTheMarch : Obligations.HostCommandsMoveTheMarch := by
  intro s r i c ha hc
  exact ⟨runs_command_member ha, fun hl => ⟨(exec_start ha true).trans (exec_stopNow ha).symm, runs_arm ha hc hl,
    runs_start_unassembled ha hc hl, runs_start_held ha hc hl, runs_stop ha hl, stopNow_late ha hl,
    fun hs hh hv hd => ⟨runs_accept ha hl hs hh hd hc hv, runs_discard_tally ha hl hs hh hd hc hv⟩,
    fun hs hh hv hd => runs_discard_counter ha hl hs hh hd hv⟩⟩

end Sys2Proof.Machine
end

section
/-! PROOFS. What a stall does with the caravan verdict (R62, Tables 02-2 and 02-3). -/

namespace Sys2Proof.Machine

open Sys2Proof.Safety

variable {s t : State} {l : List Part} {i : Stall} {c : Charter}

/-! ### The tallies of a verdict (R270, R271) -/

theorem unchanged_alarm (j : Nat) (ho : Part.out ∈ l) (ht : Part.stall i .tally ∈ l) (h : Unchanged s t l) :
    Unchanged s (t.alarm i j) l := by
  unfold State.alarm
  extract_lets y s1
  split
  · exact unchanged_raise _ _ ho (unchanged_modTally _ ht h)
  · exact unchanged_modTally _ ht h

theorem mem_alarm (s : State) (i : Stall) (j : Nat) : s.out ⊆ (s.alarm i j).out := by
  unfold State.alarm
  extract_lets y s1
  split
  · exact (sendsOnly_raise s1 i _).subset
  · exact List.Subset.refl _

/-- A march's sequencer with other causes of the next march. -/
def NextOnly (q q' : Sequencer) : Prop := ∃ a b, q' = { q with nextCauses := a, nextReasons := b }

/-- What the tallies of a verdict may change: the tallies, the last settlement reason, and the causes of the next march. -/
structure Tallies (i : Stall) (s t : State) : Prop where
  frame : Unchanged s t [.out, .stall i .seq, .stall i .settle, .stall i .tally]
  next : NextOnly (s.stall i).seq (t.stall i).seq
  sent : s.out ⊆ t.out

theorem tallies_refl (s : State) (i : Stall) : Tallies i s s := ⟨unchanged_refl s _, ⟨_, _, rfl⟩, List.Subset.refl _⟩

theorem Tallies.trans {u : State} (h : Tallies i s t) (h' : Tallies i t u) : Tallies i s u := by
  obtain ⟨a, b, next⟩ := h.next
  obtain ⟨a', b', next'⟩ := h'.next
  exact ⟨Unchanged.trans h.frame h'.frame, ⟨a', b', by rw [next', next]⟩, List.Subset.trans h.sent h'.sent⟩

theorem tallies_modTally (s : State) (i : Stall) (f : Tally → Tally) : Tallies i s (s.modTally i f) :=
  ⟨unchanged_modTally _ (by simp) (unchanged_refl s _), ⟨_, _, by simp; rfl⟩, List.Subset.refl _⟩

theorem tallies_stlLast (s : State) (i : Stall) (reason : Reason) : Tallies i s (s.stlLast i reason) :=
  ⟨unchanged_stlLast _ (by simp) (unchanged_refl s _), ⟨_, _, by simp [State.stlLast]; rfl⟩, List.Subset.refl _⟩

theorem tallies_alarm (s : State) (i : Stall) (j : Nat) : Tallies i s (s.alarm i j) := by
  have frame : Unchanged s (s.alarm i j) [.out, .stall i .tally] := unchanged_alarm j (by simp) (by simp) (unchanged_refl s _)
  have seq : ((s.alarm i j).stall i).seq = (s.stall i).seq := frame (.stall i .seq) (by simp)
  exact ⟨Unchanged.mono frame (by simp), ⟨_, _, seq⟩, mem_alarm s i j⟩

theorem tallies_causeNext (s : State) (i : Stall) (code : BitVec 4) (reason : Reason) : Tallies i s (s.causeNext i code reason) :=
  ⟨unchanged_causeNext _ _ (by simp) (unchanged_refl s _), ⟨_, _, State.modSeq_seq s i _⟩, List.Subset.refl _⟩

theorem tallies_memberAlarm (s : State) (i : Stall) (j : Nat) : Tallies i s (s.memberAlarm i j) := by
  unfold State.memberAlarm
  extract_lets s1
  split
  · exact ((tallies_alarm s i j).trans (tallies_causeNext _ _ _ _)).trans (tallies_stlLast _ _ _)
  · exact tallies_alarm s i j

theorem tallies_tallyVerdict (s : State) (i : Stall) (v : CaravanVerdict) : Tallies i s (s.tallyVerdict i v) := by
  unfold State.tallyVerdict
  extract_lets lossEn s1 s2 s3 s4 y
  have h1 : Tallies i s s1 := tallies_modTally s i _
  have h2 : Tallies i s s2 := by
    unfold s2
    split
    · exact h1.trans (tallies_alarm s1 i 0)
    · exact h1
  have h3 : Tallies i s s3 := by
    unfold s3
    split
    · exact h2.trans (tallies_alarm s2 i 1)
    · exact h2
  have h4 : Tallies i s s4 := by
    unfold s4
    split
    · exact h3.trans (tallies_stlLast s3 i _)
    · exact h3
  split
  · exact h4.trans (tallies_memberAlarm s4 i 3)
  · exact h4

/-! ### The verdict held (R62) -/

/-- The march and the norm of a member once it holds the caravan verdict. -/
def State.holdVerdict (s : State) (i : Stall) (v : CaravanVerdict) : State :=
  (s.modMarch i fun m => { m with
    verdict := v, hostDecision := 0, sinceStart := if repeats v.code then satAdd m.sinceStart 1 else m.sinceStart }).modLedger i
      fun l => { l with norm2 := v.norm2 }

theorem tallies_takeVerdict (s : State) (i : Stall) (v : CaravanVerdict) : Tallies i (s.holdVerdict i v) (s.takeVerdict i v) := by
  have tallied := tallies_tallyVerdict (s.holdVerdict i v) i v
  unfold State.takeVerdict
  extract_lets s1 s2
  split
  · exact tallied.trans (tallies_stlLast s2 i _)
  · exact tallied

/-- A member that holds the verdict, with the lead's record of it and the VERDICT event, before it acts on it. -/
def State.showVerdict (s : State) (i : Stall) (v : CaravanVerdict) : State :=
  let taken := s.takeVerdict i v
  (if (s.stall i).march.lead || (s.stall i).march.deputy then
    taken.modSettle i fun x => { x with record := some ⟨(s.stall i).march.num, v, 0, x.step⟩ } else taken).raiseEvent i 0

/-- What a member does with the verdict that it holds. -/
theorem applyVerdict_eq (s : State) (i : Stall) (c : Charter) (v : CaravanVerdict) : s.applyVerdict i c v =
    if v.code = vAllClear then ((s.showVerdict i v).abandonCheckpoint i).beginSettle i c
    else if v.code = vSaturated ∨ v.code = vNonfinite then
      ((s.showVerdict i v).modMarch i fun m => { m with state := .settle, kind := 0 }).modSeq i fun q => { q with noSettle := true }
    else if repeats v.code then (s.showVerdict i v).enterRepeat i
    else (s.showVerdict i v).enterHeld i 0 := rfl

theorem tallies_showVerdict (s : State) (i : Stall) (v : CaravanVerdict) : Tallies i (s.holdVerdict i v) (s.showVerdict i v) := by
  have taken := tallies_takeVerdict s i v
  unfold State.showVerdict
  extract_lets taken'
  generalize hu : (if (s.stall i).march.lead || (s.stall i).march.deputy then
    taken'.modSettle i fun x => { x with record := some ⟨(s.stall i).march.num, v, 0, x.step⟩ } else taken') = u
  have noted : Tallies i (s.holdVerdict i v) u := by
    rw [← hu]
    split
    · exact taken.trans ⟨unchanged_modSettle _ (by simp) (unchanged_refl _ _), ⟨_, _, by simp; rfl⟩, List.Subset.refl _⟩
    · exact taken
  exact noted.trans ⟨unchanged_raiseEvent i 0 (by simp) (unchanged_refl u _), ⟨_, _, by simp; rfl⟩, (sendsOnly_raiseEvent u i 0).subset⟩

section shown
variable (s) (i) (v : CaravanVerdict)

theorem showVerdict_march : ((s.showVerdict i v).stall i).march = { (s.stall i).march with
    verdict := v, hostDecision := 0
    sinceStart := if repeats v.code then satAdd (s.stall i).march.sinceStart 1 else (s.stall i).march.sinceStart } :=
  ((tallies_showVerdict s i v).frame (.stall i .march) (by simp)).trans (by simp [State.holdVerdict])

theorem showVerdict_ledger : ((s.showVerdict i v).stall i).ledger = { (s.stall i).ledger with norm2 := v.norm2 } :=
  ((tallies_showVerdict s i v).frame (.stall i .ledger) (by simp)).trans (by simp [State.holdVerdict])

theorem showVerdict_seq : NextOnly (s.stall i).seq ((s.showVerdict i v).stall i).seq := by
  obtain ⟨a, b, seq⟩ := (tallies_showVerdict s i v).next
  exact ⟨a, b, seq.trans (by simp [State.holdVerdict])⟩

theorem mem_showVerdict : s.out ⊆ (s.showVerdict i v).out := (tallies_showVerdict s i v).sent

end shown

theorem unchanged_showVerdict (v : CaravanVerdict) (hl : ∀ p ∈ marchParts i, p ∈ l) (h : Unchanged s t l) :
    Unchanged s (t.showVerdict i v) l := by
  refine Unchanged.trans ?_ (Unchanged.mono (tallies_showVerdict t i v).frame ?_)
  · exact unchanged_modLedger _ (hl _ (by simp [marchParts])) (unchanged_modMarch _ (hl _ (by simp [marchParts])) h)
  · exact fun p hp => hl p (by revert hp; simp [marchParts]; tauto)

theorem unchanged_applyVerdict (v : CaravanVerdict) (hl : ∀ p ∈ marchParts i, p ∈ l) (h : Unchanged s t l) :
    Unchanged s (t.applyVerdict i c v) l := by
  have shown : Unchanged s (t.showVerdict i v) l := unchanged_showVerdict v hl h
  have ho : Part.out ∈ l := hl _ (by simp [marchParts])
  have hr : Part.log ∈ l := hl _ (by simp [marchParts])
  have hm : Part.stall i .march ∈ l := hl _ (by simp [marchParts])
  have hq : Part.stall i .seq ∈ l := hl _ (by simp [marchParts])
  rw [applyVerdict_eq]
  split
  · exact unchanged_beginSettle c ho hr hm hq (hl _ (by simp [marchParts]))
      (unchanged_abandonCheckpoint ho hr (hl _ (by simp [marchParts])) shown)
  split
  · exact unchanged_modSeq _ hq (unchanged_modMarch _ hm shown)
  split
  · exact unchanged_announceRepeat ho hm hq (unchanged_waitRepeat hm hq (hl _ (by simp [marchParts])) shown)
  · exact unchanged_enterHeld _ ho hm hq shown

/-! ### What is sent meanwhile -/

theorem mem_abandonCheckpoint (s : State) (i : Stall) : s.out ⊆ (s.abandonCheckpoint i).out := by
  unfold State.abandonCheckpoint
  split
  · exact fun _ ho => mem_record _ _ ho
  · exact List.Subset.refl _

theorem mem_settlePrologue (s : State) (i : Stall) : s.out ⊆ (s.settlePrologue i).out := by
  unfold State.settlePrologue
  extract_lets t0 clip s1
  split
  · exact List.Subset.refl _
  split
  · exact fun _ ho => mem_record _ _ ho
  · exact List.Subset.refl _

theorem mem_sendSettled (s : State) (i : Stall) : s.out ⊆ (s.sendSettled i).out := by
  unfold State.sendSettled
  extract_lets t0 s1
  split
  · exact List.Subset.refl _
  split
  · exact List.Subset.refl _
  · exact List.subset_append_left _ _

theorem mem_beginSettle (s : State) (i : Stall) (c : Charter) : s.out ⊆ (s.beginSettle i c).out := by
  unfold State.beginSettle
  extract_lets s1 s2
  have prologue : s.out ⊆ s2.out := mem_settlePrologue (s1.modSeq i _) i
  split
  · exact List.Subset.trans prologue (mem_sendSettled s2 i)
  · exact prologue

theorem mem_enterHeld (s : State) (i : Stall) (hold : Reason) : s.out ⊆ (s.enterHeld i hold).out :=
  fun _ ho => mem_raiseEvent _ i 1 ho

theorem mem_applyVerdict (s : State) (i : Stall) (c : Charter) (v : CaravanVerdict) : s.out ⊆ (s.applyVerdict i c v).out := by
  have shown := mem_showVerdict s i v
  rw [applyVerdict_eq]
  split
  · exact List.Subset.trans shown (List.Subset.trans (mem_abandonCheckpoint _ i) (mem_beginSettle _ i c))
  split
  · exact shown
  split
  · exact List.Subset.trans shown (mem_announceRepeat ((s.showVerdict i v).waitRepeat i) i)
  · exact List.Subset.trans shown (mem_enterHeld _ i 0)

/-! ### The march after the verdict -/

theorem enterHeld_march (s : State) (i : Stall) (hold : Reason) :
    ((s.enterHeld i hold).stall i).march = { (s.stall i).march with state := .held } := by simp [State.enterHeld]

theorem enterHeld_seq (s : State) (i : Stall) (hold : Reason) :
    ((s.enterHeld i hold).stall i).seq = { (s.stall i).seq with hold := hold } := by simp [State.enterHeld]

theorem enterRepeat_march (s : State) (i : Stall) : ∃ o, ((s.enterRepeat i).stall i).march =
    { (s.stall i).march with state := .waitRepeat, repeats := satAdd (s.stall i).march.repeats 1, origin := o } := by
  obtain ⟨⟨o, march⟩, -⟩ := announceRepeat_stall (s.waitRepeat i) i
  exact ⟨o, march.trans (by simp [State.waitRepeat])⟩

theorem enterRepeat_seq (s : State) (i : Stall) : ∃ r, ((s.enterRepeat i).stall i).seq =
    { (s.stall i).seq with hold := 0, repeatAt := r } := by
  obtain ⟨-, ⟨r, seq⟩⟩ := announceRepeat_stall (s.waitRepeat i) i
  exact ⟨r, seq.trans (by simp [State.waitRepeat])⟩

theorem repeats_iff (code : BitVec 4) : repeats code = true ↔ code = 5 ∨ code = 6 ∨ code = 7 ∨ code = 8 := by
  simp [repeats, vShort, vFault, vOverrun, vSupply, or_assoc]

/-- The state of a march after a verdict, by the verdict's code (Table 02-2). -/
theorem applyVerdict_acts (s : State) (i : Stall) (c : Charter) (v : CaravanVerdict) :
    let t := s.applyVerdict i c v
    let m := ((s.showVerdict i v).stall i).march
    let q := ((s.showVerdict i v).stall i).seq
    (v.code = 1 ∧ (t.stall i).march = { m with state := .settle } ∧ (t.stall i).seq = { q with settles := true, hold := 0 })
    ∨ ((v.code = 3 ∨ v.code = 4) ∧ (t.stall i).march = { m with state := .settle, kind := 0 }
        ∧ (t.stall i).seq = { q with noSettle := true })
    ∨ (repeats v.code = true
        ∧ (∃ o, (t.stall i).march = { m with state := .waitRepeat, repeats := satAdd m.repeats 1, origin := o })
        ∧ ∃ r, (t.stall i).seq = { q with hold := 0, repeatAt := r })
    ∨ (v.code ≠ 1 ∧ v.code ≠ 3 ∧ v.code ≠ 4 ∧ repeats v.code = false
        ∧ (t.stall i).march = { m with state := .held } ∧ (t.stall i).seq = { q with hold := 0 }) := by
  rw [applyVerdict_eq]
  split
  · next code =>
    exact .inl ⟨code, by rw [beginSettle_march, abandonCheckpoint_march], by rw [beginSettle_seq, abandonCheckpoint_seq]⟩
  next clear =>
  split
  · next code => exact .inr (.inl ⟨code, by simp, by simp⟩)
  next skips =>
  split
  · next again => exact .inr (.inr (.inl ⟨again, enterRepeat_march _ i, enterRepeat_seq _ i⟩))
  · next once =>
    obtain ⟨h3, h4⟩ := not_or.mp skips
    exact .inr (.inr (.inr ⟨clear, h3, h4, by simpa using once, enterHeld_march _ i 0, enterHeld_seq _ i 0⟩))

theorem applyVerdict_actedOn (s : State) (i : Stall) (c : Charter) (v : CaravanVerdict) :
    ActedOn v ((s.applyVerdict i c v).stall i) := by
  have shown : ((s.showVerdict i v).stall i).march.verdict = v := by rw [showVerdict_march]
  unfold ActedOn
  obtain ⟨code, march, seq⟩ | ⟨code | code, march, seq⟩ | ⟨again, ⟨o, march⟩, ⟨r, seq⟩⟩ | ⟨n1, n3, n4, once, march, seq⟩ :=
    applyVerdict_acts s i c v
  · simp [march, seq, shown, code]
  · simp [march, seq, shown, code]
  · simp [march, seq, shown, code]
  · rw [repeats_iff] at again
    obtain code | code | code | code := again <;> simp [march, shown, code]
  · rw [← Bool.not_eq_true, repeats_iff] at once
    exact ⟨by rw [march]; exact shown, fun h => absurd h n1, fun h => absurd h (not_or.mpr ⟨n3, n4⟩), fun h => absurd h once,
      fun _ => by rw [march]⟩

/-- A member that acts on a verdict shows it undecided, and its sequencer keeps the causes of the march. -/
theorem applyVerdict_stall (s : State) (i : Stall) (c : Charter) (v : CaravanVerdict) :
    let t := s.applyVerdict i c v
    (t.stall i).march.hostDecision = 0
    ∧ (t.stall i).seq.causes = (s.stall i).seq.causes ∧ (t.stall i).seq.stopped = (s.stall i).seq.stopped
    ∧ (t.stall i).seq.sentVerdict = (s.stall i).seq.sentVerdict := by
  have undecided : ((s.showVerdict i v).stall i).march.hostDecision = 0 := by rw [showVerdict_march]
  obtain ⟨a, b, shown⟩ := showVerdict_seq s i v
  obtain ⟨-, march, seq⟩ | ⟨-, march, seq⟩ | ⟨-, ⟨o, march⟩, ⟨r, seq⟩⟩ | ⟨-, -, -, -, march, seq⟩ := applyVerdict_acts s i c v <;>
    simp [march, seq, undecided, shown]

theorem applyVerdict_norm2 (s : State) (i : Stall) (c : Charter) (v : CaravanVerdict) :
    ((s.applyVerdict i c v).stall i).ledger.norm2 = v.norm2 := by
  have norm2 : ((s.showVerdict i v).stall i).ledger.norm2 = v.norm2 := by rw [showVerdict_ledger]
  have keeps (u : State) (h : Unchanged (s.showVerdict i v) u ([.out, .log]
      ++ ([.march, .seq, .settle, .tally, .service] : List StallPart).map (Part.stall i))) : (u.stall i).ledger.norm2 = v.norm2 := by
    have : (u.stall i).ledger = ((s.showVerdict i v).stall i).ledger := h (.stall i .ledger) (by simp)
    rw [this, norm2]
  rw [applyVerdict_eq]
  split
  · exact keeps _ (unchanged_beginSettle c (by simp) (by simp) (by simp) (by simp) (by simp)
      (unchanged_abandonCheckpoint (by simp) (by simp) (by simp) (unchanged_refl _ _)))
  split
  · exact keeps _ (unchanged_modSeq _ (by simp) (unchanged_modMarch _ (by simp) (unchanged_refl _ _)))
  split
  · exact keeps _ (unchanged_announceRepeat (by simp) (by simp) (by simp) (unchanged_waitRepeat (by simp) (by simp) (by simp)
      (unchanged_refl _ _)))
  · exact keeps _ (unchanged_enterHeld _ (by simp) (by simp) (by simp) (unchanged_refl _ _))

end Sys2Proof.Machine
end

section
/-! PROOFS. Halts, the verdict at a member, and the record of a verdict that was missed (R61, R62, R63, R68, R262, R263). -/

namespace Sys2Proof.Machine

open Sys2Proof.Safety

variable {s t : State} {l : List Part} {i : Stall} {c : Charter}

section member
variable (hc : (s.stall i).charter.active = some c)
include hc

/-! ### The verdict at a member (R62) -/

section verdict
variable (hs : (s.stall i).march.state = .verdict)
  (hf : (s.stall i).march.lead = false ∨ furtherLead (s.stall i) = true)
include hs hf

omit hs hf in
/-- A fenced member takes no part (R242). -/
theorem exec_caravanVerdict_fenced (v : CaravanVerdict) (fenced : selfFenced (s.stall i) = true) :
    exec (.caravanVerdict i v) s = .next s := by
  have : execCaravanVerdict i v s = .next s := by simp [execCaravanVerdict, hc, fenced]
  exact this

theorem runs_caravanVerdict (v : CaravanVerdict) (free : selfFenced (s.stall i) = false) :
    Runs (.caravanVerdict i v) s fun t =>
      ActedOn v (t.stall i) ∧ (t.stall i).march.hostDecision = 0 ∧ (t.stall i).ledger.norm2 = v.norm2
      ∧ ((s.stall i).march.lead = true → Out.caravanVerdict i v ∈ t.out) ∧ Unchanged s t (marchParts i) := by
  let told := if (s.stall i).march.lead then s.send (.caravanVerdict i v) else s
  have taken : execCaravanVerdict i v s = .next (told.applyVerdict i c v) := by
    obtain h | h := hf
    · simp [execCaravanVerdict, hc, free, hs, h, told]
    · cases hl : (s.stall i).march.lead <;> simp [execCaravanVerdict, hc, free, hs, h, hl, told]
  have frame : Unchanged s told (marchParts i) := by
    unfold told
    split
    · exact unchanged_send _ (by simp [marchParts]) (unchanged_refl s _)
    · exact unchanged_refl s _
  obtain ⟨undecided, -⟩ := applyVerdict_stall told i c v
  refine runs_of_exec taken ⟨applyVerdict_actedOn told i c v, undecided, applyVerdict_norm2 told i c v, fun hl => ?_,
    unchanged_applyVerdict v (fun _ hp => hp) frame⟩
  have : told = s.send (.caravanVerdict i v) := if_pos hl
  exact mem_applyVerdict told i c v (this ▸ mem_send_out s _)

omit hc in
theorem runs_decisionLost : Runs (.decisionLost i) s fun t =>
    t.time = maxU s.time ((s.stall i).seq.verdictTick + 16000) ∧ heldFor (t.stall i) 0x0208 = true
    ∧ (t.stall i).march.verdict.reason = 0x0208 ∧ (t.stall i).settle.state = 4
    ∧ (t.stall i).settle.step = (s.stall i).settle.step
    ∧ Unchanged s t [.time, .out, .stall i .march, .stall i .settle, .stall i .seq] := by
  obtain ⟨b, hb⟩ : ∃ b, (s.stall i).seq.verdictTick + 16000 = b := ⟨_, rfl⟩
  rw [hb]
  let lost := ((s.atTime b).modMarch i fun m => { m with
      hostDecision := 0
      verdict := { code := 0, reason := 0x0208, source := m.member, causes := 0, norm2 := m.verdict.norm2, loss := m.verdict.loss
                   alarms := 0 } }).modSettle i fun x => { x with state := 4, asked := none }
  have waits : ((s.stall i).march.state == .verdict && (!(s.stall i).march.lead || furtherLead (s.stall i))) = true := by
    obtain h | h := hf <;> simp [hs, h]
  have taken : execDecisionLost i s = .next (lost.enterHeld i 0x0208) := by
    simp only [execDecisionLost, waits, hb]
    rfl
  refine runs_of_exec taken ⟨?_, ?_, ?_, ?_, ?_, ?_⟩
  · simp [State.enterHeld, lost]
  · simp [heldFor, enterHeld_march, enterHeld_seq]
  · rw [enterHeld_march]
    simp [lost]
  · simp [State.enterHeld, lost]
  · simp [State.enterHeld, lost]
  · exact unchanged_enterHeld _ (by simp) (by simp) (by simp) (unchanged_modSettle _ (by simp) (unchanged_modMarch _ (by simp)
      (unchanged_atTime _ (by simp) (unchanged_refl s _))))

end verdict

/-! ### The record that a member asks for (R263) -/

omit hc in
theorem runs_recordRequest (hh : heldFor (s.stall i) 0x0208 = true) : Runs (.recordRequest i) s fun t =>
    t.out = s.out ++ [.recordRequest i] ∧ Unchanged s t [.time, .out, .stall i .settle]
    ∧ t.time = maxU s.time ((s.stall i).seq.verdictTick + 16000
        + BitVec.ofNat 64 (10000 * (match (s.stall i).settle.asked with | some n => n + 1 | none => 0))) := by
  let n := match (s.stall i).settle.asked with | some n => n + 1 | none => 0
  obtain ⟨b, hb⟩ : ∃ b, (s.stall i).seq.verdictTick + 16000 + BitVec.ofNat 64 (10000 * n) = b := ⟨_, rfl⟩
  have taken : execRecordRequest i s = .next (((s.atTime b).modSettle i fun x => { x with asked := some n }).send (.recordRequest i)) := by
    simp only [execRecordRequest, hh, ← hb]
    rfl
  refine runs_of_exec taken ⟨rfl, ?_, ?_⟩
  · exact unchanged_send _ (by simp) (unchanged_modSettle _ (by simp) (unchanged_atTime _ (by simp) (unchanged_refl s _)))
  · refine Eq.trans ?_ (congrArg (maxU s.time) hb.symm)
    simp

theorem runs_acceptRelay (hh : heldFor (s.stall i) 0x0208 = true) (hl : (s.stall i).march.lead = false) :
    Runs (.commandRelay i .accept) s fun t =>
      (t.stall i).march.state ≠ .held ∧ (t.stall i).seq.settles = true ∧ ∀ j, j ≠ i → t.stall j = s.stall j := by
  obtain ⟨held, late⟩ : (s.stall i).march.state = .held ∧ (s.stall i).seq.hold = 0x0208 := by simpa [heldFor] using hh
  have taken : execCommandRelay i .accept s = .next ((s.acceptHold i c).record { reason := 0x0209, stall := some i }) := by
    simp [execCommandRelay, hc, hl, held, late]
  obtain ⟨left, settles, -, -, others⟩ := acceptHold_facts s i c
  exact runs_of_exec taken ⟨by simpa using left, by simpa using settles, fun j hj => by simpa using others j hj⟩

/-! ### The lead's answer (R263) -/

omit hc in
theorem matchingCommand_accept {r : VerdictRecord} (o : Option (BitVec 64))
    (h : r.verdict.code = 1 ∨ r.verdict.code = 2 ∧ r.hostDecision = 1) : matchingCommand r o = some .accept := if_pos h

omit hc in
theorem matchingCommand_discard {r : VerdictRecord} (o : Option (BitVec 64))
    (h : r.verdict.code = 3 ∨ r.verdict.code = 4 ∨ r.verdict.code = 2 ∧ r.hostDecision = 2) : matchingCommand r o = some .discard := by
  obtain h | h | ⟨h, d⟩ := h <;> simp [matchingCommand, advances, vAllClear, vTally, vSaturated, vNonfinite, *]

omit hc in
theorem matchingCommand_start {r : VerdictRecord} (o : Option (BitVec 64))
    (h : r.verdict.code = 5 ∨ r.verdict.code = 6 ∨ r.verdict.code = 7 ∨ r.verdict.code = 8) :
    matchingCommand r o = some (.start o) := by
  obtain h | h | h | h := h <;>
    simp [matchingCommand, advances, repeats, vAllClear, vTally, vSaturated, vNonfinite, vShort, vFault, vOverrun, vSupply, h]

omit hc in
theorem runs_recordAnswer (m : Member) (r : VerdictRecord) (hl : (s.stall i).march.lead = true)
    (hr : (s.stall i).settle.record = some r) : Runs (.recordAnswer i m) s fun t =>
      Out.recordAnswer i m r ∈ t.out ∧ m ∈ (t.stall i).settle.requests
      ∧ (r.verdict.code = 1 ∨ r.verdict.code = 2 ∧ r.hostDecision = 1 → Out.relayed i .accept ∈ t.out)
      ∧ (r.verdict.code = 3 ∨ r.verdict.code = 4 ∨ r.verdict.code = 2 ∧ r.hostDecision = 2 → Out.relayed i .discard ∈ t.out)
      ∧ (r.verdict.code = 5 ∨ r.verdict.code = 6 ∨ r.verdict.code = 7 ∨ r.verdict.code = 8 →
          Out.relayed i (.start (s.stall i).seq.repeatAt) ∈ t.out)
      ∧ Unchanged s t [.out, .stall i .settle] := by
  let answered := (s.modSettle i fun x => { x with
    requests := if x.requests.contains m then x.requests else x.requests ++ [m] }).send (.recordAnswer i m r)
  let o := (s.stall i).seq.repeatAt
  have asked : m ∈ (answered.stall i).settle.requests := by
    simp only [answered, State.send_stall, State.modSettle_settle]
    split
    · next known => exact List.contains_iff_mem.mp known
    · exact List.mem_append_right _ (List.mem_singleton_self m)
  have frame : Unchanged s answered [.out, .stall i .settle] :=
    unchanged_send _ (by simp) (unchanged_modSettle _ (by simp) (unchanged_refl s _))
  have answer : Out.recordAnswer i m r ∈ answered.out := mem_send_out _ _
  -- the command that matches the record leaves with the answer, and after a DISCARD possibly a START
  obtain ⟨os, taken, sent⟩ : ∃ os, execRecordAnswer i m s = .next { answered with out := answered.out ++ os }
      ∧ ∀ cmd, matchingCommand r o = some cmd → Out.relayed i cmd ∈ os := by
    unfold execRecordAnswer
    simp only [hr, hl]
    cases hm : matchingCommand r o with
    | none => exact ⟨[], by simp [answered, State.send], by simp⟩
    | some cmd =>
      by_cases next : cmd = .discard ∧ (s.stall i).seq.continuous ∧ (s.stall i).seq.repeatAt.isSome
      · exact ⟨[.relayed i cmd, .relayed i (.start o)], by simp [next, answered, State.send, o], by simp⟩
      · exact ⟨[.relayed i cmd], by simp [next, answered, State.send], by simp⟩
  refine runs_of_exec taken ⟨List.mem_append_left _ answer, asked, fun h => ?_, fun h => ?_, fun h => ?_,
    unchanged_set_out _ (by simp) frame⟩
  · exact List.mem_append_right _ (sent _ (matchingCommand_accept o h))
  · exact List.mem_append_right _ (sent _ (matchingCommand_discard o h))
  · exact List.mem_append_right _ (sent _ (matchingCommand_start o h))

/-! ### SETTLED words (R262) -/

omit hc in
theorem runs_settled (m : Member) (step : BitVec 40) (hl : (s.stall i).march.lead = true ∨ (s.stall i).march.deputy = true)
    (free : isFenced (s.stall i) m = false) (new : (s.stall i).settle.settledWords.contains m = false)
    (hf : (s.stall i).seq.finished = false) :
    Runs (.settled i m (match (s.stall i).settle.record with | some r => r.march | none => (s.stall i).march.num) step) s fun t =>
      (t.stall i).settle = { (s.stall i).settle with settledWords := (s.stall i).settle.settledWords ++ [m] }
      ∧ Unchanged s t [.stall i .settle] := by
  let kept := s.modSettle i fun x => { x with settledWords := x.settledWords ++ [m] }
  have leads : ((s.stall i).march.lead || (s.stall i).march.deputy) = true := by
    obtain h | h := hl <;> simp [h]
  have unfinished : (kept.stall i).seq.finished = false := by simpa [kept] using hf
  have taken (num : BitVec 40) (hn : num = match (s.stall i).settle.record with | some r => r.march | none => (s.stall i).march.num) :
      execSettled i m num step s = .next kept := by
    rw [← closeMarch_unfinished (i := i) unfinished]
    have new : m ∉ (s.stall i).settle.settledWords := by simpa using new
    cases hr : (s.stall i).settle.record <;> rw [hr] at hn <;> simp [execSettled, hr, leads, free, new, hn, kept]
  exact runs_of_exec (taken _ rfl) ⟨by simp [kept], unchanged_modSettle _ (by simp) (unchanged_refl s _)⟩

end member

/-! ### Halts (R61, R68) -/

section halts
variable (hs : (s.stall i).march.state = .legs)
include hs

theorem runs_haltFlit (m : Member) (code : BitVec 4) (reason : Reason) (hl : (s.stall i).march.lead = true)
    (free : isFenced (s.stall i) m = false) (hh : code = 6 ∨ code = 7 ∨ code = 8 ∨ code = 9 ∨ code = 11) :
    Runs (.haltFlit i m code reason) s fun t =>
      ((t.stall i).seq.haltKnown = true ∧ (t.stall i).seq.stopped = (s.stall i).seq.stopped)
      ∧ (t.stall i).seq.causes = (s.stall i).seq.causes
      ∧ t.out = (if (s.stall i).seq.haltKnown then s.out else s.out ++ [.haltBroadcast i])
      ∧ Unchanged s t [.stall i .seq, .out] := by
  let noted := (s.learnHalt i).modSeq i fun q => { q with
    missing := if (reason = 0x020C ∨ reason = 0x0206) ∧ !q.missing.any (fun e => e.1 == m) then q.missing ++ [(m, reason)]
      else q.missing }
  have halting : halts code = true := by obtain rfl | rfl | rfl | rfl | rfl := hh <;> rfl
  have frame : Unchanged s noted [.stall i .seq, .out] :=
    unchanged_modSeq _ (by simp) (unchanged_modSeq _ (by simp) (unchanged_refl s _))
  have taken : execHaltFlit i m code reason s
      = .next (if (s.stall i).seq.haltKnown then noted else noted.send (.haltBroadcast i)) := by
    simp only [execHaltFlit, hl, hs, halting, free]
    rfl
  refine runs_of_exec taken ?_
  split
  · exact ⟨by simp [noted, State.learnHalt], by simp [noted, State.learnHalt], by simp [noted, State.learnHalt], frame⟩
  · exact ⟨by simp [noted, State.learnHalt], by simp [noted, State.learnHalt], by simp [noted, State.learnHalt, State.send],
      unchanged_send _ (by simp) frame⟩

theorem runs_haltBroadcast : Runs (.haltBroadcast i) s fun t =>
    ((t.stall i).seq.haltKnown = true ∧ (t.stall i).seq.stopped = (s.stall i).seq.stopped)
    ∧ (t.stall i).seq.causes = (s.stall i).seq.causes ∧ Unchanged s t [.stall i .seq] := by
  have taken : execHaltBroadcast i s = .next (s.learnHalt i) := by simp [execHaltBroadcast, hs]
  exact runs_of_exec taken ⟨by simp [State.learnHalt], by simp [State.learnHalt],
    unchanged_modSeq _ (by simp) (unchanged_refl s _)⟩

/-- STOP_NOW during the legs of a march halts it with HALT_HOST (R68). -/
theorem runs_stopNow {r : Requester} (ha : Allowed s r (marchOff i 0)) (hl : (s.stall i).march.lead = true) :
    Runs (.stopNow r i) s fun t =>
      (t.stall i).seq.haltKnown = true ∧ (t.stall i).seq.stopped = true
      ∧ (∀ k < 13, bit (t.stall i).seq.causes k = (bit (s.stall i).seq.causes k || k == 9))
      ∧ Out.halt i 9 0x0204 ∈ t.out ∧ Unchanged s t [.stall i .seq, .out] := by
  have taken : exec (.stopNow r i) s = .next ((s.causeNow i vHost 0x0204).send (.relayed i .stopNow)) := by
    refine (exec_stopNow ha).trans (congrArg _ ((writeMarchCmd_lead 4 hl).trans ?_))
    have : cmdStopNow i s = (s.causeNow i vHost 0x0204).send (.relayed i .stopNow) := by
      rw [← cause_legs _ _ hs]
      simp [cmdStopNow, hs]
    exact this
  obtain ⟨seq, halt⟩ := causeNow_halts s i vHost 0x0204 hs rfl
  refine runs_of_exec taken ⟨?_, ?_, fun k hk => ?_, List.mem_append_left _ halt, ?_⟩
  · rw [State.send_stall, seq]
  · rw [State.send_stall, seq]
  · simp only [State.send_stall, seq, withCause]
    rw [bit_setBit]
    simp [vHost]
  · exact unchanged_send _ (by simp) (unchanged_causeNow _ _ (by simp) (by simp) (unchanged_refl s _))

end halts

/-- Settles O31, one message at a time. -/
theorem membersActOnTheVerdict : Obligations.MembersActOnTheVerdict := by
  refine ⟨fun s i c hc => ⟨fun v hs hf => ⟨exec_caravanVerdict_fenced hc v, runs_caravanVerdict hc hs hf v⟩,
      runs_decisionLost, fun hh => ⟨runs_recordRequest hh, runs_acceptRelay hc hh⟩, runs_recordAnswer, runs_settled⟩,
    fun s i hs => ⟨runs_haltFlit hs, runs_haltBroadcast hs, fun r ha => runs_stopNow hs ha⟩⟩

end Sys2Proof.Machine
end

section
/-! PROOFS. The commands that a lead relays to its members (R68, R241, R242, R358, R461). -/

namespace Sys2Proof.Machine

open Sys2Proof.Safety

variable {s t : State} {l : List Part} {i : Stall} {c : Charter}

/-! ### Fences (R241, R242, R263, R460) -/

theorem unchanged_offerReady (hl : ∀ q ∈ refitParts i, q ∈ l) (hr : Part.log ∈ l) (hv : Part.stall i .service ∈ l)
    (h : Unchanged s t l) : Unchanged s (t.offerReady i) l := by
  have ho : Part.out ∈ l := hl _ (by simp [refitParts])
  have offered : Unchanged s ((t.abandonCheckpoint i).refit i) l := unchanged_refit hl (unchanged_abandonCheckpoint ho hr hv h)
  unfold State.offerReady
  extract_lets s1
  split
  · exact offered
  split
  · exact unchanged_announceRepeat ho (hl _ (by simp [refitParts])) (hl _ (by simp [refitParts]))
      (unchanged_modSeq _ (hl _ (by simp [refitParts])) offered)
  · exact unchanged_send _ ho offered

theorem mem_offerReady (hl : (s.stall i).march.lead = false) (hb : s.power.brace = false) (ht : s.power.thermalHalt = false) :
    Out.ready i ∈ (s.offerReady i).out := by
  have : s.offerReady i = ((s.abandonCheckpoint i).refit i).send (.ready i) := by simp [State.offerReady, hl, hb, ht]
  rw [this]
  exact mem_send_out _ _

theorem unchanged_standbySettled (ho : Part.out ∈ l) (hx : Part.stall i .settle ∈ l) (h : Unchanged s t l) :
    Unchanged s (t.standbySettled i) l := by
  unfold State.standbySettled
  extract_lets t0
  split
  · split
    · exact h
    · exact unchanged_send _ ho (unchanged_modSettle _ hx h)
  · exact h

/-- A module that is no standby sends no other member's SETTLED word. -/
theorem standbySettled_member (h : (s.stall i).march.member.toNat < 64) : s.standbySettled i = s := by
  unfold State.standbySettled
  extract_lets t0
  split
  · simp [t0, h]
  · rfl

/-- A standby in a member's place sends that member's SETTLED word (R263). -/
theorem standbySettled_takes {x : BitVec 40 × BitVec 40} (hx : mirrorSettled (s.stall i) = some x)
    (hm : 64 ≤ (s.stall i).march.member.toNat) (stands : idleStandby (s.stall i) = false)
    (unsettled : (s.stall i).settle.settled = false) :
    s.standbySettled i = (s.modSettle i fun y => { y with settled := true }).send (.settled i x.1 x.2) := by
  have : ¬(s.stall i).march.member.toNat < 64 := Nat.not_lt.mpr hm
  simp [State.standbySettled, hx, this, stands, unsettled]

section fence
variable (s) (i) (m sb : Member)

theorem takeFence_ledger : ((s.takeFence i m sb).stall i).ledger = { (s.stall i).ledger with
    fences := setBit (s.stall i).ledger.fences m.toNat
    subst := ((s.stall i).ledger.subst.filter fun e => e.1 != m) ++ [(m, sb)] } := by simp [State.takeFence]

/-- A standby that a fence puts in a member's place is idle no more. -/
theorem takeFence_stands (h : (s.stall i).march.member = sb) : idleStandby ((s.takeFence i m sb).stall i) = false := by
  simp [idleStandby, State.takeFence, h]

theorem mirrorSettled_takeFence : mirrorSettled ((s.takeFence i m sb).stall i) = mirrorSettled (s.stall i) := by
  simp [mirrorSettled, State.takeFence]

theorem obeyFence_eq : s.obeyFence i m sb =
    if (s.stall i).march.state = .verdict ∨ (s.stall i).march.state = .waitRepeat then (s.takeFence i m sb).offerReady i
    else (s.takeFence i m sb).standbySettled i := by
  unfold State.obeyFence
  cases (s.stall i).march.state <;> rfl

end fence

theorem runs_fenceRelay {m sb : Member} (taken : execCommandRelay i (.fence c.caravanIx m sb) s = .next (s.obeyFence i m sb))
    (hl : (s.stall i).march.lead = false) :
    Runs (.commandRelay i (.fence c.caravanIx m sb)) s fun t =>
      (t.stall i).ledger = { (s.stall i).ledger with
        fences := setBit (s.stall i).ledger.fences m.toNat
        subst := ((s.stall i).ledger.subst.filter fun e => e.1 != m) ++ [(m, sb)] }
      ∧ ((s.stall i).march.state = .verdict ∨ (s.stall i).march.state = .waitRepeat →
          s.power.brace = false → s.power.thermalHalt = false → Out.ready i ∈ t.out)
      ∧ ((s.stall i).march.state ≠ .verdict → (s.stall i).march.state ≠ .waitRepeat → (s.stall i).march.member.toNat < 64 →
          Unchanged s t [.stall i .ledger])
      ∧ (∀ x, (s.stall i).march.state = .settle → 64 ≤ (s.stall i).march.member.toNat → (s.stall i).march.member = sb →
          (s.stall i).settle.settled = false → mirrorSettled (s.stall i) = some x →
          Out.settled i x.1 x.2 ∈ t.out ∧ (t.stall i).settle.settled = true)
      ∧ Unchanged s t ([.out, .log] ++ ([.march, .seq, .ledger, .settle, .charter, .service] : List StallPart).map (Part.stall i)) := by
  let fenced := s.takeFence i m sb
  have rest : Unchanged fenced (s.obeyFence i m sb)
      ([.out, .log] ++ ([.march, .seq, .settle, .charter, .service] : List StallPart).map (Part.stall i)) := by
    rw [obeyFence_eq]
    split
    · exact unchanged_offerReady (by simp [refitParts]) (by simp) (by simp) (unchanged_refl _ _)
    · exact unchanged_standbySettled (by simp) (by simp) (unchanged_refl _ _)
  refine runs_of_exec taken ⟨?_, fun waits hb ht => ?_, fun nv nw low => ?_, fun x settles high stands unsettled mirror => ?_, ?_⟩
  · exact (rest (.stall i .ledger) (by simp)).trans (takeFence_ledger s i m sb)
  · rw [obeyFence_eq, if_pos waits]
    exact mem_offerReady (by simpa [State.takeFence] using hl) hb ht
  · rw [obeyFence_eq, if_neg (not_or.mpr ⟨nv, nw⟩), standbySettled_member (by simpa [State.takeFence] using low)]
    exact unchanged_modLedger _ (by simp) (unchanged_refl s _)
  · rw [obeyFence_eq, if_neg (by simp [settles]), standbySettled_takes ((mirrorSettled_takeFence s i m sb).trans mirror)
      (by simpa [State.takeFence] using high) (takeFence_stands s i m sb stands) (by simpa [State.takeFence] using unsettled)]
    exact ⟨mem_send_out _ _, by simp⟩
  · refine Unchanged.trans ?_ (Unchanged.mono rest (by simp))
    exact unchanged_modLedger _ (by simp) (unchanged_refl s _)

/-! ### Origins and swaps -/

section member
variable (hc : (s.stall i).charter.active = some c) (hl : (s.stall i).march.lead = false)
include hc hl

theorem runs_armRelay (o : BitVec 64) (hs : (s.stall i).march.state = .ready) :
    ∀ e ∈ [(RelayedCommand.start (some o), true), (.single o, false)], Runs (.commandRelay i e.1) s fun t =>
      (t.stall i).march = { (s.stall i).march with state := .armed, origin := o, sinceStart := 0 }
      ∧ (t.stall i).seq = { (s.stall i).seq with continuous := e.2, repeatAt := some o, hold := 0 }
      ∧ Unchanged s t ([.stall i .march, .stall i .seq] ++ if s.power.state = 3 then [.power] else []) := by
  have facts (on : Bool) :
      ((s.armAt i o on).stall i).march = { (s.stall i).march with state := .armed, origin := o, sinceStart := 0 }
      ∧ ((s.armAt i o on).stall i).seq = { (s.stall i).seq with continuous := on, repeatAt := some o, hold := 0 }
      ∧ Unchanged s (s.armAt i o on) ([.stall i .march, .stall i .seq] ++ if s.power.state = 3 then [.power] else []) :=
    ⟨by simp [State.armAt], by simp [State.armAt],
      unchanged_armAt o on (fun idle => by simp [idle]) (by simp) (by simp) (unchanged_refl s _)⟩
  have start : execCommandRelay i (.start (some o)) s = .next (s.armAt i o true) := by simp [execCommandRelay, hc, hl, hs]
  have single : execCommandRelay i (.single o) s = .next (s.armAt i o false) := by simp [execCommandRelay, hc, hl, hs]
  simp only [List.mem_cons, List.not_mem_nil, or_false]
  rintro e (rfl | rfl)
  · exact runs_of_exec start (facts true)
  · exact runs_of_exec single (facts false)

theorem runs_repeatRelay (o : BitVec 64) (hs : (s.stall i).march.state = .held) (hd : (s.stall i).march.hostDecision ≠ 2) :
    Runs (.commandRelay i (.start (some o))) s fun t =>
      (t.stall i).march.state = .waitRepeat ∧ (t.stall i).march.origin = o ∧ (t.stall i).seq.repeatAt = some o
      ∧ (t.stall i).march.repeats = satAdd (s.stall i).march.repeats 1 ∧ (t.stall i).march.num = (s.stall i).march.num
      ∧ (t.stall i).seq.continuous = true ∧ Unchanged s t [.stall i .march, .stall i .seq, .stall i .tally] := by
  let running := (s.modMarch i fun m => { m with
      sinceStart := if (s.stall i).seq.hold == 0x0208 && repeats (s.stall i).march.verdict.code then m.sinceStart else 0 }).modSeq i
        fun q => { q with continuous := true }
  have waits : ((running.waitRepeat i).stall i).march.state = .waitRepeat := by simp [State.waitRepeat]
  have taken : execCommandRelay i (.start (some o)) s = .next ((((running.waitRepeat i).modMarch i fun m =>
      { m with origin := o }).modSeq i fun q => { q with repeatAt := some o })) := by
    have origin : (running.waitRepeat i).takeOrigin i o = (((running.waitRepeat i).modMarch i fun m =>
        { m with origin := o }).modSeq i fun q => { q with repeatAt := some o }) := by
      simp [State.takeOrigin, waits]
    rw [← origin]
    simp only [execCommandRelay, hc, hl, hs, hd]
    rfl
  refine runs_of_exec taken ⟨?_, ?_, ?_, ?_, ?_, ?_, ?_⟩
  · simpa using waits
  · simp
  · simp
  · simp [State.waitRepeat, running]
  · simp [State.waitRepeat, running]
  · simp [State.waitRepeat, running]
  · exact unchanged_modSeq _ (by simp) (unchanged_modMarch _ (by simp) (unchanged_waitRepeat (by simp) (by simp) (by simp)
      (unchanged_modSeq _ (by simp) (unchanged_modMarch _ (by simp) (unchanged_refl s _)))))

theorem runs_resumeRelay (o : BitVec 64) (hs : (s.stall i).march.state = .held) (hd : (s.stall i).march.hostDecision = 2) :
    Runs (.commandRelay i (.start (some o))) s fun t =>
      (t.stall i).seq = { (s.stall i).seq with continuous := true, repeatAt := some o } ∧ Unchanged s t [.stall i .seq] := by
  have taken : execCommandRelay i (.start (some o)) s = .next (s.modSeq i fun q =>
      { q with continuous := true, repeatAt := some o }) := by simp [execCommandRelay, hc, hl, hs, hd]
  exact runs_of_exec taken ⟨by simp, unchanged_modSeq _ (by simp) (unchanged_refl s _)⟩

omit hc hl in
theorem takeOrigin_waiting {s : State} (o : BitVec 64)
    (hs : (s.stall i).march.state = .armed ∨ (s.stall i).march.state = .waitRepeat) : s.takeOrigin i o =
      (s.modMarch i fun m => { m with origin := o }).modSeq i fun q => { q with repeatAt := some o } := by
  obtain hs | hs := hs <;> simp [State.takeOrigin, hs]

theorem runs_originRelay (o : BitVec 64) (hs : (s.stall i).march.state = .armed ∨ (s.stall i).march.state = .waitRepeat) :
    Runs (.commandRelay i (.origin o)) s fun t =>
      (t.stall i).march = { (s.stall i).march with origin := o } ∧ (t.stall i).seq = { (s.stall i).seq with repeatAt := some o }
      ∧ Unchanged s t [.stall i .march, .stall i .seq] := by
  have taken : execCommandRelay i (.origin o) s = .next ((s.modMarch i fun m => { m with origin := o }).modSeq i fun q =>
      { q with repeatAt := some o }) := by
    rw [← takeOrigin_waiting o hs]
    simp [execCommandRelay, hc, hl]
  exact runs_of_exec taken ⟨by simp, by simp, unchanged_modSeq _ (by simp) (unchanged_modMarch _ (by simp) (unchanged_refl s _))⟩

theorem runs_swapRelay (o : BitVec 64) {p : Charter} (hp : (s.stall i).charter.pending = some p) :
    ((s.stall i).march.state = .ready ∨ (s.stall i).march.state = .held → Runs (.commandRelay i (.swap o)) s fun t =>
        (t.stall i).charter.active = some p ∧ (t.stall i).charter.pending = none ∧ (t.stall i).march.state = .ready
        ∧ (t.stall i).settle.coef = p.groups ∧ t.mem = s.mem)
    ∧ ((s.stall i).march.state = .armed → Runs (.commandRelay i (.swap o)) s fun t =>
        (t.stall i).charter.swapAt = some o ∧ (t.stall i).charter.active = some c ∧ (t.stall i).march.origin = o
        ∧ Unchanged s t [.stall i .march, .stall i .seq, .stall i .charter]) := by
  refine ⟨fun hs => ?_, fun hs => ?_⟩
  · have taken : execCommandRelay i (.swap o) s = .next ((s.swapIn i).modMarch i fun m => { m with state := .ready }) := by
      obtain hs | hs := hs <;> simp [execCommandRelay, hc, hl, hs]
    have mem : (s.swapIn i).mem = s.mem := unchanged_swapIn (fun _ hq => hq) (unchanged_refl s (swapParts i)) .mem
      (by simp [swapParts, everyCore, everyPort])
    exact runs_of_exec taken ⟨by simp [swapIn_stall s i i hp], by simp [swapIn_stall s i i hp], by simp,
      by simp [swapIn_stall s i i hp], mem⟩
  · let noted := s.modCharter i fun p => { p with swapAt := some o }
    have armed : (noted.stall i).march.state = .armed := by simpa [noted] using hs
    have taken : execCommandRelay i (.swap o) s = .next ((noted.modMarch i fun m => { m with origin := o }).modSeq i fun q =>
        { q with repeatAt := some o }) := by
      rw [← takeOrigin_waiting o (.inl armed)]
      simp [execCommandRelay, hc, hl, hs, noted]
    exact runs_of_exec taken ⟨by simp [noted], by simp [noted, hc], by simp,
      unchanged_modSeq _ (by simp) (unchanged_modMarch _ (by simp) (unchanged_modCharter _ (by simp) (unchanged_refl s _)))⟩

/-! ### The other commands -/

theorem runs_stopRelay : Runs (.commandRelay i .stop) s fun t =>
    (t.stall i).seq = { (s.stall i).seq with continuous := false } ∧ Unchanged s t [.stall i .seq] := by
  have taken : execCommandRelay i .stop s = .next (s.stopRunning i) := by simp [execCommandRelay, hc, hl]
  exact runs_of_exec taken ⟨by simp [State.stopRunning], unchanged_modSeq _ (by simp) (unchanged_refl s _)⟩

theorem runs_stopNowRelay (hs : (s.stall i).march.state = .legs) : Runs (.commandRelay i .stopNow) s fun t =>
    (t.stall i).seq = { (s.stall i).seq with haltKnown := true } ∧ Unchanged s t [.stall i .seq] := by
  have taken : execCommandRelay i .stopNow s = .next (s.learnHalt i) := by simp [execCommandRelay, hc, hl, hs]
  exact runs_of_exec taken ⟨by simp [State.learnHalt], unchanged_modSeq _ (by simp) (unchanged_refl s _)⟩

theorem runs_discardRelay (hs : (s.stall i).march.state = .held) (hh : (s.stall i).seq.hold = 0)
    (hv : (s.stall i).march.verdict.code = 10) : Runs (.commandRelay i .discard) s fun t =>
      (t.stall i).march.state = .ready ∧ (t.stall i).march.num = (s.stall i).march.num
      ∧ Unchanged s t [.stall i .march, .stall i .seq] := by
  have taken : execCommandRelay i .discard s = .next (s.discardHold i) := by
    simp [execCommandRelay, hc, hl, hs, hh, hv, vCounter]
  refine runs_of_exec taken ?_
  rw [discardHold_counter hv]
  exact ⟨by simp, by simp, unchanged_modSeq _ (by simp) (unchanged_modMarch _ (by simp) (unchanged_refl s _))⟩

theorem runs_liftRelay (f : BitVec 68) : Runs (.commandRelay i (.lift f)) s fun t =>
    (t.stall i).ledger = { (s.stall i).ledger with lifts := (s.stall i).ledger.lifts ||| (f &&& (s.stall i).ledger.fences) }
    ∧ Unchanged s t [.stall i .ledger] := by
  have taken : execCommandRelay i (.lift f) s = .next (s.modLedger i fun l => { l with lifts := l.lifts ||| (f &&& l.fences) }) := by
    simp [execCommandRelay, hc, hl]
  exact runs_of_exec taken ⟨by simp, unchanged_modLedger _ (by simp) (unchanged_refl s _)⟩

theorem runs_periodRelay (p : BitVec 16) : Runs (.commandRelay i (.period p)) s fun t =>
    (t.stall i).service = { (s.stall i).service with period := p } ∧ Unchanged s t [.stall i .service] := by
  have taken : execCommandRelay i (.period p) s = .next (s.modService i fun v => { v with period := p }) := by
    simp [execCommandRelay, hc, hl]
  exact runs_of_exec taken ⟨by simp, unchanged_modService _ (by simp) (unchanged_refl s _)⟩

/-- A fence of another caravan concerns this one's members nothing (R243). -/
theorem exec_fenceRelay_other {car : BitVec 6} (m sb : Member) (h : car ≠ c.caravanIx) :
    exec (.commandRelay i (.fence car m sb)) s = .next s := by
  have : execCommandRelay i (.fence car m sb) s = .next s := by simp [execCommandRelay, hc, hl, h]
  exact this

theorem exec_fenceRelay_own (m sb : Member) :
    execCommandRelay i (.fence c.caravanIx m sb) s = .next (s.obeyFence i m sb) := by
  simp [execCommandRelay, hc, hl]

end member

/-- Settles O33, one relayed command at a time. -/
theorem relayedCommandsAct : Obligations.RelayedCommandsAct := by
  intro s i c hc hl
  refine ⟨fun o => ⟨runs_armRelay hc hl o, runs_repeatRelay hc hl o, runs_resumeRelay hc hl o, runs_originRelay hc hl o,
      fun p hp => runs_swapRelay hc hl o hp⟩,
    runs_stopRelay hc hl, runs_stopNowRelay hc hl, runs_discardRelay hc hl, runs_liftRelay hc hl, fun car m sb => ⟨?_, ?_⟩,
    runs_periodRelay hc hl⟩
  · exact exec_fenceRelay_other hc hl m sb
  · rintro rfl
    exact runs_fenceRelay (exec_fenceRelay_own hc hl m sb) hl

end Sys2Proof.Machine
end

section
/-! PROOFS. Work that completes, reports of late work, and a SETTLED word that does not come (R57, R59, R262, R263). -/

namespace Sys2Proof.Machine

open Sys2Proof.Safety

variable {s t : State} {l : List Part} {i : Stall} {c : Charter}

/-! ### Counted bytes leave the memory (R294, R304) -/

/-- What every step of a loop keeps, the loop keeps. -/
theorem forEach_keeps {α β : Type} (xs : List α) (f : State → α → State) (v : State → β) (hf : ∀ u x, v (f u x) = v u) (s : State) :
    v (forEach xs s f) = v s := by
  unfold forEach
  induction xs generalizing s with
  | nil => rfl
  | cons x xs ih => exact (ih (f s x)).trans (hf s x)

section mem
variable (s) (i)

theorem countPlace_mem (p : Place) (n : Nat) : (s.countPlace p n).mem = s.mem := by
  unfold State.countPlace
  split <;> rfl

theorem countWrite_mem (p : Place) (n : Nat) : (s.countWrite p n).mem = s.mem := by
  unfold State.countWrite
  split
  · split
    · exact countPlace_mem s _ _
    · rfl
  · exact countPlace_mem s _ _

theorem countBytes_mem (va n : Nat) : (s.countBytes i va n).mem = s.mem :=
  forEach_keeps _ _ State.mem (fun u _ => countWrite_mem u _ _) s

theorem countRead_mem (va n : Nat) : (s.countRead i va n).mem = s.mem :=
  forEach_keeps _ _ State.mem (fun u _ => countPlace_mem u _ _) s

end mem

theorem countEntry_mem (s : State) (i : Stall) (c : Charter) (e : EntryRef) : (s.countEntry i c e).mem = s.mem := by
  unfold State.countEntry
  split
  · rfl
  · rfl
  · rfl
  · exact (forEach_keeps _ _ State.mem (fun u _ => countBytes_mem u i _ _) _).trans
      (forEach_keeps _ _ State.mem (fun u _ => countRead_mem u i _ _) s)

theorem unchanged_countEntry (e : EntryRef) (hl : ∀ q ∈ tierParts, q ∈ l) (h : Unchanged s t l) :
    Unchanged s (t.countEntry i c e) l := by
  unfold State.countEntry
  split
  · exact h
  · exact h
  · exact h
  · exact unchanged_forEach _ _ (fun _ _ hu => unchanged_countBytes _ _ _ hl hu)
      (unchanged_forEach _ _ (fun _ _ hu => unchanged_countRead _ _ _ hl hu) h)

@[simp] theorem time_not_mem_tierParts : Part.time ∉ tierParts := by simp [tierParts]
@[simp] theorem engine_not_mem_tierParts (e : EngineId) : Part.engine e ∉ tierParts := by simp [tierParts]
@[simp] theorem out_not_mem_tierParts : Part.out ∉ tierParts := by simp [tierParts]

section counted
variable (s) (i) (c) (e : EntryRef)

theorem countEntry_frame : Unchanged s (s.countEntry i c e) tierParts := unchanged_countEntry e (fun _ h => h) (unchanged_refl s _)

@[simp] theorem countEntry_time : (s.countEntry i c e).time = s.time := countEntry_frame s i c e .time (by simp)
@[simp] theorem countEntry_out : (s.countEntry i c e).out = s.out := countEntry_frame s i c e .out (by simp)
@[simp] theorem countEntry_engine (n : EngineId) : (s.countEntry i c e).engine n = s.engine n :=
  countEntry_frame s i c e (.engine n) (by simp)
@[simp] theorem countEntry_stall (j : Stall) : (s.countEntry i c e).stall j = s.stall j :=
  Unchanged.stall_eq (countEntry_frame s i c e) (by simp)

end counted

/-! ### An entry completes (R57) -/

/-- An engine that has completed its entry is idle, or goes on with its batch (R200). -/
def idled (k : CopyEngine) : CopyEngine :=
  match k.batch with
  | some b => { k with state := 3, source := true, index := BitVec.ofNat 16 (b.first.toNat % 2 ^ k.log2.toNat) }
  | none => { k with state := 1 }

theorem idled_state (k : CopyEngine) : (idled k).state = if k.batch.isSome then 3 else 1 := by
  unfold idled
  cases h : k.batch <;> simp

theorem copyIdle_eq (s : State) (e : EngineId) : s.copyIdle e = s.modEngine e idled := rfl

/-- The parts that the engine of an entry occupies. -/
def engineOf : EntryRef → List Part
  | .copy n _ => [.engine n]
  | _ => []

/-- The engine of an entry, idle again. -/
def State.idleEngine (s : State) : EntryRef → State
  | .copy n _ => s.copyIdle n
  | _ => s

theorem entryDone_eq (s : State) (i : Stall) (c : Charter) (e : EntryRef) : s.entryDone i c e =
    ((s.countEntry i c e).idleEngine e).modSeq i fun q =>
      { q with done := q.done ++ [⟨e, ((s.countEntry i c e).idleEngine e).time⟩] } := by
  cases e <;> rfl

section idle
variable (s) (e : EntryRef)

@[simp] theorem idleEngine_time : (s.idleEngine e).time = s.time := by cases e <;> rfl
@[simp] theorem idleEngine_mem : (s.idleEngine e).mem = s.mem := by cases e <;> rfl
@[simp] theorem idleEngine_out : (s.idleEngine e).out = s.out := by cases e <;> rfl
@[simp] theorem idleEngine_stall (j : Stall) : (s.idleEngine e).stall j = s.stall j := by cases e <;> rfl

end idle

theorem unchanged_idleEngine (e : EntryRef) (hl : ∀ q ∈ engineOf e, q ∈ l) (h : Unchanged s t l) : Unchanged s (t.idleEngine e) l := by
  cases e with
  | copy n k => exact unchanged_modEngine _ (hl _ (by simp [engineOf])) h
  | _ => exact h

theorem unchanged_entryDone (e : EntryRef) (hl : ∀ q ∈ tierParts, q ∈ l) (he : ∀ q ∈ engineOf e, q ∈ l)
    (hq : Part.stall i .seq ∈ l) (h : Unchanged s t l) : Unchanged s (t.entryDone i c e) l := by
  rw [entryDone_eq]
  exact unchanged_modSeq _ hq (unchanged_idleEngine e he (unchanged_countEntry e hl h))

section done
variable (s) (i) (c) (e : EntryRef)

@[simp] theorem entryDone_time : (s.entryDone i c e).time = s.time := by simp [entryDone_eq]

@[simp] theorem entryDone_mem : (s.entryDone i c e).mem = s.mem := by simp [entryDone_eq, countEntry_mem]

@[simp] theorem entryDone_out : (s.entryDone i c e).out = s.out := by simp [entryDone_eq]

@[simp] theorem entryDone_seq : ((s.entryDone i c e).stall i).seq =
    { (s.stall i).seq with done := (s.stall i).seq.done ++ [⟨e, s.time⟩] } := by simp [entryDone_eq]

@[simp] theorem entryDone_march : ((s.entryDone i c e).stall i).march = (s.stall i).march := by simp [entryDone_eq]

@[simp] theorem entryDone_settle : ((s.entryDone i c e).stall i).settle = (s.stall i).settle := by simp [entryDone_eq]

end done

section complete
variable (hc : (s.stall i).charter.active = some c)
include hc

/-- An entry of a leg up to the verdict tick completes in time, whatever the time is (R57). -/
theorem runs_entryComplete (e : EntryRef) (dt : BitVec 64) (hd : completable s i e = true) (hn : ∀ n, e ≠ .settle n)
    (hs : (s.stall i).march.state = .legs) (hk : ∀ x, c.sched e = some x → x.leg.toNat ≤ c.lastReduce) :
    Runs (.entryComplete i e dt) s fun t =>
      t.time = maxU s.time (s.time + dt) ∧ (t.stall i).seq = { (s.stall i).seq with done := (s.stall i).seq.done ++ [⟨e, t.time⟩] }
      ∧ (∀ n k, e = .copy n k → (t.engine n).state = (if (s.engine n).batch.isSome then 3 else 1)) ∧ t.mem = s.mem
      ∧ Unchanged s t ([.time, .stall i .seq] ++ tierParts ++ engineOf e) := by
  let done := (s.atTime (s.time + dt)).entryDone i c e
  have open_ (u : StallState) : endsSettle u c e = false := by
    cases e with
    | settle n => exact absurd rfl (hn n)
    | _ => rfl
  have taken : execEntryComplete i e dt s = .next done := by
    cases he : c.sched e with
    | none => simp [execEntryComplete, hc, hd, he, hs, open_, done]
    | some x =>
      have early : ¬c.lastReduce < x.leg.toNat := Nat.not_lt.mpr (hk x he)
      simp [execEntryComplete, hc, hd, he, hs, early, open_, done]
  refine runs_of_exec taken ⟨by simp [done], by simp [done], ?_, by simp [done], ?_⟩
  · rintro n k rfl
    have engine : done.engine n = idled (s.engine n) := by
      have : done.engine n = (((s.atTime (s.time + dt)).countEntry i c (.copy n k)).modEngine n idled).engine n := rfl
      rw [this]
      simp
    rw [engine, idled_state]
  · exact unchanged_entryDone e (fun q hq => by simp [hq]) (fun q hq => by simp [hq]) (by simp)
      (unchanged_atTime _ (by simp) (unchanged_refl s _))

end complete

/-! ### Late work (R59) -/

/-- A guard overrun is counted in the march and noted for its leg, once. -/
theorem guardOverrun_cases (s : State) (i : Stall) (c : Charter) (k : Nat) : s.guardOverrun i c k = s
    ∨ ∃ d, s.guardOverrun i c k = (s.modMarch i fun m => { m with
        guardOvr := satAdd m.guardOvr 1, guardMax := maxU m.guardMax d }).modSeq i fun q =>
          { q with overrunLegs := q.overrunLegs ++ [BitVec.ofNat 8 k] } := by
  unfold State.guardOverrun
  extract_lets t0
  split
  · exact .inl rfl
  · split
    · exact .inl rfl
    · exact .inr ⟨_, rfl⟩

/-- The last settlement entry of a march is complete, and SETTLED leaves (R262). -/
theorem sendSettled_member (hx : (s.stall i).settle.settled = false) (hl : (s.stall i).march.lead = false) : s.sendSettled i =
    (s.modSettle i fun x => { x with
      settled := true, state := 3
      settledWords := if (s.stall i).march.deputy then x.settledWords ++ [(s.stall i).march.member] else x.settledWords }).send
        (.settled i (s.stall i).march.num (s.stall i).settle.step) := by
  simp [State.sendSettled, hx, hl]

theorem finishMarch_unended (he : (s.stall i).seq.ended = false) : s.finishMarch i = s := by
  cases hc : (s.stall i).charter.active with
  | none => simp [State.finishMarch, hc]
  | some c => simp [finishMarch_eq s i hc, he]

/-- What a late entry leaves of a march: its state and number, and what its sequencer knows to be done. -/
structure LateOnly (i : Stall) (s t : State) : Prop where
  frame : Unchanged s t [.out, .stall i .march, .stall i .seq]
  march : ∃ a b, (t.stall i).march = { (s.stall i).march with guardOvr := a, guardMax := b }
  seq : ∃ o d, (t.stall i).seq = { (s.stall i).seq with overrunLegs := o, late := d }

theorem lateOnly_refl (s : State) (i : Stall) : LateOnly i s s := ⟨unchanged_refl s _, ⟨_, _, rfl⟩, ⟨_, _, rfl⟩⟩

theorem lateOnly_guardOverrun (s : State) (i : Stall) (c : Charter) (k : Nat) : LateOnly i s (s.guardOverrun i c k) := by
  obtain e | ⟨d, e⟩ := guardOverrun_cases s i c k <;> rw [e]
  · exact lateOnly_refl s i
  · exact ⟨unchanged_modSeq _ (by simp) (unchanged_modMarch _ (by simp) (unchanged_refl s _)), ⟨_, _, by simp; exact ⟨rfl, rfl⟩⟩,
      ⟨_, (s.stall i).seq.late, by simp; rfl⟩⟩

theorem lateOnly_lateWork (s : State) (i : Stall) (c : Charter) (k : Nat) : LateOnly i s (s.lateWork i c k) := by
  have counted := lateOnly_guardOverrun s i c k
  obtain ⟨o, d, seq⟩ := counted.seq
  unfold State.lateWork
  extract_lets s1
  split
  · exact ⟨unchanged_modSeq _ (by simp) counted.frame, by simpa [s1] using counted.march, ⟨o, maxU d s.time, by simp [s1, seq]⟩⟩
  · exact ⟨unchanged_send _ (by simp) counted.frame, counted.march, counted.seq⟩

section settling
variable (hc : (s.stall i).charter.active = some c)
include hc

theorem runs_settleComplete (n : Nat) (dt : BitVec 64) (hd : completable s i (.settle n) = true)
    (hs : (s.stall i).march.state = .settle) (he : (s.stall i).seq.ended = false)
    (all : ∀ k < c.settle.length, k = n ∨ isDone (s.stall i) (.settle k) = true) (hx : (s.stall i).settle.settled = false)
    (hl : (s.stall i).march.lead = false) : Runs (.entryComplete i (.settle n) dt) s fun t =>
      (t.stall i).settle.settled = true ∧ Out.settled i (s.stall i).march.num (s.stall i).settle.step ∈ t.out
      ∧ isDone (t.stall i) (.settle n) = true ∧ (t.stall i).march.state = .settle
      ∧ t.mem = s.mem
      ∧ Unchanged s t ([.time, .out, .stall i .march, .stall i .seq, .stall i .settle] ++ tierParts) := by
  let done := (s.atTime (s.time + dt)).entryDone i c (.settle n)
  let k := legOf c (.settle n)
  let isLate := decide (c.lastReduce < k)
    && decide (((s.stall i).march.origin + BitVec.ofNat 64 (c.legOffset (k + 1))).toNat < done.time.toNat)
  let noted := if isLate then done.lateWork i c k else done
  let counted := if isLate then noted.modSettle i fun x => { x with late := satAdd x.late 1 } else noted
  have ends : endsSettle (((s.atTime (s.time + dt)).entryDone i c (.settle n)).stall i) c (.settle n) = true := by
    change endsSettle (done.stall i) c (.settle n) = true
    simp only [endsSettle, List.all_eq_true, List.mem_range]
    intro k hk
    obtain rfl | h := all k hk
    · simp [done, isDone]
    · have : (done.stall i).seq.done = (s.stall i).seq.done ++ [⟨.settle n, done.time⟩] := by simp [done]
      simp only [isDone, this, List.any_append, Bool.or_eq_true]
      exact .inl h
  have late : LateOnly i done noted := by
    unfold noted
    split
    · exact lateOnly_lateWork done i c k
    · exact lateOnly_refl done i
  obtain ⟨a, b, march⟩ := late.march
  obtain ⟨o, d, seq⟩ := late.seq
  have settle : (noted.stall i).settle = (done.stall i).settle := late.frame (.stall i .settle) (by simp)
  have countedStall : (counted.stall i).march = (noted.stall i).march ∧ (counted.stall i).seq = (noted.stall i).seq
      ∧ (counted.stall i).settle.settled = false ∧ (counted.stall i).settle.step = (s.stall i).settle.step := by
    unfold counted
    split <;> simp [settle, done, hx]
  obtain ⟨cmarch, cseq, unsettled, step⟩ := countedStall
  have follows : (counted.stall i).march.lead = false := by simp [cmarch, march, done, hl]
  have unended : ((counted.sendSettled i).stall i).seq.ended = false := by
    rw [sendSettled_member unsettled follows]
    simp [cseq, seq, done, he]
  have taken : execEntryComplete i (.settle n) dt s = .next (counted.sendSettled i) := by
    rw [← finishMarch_unended unended]
    simp only [execEntryComplete, hc, hd, ends, hs]
    rfl
  refine runs_of_exec taken ?_
  rw [sendSettled_member unsettled follows]
  have frame : Unchanged s counted ([.time, .out, .stall i .march, .stall i .seq, .stall i .settle] ++ tierParts) := by
    have h1 : Unchanged s done ([.time, .out, .stall i .march, .stall i .seq, .stall i .settle] ++ tierParts) :=
      unchanged_entryDone _ (fun q hq => by simp [hq]) (by simp [engineOf]) (by simp)
        (unchanged_atTime _ (by simp) (unchanged_refl s _))
    have h2 := Unchanged.trans h1 (Unchanged.mono late.frame (by simp))
    unfold counted
    split
    · exact unchanged_modSettle _ (by simp) h2
    · exact h2
  refine ⟨by simp, ?_, ?_, ?_, ?_, unchanged_send _ (by simp) (unchanged_modSettle _ (by simp) frame)⟩
  · have num : (counted.stall i).march.num = (s.stall i).march.num := by simp [cmarch, march, done]
    rw [num, step]
    exact mem_send_out _ _
  · simp [isDone, cseq, seq, done]
  · simp [cmarch, march, done, hs]
  · have h1 : noted.mem = done.mem := late.frame .mem (by simp)
    have h2 : counted.mem = noted.mem := by
      unfold counted
      split <;> rfl
    have : counted.mem = s.mem := by rw [h2, h1]; simp [done]
    exact this

end settling

/-! ### The lead's side (R59, R263) -/

section lead
variable (hl : (s.stall i).march.lead = true)
include hl

theorem runs_settleLate_armed (m : Member) (time : BitVec 64) (hs : (s.stall i).march.state = .armed)
    (ho : (s.stall i).march.origin.toNat < (BitVec.ofNat 64 (toMicro (time.toNat + 10000))).toNat) :
    let o := BitVec.ofNat 64 (toMicro (time.toNat + 10000))
    Runs (.settleLate i m time) s fun t =>
      (t.stall i).march = { (s.stall i).march with origin := o } ∧ (t.stall i).seq.repeatAt = some o
      ∧ Out.relayed i (.origin o) ∈ t.out ∧ Recorded s t 0x0209
      ∧ Unchanged s t [.out, .log, .stall i .march, .stall i .seq] := by
  obtain ⟨o, heq⟩ : ∃ o, BitVec.ofNat 64 (toMicro (time.toNat + 10000)) = o := ⟨_, rfl⟩
  rw [heq] at ho ⊢
  intro o'
  let moved := (((s.modSeq i fun q => { q with late := maxU q.late time }).modMarch i fun m => { m with origin := o }).modSeq i fun q =>
    { q with repeatAt := some o }).send (.relayed i (.origin o))
  have taken : execSettleLate i m time s = .next (moved.record
      { reason := 0x0209, stall := some i, detail := BitVec.ofNat 32 (o.toNat - (s.stall i).march.origin.toNat) }) := by
    simp only [execSettleLate, hl, hs, heq, ho]
    rfl
  refine runs_of_exec taken ⟨by simp [moved, o'], by simp [moved, o'], mem_record _ _ (mem_send_out _ _),
    recorded_record _ rfl rfl, ?_⟩
  exact unchanged_record _ (by simp) (by simp) (unchanged_send _ (by simp) (unchanged_modSeq _ (by simp) (unchanged_modMarch _ (by simp)
    (unchanged_modSeq _ (by simp) (unchanged_refl s _)))))

theorem runs_settleLate_noted (m : Member) (time : BitVec 64) (hs : (s.stall i).march.state ≠ .armed) :
    Runs (.settleLate i m time) s fun t =>
      (t.stall i).seq = { (s.stall i).seq with late := maxU (s.stall i).seq.late time } ∧ Unchanged s t [.stall i .seq] := by
  have taken : execSettleLate i m time s = .next (s.modSeq i fun q => { q with late := maxU q.late time }) := by
    simp [execSettleLate, hl, hs]
  exact runs_of_exec taken ⟨by simp, unchanged_modSeq _ (by simp) (unchanged_refl s _)⟩

/-- The lead is held where a member's report does not come and no standby can take its place (R263). -/
theorem closeMarch_waits (hc : (s.stall i).charter.active = some c) (hs : (s.stall i).march.state = .settle)
    (hf : (s.stall i).seq.finished = true) (hq : (s.stall i).seq.settles = true) (hh : (s.stall i).seq.hold = 0x0402)
    (unsettled : allSettled (s.stall i) c = false) : s.closeMarch i = s.enterHeld i 0x0402 := by
  simp [State.closeMarch, hc, hs, hf, hl, hq, hh, unsettled]

variable (hc : (s.stall i).charter.active = some c) (hs : (s.stall i).march.state = .settle)
  (hq : (s.stall i).seq.settles = true) {m : Member} (hm : m ∈ settlingMembers (s.stall i) c)
  (hw : (s.stall i).settle.settledWords.contains m = false) (hr : (s.stall i).settle.requests.contains m = false)
include hc hs hq hm hw hr

theorem runs_settleUnconfirmed_replaced (sb : Member) (hb : standbyFor (s.stall i) m = some sb)
    (hf : (s.stall i).seq.finished = false) : Runs (.settleUnconfirmed i m) s fun t =>
      t.time = maxU s.time ((s.stall i).seq.verdictTick + 1000000)
      ∧ (t.stall i).ledger.fences = setBit (s.stall i).ledger.fences m.toNat
      ∧ (m, sb) ∈ (t.stall i).ledger.subst ∧ Out.relayed i (.fence c.caravanIx m sb) ∈ t.out ∧ Recorded s t 0x0403
      ∧ Unchanged s t [.time, .out, .log, .stall i .ledger, .stall i .settle] := by
  obtain ⟨b, time⟩ : ∃ b, (s.stall i).seq.verdictTick + 1000000 = b := ⟨_, rfl⟩
  rw [time]
  let replaced := (((s.atTime b).replaceMember i m sb).stlLast i 0x0403)
  let noted := replaced.record { reason := 0x0403, cls := clsModule, stall := some i, kind := 13, unit := m.setWidth 16 }
  have unfinished : (noted.stall i).seq.finished = false := by simp [noted, replaced, State.stlLast, State.replaceMember, hf]
  have settling : (settlingMembers (s.stall i) c).contains m = true := List.contains_iff_mem.mpr hm
  have taken : execSettleUnconfirmed i m s = .next noted := by
    rw [← closeMarch_unfinished (i := i) unfinished]
    simp only [execSettleUnconfirmed, hc, hl, hq, hw, hr, hs, settling, hb, time]
    rfl
  have told : Out.relayed i (.fence c.caravanIx m sb) ∈ replaced.out := by
    have own : ownCaravan ((s.atTime b).stall i) = c.caravanIx := by
      have : (s.atTime b).stall i = s.stall i := rfl
      simp [ownCaravan, this, hc]
    have := mem_send_out ((s.atTime b).modLedger i fun l => { l with
      fences := setBit l.fences m.toNat, subst := (l.subst.filter fun e => e.1 != m) ++ [(m, sb)] }) (.relayed i (.fence c.caravanIx m sb))
    rw [← own] at this ⊢
    exact this
  refine runs_of_exec taken ⟨?_, ?_, ?_, mem_record _ _ told, recorded_record _ rfl rfl, ?_⟩
  · simp [noted, replaced, State.stlLast, State.replaceMember]
  · simp [noted, replaced, State.stlLast, State.replaceMember]
  · simp [noted, replaced, State.stlLast, State.replaceMember]
  · exact unchanged_record _ (by simp) (by simp) (unchanged_stlLast _ (by simp) (unchanged_send _ (by simp) (unchanged_modLedger _ (by simp)
      (unchanged_atTime _ (by simp) (unchanged_refl s _)))))

theorem runs_settleUnconfirmed_held (hb : standbyFor (s.stall i) m = none) (hf : (s.stall i).seq.finished = true) :
    Runs (.settleUnconfirmed i m) s fun t =>
      t.time = maxU s.time ((s.stall i).seq.verdictTick + 1000000) ∧ heldFor (t.stall i) 0x0402 = true ∧ Recorded s t 0x0402
      ∧ (t.stall i).settle.step = (s.stall i).settle.step
      ∧ Unchanged s t [.time, .out, .log, .stall i .march, .stall i .seq, .stall i .settle] := by
  obtain ⟨b, time⟩ : ∃ b, (s.stall i).seq.verdictTick + 1000000 = b := ⟨_, rfl⟩
  rw [time]
  let noted := ((s.atTime b).stlLast i 0x0402).record
    { reason := 0x0402, cls := clsModule, stall := some i, kind := 13, unit := m.setWidth 16 }
  let waits := noted.modSeq i fun q => { q with hold := 0x0402 }
  have settling : (settlingMembers (s.stall i) c).contains m = true := List.contains_iff_mem.mpr hm
  have missing : allSettled (waits.stall i) c = false := by
    have same : settlingMembers (waits.stall i) c = settlingMembers (s.stall i) c := by
      simp [settlingMembers, isFenced, waits, noted, State.stlLast]
    have words : (waits.stall i).settle.settledWords = (s.stall i).settle.settledWords := by
      simp [waits, noted, State.stlLast]
    rw [allSettled, same, words, List.all_eq_false]
    exact ⟨m, hm, by rw [hw]; exact Bool.false_ne_true⟩
  have taken : execSettleUnconfirmed i m s = .next (waits.enterHeld i 0x0402) := by
    rw [← closeMarch_waits (c := c) ?_ ?_ ?_ ?_ ?_ ?_ missing]
    · simp only [execSettleUnconfirmed, hc, hl, hq, hw, hr, hs, settling, hb, time]
      rfl
    · simpa [waits, noted, State.stlLast] using hl
    · simpa [waits, noted, State.stlLast] using hc
    · simpa [waits, noted, State.stlLast] using hs
    · simpa [waits, noted, State.stlLast] using hf
    · simpa [waits, noted, State.stlLast] using hq
    · simp [waits]
  have log : (waits.enterHeld i 0x0402).log = noted.log := by simp [State.enterHeld, waits]
  refine runs_of_exec taken ⟨?_, ?_, ?_, ?_, ?_⟩
  · simp [State.enterHeld, waits, noted, State.stlLast]
  · simp [heldFor, enterHeld_march, enterHeld_seq]
  · exact Recorded.of_log_eq (recorded_record _ rfl rfl) log
  · simp [State.enterHeld, waits, noted, State.stlLast]
  · exact unchanged_enterHeld _ (by simp) (by simp) (by simp) (unchanged_modSeq _ (by simp) (unchanged_record _ (by simp) (by simp)
      (unchanged_stlLast _ (by simp) (unchanged_atTime _ (by simp) (unchanged_refl s _)))))

end lead

/-- Settles O34, one report at a time. -/
theorem workCompletesAndMayBeLate : Obligations.WorkCompletesAndMayBeLate := by
  intro s i c hc
  refine ⟨fun e dt hd hn hs hk => ?_, runs_settleComplete hc,
    fun hl m time => ⟨runs_settleLate_armed hl m time, runs_settleLate_noted hl m time⟩,
    fun hl hs hq m hm hw hr => ⟨runs_settleUnconfirmed_replaced hl hc hs hq hm hw hr,
      runs_settleUnconfirmed_held hl hc hs hq hm hw hr⟩⟩
  have run := runs_entryComplete hc e dt hd hn hs hk
  cases e <;> exact run

end Sys2Proof.Machine
end

section
/-! PROOFS. Repeated fit proofs, members that report ready, and takeovers (R56, R64, R241, R360, R458, R460). -/

namespace Sys2Proof.Machine

open Sys2Proof.Safety

variable {s t : State} {l : List Part} {i : Stall} {c : Charter}

/-! ### What a repeated fit proof leaves of the march (R56, R360) -/

/-- What a repeated fit proof leaves: of the march all but MRC_FIT, of its sequencer all but causes and halts, and what was
sent. -/
structure Refits (i : Stall) (s t : State) : Prop where
  march : ∃ v e k x, (t.stall i).march = { (s.stall i).march with fitValid := v, fitEngine := e, fitLeg := k, fitExcess := x }
  seq : ∀ {α : Type} (f : Sequencer → α), CauseFree f → f (t.stall i).seq = f (s.stall i).seq
  sent : s.out ⊆ t.out

theorem refits_refl (s : State) (i : Stall) : Refits i s s := ⟨⟨_, _, _, _, rfl⟩, fun _ _ => rfl, List.Subset.refl _⟩

theorem Refits.trans {u : State} (h : Refits i s t) (h' : Refits i t u) : Refits i s u := by
  obtain ⟨v, e, k, x, march⟩ := h.march
  obtain ⟨v', e', k', x', march'⟩ := h'.march
  exact ⟨⟨v', e', k', x', by rw [march', march]⟩, fun f hf => (h'.seq f hf).trans (h.seq f hf), List.Subset.trans h.sent h'.sent⟩

/-- A change that leaves the march, its sequencer and what was sent. -/
theorem refits_of_eq (hm : (t.stall i).march = (s.stall i).march) (hq : (t.stall i).seq = (s.stall i).seq) (ho : s.out ⊆ t.out) :
    Refits i s t := ⟨⟨_, _, _, _, hm⟩, fun f _ => congrArg f hq, ho⟩

theorem refits_cause (s : State) (i : Stall) (code : BitVec 4) (reason : Reason) : Refits i s (s.cause i code reason) := by
  have march : ((s.cause i code reason).stall i).march = (s.stall i).march :=
    unchanged_cause (l := [.out, .stall i .seq]) code reason (by simp) (by simp) (unchanged_refl s _) (.stall i .march) (by simp)
  exact ⟨⟨_, _, _, _, march⟩, fun f hf => hf.cause_eq code reason, (sendsOnly_cause s i code reason).subset⟩

theorem refits_causeNext (s : State) (i : Stall) (code : BitVec 4) (reason : Reason) : Refits i s (s.causeNext i code reason) :=
  ⟨⟨_, _, _, _, State.modSeq_march s i _⟩, fun _ hf => hf.causeNext_eq code reason, List.Subset.refl _⟩

theorem refits_nofit (s : State) (i : Stall) : Refits i s (s.nofit i) := by
  unfold State.nofit
  split
  · exact refits_causeNext s i _ _
  · exact refits_causeNext s i _ _
  · exact refits_cause s i _ _

theorem refits_refitActive (s : State) (i : Stall) (c : Charter) : Refits i s (s.refitActive i c) := by
  have report (f : Fit) : Refits i s (s.reportFit i f) :=
    ⟨⟨_, _, _, _, State.modMarch_march s i _⟩, fun g _ => congrArg g (State.modMarch_seq s i _), List.Subset.refl _⟩
  have held : Refits i s (s.fitHeld i) :=
    ⟨⟨false, _, _, _, State.modMarch_march s i _⟩, fun g _ => congrArg g (State.modMarch_seq s i _), List.Subset.refl _⟩
  have clear : Refits i (s.fitHeld i) ((s.fitHeld i).modSeq i fun q => { q with nextCauses := clearBit q.nextCauses 11 }) := by
    refine ⟨⟨_, _, _, _, State.modSeq_march _ i _⟩, fun f hf => ?_, List.Subset.refl _⟩
    rw [State.modSeq_seq]
    exact hf ((s.fitHeld i).stall i).seq _ _ _ _ _ _
  unfold State.refitActive
  split
  · exact (report _).trans (refits_nofit _ i)
  · split
    · exact refits_nofit s i
    · exact held.trans clear

theorem refits_refitPending (s : State) (i : Stall) (c : Charter) : Refits i s (s.refitPending i c) := by
  unfold State.refitPending
  extract_lets f t0 s1
  have dropped : Refits i s s1 := by
    refine refits_of_eq ?_ ?_ fun o ho => mem_raiseEvent _ i 3 ho
    · simp [s1, State.noteRefusal]
    · simp [s1, State.noteRefusal]
  split
  · split
    · exact dropped.trans (refits_of_eq (by simp) (by simp) (List.Subset.refl _))
    · exact dropped.trans (refits_of_eq (by simp) (by simp) (List.subset_append_left _ _))
  · exact refits_refl s i

theorem refits_refit (s : State) (i : Stall) : Refits i s (s.refit i) := by
  unfold State.refit
  extract_lets s1
  have active : Refits i s s1 := by
    unfold s1
    split
    · exact refits_refl s i
    · exact refits_refitActive s i _
  split
  · exact active
  · exact active.trans (refits_refitPending s1 i _)

/-! ### Members that report ready (R64, R458) -/

section ready
variable {m : Member} (hl : (s.stall i).march.lead = true) (hs : (s.stall i).march.state = .waitRepeat)

/-- The march for whose repeat a member is waited for no more. -/
def State.readyFrom (s : State) (i : Stall) (m : Member) : State :=
  s.modSeq i fun q => { q with waiting := q.waiting.filter fun x => x != m }

include hl in
theorem exec_ready (free : isFenced (s.stall i) m = false) : ∀ cmd ∈ [Instr.memberReady i m, .spareReady i m],
    exec cmd s = .next ((s.readyFrom i m).announceRepeat i) := by
  have member : execMemberReady i m s = .next ((s.readyFrom i m).announceRepeat i) := by
    simp only [execMemberReady, hl, free]
    rfl
  have spare : execSpareReady i m s = .next ((s.readyFrom i m).announceRepeat i) := by
    simp only [execSpareReady, hl]
    rfl
  simp only [List.mem_cons, List.not_mem_nil, or_false]
  rintro cmd (rfl | rfl)
  · exact member
  · exact spare

include hl hs in
theorem runs_ready_last (hr : (s.stall i).seq.repeatAt = none) (last : ∀ x ∈ (s.stall i).seq.waiting, x = m) {cmd : Instr}
    (taken : exec cmd s = .next ((s.readyFrom i m).announceRepeat i)) : Runs cmd s fun t =>
      (t.stall i).march.origin = BitVec.ofNat 64 (max ((s.stall i).seq.verdictTick.toNat + 116000) s.time.toNat)
      ∧ (t.stall i).seq.repeatAt = some (t.stall i).march.origin ∧ (t.stall i).seq.waiting = []
      ∧ t.out = s.out ++ [.relayed i (.origin (t.stall i).march.origin)]
      ∧ (t.stall i).march.num = (s.stall i).march.num ∧ Unchanged s t [.out, .stall i .march, .stall i .seq] := by
  have nobody : ((s.stall i).seq.waiting.filter fun x => x != m) = [] :=
    List.filter_eq_nil_iff.mpr fun x hx => by simp [last x hx]
  have origin : repeatOrigin (s.readyFrom i m) i
      = BitVec.ofNat 64 (max ((s.stall i).seq.verdictTick.toNat + 116000) s.time.toNat) := by
    simp [repeatOrigin, State.readyFrom]
  have set_ : (s.readyFrom i m).announceRepeat i = (s.readyFrom i m).setRepeat i := by
    rw [announceRepeat_eq]
    simp [State.readyFrom, hl, hs, nobody, hr]
  refine runs_of_exec taken ?_
  rw [set_, State.setRepeat, origin]
  generalize BitVec.ofNat 64 (max ((s.stall i).seq.verdictTick.toNat + 116000) s.time.toNat) = o
  refine ⟨by simp, by simp, by simp [State.readyFrom, nobody], ?_, by simp [State.readyFrom], ?_⟩
  · simp only [State.send_stall, State.modSeq_march, State.modMarch_march]
    rfl
  exact unchanged_send _ (by simp) (unchanged_modSeq _ (by simp) (unchanged_modMarch _ (by simp)
    (unchanged_modSeq _ (by simp) (unchanged_refl s _))))

theorem runs_ready_others (others : ∃ x ∈ (s.stall i).seq.waiting, x ≠ m) {cmd : Instr}
    (taken : exec cmd s = .next ((s.readyFrom i m).announceRepeat i)) : Runs cmd s fun t =>
      (t.stall i).seq = { (s.stall i).seq with waiting := (s.stall i).seq.waiting.filter fun x => x != m }
      ∧ Unchanged s t [.stall i .seq] := by
  obtain ⟨x, hx, ne⟩ := others
  have some : ((s.stall i).seq.waiting.filter fun x => x != m).isEmpty = false := by
    rw [← Bool.not_eq_true, List.isEmpty_iff]
    exact List.ne_nil_of_mem (List.mem_filter.mpr ⟨hx, by simpa using ne⟩)
  have waits : (s.readyFrom i m).announceRepeat i = s.readyFrom i m := by
    rw [announceRepeat_eq]
    simp only [State.readyFrom, State.modSeq_seq, some, Bool.and_false, Bool.false_and]
    rfl
  refine runs_of_exec taken ?_
  rw [waits]
  exact ⟨by simp [State.readyFrom], unchanged_modSeq _ (by simp) (unchanged_refl s _)⟩

end ready

/-! ### Takeover (R241, R242, R458, R460) -/

theorem abandonCheckpoint_service (s : State) (i : Stall) :
    ∃ x, ((s.abandonCheckpoint i).stall i).service = { (s.stall i).service with ckptState := x } := by
  unfold State.abandonCheckpoint
  split
  · exact ⟨0, by simp⟩
  · exact ⟨_, rfl⟩

/-- The lead's own report of readiness, of which the repeat does not depend in a brace or a thermal halt (R437, R441). -/
theorem offerReady_lead (s : State) (i : Stall) (hl : (s.stall i).march.lead = true) : s.offerReady i =
    if s.power.brace || s.power.thermalHalt then (s.abandonCheckpoint i).refit i
    else (((s.abandonCheckpoint i).refit i).readyFrom i (s.stall i).march.member).announceRepeat i := by
  unfold State.offerReady
  simp only [hl]
  rfl

theorem refits_abandonCheckpoint (s : State) (i : Stall) : Refits i s (s.abandonCheckpoint i) :=
  refits_of_eq (abandonCheckpoint_march s i) (abandonCheckpoint_seq s i) (mem_abandonCheckpoint s i)

theorem offerReady_waiting (s : State) (i : Stall) (hl : (s.stall i).march.lead = true) : ((s.offerReady i).stall i).seq.waiting =
    if s.power.brace || s.power.thermalHalt then (s.stall i).seq.waiting
    else (s.stall i).seq.waiting.filter fun x => x != (s.stall i).march.member := by
  have free : CauseFree fun q => q.waiting := fun _ _ _ _ _ _ _ => rfl
  have kept : (((s.abandonCheckpoint i).refit i).stall i).seq.waiting = (s.stall i).seq.waiting :=
    ((refits_abandonCheckpoint s i).trans (refits_refit _ i)).seq (fun q => q.waiting) free
  rw [offerReady_lead s i hl]
  split
  · exact kept
  · obtain ⟨-, ⟨r, seq⟩⟩ := announceRepeat_stall (((s.abandonCheckpoint i).refit i).readyFrom i (s.stall i).march.member) i
    rw [seq]
    simp [State.readyFrom, kept]

theorem mem_offerReady_lead (s : State) (i : Stall) (hl : (s.stall i).march.lead = true) : s.out ⊆ (s.offerReady i).out := by
  have refit := ((refits_abandonCheckpoint s i).trans (refits_refit _ i)).sent
  rw [offerReady_lead s i hl]
  split
  · exact refit
  · exact List.Subset.trans refit (mem_announceRepeat (((s.abandonCheckpoint i).refit i).readyFrom i (s.stall i).march.member) i)

/-- After the checkpoint, an offer of readiness changes what a repeated fit proof may change. -/
theorem offerReady_frame (s : State) (i : Stall) : Unchanged (s.abandonCheckpoint i) (s.offerReady i) (refitParts i) := by
  have refit := unchanged_refit (i := i) (fun q hq => hq) (unchanged_refl (s.abandonCheckpoint i) (refitParts i))
  unfold State.offerReady
  extract_lets s1
  split
  · exact refit
  split
  · exact unchanged_announceRepeat (by simp [refitParts]) (by simp [refitParts]) (by simp [refitParts])
      (unchanged_modSeq _ (by simp [refitParts]) refit)
  · exact unchanged_send _ (by simp [refitParts]) refit

theorem offerReady_service (s : State) (i : Stall) :
    ∃ x, ((s.offerReady i).stall i).service = { (s.stall i).service with ckptState := x } := by
  obtain ⟨x, service⟩ := abandonCheckpoint_service s i
  exact ⟨x, (offerReady_frame s i (.stall i .service) (by simp [refitParts])).trans service⟩

/-- Where no checkpoint is under way, an offer of readiness records nothing. -/
theorem offerReady_log (h : (s.stall i).service.ckptState ≠ 1) : (s.offerReady i).log = s.log := by
  have quiet : s.abandonCheckpoint i = s := if_neg h
  exact (offerReady_frame s i .log (by simp [refitParts])).trans (congrArg State.log quiet)

section takeover
variable {m : Member} (hc : (s.stall i).charter.active = some c) (hl : (s.stall i).march.lead = true)
  (hs : (s.stall i).march.state = .waitRepeat) (hg : missingPeers (s.stall i) = [m])
include hc hl hs hg

/-- Has the only missing member reported a fault of its module? -/
def reportedFault (t : StallState) (m : Member) : Bool :=
  (t.seq.missing.any fun e => e.1 == m && e.2 == 0x020C) || t.seq.words.any fun w => w.member == m && w.reason == 0x020C

/-- The time at which a missing member is given up: at once where it reported a fault. -/
def State.giveUp (s : State) (i : Stall) (m : Member) : State :=
  if reportedFault (s.stall i) m then s
  else s.atTime ((s.stall i).seq.verdictTick + 16000 + BitVec.ofNat 64 (1000000 * (s.stall i).service.wait.toNat))

omit hc hl hs hg in
theorem giveUp_cases (s : State) (i : Stall) (m : Member) : ∃ b, s.giveUp i m = { s with time := b } ∧ b =
    if reportedFault (s.stall i) m then s.time
    else maxU s.time ((s.stall i).seq.verdictTick + 16000 + BitVec.ofNat 64 (1000000 * (s.stall i).service.wait.toNat)) := by
  unfold State.giveUp
  split <;> exact ⟨_, rfl, rfl⟩

/-- Whether a standby takes the only missing member's place decides what happens at the end of the wait. -/
theorem exec_takeoverWait : exec (.takeoverWait i) s = .next (
    if (standbyFor (s.stall i) m).isSome then
      ((((s.giveUp i m).takeOver i m).modSeq i fun q =>
        { q with waiting := liveMembers (((s.giveUp i m).takeOver i m).stall i) c }).offerReady i)
    else ((s.giveUp i m).record { reason := 0x0210, cls := clsModule, stall := some i, kind := 13
                                  unit := (lowest [m]).setWidth 16 }).enterHeld i 0x0210) := by
  change execTakeoverWait i s = _
  cases hb : standbyFor (s.stall i) m with
  | none =>
    simp only [execTakeoverWait, hc, hl, hs, hg, List.all_cons, List.all_nil, Bool.and_true, hb]
    rfl
  | some sb =>
    simp only [execTakeoverWait, hc, hl, hs, hg, List.all_cons, List.all_nil, Bool.and_true, hb]
    rfl

theorem runs_takeover (sb : Member) (hb : standbyFor (s.stall i) m = some sb) : Runs (.takeoverWait i) s fun t =>
    t.time = (s.giveUp i m).time
    ∧ (t.stall i).ledger.fences = setBit (s.stall i).ledger.fences m.toNat ∧ (m, sb) ∈ (t.stall i).ledger.subst
    ∧ (t.stall i).service.lost = m ∧ (t.stall i).service.standby = sb ∧ (t.stall i).service.kind = 1
    ∧ (t.stall i).seq.waiting = (if s.power.brace || s.power.thermalHalt then liveMembers (t.stall i) c
        else (liveMembers (t.stall i) c).filter fun x => x != (s.stall i).march.member)
    ∧ Out.relayed i (.fence c.caravanIx m sb) ∈ t.out ∧ ((s.stall i).service.ckptState ≠ 1 → Recorded s t 0x020E)
    ∧ Unchanged s t ([.time, .out, .log]
      ++ ([.march, .seq, .ledger, .charter, .service] : List StallPart).map (Part.stall i)) := by
  obtain ⟨b, given, -⟩ := giveUp_cases s i m
  have stall (j : Stall) : (s.giveUp i m).stall j = s.stall j := by rw [given]; rfl
  let replaced := ((s.giveUp i m).replaceMember i m sb).modService i fun v => { v with kind := 1, lost := m, standby := sb }
  let noted := replaced.record { reason := 0x020E, cls := clsModule, stall := some i, kind := 13, unit := m.setWidth 16 }
  let asks := noted.modSeq i fun q => { q with waiting := liveMembers (noted.stall i) c }
  have takes : (s.giveUp i m).takeOver i m = noted := by
    have : standbyFor ((s.giveUp i m).stall i) m = some sb := by rw [stall, hb]
    simp only [State.takeOver, this]
    rfl
  have taken : exec (.takeoverWait i) s = .next (asks.offerReady i) := by
    rw [exec_takeoverWait hc hl hs hg, hb, takes]
    rfl
  have asked : Unchanged asks (asks.offerReady i)
      ([.out, .log] ++ ([.march, .seq, .charter, .service] : List StallPart).map (Part.stall i)) :=
    unchanged_offerReady (by simp [refitParts]) (by simp) (by simp) (unchanged_refl _ _)
  have ledger : ((asks.offerReady i).stall i).ledger = (noted.stall i).ledger :=
    (asked (.stall i .ledger) (by simp)).trans (by simp [asks])
  have march : (asks.stall i).march = (s.stall i).march := by
    simp [asks, noted, replaced, State.replaceMember, stall]
  have leads : (asks.stall i).march.lead = true := by rw [march]; exact hl
  have power : asks.power = s.power := by
    have : (s.giveUp i m).power = s.power := by rw [given]
    simp [asks, noted, replaced, State.replaceMember, this]
  obtain ⟨x, service⟩ := offerReady_service asks i
  refine runs_of_exec taken ⟨?_, ?_, ?_, ?_, ?_, ?_, ?_, ?_, fun quiet => ?_, ?_⟩
  · exact (asked .time (by simp)).trans (by simp [asks, noted, replaced, State.replaceMember])
  · simp [ledger, noted, replaced, State.replaceMember, stall]
  · simp [ledger, noted, replaced, State.replaceMember]
  · rw [service]
    simp [asks, noted, replaced]
  · rw [service]
    simp [asks, noted, replaced]
  · rw [service]
    simp [asks, noted, replaced]
  · rw [offerReady_waiting asks i leads, power, march]
    have : liveMembers ((asks.offerReady i).stall i) c = (asks.stall i).seq.waiting := by
      have set_ : (asks.stall i).seq.waiting = liveMembers (noted.stall i) c := by simp [asks]
      rw [set_]
      simp only [liveMembers, isFenced, ledger]
    rw [this]
  · have told : Out.relayed i (.fence c.caravanIx m sb) ∈ replaced.out := by
      have own : ownCaravan ((s.giveUp i m).stall i) = c.caravanIx := by simp [ownCaravan, stall, hc]
      have := mem_send_out ((s.giveUp i m).modLedger i fun l => { l with
        fences := setBit l.fences m.toNat, subst := (l.subst.filter fun e => e.1 != m) ++ [(m, sb)] })
          (.relayed i (.fence c.caravanIx m sb))
      rw [← own] at this ⊢
      exact this
    exact mem_offerReady_lead asks i leads (mem_record _ _ told)
  · have idle : (asks.stall i).service.ckptState ≠ 1 := by
      simpa [asks, noted, replaced, State.replaceMember, stall] using quiet
    have log : replaced.log = s.log := by
      have : (s.giveUp i m).log = s.log := by rw [given]
      simp [replaced, State.replaceMember, this]
    refine Recorded.of_log_eq (t := noted) ?_ (offerReady_log idle)
    exact recorded_record _ (by rw [log]) (by rw [log])
  · refine Unchanged.trans ?_ (Unchanged.mono asked (by simp))
    refine unchanged_modSeq _ (by simp) (unchanged_record _ (by simp) (by simp) (unchanged_modService _ (by simp)
      (unchanged_send _ (by simp) (unchanged_modLedger _ (by simp) ?_))))
    rw [given]
    exact unchanged_set_time _ (by simp) (unchanged_refl s _)

theorem runs_noTakeover (hb : standbyFor (s.stall i) m = none) : Runs (.takeoverWait i) s fun t =>
    t.time = (s.giveUp i m).time ∧ heldFor (t.stall i) 0x0210 = true ∧ Recorded s t 0x0210
    ∧ (t.stall i).ledger = (s.stall i).ledger ∧ Unchanged s t [.time, .out, .log, .stall i .march, .stall i .seq] := by
  obtain ⟨b, given, -⟩ := giveUp_cases s i m
  let noted := (s.giveUp i m).record { reason := 0x0210, cls := clsModule, stall := some i, kind := 13
                                       unit := (lowest [m]).setWidth 16 }
  have taken : exec (.takeoverWait i) s = .next (noted.enterHeld i 0x0210) := by
    rw [exec_takeoverWait hc hl hs hg, hb]
    rfl
  have frame : Unchanged s (noted.enterHeld i 0x0210) [.time, .out, .log, .stall i .march, .stall i .seq] := by
    refine unchanged_enterHeld _ (by simp) (by simp) (by simp) (unchanged_record _ (by simp) (by simp) ?_)
    rw [given]
    exact unchanged_set_time _ (by simp) (unchanged_refl s _)
  have log : (s.giveUp i m).log = s.log := by rw [given]
  refine runs_of_exec taken ⟨?_, ?_, ?_, frame (.stall i .ledger) (by simp), frame⟩
  · simp [State.enterHeld, noted]
  · simp [heldFor, enterHeld_march, enterHeld_seq]
  · refine Recorded.of_log_eq (t := noted) (recorded_record _ (by rw [log]) (by rw [log])) ?_
    simp [State.enterHeld]

omit hc hl hs hg in
theorem giveUp_time : (s.giveUp i m).time = if reportedFault (s.stall i) m then s.time
    else maxU s.time ((s.stall i).seq.verdictTick + 16000 + BitVec.ofNat 64 (1000000 * (s.stall i).service.wait.toNat)) := by
  obtain ⟨b, given, time⟩ := giveUp_cases s i m
  rw [given, ← time]

end takeover

/-- Settles O35, one report or wait at a time. -/
theorem missingMembersAreReplaced : Obligations.MissingMembersAreReplaced := by
  intro s i c m hc hl hs
  refine ⟨fun free hr cmd hm => ⟨fun last => ?_, fun others => ?_⟩, fun hg => ?_⟩
  · exact runs_ready_last hl hs hr last (exec_ready hl free cmd hm)
  · exact runs_ready_others others (exec_ready hl free cmd hm)
  · intro waited reported
    have time : (s.giveUp i m).time = if reported then s.time else waited := giveUp_time
    rw [← time]
    exact ⟨runs_takeover hc hl hs hg, runs_noTakeover hc hl hs hg⟩

end Sys2Proof.Machine
end

section
/-! PROOFS. How the lead forms the caravan verdict, alone or in a federation (R62, R64, R241, R243). -/

namespace Sys2Proof.Machine

open Sys2Proof.Safety

variable {s t : State} {l : List Part} {i : Stall} {c : Charter}

/-! ### The verdict that is formed -/

/-- The verdict of a lead from its members' words, the words of other caravans, and the words that are missing. -/
def formed (t : StallState) (c : Charter) (words : List VerdictWord) (far : List FederationWord) (lost gone : List Member) :
    CaravanVerdict :=
  let loss := chunkRound (far.foldl (fun k w => chunkJoin k w.loss) (lossAcc (words.map fun w => w.loss)))
  combine ((words.map fun w => ⟨w.member, w.causes, w.reason, w.step⟩) ++ far.map fun w => ⟨w.source, w.causes, w.reason, w.step⟩)
    (lost ++ gone) t.settle.step (leadAlarms t.tally c.lossEn loss) (fld t.tally.used 28 4)
    (normSum ((words.map fun w => w.norm) ++ far.map fun w => w.norm)) loss t.march.member t.march.sinceStart t.march.repeatLimit

section combined
variable {reports : List Report} {lost : List Member} {leadStep : BitVec 40} {alarms holdEn : BitVec 4} {norm2 loss : Word}
  {leadMember : Member} {sinceStart limit : BitVec 8}

/-- The causes that the combination finds stand in the verdict. -/
theorem bit_combine {k : Nat} (h : bit (combinedCauses reports lost leadStep (alarms &&& holdEn)) k = true) :
    bit (combine reports lost leadStep alarms holdEn norm2 loss leadMember sinceStart limit).causes k = true := by
  obtain ⟨-, causes, -⟩ | ⟨-, causes⟩ := combine_code (reports := reports) (lost := lost) (leadStep := leadStep) (alarms := alarms)
    (holdEn := holdEn) (norm2 := norm2) (loss := loss) (leadMember := leadMember) (sinceStart := sinceStart) (limit := limit)
  · rw [causes]
    exact h
  · rw [causes]
    exact bit_setBit_of_bit _ h

end combined

theorem bit_formed_lost {u : StallState} {words : List VerdictWord} {far : List FederationWord} {lost gone : List Member}
    (h : lost ≠ [] ∨ gone ≠ []) : bit (formed u c words far lost gone).causes 6 = true :=
  bit_combine (bit_combinedCauses_of_lost (by simpa [or_iff_not_imp_left] using h))

/-! ### What the lead does with it (R64, R241) -/

/-- What the fall-back of R241 changes: fences and places, members waited for, and what it sends and records. -/
structure FallsBack (i : Stall) (s t : State) : Prop where
  frame : Unchanged s t [.out, .log, .stall i .seq, .stall i .ledger]
  seq : ∃ w, (t.stall i).seq = { (s.stall i).seq with waiting := w }

theorem fallsBack_refl (s : State) (i : Stall) : FallsBack i s s := ⟨unchanged_refl s _, ⟨_, rfl⟩⟩

theorem FallsBack.trans {u : State} (h : FallsBack i s t) (h' : FallsBack i t u) : FallsBack i s u := by
  obtain ⟨w, seq⟩ := h.seq
  obtain ⟨w', seq'⟩ := h'.seq
  exact ⟨Unchanged.trans h.frame h'.frame, ⟨w', by rw [seq', seq]⟩⟩

theorem fallsBack_modLedger (s : State) (i : Stall) (f : Ledger → Ledger) : FallsBack i s (s.modLedger i f) :=
  ⟨unchanged_modLedger _ (by simp) (unchanged_refl s _), ⟨_, by simp; rfl⟩⟩

theorem fallsBack_send (s : State) (i : Stall) (o : Out) : FallsBack i s (s.send o) :=
  ⟨unchanged_send _ (by simp) (unchanged_refl s _), ⟨_, by simp; rfl⟩⟩

theorem fallsBack_record (s : State) (i : Stall) (r : Rec) : FallsBack i s (s.record r) :=
  ⟨unchanged_record _ (by simp) (by simp) (unchanged_refl s _), ⟨_, by simp; rfl⟩⟩

theorem fallsBack_waiting (s : State) (i : Stall) (f : Sequencer → List Member) :
    FallsBack i s (s.modSeq i fun q => { q with waiting := f q }) :=
  ⟨unchanged_modSeq _ (by simp) (unchanged_refl s _), ⟨_, by simp; rfl⟩⟩

theorem fallsBack_replaceIn (s : State) (i : Stall) (car : BitVec 6) (m sb : Member) : FallsBack i s (s.replaceIn i car m sb) := by
  unfold State.replaceIn
  split
  · exact (fallsBack_modLedger s i _).trans (fallsBack_send _ i _)
  · exact fallsBack_send s i _

/-- A loop stays within a transitive relation that each of its steps stays within. -/
theorem forEach_within {α : Type} {R : State → State → Prop} (refl : ∀ u, R u u) (trans : ∀ {u v w}, R u v → R v w → R u w)
    (xs : List α) (f : State → α → State) (step : ∀ u x, R u (f u x)) (s : State) : R s (forEach xs s f) := by
  unfold forEach
  induction xs generalizing s with
  | nil => exact refl s
  | cons x xs ih => exact trans (step s x) (ih (f s x))

theorem fallsBack_fallBack (s : State) (i : Stall) : FallsBack i s (s.fallBack i) := by
  unfold State.fallBack
  extract_lets t0 now num s1
  have each : FallsBack i s s1 := by
    refine forEach_within (R := FallsBack i) (fun u => fallsBack_refl u i) FallsBack.trans _ _ (fun u e => ?_) s
    extract_lets m
    split
    · exact (((fallsBack_replaceIn u i _ _ _).trans (fallsBack_modLedger _ i _)).trans (fallsBack_waiting _ i _)).trans
        (fallsBack_record _ i _)
    · exact (fallsBack_modLedger u i _).trans (fallsBack_record _ i _)
  exact each.trans (fallsBack_modLedger s1 i _)

/-- The state of a lead that has formed its verdict, before it is broadcast. -/
theorem leadVerdict_eq (s : State) (i : Stall) (c : Charter) (v : CaravanVerdict) (lost : List Member) :
    ∃ u, s.leadVerdict i c v lost = (u.send (.caravanVerdict i v)).applyVerdict i c v
      ∧ Unchanged s u (marchParts i) ∧ ∃ w m, (u.stall i).seq = { (s.stall i).seq with sentVerdict := true, waiting := w, missing := m } := by
  generalize hr : s.leadVerdict i c v lost = r
  unfold State.leadVerdict at hr
  extract_lets t0 slow gens common s1 s2 s3 s4 at hr
  clear_value common
  have h1 : Unchanged s s1 (marchParts i) := unchanged_modSeq _ (by simp [marchParts]) (unchanged_refl s _)
  have h3 : Unchanged s s3 (marchParts i) ∧ (s3.stall i).seq = (s1.stall i).seq := by
    have h2 : Unchanged s s2 (marchParts i) := unchanged_modLedger _ (by simp [marchParts]) h1
    unfold s3
    split
    · exact ⟨unchanged_modService _ (by simp [marchParts]) h2, by simp [s2]⟩
    · exact ⟨h2, by simp [s2]⟩
  have h4 : Unchanged s3 s4 (marchParts i) ∧ ∃ w, (s4.stall i).seq = { (s3.stall i).seq with waiting := w } := by
    unfold s4
    split
    · exact ⟨unchanged_modLedger _ (by simp [marchParts]) (unchanged_refl _ _), ⟨_, by simp; rfl⟩⟩
    · have back := fallsBack_fallBack s3 i
      exact ⟨Unchanged.mono back.frame (by simp [marchParts]), back.seq⟩
  obtain ⟨frame, w, seq⟩ := h4
  exact ⟨s4, hr.symm, Unchanged.trans h3.1 frame, ⟨w, _, by rw [seq, h3.2]; simp [s1]; rfl⟩⟩

/-- The lead broadcasts its verdict and acts on it (R62). -/
theorem leadVerdict_facts (s : State) (i : Stall) (c : Charter) (v : CaravanVerdict) (lost : List Member) :
    let t := s.leadVerdict i c v lost
    ActedOn v (t.stall i) ∧ Out.caravanVerdict i v ∈ t.out ∧ (t.stall i).seq.sentVerdict = true
    ∧ (t.stall i).seq.causes = (s.stall i).seq.causes ∧ (t.stall i).seq.stopped = (s.stall i).seq.stopped
    ∧ Unchanged s t (marchParts i) := by
  obtain ⟨u, run, frame, w, m, seq⟩ := leadVerdict_eq s i c v lost
  obtain ⟨-, causes, stopped, sent⟩ := applyVerdict_stall (u.send (.caravanVerdict i v)) i c v
  rw [run]
  refine ⟨applyVerdict_actedOn _ i c v, mem_applyVerdict _ i c v (mem_send_out _ _), ?_, ?_, ?_,
    unchanged_applyVerdict v (fun _ hp => hp) (unchanged_send _ (by simp [marchParts]) frame)⟩
  · rw [sent, State.send_stall, seq]
  · rw [causes, State.send_stall, seq]
  · rw [stopped, State.send_stall, seq]

/-! ### When the lead forms it (R62, R243) -/

/-- The members whose words are missing. -/
def lostMembers (t : StallState) (c : Charter) : List Member :=
  (liveMembers t c).filter fun m => !t.seq.words.any fun w => w.member == m

/-- The other caravans whose words are missing. -/
def absentCaravans (t : StallState) (c : Charter) : List (BitVec 6) :=
  (otherCaravans c).filter fun k => !t.seq.fedWords.any fun w => w.caravan == k

theorem filter_words_eq_nil {α β : Type} [BEq β] [LawfulBEq β] (xs : List β) (words : List α) (f : α → β) :
    (xs.filter fun m => !words.any fun w => f w == m) = [] ↔ ∀ m ∈ xs, ∃ w ∈ words, f w = m := by
  simp [List.filter_eq_nil_iff]

theorem filter_words_ne_nil {α β : Type} [BEq β] [LawfulBEq β] (xs : List β) (words : List α) (f : α → β) :
    (xs.filter fun m => !words.any fun w => f w == m) ≠ [] ↔ ∃ m ∈ xs, ∀ w ∈ words, f w ≠ m := by
  rw [Ne, filter_words_eq_nil]
  push Not
  rfl

/-- The word that the lead of a further caravan sends to the federation's lead (R243). -/
def caravanWord (t : StallState) (c : Charter) : FederationWord :=
  let v := combine (reportsOf t) (lostMembers t c) t.settle.step 0 0 0 0 t.march.member 0 0xFF
  { caravan := c.caravanIx, causes := v.causes, code := v.code, reason := v.reason, source := v.source
    step := t.settle.step, norm := BitVec.ofNat 704 ((t.seq.words.map fun w => w.norm.toNat).sum)
    loss := lossAcc (t.seq.words.map fun w => w.loss)
    reports := (missingReports t).map fun e => (e.2.1, e.2.2)
    mirrors := (liveMembers t c).filterMap fun m => (standbyFor t m).map fun sb => (m, sb) }

section forms
variable (hc : (s.stall i).charter.active = some c) (force : Bool)
include hc

/-- The words are taken as they are until all are there, or the time for them is up. -/
theorem tryVerdict_waits (h : (s.stall i).march.state ≠ .verdict ∨ lostMembers (s.stall i) c ≠ [] ∧ force = false) :
    s.tryVerdict i force = s := by
  have idle : ((s.stall i).march.state != .verdict || !(s.stall i).march.lead || (s.stall i).seq.sentVerdict
      || (!(lostMembers (s.stall i) c).isEmpty && !force)) = true := by
    obtain h | ⟨h, rfl⟩ := h <;> simp [h]
  unfold State.tryVerdict
  simp only [hc]
  exact if_pos idle

variable (hs : (s.stall i).march.state = .verdict) (hl : (s.stall i).march.lead = true)
  (hv : (s.stall i).seq.sentVerdict = false) (ready : lostMembers (s.stall i) c = [] ∨ force = true)
include hs hl hv ready

theorem tryVerdict_ready : s.tryVerdict i force =
    if c.federated && c.caravanIx != 0 then
      ((s.modSeq i fun q => { q with sentVerdict := true }).modLedger i fun l => { l with
        shortMembers := shortRegister ((shortMembers (s.stall i)).map fun e => e.2) }).send
          (.federationWord i (caravanWord (s.stall i) c))
    else if c.federated then s.federate i c (lostMembers (s.stall i) c) false
    else s.leadVerdict i c (formed (s.stall i) c (s.stall i).seq.words [] (lostMembers (s.stall i) c) [])
      (lostMembers (s.stall i) c) := by
  have idle : ¬((s.stall i).march.state != .verdict || !(s.stall i).march.lead || (s.stall i).seq.sentVerdict
      || (!(lostMembers (s.stall i) c).isEmpty && !force)) = true := by
    obtain h | h := ready <;> simp [hs, hl, hv, h]
  have alone : formed (s.stall i) c (s.stall i).seq.words [] (lostMembers (s.stall i) c) [] =
      combine (reportsOf (s.stall i)) (lostMembers (s.stall i) c) (s.stall i).settle.step
        (leadAlarms (s.stall i).tally c.lossEn (lossSum ((s.stall i).seq.words.map fun w => w.loss)))
        (fld (s.stall i).tally.used 28 4) (normSum ((s.stall i).seq.words.map fun w => w.norm))
        (lossSum ((s.stall i).seq.words.map fun w => w.loss)) (s.stall i).march.member (s.stall i).march.sinceStart
        (s.stall i).march.repeatLimit := by
    simp [formed, reportsOf, lossSum]
  rw [alone]
  unfold State.tryVerdict
  simp only [hc]
  exact if_neg idle

end forms

/-- The federation's lead forms the verdict once no caravan's word is missing, or at the end of its wait. -/
theorem federate_eq (s : State) (i : Stall) (c : Charter) (lost : List Member) (force : Bool) : s.federate i c lost force =
    if (s.stall i).seq.sentVerdict || (!(absentCaravans (s.stall i) c).isEmpty && !force) then s
    else s.leadVerdict i c (formed (s.stall i) c (s.stall i).seq.words (s.stall i).seq.fedWords lost
      ((absentCaravans (s.stall i) c).map fun _ => 0x7F)) lost := rfl


/-! ### The words of the members (R62) -/

section lead
variable (hc : (s.stall i).charter.active = some c) (hl : (s.stall i).march.lead = true)
  (hv : (s.stall i).seq.sentVerdict = false)
include hc hl hv

/-- The lead's words with a member's newest. -/
def withWord (t : StallState) (w : VerdictWord) : List VerdictWord := (t.seq.words.filter fun x => x.member != w.member) ++ [w]

/-- The lead that has taken a member's word. -/
def State.takeWord (s : State) (i : Stall) (w : VerdictWord) : State :=
  s.modSeq i fun q => { q with words := q.words.filter (fun x => x.member != w.member) ++ [w] }

omit hc hl hv in
/-- A word taken changes nothing that the verdict rests on but the words. -/
theorem takeWord_stall (s : State) (i : Stall) (w : VerdictWord) :
    (s.takeWord i w).stall i = { s.stall i with seq := { (s.stall i).seq with words := withWord (s.stall i) w } } := by
  simp [State.takeWord, State.modSeq, withWord]

omit hc in
theorem exec_verdictWord (w : VerdictWord) (free : isFenced (s.stall i) w.member = false)
    (hs : (s.stall i).march.state = .legs ∨ (s.stall i).march.state = .verdict) :
    exec (.verdictWord i w) s = .next ((s.takeWord i w).tryVerdict i false) := by
  have run : execVerdictWord i w s = .next ((s.takeWord i w).tryVerdict i false) := by
    obtain hs | hs := hs <;>
    · simp only [execVerdictWord, hl, hv, free, hs]
      rfl
  exact run

theorem runs_verdictWord_kept (w : VerdictWord) (free : isFenced (s.stall i) w.member = false)
    (waits : (s.stall i).march.state = .legs ∨ (s.stall i).march.state = .verdict
      ∧ ∃ m ∈ liveMembers (s.stall i) c, ∀ x ∈ withWord (s.stall i) w, x.member ≠ m) :
    Runs (.verdictWord i w) s fun t =>
      (t.stall i).seq = { (s.stall i).seq with words := withWord (s.stall i) w } ∧ Unchanged s t [.stall i .seq] := by
  have stall := takeWord_stall s i w
  have kept : (s.takeWord i w).tryVerdict i false = s.takeWord i w := by
    refine tryVerdict_waits (c := c) (by rw [stall]; exact hc) false ?_
    obtain hs | ⟨-, hm⟩ := waits
    · exact .inl (by rw [stall]; simp [hs])
    · refine .inr ⟨?_, rfl⟩
      rw [stall]
      exact (filter_words_ne_nil (liveMembers (s.stall i) c) (withWord (s.stall i) w) fun x => x.member).mpr hm
  refine runs_of_exec ((exec_verdictWord hl hv w free (waits.imp_right And.left)).trans (congrArg _ kept)) ⟨by rw [stall], ?_⟩
  exact unchanged_modSeq _ (by simp) (unchanged_refl s _)

variable (hs : (s.stall i).march.state = .verdict)
include hs

theorem tryVerdict_takeWord (w : VerdictWord) (all : ∀ m ∈ liveMembers (s.stall i) c, ∃ x ∈ withWord (s.stall i) w, x.member = m) :
    lostMembers ((s.takeWord i w).stall i) c = [] ∧ (s.takeWord i w).tryVerdict i false =
      if c.federated && c.caravanIx != 0 then
        (((s.takeWord i w).modSeq i fun q => { q with sentVerdict := true }).modLedger i fun l => { l with
          shortMembers := shortRegister ((shortMembers ((s.takeWord i w).stall i)).map fun e => e.2) }).send
            (.federationWord i (caravanWord ((s.takeWord i w).stall i) c))
      else if c.federated then (s.takeWord i w).federate i c (lostMembers ((s.takeWord i w).stall i) c) false
      else (s.takeWord i w).leadVerdict i c (formed (s.stall i) c (withWord (s.stall i) w) [] [] []) [] := by
  have stall := takeWord_stall s i w
  have none : lostMembers ((s.takeWord i w).stall i) c = [] := by
    rw [stall]
    exact (filter_words_eq_nil (liveMembers (s.stall i) c) (withWord (s.stall i) w) fun x => x.member).mpr all
  refine ⟨none, ?_⟩
  have verdict : formed ((s.takeWord i w).stall i) c ((s.takeWord i w).stall i).seq.words [] [] []
      = formed (s.stall i) c (withWord (s.stall i) w) [] [] [] := by rw [stall]; rfl
  rw [tryVerdict_ready (by rw [stall]; exact hc) false (by rw [stall]; exact hs) (by rw [stall]; exact hl)
    (by rw [stall]; exact hv) (.inl none), none, verdict]

theorem runs_verdictWord_last (w : VerdictWord) (free : isFenced (s.stall i) w.member = false) (alone : c.federated = false)
    (all : ∀ m ∈ liveMembers (s.stall i) c, ∃ x ∈ withWord (s.stall i) w, x.member = m) :
    let v := formed (s.stall i) c (withWord (s.stall i) w) [] [] []
    Runs (.verdictWord i w) s fun t =>
      ActedOn v (t.stall i) ∧ Out.caravanVerdict i v ∈ t.out ∧ (t.stall i).seq.sentVerdict = true
      ∧ Unchanged s t (marchParts i) := by
  intro v
  obtain ⟨-, run⟩ := tryVerdict_takeWord hc hl hv hs w all
  rw [alone] at run
  obtain ⟨acted, told, sent, -, -, frame⟩ := leadVerdict_facts (s.takeWord i w) i c v []
  refine runs_of_exec ((exec_verdictWord hl hv w free (.inr hs)).trans (congrArg _ run)) ⟨acted, told, sent, ?_⟩
  exact Unchanged.trans (unchanged_modSeq _ (by simp [marchParts]) (unchanged_refl s _)) frame

theorem runs_verdictWord_upward (w : VerdictWord) (free : isFenced (s.stall i) w.member = false) (within : c.federated = true)
    (further : c.caravanIx ≠ 0) (all : ∀ m ∈ liveMembers (s.stall i) c, ∃ x ∈ withWord (s.stall i) w, x.member = m) :
    Runs (.verdictWord i w) s fun t =>
      (∃ f : FederationWord, t.out = s.out ++ [.federationWord i f] ∧ f.caravan = c.caravanIx ∧ f.step = (s.stall i).settle.step
        ∧ ∀ x ∈ withWord (s.stall i) w, ∀ k < 13, bit x.causes k = true → bit f.causes k = true)
      ∧ (t.stall i).seq = { (s.stall i).seq with words := withWord (s.stall i) w, sentVerdict := true }
      ∧ Unchanged s t [.out, .stall i .seq, .stall i .ledger] := by
  have stall := takeWord_stall s i w
  obtain ⟨-, run⟩ := tryVerdict_takeWord hc hl hv hs w all
  rw [within, bne_iff_ne.mpr further] at run
  refine runs_of_exec ((exec_verdictWord hl hv w free (.inr hs)).trans (congrArg _ run)) ⟨?_, ?_, ?_⟩
  · refine ⟨caravanWord ((s.takeWord i w).stall i) c, rfl, rfl, by rw [stall]; rfl, fun x hx k _ hb => ?_⟩
    refine bit_combine (bit_combinedCauses_of_report (r := ⟨x.member, x.causes, x.reason, x.step⟩) ?_ hb)
    rw [stall]
    exact List.mem_map_of_mem hx
  · simp [stall]
  · exact unchanged_send _ (by simp) (unchanged_modLedger _ (by simp) (unchanged_modSeq _ (by simp) (unchanged_modSeq _ (by simp)
      (unchanged_refl s _))))

/-! ### Words that do not come (R62) -/

theorem runs_verdictLost (alone : c.federated = false) :
    let lost := lostMembers (s.stall i) c
    let v := formed (s.stall i) c (s.stall i).seq.words [] lost []
    Runs (.verdictLost i) s fun t =>
      t.time = maxU s.time ((s.stall i).seq.verdictTick + 10000) ∧ ActedOn v (t.stall i) ∧ Out.caravanVerdict i v ∈ t.out
      ∧ (lost ≠ [] → bit v.causes 6 = true) ∧ Unchanged s t (.time :: marchParts i) := by
  obtain ⟨b, hb⟩ : ∃ b, (s.stall i).seq.verdictTick + 10000 = b := ⟨_, rfl⟩
  rw [hb]
  intro lost v
  have stall : (s.atTime b).stall i = s.stall i := rfl
  have run := tryVerdict_ready (s := s.atTime b) (i := i) hc true hs hl hv (.inr rfl)
  rw [alone] at run
  have taken : execVerdictLost i s = .next ((s.atTime b).leadVerdict i c v lost) := by
    have : execVerdictLost i s = .next ((s.atTime b).tryVerdict i true) := by
      simp only [execVerdictLost, hs, hl, hv, hb]
      rfl
    exact this.trans (congrArg _ run)
  obtain ⟨acted, told, -, -, -, frame⟩ := leadVerdict_facts (s.atTime b) i c v lost
  refine runs_of_exec taken ⟨?_, acted, told, fun some => bit_formed_lost (.inl some), ?_⟩
  · exact (frame .time (by simp [marchParts])).trans (by simp)
  · exact Unchanged.trans (unchanged_atTime _ (by simp) (unchanged_refl s _)) (Unchanged.mono frame (by simp +contextual))

end lead

/-! ### The words of the caravans (R243) -/

section federation
variable (hc : (s.stall i).charter.active = some c) (hl : (s.stall i).march.lead = true)
  (hv : (s.stall i).seq.sentVerdict = false) (within : c.federated = true) (first : c.caravanIx = 0)
include hc hl hv within first

/-- The words of the caravans with the newest. -/
def withCaravan (t : StallState) (w : FederationWord) : List FederationWord :=
  (t.seq.fedWords.filter fun x => x.caravan != w.caravan) ++ [w]

/-- The federation's lead that has taken a caravan's word. -/
def State.takeCaravanWord (s : State) (i : Stall) (w : FederationWord) : State :=
  s.modSeq i fun q => { q with fedWords := q.fedWords.filter (fun x => x.caravan != w.caravan) ++ [w] }

omit hc hl hv within first in
theorem takeCaravanWord_stall (s : State) (i : Stall) (w : FederationWord) : (s.takeCaravanWord i w).stall i =
    { s.stall i with seq := { (s.stall i).seq with fedWords := withCaravan (s.stall i) w } } := by
  simp [State.takeCaravanWord, State.modSeq, withCaravan]

theorem exec_federationWord (w : FederationWord) : exec (.federationWord i w) s =
    .next ((s.takeCaravanWord i w).tryVerdict i (decide ((s.stall i).seq.verdictTick.toNat + 10000 ≤ s.time.toNat))) := by
  have run : execFederationWord i w s =
      .next ((s.takeCaravanWord i w).tryVerdict i (decide ((s.stall i).seq.verdictTick.toNat + 10000 ≤ s.time.toNat))) := by
    simp only [execFederationWord, hc, hl, hv, within, first]
    rfl
  exact run

/-- At the federation's lead the words of the members, once complete, wait for those of the caravans. -/
theorem tryVerdict_takeCaravanWord (w : FederationWord) (force : Bool) (hs : (s.stall i).march.state = .verdict)
    (ready : lostMembers (s.stall i) c = [] ∨ force = true) :
    (s.takeCaravanWord i w).tryVerdict i force = (s.takeCaravanWord i w).federate i c (lostMembers (s.stall i) c) false := by
  have stall := takeCaravanWord_stall s i w
  have same : lostMembers ((s.takeCaravanWord i w).stall i) c = lostMembers (s.stall i) c := by rw [stall]; rfl
  rw [tryVerdict_ready (by rw [stall]; exact hc) force (by rw [stall]; exact hs) (by rw [stall]; exact hl) (by rw [stall]; exact hv)
    (by rw [same]; exact ready), same, within, first]
  rfl

theorem runs_federationWord_kept (w : FederationWord)
    (waits : (s.stall i).march.state ≠ .verdict
      ∨ lostMembers (s.stall i) c ≠ [] ∧ s.time.toNat < (s.stall i).seq.verdictTick.toNat + 10000
      ∨ ∃ k ∈ otherCaravans c, ∀ x ∈ withCaravan (s.stall i) w, x.caravan ≠ k) :
    Runs (.federationWord i w) s fun t =>
      (t.stall i).seq = { (s.stall i).seq with fedWords := withCaravan (s.stall i) w } ∧ Unchanged s t [.stall i .seq] := by
  have stall := takeCaravanWord_stall s i w
  have kept : (s.takeCaravanWord i w).tryVerdict i (decide ((s.stall i).seq.verdictTick.toNat + 10000 ≤ s.time.toNat))
      = s.takeCaravanWord i w := by
    have same : lostMembers ((s.takeCaravanWord i w).stall i) c = lostMembers (s.stall i) c := by rw [stall]; rfl
    have active : ((s.takeCaravanWord i w).stall i).charter.active = some c := by rw [stall]; exact hc
    generalize hf : decide ((s.stall i).seq.verdictTick.toNat + 10000 ≤ s.time.toNat) = force
    -- either the members' words are waited for, or those of the caravans
    by_cases idle : (s.stall i).march.state ≠ .verdict ∨ lostMembers (s.stall i) c ≠ [] ∧ force = false
    · refine tryVerdict_waits active force ?_
      rw [same, stall]
      exact idle
    · push Not at idle
      obtain ⟨hs, ready⟩ := idle
      have ready : lostMembers (s.stall i) c = [] ∨ force = true :=
        or_iff_not_imp_left.mpr fun h => by simpa using ready h
      have missing : ∃ k ∈ otherCaravans c, ∀ x ∈ withCaravan (s.stall i) w, x.caravan ≠ k := by
        obtain h | ⟨lost, early⟩ | h := waits
        · exact absurd hs h
        · obtain h | h := ready
          · exact absurd h lost
          · rw [← hf] at h
            exact absurd (of_decide_eq_true h) (by omega)
        · exact h
      have absent : absentCaravans ((s.takeCaravanWord i w).stall i) c ≠ [] := by
        rw [stall]
        exact (filter_words_ne_nil (otherCaravans c) (withCaravan (s.stall i) w) fun x => x.caravan).mpr missing
      rw [tryVerdict_takeCaravanWord hc hl hv within first w force hs ready, federate_eq, if_pos (by simp [absent])]
  refine runs_of_exec ((exec_federationWord hc hl hv within first w).trans (congrArg _ kept)) ⟨by rw [stall], ?_⟩
  exact unchanged_modSeq _ (by simp) (unchanged_refl s _)

theorem runs_federationWord_last (w : FederationWord) (hs : (s.stall i).march.state = .verdict)
    (ready : lostMembers (s.stall i) c = [] ∨ (s.stall i).seq.verdictTick.toNat + 10000 ≤ s.time.toNat)
    (all : ∀ k ∈ otherCaravans c, ∃ x ∈ withCaravan (s.stall i) w, x.caravan = k) :
    let lost := lostMembers (s.stall i) c
    let v := formed (s.stall i) c (s.stall i).seq.words (withCaravan (s.stall i) w) lost []
    Runs (.federationWord i w) s fun t =>
      ActedOn v (t.stall i) ∧ Out.caravanVerdict i v ∈ t.out ∧ (lost ≠ [] → bit v.causes 6 = true)
      ∧ Unchanged s t (marchParts i) := by
  intro lost v
  have stall := takeCaravanWord_stall s i w
  have absent : absentCaravans ((s.takeCaravanWord i w).stall i) c = [] := by
    rw [stall]
    exact (filter_words_eq_nil (otherCaravans c) (withCaravan (s.stall i) w) fun x => x.caravan).mpr all
  have run : (s.takeCaravanWord i w).tryVerdict i (decide ((s.stall i).seq.verdictTick.toNat + 10000 ≤ s.time.toNat))
      = (s.takeCaravanWord i w).leadVerdict i c v lost := by
    have unsent : ((s.takeCaravanWord i w).stall i).seq.sentVerdict = false := by rw [stall]; exact hv
    rw [tryVerdict_takeCaravanWord hc hl hv within first w _ hs (ready.imp_right fun h => decide_eq_true h), federate_eq,
      if_neg (by simp [absent, unsent]), absent, stall]
    rfl
  obtain ⟨acted, told, -, -, -, frame⟩ := leadVerdict_facts (s.takeCaravanWord i w) i c v lost
  refine runs_of_exec ((exec_federationWord hc hl hv within first w).trans (congrArg _ run))
    ⟨acted, told, fun some => bit_formed_lost (.inl some), ?_⟩
  exact Unchanged.trans (unchanged_modSeq _ (by simp [marchParts]) (unchanged_refl s _)) frame

theorem runs_federationWordTimeout (hs : (s.stall i).march.state = .verdict) :
    let lost := lostMembers (s.stall i) c
    let absent := absentCaravans (s.stall i) c
    let v := formed (s.stall i) c (s.stall i).seq.words (s.stall i).seq.fedWords lost (absent.map fun _ => 0x7F)
    Runs (.federationWordTimeout i) s fun t =>
      t.time = maxU s.time ((s.stall i).seq.verdictTick + 11000) ∧ ActedOn v (t.stall i) ∧ Out.caravanVerdict i v ∈ t.out
      ∧ (absent ≠ [] → bit v.causes 6 = true) ∧ Unchanged s t (.time :: marchParts i) := by
  obtain ⟨b, hb⟩ : ∃ b, (s.stall i).seq.verdictTick + 11000 = b := ⟨_, rfl⟩
  rw [hb]
  intro lost absent v
  have run : (s.atTime b).federate i c lost true = (s.atTime b).leadVerdict i c v lost := by
    rw [federate_eq, if_neg (by simp [hv])]
    rfl
  have taken : execFederationWordTimeout i s = .next ((s.atTime b).leadVerdict i c v lost) := by
    rw [← run]
    simp only [execFederationWordTimeout, hc, hs, hl, hv, within, first, hb]
    rfl
  obtain ⟨acted, told, -, -, -, frame⟩ := leadVerdict_facts (s.atTime b) i c v lost
  refine runs_of_exec taken ⟨?_, acted, told, fun some => bit_formed_lost (.inr ?_), ?_⟩
  · exact (frame .time (by simp [marchParts])).trans (by simp)
  · simpa using some
  · exact Unchanged.trans (unchanged_atTime _ (by simp) (unchanged_refl s _)) (Unchanged.mono frame (by simp +contextual))

end federation

/-- Settles O30, one word or wait at a time. -/
theorem verdictsAreFormedAtTheLead : Obligations.VerdictsAreFormedAtTheLead := by
  intro s i c hc hl hv
  refine ⟨fun w free => ⟨runs_verdictWord_kept hc hl hv w free, fun hs => runs_verdictWord_last hc hl hv hs w free,
      fun hs => runs_verdictWord_upward hc hl hv hs w free⟩, runs_verdictLost hc hl hv,
    fun within first => ⟨fun w => ⟨runs_federationWord_kept hc hl hv within first w,
      runs_federationWord_last hc hl hv within first w⟩, runs_federationWordTimeout hc hl hv within first⟩⟩

end Sys2Proof.Machine
end

section
/-! PROOFS. Transfers and their flits (R53, R54, R308, R310, R311, R328). -/

namespace Sys2Proof.Machine

open Sys2Proof.Safety

variable {s t : State} {l : List Part} {i : Stall} {c : Charter} {p : PortId}

/-! ### Headers (Table 11-1) -/

/-- A field set into a header has no bits outside its place. -/
theorem getLsbD_placed {w : Nat} (x : BitVec w) (lo : Nat) {k : Nat} (hk : ¬(lo ≤ k ∧ k < lo + w)) :
    (x.setWidth 128 <<< lo).getLsbD k = false := by
  rw [BitVec.getLsbD_shiftLeft, BitVec.getLsbD_setWidth]
  by_cases low : k < lo
  · simp [low]
  · have high : w ≤ k - lo := by omega
    simp [BitVec.getLsbD_of_ge x _ high]

/-- The bits of SEQ, ACK and NAK. -/
theorem getLsbD_linkMask {k : Nat} (hk : 3 ≤ k ∧ k < 28) : ((BitVec.allOnes 25).setWidth 128 <<< 3).getLsbD k = true := by
  rw [BitVec.getLsbD_shiftLeft, BitVec.getLsbD_setWidth, BitVec.getLsbD_allOnes]
  simp only [Bool.and_eq_true, decide_eq_true_eq, Bool.not_eq_true', decide_eq_false_iff_not]
  omega

/-- Numbering changes SEQ, ACK and NAK alone. -/
theorem getLsbD_numbered (h : BitVec 128) (seq ack : BitVec 12) (nak : Bool) {k : Nat} (hk : ¬(3 ≤ k ∧ k < 28)) (h128 : k < 128) :
    (numbered h seq ack nak).getLsbD k = h.getLsbD k := by
  unfold numbered
  rw [BitVec.getLsbD_or, BitVec.getLsbD_or, BitVec.getLsbD_or, BitVec.getLsbD_and, BitVec.getLsbD_not,
    getLsbD_placed _ 3 hk, getLsbD_placed seq 3 (by omega), getLsbD_placed ack 15 (by omega),
    getLsbD_placed (BitVec.ofBool nak) 27 (by omega)]
  simp [h128]

theorem getLsbD_numbered_zero (h : BitVec 128) {k : Nat} (hk : 3 ≤ k ∧ k < 28) :
    (numbered h 0 0 false).getLsbD k = false := by
  unfold numbered
  rw [BitVec.getLsbD_or, BitVec.getLsbD_or, BitVec.getLsbD_or, BitVec.getLsbD_and, BitVec.getLsbD_not, getLsbD_linkMask hk]
  simp

theorem numbered_numbered (h : BitVec 128) (seq ack : BitVec 12) (nak : Bool) :
    numbered (numbered h seq ack nak) 0 0 false = numbered h 0 0 false := by
  apply BitVec.eq_of_getLsbD_eq
  intro k h128
  by_cases hk : 3 ≤ k ∧ k < 28
  · rw [getLsbD_numbered_zero _ hk, getLsbD_numbered_zero _ hk]
  · rw [getLsbD_numbered _ _ _ _ hk h128, getLsbD_numbered _ _ _ _ hk h128, getLsbD_numbered _ _ _ _ hk h128]

section header
variable (cls : Nat) (last : Bool) (len : Nat) (dst : Member) (dc : BitVec 6) (src : Member) (sc : BitVec 6) (msg index : Nat)

/-- The fields of a header are what it was built from; between CLASS and LAST it is zero. -/
theorem flitHeader_fields :
    let h := flitHeader cls last len dst dc src sc msg index
    fld h 0 3 = BitVec.ofNat 3 cls ∧ fld h 3 36 = 0 ∧ fld h 39 1 = BitVec.ofBool last ∧ fld h 40 9 = BitVec.ofNat 9 len
    ∧ fld h 64 7 = dst ∧ fld h 71 6 = dc ∧ fld h 77 7 = src ∧ fld h 84 6 = sc ∧ fld h 90 16 = BitVec.ofNat 16 msg
    ∧ fld h 106 22 = BitVec.ofNat 22 index := by
  refine ⟨?_, ?_, ?_, ?_, ?_, ?_, ?_, ?_, ?_, ?_⟩
  all_goals
    unfold flitHeader fld
    repeat rw [BitVec.extractLsb'_append_eq_of_le (by decide)]
  case refine_10 => simp
  all_goals
    rw [BitVec.extractLsb'_append_eq_of_add_le (by decide)]
    simp

/-- A header carries no SEQ, ACK or NAK before the link layer numbers it. -/
theorem numbered_flitHeader : numbered (flitHeader cls last len dst dc src sc msg index) 0 0 false
    = flitHeader cls last len dst dc src sc msg index := by
  obtain ⟨-, zero, -⟩ := flitHeader_fields cls last len dst dc src sc msg index
  apply BitVec.eq_of_getLsbD_eq
  intro k h128
  by_cases hk : 3 ≤ k ∧ k < 28
  · have field := congrArg (fun x => x.getLsbD (k - 3)) zero
    have within : k - 3 < 36 := by omega
    have back : 3 + (k - 3) = k := by omega
    simp only [fld, BitVec.getLsbD_extractLsb', within, back, decide_true, Bool.true_and] at field
    rw [getLsbD_numbered_zero _ hk, field]
    simp
  · exact getLsbD_numbered _ _ _ _ hk h128

end header

/-! ### The flits of a transfer (R308, R310) -/

theorem length_readBytes (s : State) (i : Stall) (va n : Nat) : (s.readBytes i va n).length = n := by simp [State.readBytes]

theorem take_drop_readBytes (s : State) (i : Stall) (va n m j : Nat) :
    ((s.readBytes i va n).drop m).take j = s.readBytes i (va + m) (min j (n - m)) := by
  apply List.ext_getElem
  · simp [length_readBytes]
  · intro k _ _
    simp [State.readBytes, Nat.add_assoc]

/-- Flit `k` of a transfer: its header names it, and its payload holds its bytes. -/
theorem transferFlits_get {r : BitVec 256} {n k : Nat} {f : Flit} (hf : (transferFlits s i c r n)[k]? = some f) :
    256 * k < rtBytes r
    ∧ f.header = flitHeader 0 (decide (rtBytes r ≤ 256 * (k + 1))) (min 256 (rtBytes r - 256 * k)) (rtMember r) (rtCaravan r)
        (ownRole (s.stall i)) c.caravanIx n k
    ∧ f.payload = s.readBytes i (rtAddr r + 256 * k) (min 256 (rtBytes r - 256 * k))
        ++ List.replicate (256 - min 256 (rtBytes r - 256 * k)) 0 := by
  simp only [transferFlits, messageFlits, List.getElem?_map, Option.map_eq_some_iff, List.getElem?_eq_some_iff, List.getElem_range,
    List.length_range, length_readBytes, ceilDiv, take_drop_readBytes] at hf
  obtain ⟨k, ⟨hk, rfl⟩, rfl⟩ := hf
  have last : (k + 1 == (rtBytes r + 256 - 1) / 256) = decide (rtBytes r ≤ 256 * (k + 1)) := by
    rw [Bool.eq_iff_iff, beq_iff_eq, decide_eq_true_eq]
    omega
  exact ⟨by omega, by rw [last], rfl⟩

theorem length_transferFlits (r : BitVec 256) (n : Nat) : (transferFlits s i c r n).length = (rtBytes r + 255) / 256 := by
  simp [transferFlits, messageFlits, length_readBytes, ceilDiv]

theorem transferFlits_fields {r : BitVec 256} {n k : Nat} {f : Flit} (hn : n < 65536) (hr : rtBytes r ≤ 1073741824)
    (hf : (transferFlits s i c r n)[k]? = some f) :
    256 * k < rtBytes r
    ∧ flClass f.header = 0 ∧ flMsg f.header = n ∧ flIndex f.header = k ∧ flLen f.header = min 256 (rtBytes r - 256 * k)
    ∧ flDst f.header = rtMember r ∧ flDstCaravan f.header = rtCaravan r ∧ flSrc f.header = ownRole (s.stall i)
    ∧ flSrcCaravan f.header = c.caravanIx ∧ bit f.header 39 = decide (rtBytes r ≤ 256 * (k + 1))
    ∧ f.payload.length = 256 ∧ f.payload.take (flLen f.header) = s.readBytes i (rtAddr r + 256 * k) (flLen f.header) := by
  obtain ⟨there, header, payload⟩ := transferFlits_get hf
  obtain ⟨cls, -, last, len, dst, dc, src, sc, msg, index⟩ := flitHeader_fields 0 (decide (rtBytes r ≤ 256 * (k + 1)))
    (min 256 (rtBytes r - 256 * k)) (rtMember r) (rtCaravan r) (ownRole (s.stall i)) c.caravanIx n k
  rw [← header] at cls last len dst dc src sc msg index
  have length : flLen f.header = min 256 (rtBytes r - 256 * k) := by
    refine (congrArg BitVec.toNat len).trans ?_
    rw [BitVec.toNat_ofNat]
    omega
  have final : bit f.header 39 = decide (rtBytes r ≤ 256 * (k + 1)) := by
    have field := congrArg (fun x => x.getLsbD 0) last
    simpa [fld, bit] using field
  refine ⟨there, congrArg BitVec.toNat cls, ?_, ?_, length, dst, dc, src, sc, final, ?_, ?_⟩
  · refine (congrArg BitVec.toNat msg).trans ?_
    rw [BitVec.toNat_ofNat]
    omega
  · refine (congrArg BitVec.toNat index).trans ?_
    rw [BitVec.toNat_ofNat]
    omega
  · rw [payload, List.length_append, length_readBytes, List.length_replicate]
    omega
  · rw [payload, length, List.take_append_of_le_length (by rw [length_readBytes]), List.take_of_length_le (by rw [length_readBytes])]

/-! ### The queue and the window of a port (R309, R311) -/

/-- The flits of a port that wait or are unacknowledged are as they were. -/
def KeepsFlits (p : PortId) (s t : State) : Prop := (t.lnk p).window = (s.lnk p).window ∧ (t.lnk p).queue = (s.lnk p).queue

theorem keepsFlits_refl (p : PortId) (s : State) : KeepsFlits p s s := ⟨rfl, rfl⟩

theorem KeepsFlits.trans {u : State} (h : KeepsFlits p s t) (h' : KeepsFlits p t u) : KeepsFlits p s u :=
  ⟨h'.1.trans h.1, h'.2.trans h.2⟩

theorem keepsFlits_of_lnk (h : t.lnk p = s.lnk p) : KeepsFlits p s t := ⟨by rw [h], by rw [h]⟩

theorem keepsFlits_modLnk (s : State) (q : PortId) (f : LinkLayer → LinkLayer) (hw : ∀ x, (f x).window = x.window)
    (hq : ∀ x, (f x).queue = x.queue) : KeepsFlits p s (s.modLnk q f) := by
  by_cases h : p = q
  · subst h
    rw [KeepsFlits, State.modLnk_lnk_self]
    exact ⟨hw _, hq _⟩
  · exact keepsFlits_of_lnk (State.modLnk_lnk_other s q p f h)

theorem keepsFlits_send (s : State) (o : Out) : KeepsFlits p s (s.send o) := ⟨rfl, rfl⟩

theorem keepsFlits_record (s : State) (r : Rec) : KeepsFlits p s (s.record r) :=
  keepsFlits_of_lnk (by rw [State.lnk, record_fabric]; rfl)

theorem keepsFlits_emit (s : State) (q : PortId) (f : Flit) : KeepsFlits p s (s.emit q f) := by
  unfold State.emit
  extract_lets s1
  split
  · exact keepsFlits_modLnk (s1.send _) q _ (fun _ => rfl) fun _ => rfl
  · exact keepsFlits_refl p s

theorem keepsFlits_countInjection (s : State) (q : PortId) (a : BitVec 2) : KeepsFlits p s (s.countInjection q a) := by
  unfold State.countInjection
  extract_lets k a' n due s1
  have counted : KeepsFlits p s s1 := keepsFlits_modLnk s q _ (fun _ => rfl) fun _ => rfl
  split
  · exact counted.trans (keepsFlits_record s1 _)
  · exact counted

theorem keepsFlits_checkSwitch (s : State) (q : PortId) : KeepsFlits p s (s.checkSwitch q) := by
  unfold State.checkSwitch State.switchLanes
  exact (keepsFlits_of_lnk rfl).trans (keepsFlits_modLnk _ q _ (fun _ => rfl) fun _ => rfl)

theorem keepsFlits_leaveBuffer (s : State) (q : QueuedFlit) : KeepsFlits p s (s.leaveBuffer q) := by
  unfold State.leaveBuffer State.freeBuffer
  split
  · next b _ =>
      extract_lets s1
      have freed : KeepsFlits p s s1 := keepsFlits_modLnk s b _ (fun _ => rfl) fun _ => rfl
      exact freed.trans (keepsFlits_send s1 _)
  · exact keepsFlits_refl p s

/-- A flit that is transmitted is numbered and enters the window (R311), whatever the bandit does to it on the lanes. -/
theorem transmit_lnk (s : State) (p : PortId) (f : Flit) : ∃ w : SentFlit, numbered w.flit.header 0 0 false = numbered f.header 0 0 false
    ∧ w.flit.payload = f.payload ∧ ((s.transmit p f).lnk p).window = (s.lnk p).window ++ [w]
    ∧ ((s.transmit p f).lnk p).queue = (s.lnk p).queue := by
  generalize hu : s.transmit p f = u
  unfold State.transmit at hu
  extract_lets k hd g kk s1 offered s2 at hu
  have entered : (s1.lnk p).window = (s.lnk p).window ++ [⟨flSeq hd, g, s.time⟩] ∧ (s1.lnk p).queue = (s.lnk p).queue := by
    simp [s1]
  have kept : KeepsFlits p s1 u := by
    have h2 : KeepsFlits p s1 s2 := by
      unfold s2
      split
      · exact keepsFlits_modLnk s1 p _ (fun _ => rfl) fun _ => rfl
      · exact keepsFlits_refl p s1
    have h3 := h2.trans (keepsFlits_countInjection s2 p k.banditAction)
    rw [← hu]
    clear hu
    clear_value s2
    obtain ⟨x0, x1⟩ := banditDraw s p k.offered
    refine KeepsFlits.trans ?_ (keepsFlits_checkSwitch _ p)
    simp only []
    split
    · exact h2.trans (keepsFlits_emit s2 p g)
    · split
      · exact h3
      · split
        · exact h3.trans (keepsFlits_emit _ p _)
        · split
          · exact h3.trans (keepsFlits_modLnk _ p _ (fun _ => rfl) fun _ => rfl)
          · exact h3.trans (keepsFlits_modLnk _ p _ (fun _ => rfl) fun _ => rfl)
  obtain ⟨window, queue⟩ := kept
  refine ⟨⟨flSeq hd, g, s.time⟩, numbered_numbered _ _ _ _, rfl, ?_, ?_⟩
  · rw [window, entered.1]
  · rw [queue, entered.2]

/-- From `s` to `t` no flit of a port is lost: as many wait or are unacknowledged, and one that waited waits, or is numbered
in the window. -/
structure LosesNone (p : PortId) (s t : State) : Prop where
  count : (t.lnk p).window.length + (t.lnk p).queue.length = (s.lnk p).window.length + (s.lnk p).queue.length
  waits : ∀ f : Flit, numbered f.header 0 0 false = f.header → Waits s p f → Waits t p f

theorem LosesNone.trans {u : State} (h : LosesNone p s t) (h' : LosesNone p t u) : LosesNone p s u :=
  ⟨h'.count.trans h.count, fun f hf hw => h'.waits f hf (h.waits f hf hw)⟩

theorem losesNone_refl (p : PortId) (s : State) : LosesNone p s s := ⟨rfl, fun _ _ h => h⟩

theorem KeepsFlits.losesNone (h : KeepsFlits p s t) : LosesNone p s t := by
  obtain ⟨window, queue⟩ := h
  exact ⟨by rw [window, queue], fun f _ hw => by rwa [Waits, window, queue]⟩

theorem nextFlit_mem {x : LinkLayer} {q : QueuedFlit} (h : nextFlit x = some q) : q ∈ x.queue := by
  obtain ⟨k, -, found⟩ := List.exists_of_findSome?_eq_some h
  split at found
  · exact absurd found (by simp)
  · exact List.mem_of_find?_eq_some found

/-- The flit that leaves the queue enters the window. -/
theorem losesNone_next (s : State) (p : PortId) {q : QueuedFlit} (hq : q ∈ (s.lnk p).queue) :
    LosesNone p s ((s.modLnk p fun l => { l with queue := l.queue.erase q }).transmit p q.flit) := by
  obtain ⟨w, header, payload, window, queue⟩ := transmit_lnk (s.modLnk p fun l => { l with queue := l.queue.erase q }) p q.flit
  simp only [State.modLnk_lnk_self] at window queue
  refine ⟨?_, fun f hf hw => ?_⟩
  · have := List.length_erase_of_mem hq
    have := List.length_pos_of_mem hq
    rw [window, queue, List.length_append, List.length_singleton]
    omega
  · unfold Waits
    rw [window, queue]
    obtain ⟨x, hx, rfl⟩ | ⟨x, hx, same⟩ := hw
    · by_cases there : x = q
      · subst there
        exact .inr ⟨w, List.mem_append_right _ (List.mem_singleton_self w), header.trans hf, payload⟩
      · exact .inl ⟨x, (List.mem_erase_of_ne there).mpr hx, rfl⟩
    · exact .inr ⟨x, List.mem_append_left _ hx, same⟩

theorem losesNone_pump (s : State) (p : PortId) (n : Nat) : LosesNone p s (s.pump p n) := by
  induction n generalizing s with
  | zero => exact losesNone_refl p s
  | succ n ih =>
    unfold State.pump
    extract_lets k
    split
    · exact losesNone_refl p s
    · split
      · exact losesNone_refl p s
      · next q hq =>
        exact ((losesNone_next s p (nextFlit_mem hq)).trans (keepsFlits_leaveBuffer _ q).losesNone).trans (ih _)

/-- Queued flits wait on their port (R309). -/
theorem queueFlits_waits (s : State) (p : PortId) (fs : List Flit) (plain : ∀ f ∈ fs, numbered f.header 0 0 false = f.header) :
    let t := s.queueFlits p (fs.map fun f => { flit := f })
    (∀ f ∈ fs, Waits t p f)
    ∧ (t.lnk p).window.length + (t.lnk p).queue.length = (s.lnk p).window.length + (s.lnk p).queue.length + fs.length := by
  let queued := s.modLnk p fun l => { l with queue := l.queue ++ fs.map fun f => ({ flit := f } : QueuedFlit) }
  obtain ⟨count, waits⟩ := losesNone_pump queued p (queued.lnk p).queue.length
  refine ⟨fun f hf => waits f (plain f hf) (.inl ⟨{ flit := f }, ?_, rfl⟩), count.trans ?_⟩
  · simp [queued, hf]
  · simp [queued]
    omega

/-! ### Sends and receptions (R53, R310) -/

section transfer
variable {n : Nat} (hc : (s.stall i).charter.active = some c)
include hc

section send
variable {r : RouteRec} (hr : c.sends[n]? = some r) (hd : due (s.stall i) c (.send n) = true)
include hr hd

/-- A send without bytes is done at once (R14). -/
theorem runs_routeSend_empty (hb : rtBytes r.raw = 0) : Runs (.routeSend i n) s fun t =>
    isDone (t.stall i) (.send n) = true ∧ t.out = s.out ∧ Unchanged s t [.stall i .seq] := by
  have taken : execRouteSend i n s = .next ((s.markRan i (.send n)).modSeq i fun q =>
      { q with done := q.done ++ [⟨.send n, s.time⟩] }) := by
    simp only [execRouteSend, hc, hr, hd, hb]
    rfl
  refine runs_of_exec taken ⟨?_, rfl, unchanged_modSeq _ (by simp) (unchanged_modSeq _ (by simp) (unchanged_refl s _))⟩
  simp [isDone]

theorem runs_routeSend (p : PortId) (b : Bool) (hb : 0 < rtBytes r.raw)
    (path : exitPort s c (s.stall i) (rtMember r.raw) (rtCaravan r.raw) none = some (p, b))
    (free : sendBlocked s i c n p = false) : Runs (.routeSend i n) s fun t =>
      t.mem = s.mem ∧ (∀ f ∈ transferFlits s i c r.raw n, Waits t p f)
      ∧ (t.lnk p).window.length + (t.lnk p).queue.length
        = (s.lnk p).window.length + (s.lnk p).queue.length + (rtBytes r.raw + 255) / 256
      ∧ isDone (t.stall i) (.send n) = isDone (s.stall i) (.send n)
      ∧ Unchanged s t ([.out, .log, .stall i .seq] ++ everyPort ++ tierParts) := by
  let counted := (s.markRan i (.send n)).countRead i (rtAddr r.raw) (rtBytes r.raw)
  let flits := (transferFlits s i c r.raw n).map fun f => ({ flit := f } : QueuedFlit)
  have taken : execRouteSend i n s = .next (counted.queueFlits p flits) := by
    have some_ : ¬rtBytes r.raw = 0 := by omega
    simp only [execRouteSend, hc, hr, hd, path, free]
    simp [some_, counted, flits]
  have plain : ∀ f ∈ transferFlits s i c r.raw n, numbered f.header 0 0 false = f.header := by
    intro f hf
    obtain ⟨k, hk⟩ := List.mem_iff_getElem?.mp hf
    obtain ⟨-, header, -⟩ := transferFlits_get hk
    rw [header, numbered_flitHeader]
  have read : Unchanged (s.markRan i (.send n)) counted tierParts := unchanged_countRead _ _ _ (fun _ h => h) (unchanged_refl _ _)
  have link : counted.lnk p = s.lnk p := read (.lnk p) (by simp [tierParts])
  have queued : Unchanged counted (counted.queueFlits p flits) ([.out, .log] ++ everyPort) :=
    unchanged_queueFlits ⟨by simp, by simp, by simp, by simp⟩ flits (unchanged_refl _ _)
  have seq : ((counted.queueFlits p flits).stall i).seq.done = (s.stall i).seq.done := by
    have h1 : (counted.queueFlits p flits).stall i = counted.stall i := Unchanged.stall_eq queued (by simp)
    have h2 : counted.stall i = (s.markRan i (.send n)).stall i := Unchanged.stall_eq read (by simp)
    rw [h1, h2]
    simp [State.markRan]
  obtain ⟨waits, count⟩ := queueFlits_waits counted p (transferFlits s i c r.raw n) plain
  refine runs_of_exec taken ⟨?_, waits, ?_, ?_, ?_⟩
  · exact (queued .mem (by simp [everyPort])).trans (countRead_mem _ _ _ _)
  · rw [count, link, length_transferFlits]
  · simp only [isDone, seq]
  · refine Unchanged.trans ?_ (Unchanged.mono queued (by simp +contextual))
    exact unchanged_countRead _ _ _ (fun _ h => by simp [h]) (unchanged_modSeq _ (by simp) (unchanged_refl s _))

/-- A destination without a path is a missing peer (R328). -/
theorem runs_routeSend_lost (hb : 0 < rtBytes r.raw)
    (path : exitPort s c (s.stall i) (rtMember r.raw) (rtCaravan r.raw) none = none) (hs : (s.stall i).march.state = .legs) :
    Runs (.routeSend i n) s fun t =>
      bit (t.stall i).seq.causes 6 = true ∧ (∃ e ∈ (t.stall i).seq.missing, e.1 = rtMember r.raw)
      ∧ (t.stall i).seq.stopped = true ∧ Unchanged s t [.out, .stall i .seq] := by
  have taken : execRouteSend i n s = .next (s.missingPeer i (rtMember r.raw) 0x020D) := by
    have some_ : ¬rtBytes r.raw = 0 := by omega
    simp [execRouteSend, hc, hr, hd, path, some_]
  obtain ⟨fault, missing, stopped⟩ := missingPeer_legs s i (rtMember r.raw) 0x020D hs
  exact runs_of_exec taken ⟨fault, missing, stopped, unchanged_missingPeer _ _ (by simp) (by simp) (unchanged_refl s _)⟩

end send

theorem exec_receivedTransfer_early {r : RouteRec} (hr : c.recvs[n]? = some r) (missing : gotBytes s i n < rtBytes r.raw) :
    exec (.receivedTransfer i n) s = .next s := by
  have : execReceivedTransfer i n s = .next s := by
    simp [execReceivedTransfer, hc, hr, Nat.not_le.mpr missing]
  exact this

section recv
variable {r : RouteRec} (hr : c.recvs[n]? = some r) (hi : issuing (s.stall i) = true) (hw : s.waits .route = false)
  (hn : isDone (s.stall i) (.recv n) = false)
include hr hi hw hn

theorem runs_receivedTransfer (there : rtBytes r.raw ≤ gotBytes s i n) : Runs (.receivedTransfer i n) s fun t =>
    isDone (t.stall i) (.recv n) = true ∧ (∀ k, k ≠ .recv n → isDone (t.stall i) k = isDone (s.stall i) k)
    ∧ Unchanged s t [.stall i .seq] := by
  have taken : execReceivedTransfer i n s = .next ((s.markRan i (.recv n)).modSeq i fun q =>
      { q with done := q.done ++ [⟨.recv n, s.time⟩] }) := by
    simp [execReceivedTransfer, hc, hr, hi, hw, hn, there]
  refine runs_of_exec taken ⟨?_, fun k hk => ?_, unchanged_modSeq _ (by simp) (unchanged_modSeq _ (by simp) (unchanged_refl s _))⟩
  · simp [isDone]
  · have other : (EntryRef.recv n == k) = false := by simpa using hk.symm
    simp [isDone, State.markRan, other]

end recv

end transfer

/-- Settles O53: the header is the concatenation of its fields, and a port's queue and window lose no flit. -/
theorem transfersLeaveAsFlits : Obligations.TransfersLeaveAsFlits := by
  intro s i c n hc
  exact ⟨fun r hr hd => ⟨runs_routeSend_empty hc hr hd, runs_routeSend hc hr hd, runs_routeSend_lost hc hr hd⟩,
    fun r k f hn hb hf => transferFlits_fields hn hb hf,
    fun r hr hi hw hn => ⟨runs_receivedTransfer hc hr hi hw hn, exec_receivedTransfer_early hc hr⟩⟩

end Sys2Proof.Machine
end

section
/-! PROOFS. The origin of a march (R47, R64, R65, R137, R176, R246, R270, R327). -/

namespace Sys2Proof.Machine

open Sys2Proof.Safety

variable {s t : State} {l : List Part} {i : Stall} {c : Charter}

/-- What holds before a loop and is kept by each of its steps holds after it. -/
theorem forEach_invariant {α : Type} (P : State → Prop) (xs : List α) (f : State → α → State)
    (step : ∀ u, ∀ x ∈ xs, P u → P (f u x)) (h : P s) : P (forEach xs s f) := by
  unfold forEach
  induction xs generalizing s with
  | nil => exact h
  | cons x xs ih => exact ih (fun u y hy => step u y (List.mem_cons_of_mem x hy)) (step s x List.mem_cons_self h)

/-! ### The ports and units of a stall at an origin -/

/-- Whose port a port is depends on the stalls' pages. -/
theorem portStall_congr (h : ∀ j, (t.stall j).page = (s.stall j).page) : portStall t = portStall s := by
  funext p
  simp only [portStall, h]

theorem unchanged_dropAttempt (p : PortId) (ho : Part.out ∈ l) (hk : ∀ q, Part.lnk q ∈ l) (h : Unchanged s t l) :
    Unchanged s (t.dropAttempt p) l :=
  unchanged_forEach _ _ (fun _ q hu => unchanged_leaveBuffer q ho hk hu) (unchanged_modLnk _ (hk p) h)

theorem unchanged_refitPort (was : State) (p : PortId) (hl : ∀ q ∈ refitParts i, q ∈ l) (own : portStall t p = some i)
    (h : Unchanged s t l) : Unchanged s (t.refitPort was p) l := by
  unfold State.refitPort
  split
  · exact h
  · rw [own]
    exact unchanged_refit hl h

/-- A march that waits for its origin keeps all but MRC_FIT, and its sequencer all but HALT_NOFIT of the next march. -/
structure Awaits (i : Stall) (s t : State) : Prop where
  march : ∃ v e k x, (t.stall i).march = { (s.stall i).march with fitValid := v, fitEngine := e, fitLeg := k, fitExcess := x }
  seq : ∃ n r, (t.stall i).seq = { (s.stall i).seq with nextCauses := n, nextReasons := r }
    ∧ ∀ k, k ≠ 11 → bit n k = bit (s.stall i).seq.nextCauses k

theorem awaits_of_eq (hm : (t.stall i).march = (s.stall i).march) (hq : (t.stall i).seq = (s.stall i).seq) : Awaits i s t :=
  ⟨⟨_, _, _, _, hm⟩, ⟨_, _, hq, fun _ _ => rfl⟩⟩

theorem awaits_refl (s : State) (i : Stall) : Awaits i s s := awaits_of_eq rfl rfl

theorem Awaits.trans {u : State} (h : Awaits i s t) (h' : Awaits i t u) : Awaits i s u := by
  obtain ⟨⟨v, e, k, x, march⟩, n, r, seq, same⟩ := h
  obtain ⟨⟨v', e', k', x', march'⟩, n', r', seq', same'⟩ := h'
  refine ⟨⟨v', e', k', x', by rw [march', march]⟩, n', r', by rw [seq', seq], fun k hk => ?_⟩
  rw [same' k hk, seq]
  exact same k hk

theorem bit_clearBit_other {w : Nat} (x : BitVec w) {k n : Nat} (h : n ≠ k) : bit (clearBit x k) n = bit x n := by
  by_cases hn : n < w
  · by_cases hl : n < k
    · simp [bit, clearBit, hn, hl]
    · simp [bit, clearBit, hn, hl]
      omega
  · simp [bit, BitVec.getLsbD_of_ge _ n (Nat.le_of_not_lt hn)]

/-- The march waits for its origin. -/
def awaiting (t : StallState) : Prop := t.march.state = .armed ∨ t.march.state = .waitRepeat

theorem Awaits.awaiting (h : Awaits i s t) (hs : awaiting (s.stall i)) : awaiting (t.stall i) := by
  obtain ⟨v, e, k, x, march⟩ := h.march
  rw [Machine.awaiting, march]
  exact hs

theorem awaits_nofit (hs : awaiting (s.stall i)) : Awaits i s (s.nofit i) := by
  have next : s.nofit i = s.causeNext i vNofit 0x0203 := by
    obtain hs | hs := hs <;> simp [State.nofit, State.cause, hs]
  rw [next]
  refine ⟨⟨_, _, _, _, State.modSeq_march s i _⟩, _, _, State.modSeq_seq s i _, fun k hk => ?_⟩
  rw [bit_setBit]
  have other : (k == (vNofit : BitVec 4).toNat) = false := beq_false_of_ne hk
  simp [other]

theorem awaits_refitActive (hs : awaiting (s.stall i)) (c : Charter) : Awaits i s (s.refitActive i c) := by
  have report (f : March → March) (keeps : ∀ m, ∃ v e k x, f m = { m with fitValid := v, fitEngine := e, fitLeg := k, fitExcess := x }) :
      Awaits i s (s.modMarch i f) := by
    obtain ⟨v, e, k, x, march⟩ := keeps (s.stall i).march
    exact ⟨⟨v, e, k, x, by rw [State.modMarch_march, march]⟩, _, _, State.modMarch_seq s i f, fun _ _ => rfl⟩
  unfold State.refitActive
  split
  · next f _ =>
    have reported : Awaits i s (s.reportFit i f) := report _ fun m => ⟨_, _, _, _, rfl⟩
    exact reported.trans (awaits_nofit (reported.awaiting hs))
  · split
    · exact awaits_nofit hs
    · have held : Awaits i s (s.fitHeld i) := report _ fun m => ⟨_, _, _, _, rfl⟩
      refine held.trans ⟨⟨_, _, _, _, State.modSeq_march _ i _⟩, _, _, State.modSeq_seq _ i _, fun k hk => ?_⟩
      exact bit_clearBit_other _ hk

theorem refitPending_march_seq (s : State) (i : Stall) (c : Charter) :
    ((s.refitPending i c).stall i).march = (s.stall i).march ∧ ((s.refitPending i c).stall i).seq = (s.stall i).seq := by
  unfold State.refitPending
  extract_lets f t0 s1
  have dropped : (s1.stall i).march = (s.stall i).march ∧ (s1.stall i).seq = (s.stall i).seq := by
    constructor <;> simp [s1, State.noteRefusal]
  split
  · split
    · simpa using dropped
    · simpa using dropped
  · exact ⟨rfl, rfl⟩

theorem awaits_refit (hs : awaiting (s.stall i)) : Awaits i s (s.refit i) := by
  unfold State.refit
  extract_lets s1
  have active : Awaits i s s1 := by
    unfold s1
    split
    · exact awaits_refl s i
    · exact awaits_refitActive hs _
  split
  · exact active
  · exact active.trans (awaits_of_eq (refitPending_march_seq s1 i _).1 (refitPending_march_seq s1 i _).2)

/-- The parts that the units of a stall change at an origin, without a repeated fit proof. -/
def unitParts : List Part := [.out, .delivered, .messages] ++ everyCore ++ everyPort

theorem unchanged_setCounts (f : Fabric → Fabric) (hd : Part.delivered ∈ l) (hm : Part.messages ∈ l)
    (hf : ∀ x, ∃ d b m g, f x = { x with delivered := d, inbound := b, sentMsgs := m, got := g }) (h : Unchanged s t l) :
    Unchanged s { t with fabric := f t.fabric } l := by
  intro p hp
  have h0 := h p hp
  obtain ⟨d, b, m, g, same⟩ := hf t.fabric
  rw [same]
  cases p with
  | delivered => exact absurd hd hp
  | messages => exact absurd hm hp
  | _ => exact h0

/-- No port of a stall comes back into use at its next origin (R327). -/
def noneReturns (s : State) (i : Stall) : Prop := ∀ p, portStall s p = some i → (s.lnk p).returning = false

/-- The units of a stall at an origin: what they may change, and what the march keeps that begins. -/
theorem unitsOrigin_facts (s : State) (i : Stall) (new : Bool) (hp : ∀ j, Part.stall j .page ∉ l) (hl : ∀ p ∈ unitParts, p ∈ l)
    (hr : noneReturns s i ∨ ∀ q ∈ refitParts i, q ∈ l) (hs : awaiting (s.stall i)) :
    Unchanged s (s.unitsOrigin i new) l ∧ Awaits i s (s.unitsOrigin i new) := by
  have ho : Part.out ∈ l := hl _ (by simp [unitParts])
  have hk (q : PortId) : Part.lnk q ∈ l := hl _ (by simp [unitParts])
  unfold State.unitsOrigin
  extract_lets s1 back s2 s3
  let P (u : State) : Prop := Unchanged s u l ∧ Awaits i s u
  have keeps {u v : State} (hu : P u) (frame : Unchanged s v l) (same : v.stall i = u.stall i) : P v :=
    ⟨frame, hu.2.trans (awaits_of_eq (by rw [same]) (by rw [same]))⟩
  have h1 : P s1 := forEach_invariant P _ _ (fun u k _ hu =>
    keeps hu (unchanged_modCore _ (hl _ (by simp [unitParts])) hu.1) rfl) ⟨unchanged_refl s l, awaits_refl s i⟩
  have h2 : P s2 := forEach_invariant P _ _ (fun u p _ hu =>
    keeps hu (unchanged_modLnk _ (hk p) (unchanged_modPort _ (hl _ (by simp [unitParts])) hu.1)) rfl) h1
  have refitted : P (forEach back s2 fun s p => s.refitPort s1 p) := by
    refine forEach_invariant P _ _ (fun u p hb hu => ?_) h2
    have mine : portStall s p = some i ∧ (s.lnk p).returning = true := by simpa [back] using hb
    have own : portStall u p = some i :=
      (congrFun (portStall_congr fun j => hu.1 (.stall j .page) (hp j)) p).trans mine.1
    obtain none | parts := hr
    · exact absurd ((none p mine.1).symm.trans mine.2) (by decide)
    · refine ⟨unchanged_refitPort s1 p parts own hu.1, hu.2.trans ?_⟩
      unfold State.refitPort
      split
      · exact awaits_refl u i
      · rw [own]
        exact awaits_refit (hu.2.awaiting hs)
  have h3 : P s3 := forEach_invariant P _ _ (fun u p _ hu => keeps hu (unchanged_dropAttempt p ho hk hu.1)
    (Unchanged.stall_eq (l := unitParts) (unchanged_dropAttempt p (by simp [unitParts]) (by simp [unitParts]) (unchanged_refl u _))
      (by simp [unitParts]))) refitted
  exact keeps h3 (unchanged_setCounts (fun x => { x with
    delivered := x.delivered.filter fun e => e.1 != i
    inbound := x.inbound.filter fun e => e.1.1 != i
    sentMsgs := x.sentMsgs.set i (Vector.replicate 5 0)
    got := x.got.filter fun e => e.1.1 != i }) (hl _ (by simp [unitParts])) (hl _ (by simp [unitParts]))
    (fun x => ⟨_, _, _, _, rfl⟩) h3.1) rfl

/-! ### Settlement and ledger at an origin (R176, R237, R242, R246, R254, R270, R273) -/

theorem unchanged_settleOrigin (new : Bool) (hx : Part.stall i .settle ∈ l) (hy : Part.stall i .tally ∈ l)
    (ho : Part.stall i .lot ∈ l) (h : Unchanged s t l) : Unchanged s (t.settleOrigin i new) l := by
  have begun := unchanged_modSettle (fun x => { x with
      started := false, settled := false, state := 0, settledWords := [], requests := [] }) hx
    (unchanged_modTally (fun y => { y with used := tlyCtrl y }) hy h)
  unfold State.settleOrigin
  simp only []
  split
  · exact unchanged_modLot _ ho (unchanged_modSettle _ hx begun)
  · exact begun

theorem unchanged_tokensHome (ho : Part.out ∈ l) (hq : Part.stall i .ledger ∈ l) (h : Unchanged s t l) :
    Unchanged s (t.tokensHome i) l :=
  unchanged_modLedger _ hq (unchanged_forEach _ _ (fun _ _ hu => unchanged_send _ ho hu) h)

theorem unchanged_forgetTariffs (c : Charter) (hl : ∀ q ∈ storeParts, q ∈ l) (h : Unchanged s t l) :
    Unchanged s (t.forgetTariffs i c) l :=
  unchanged_forEach _ _ (fun _ _ hu => unchanged_setTariff _ c _ _ hl hu) h

/-- Only a ledger that is to forget its tariffs writes to memory at an origin (R237). -/
theorem unchanged_ledgerOrigin (c : Charter) (new : Bool) (ho : Part.out ∈ l) (hq : Part.stall i .ledger ∈ l)
    (hf : (t.stall i).ledger.forgetPending = true → ∀ q ∈ storeParts, q ∈ l) (h : Unchanged s t l) :
    Unchanged s (t.ledgerOrigin i c new) l := by
  unfold State.ledgerOrigin
  extract_lets forget s0 s1 s2 runs
  have h1 : Unchanged s s1 l := by
    unfold s1
    split
    · split
      · next hforget => exact unchanged_forgetTariffs c (hf hforget) (unchanged_modLedger _ hq h)
      · exact unchanged_modLedger _ hq h
    · exact h
  exact unchanged_modLedger _ hq (unchanged_modLedger _ hq (unchanged_tokensHome ho hq h1))

section records
variable (c : Charter) (new : Bool)

theorem unchanged_recordsOrigin (ho : Part.out ∈ l) (hx : Part.stall i .settle ∈ l) (hy : Part.stall i .tally ∈ l)
    (hz : Part.stall i .lot ∈ l) (hq : Part.stall i .ledger ∈ l)
    (hf : (t.stall i).ledger.forgetPending = true → ∀ q ∈ storeParts, q ∈ l) (h : Unchanged s t l) :
    Unchanged s ((t.settleOrigin i new).ledgerOrigin i c new) l := by
  have ledger : ((t.settleOrigin i new).stall i).ledger = (t.stall i).ledger :=
    unchanged_settleOrigin (l := [.stall i .settle, .stall i .tally, .stall i .lot]) new (by simp) (by simp) (by simp)
      (unchanged_refl t _) (.stall i .ledger) (by simp)
  exact unchanged_ledgerOrigin c new ho hq (by rwa [ledger]) (unchanged_settleOrigin new hx hy hz h)

theorem recordsOrigin_march_seq (s : State) (i : Stall) :
    let t := (s.settleOrigin i new).ledgerOrigin i c new
    (t.stall i).march = (s.stall i).march ∧ (t.stall i).seq = (s.stall i).seq := by
  have frame := unchanged_recordsOrigin
    (i := i) (l := storeParts ++ ([.settle, .tally, .lot, .ledger] : List StallPart).map (Part.stall i)) c new (by simp [storeParts])
    (by simp) (by simp) (by simp) (by simp) (by simp +contextual) (unchanged_refl s _)
  exact ⟨frame (.stall i .march) (by simp), frame (.stall i .seq) (by simp)⟩

end records

/-! ### The causes that waited (R65) -/

/-- Of a sequencer only the causes of its march, with their reasons, and what it knows of a halt have changed; the causes
are the given ones. -/
def Accused (q q' : Sequencer) (causes : Nat → Bool) : Prop :=
  ∃ cs r h x, q' = { q with causes := cs, reasons := r, haltKnown := h, stopped := x } ∧ ∀ n, bit cs n = causes n

theorem Accused.add {q q' q'' : Sequencer} {f g : Nat → Bool} (h : Accused q q' f) (h' : Accused q' q'' fun n => bit q'.causes n || g n) :
    Accused q q'' fun n => f n || g n := by
  obtain ⟨cs, r, k, x, rfl, causes⟩ := h
  obtain ⟨cs', r', k', x', rfl, causes'⟩ := h'
  exact ⟨cs', r', k', x', rfl, fun n => (causes' n).trans (congrArg (· || g n) (causes n))⟩

theorem accused_causeNow (s : State) (i : Stall) (code : BitVec 4) (reason : Reason) :
    Accused (s.stall i).seq ((s.causeNow i code reason).stall i).seq
      fun n => bit (s.stall i).seq.causes n || (n == code.toNat && decide (code.toNat < 13)) := by
  unfold State.causeNow State.learnHalt
  simp only []
  split
  · split
    · exact ⟨_, _, _, _, by simp; exact ⟨rfl, rfl, rfl⟩, fun n => bit_setBit _ _ n⟩
    · exact ⟨_, _, _, _, by simp; exact ⟨rfl, rfl, rfl⟩, fun n => bit_setBit _ _ n⟩
  · exact ⟨_, _, _, _, by simp; exact ⟨rfl, rfl, rfl⟩, fun n => bit_setBit _ _ n⟩

theorem accused_outOfStepCause (s : State) (i : Stall) :
    Accused (s.stall i).seq ((s.outOfStepCause i).stall i).seq fun n => bit (s.stall i).seq.causes n || n == 6 := by
  have six (n : Nat) : bit (setBit (s.stall i).seq.causes 6) n = (bit (s.stall i).seq.causes n || n == 6) := by
    simp [bit_setBit]
  unfold State.outOfStepCause State.learnHalt
  simp only []
  split
  · exact ⟨_, _, _, _, by simp; exact ⟨rfl, rfl, rfl, rfl⟩, six⟩
  · exact ⟨_, _, _, _, by simp; exact ⟨rfl, rfl, rfl, rfl⟩, six⟩

/-! ### The march begins (R47, R64) -/

/-- What the origin of a march changes, where its ledger forgets no tariffs. -/
def originParts (i : Stall) : List Part :=
  unitParts ++ everyEngine ++ ([.march, .seq, .ledger, .settle, .tally, .lot, .charter] : List StallPart).map (Part.stall i)

theorem not_mem_originParts (i j : Stall) :
    Part.stall j .page ∉ originParts i ∧ Part.mem ∉ originParts i ∧ Part.time ∉ originParts i := by
  simp [originParts, unitParts, everyEngine, everyCore, everyPort]

theorem unchanged_copyIdles (xs : List EngineId) (hl : ∀ e, Part.engine e ∈ l) (h : Unchanged s t l) :
    Unchanged s (forEach xs t State.copyIdle) l :=
  unchanged_forEach _ _ (fun _ e hu => unchanged_modEngine _ (hl e) hu) h

/-- The engines that are idle at an origin. -/
def idledEngines (s : State) (i : Stall) : List EngineId := (List.finRange 8).filter fun e =>
  let x := s.engine e
  engineStall s e == some i && (x.state == 4 || (x.state == 3 && !x.source))

/-- Does a march number begin that the member's march before did not have? -/
def isNew (t : StallState) : Bool := t.seq.lastNum != some t.march.num

/-- The units, the settlement and the ledger of a stall at the origin of a march. -/
def State.stallOrigin (s : State) (i : Stall) (c : Charter) : State :=
  (((forEach (idledEngines s i) s State.copyIdle).unitsOrigin i (isNew (s.stall i))).settleOrigin i (isNew (s.stall i))).ledgerOrigin i c
    (isNew (s.stall i))

/-- The stall enters LEGS with a fresh sequencer, whose causes are those that waited. -/
def State.enterLegs (s : State) (i : Stall) (c : Charter) (t0 : StallState) : State :=
  (s.modMarch i fun m => { m with state := .legs, leg := 0, kind := kindOf c 0 }).modSeq i fun q => { q with
    ran := [], done := [], causes := q.nextCauses, reasons := q.nextReasons
    nextCauses := 0, nextReasons := [], haltKnown := false, stopped := t0.sync.outOfStep, sentVerdict := false
    settles := false, noSettle := false, runAll := false, ended := false, finished := false, hold := 0
    boundary := t0.march.origin + BitVec.ofNat 64 c.marchLength, late := 0, overrunLegs := [], words := [], fedWords := []
    waiting := [], repeatAt := none, lastNum := some t0.march.num, missing := [] }

/-- The causes that waited and that halt a march halt this one at once. -/
def State.accuse (s : State) (i : Stall) (due : Sequencer) : State :=
  forEach (((List.range 13).map fun k => BitVec.ofNat 4 k).filter fun k => halts k && bit due.nextCauses k.toNat) s
    fun s k => s.causeNow i k (reasonOf due.nextReasons k)

theorem beginMarch_eq (hc : (s.stall i).charter.active = some c)
    (hn : (s.stall i).charter.swapAt ≠ some (s.stall i).march.origin) : s.beginMarch i =
      let s3 := (s.stallOrigin i c).enterLegs i c (s.stall i)
      let s4 := s3.accuse i ((s.stallOrigin i c).stall i).seq
      if (s.stall i).sync.outOfStep then s4.outOfStepCause i else s4 := by
  have stays : ((s.stall i).charter.swapAt == some (s.stall i).march.origin) = false := by simpa using hn
  unfold State.beginMarch
  simp only [stays, hc, Bool.false_eq_true, if_false, State.modMarch_seq]
  rfl

/-- The units, the settlement and the ledger of a stall at an origin: what they may change, and what the march keeps. -/
theorem stallOrigin_facts (s : State) (i : Stall) (c : Charter) (hs : awaiting (s.stall i)) :
    let t := s.stallOrigin i c
    (∀ l : List Part, (∀ j, Part.stall j .page ∉ l) → (∀ p ∈ originParts i, p ∈ l) →
      ((s.stall i).ledger.forgetPending = true → ∀ p ∈ storeParts, p ∈ l) → Unchanged s t l)
    ∧ Awaits i s t ∧ (noneReturns s i → (t.stall i).seq = (s.stall i).seq) := by
  extract_lets t
  let new := isNew (s.stall i)
  let idle := forEach (idledEngines s i) s State.copyIdle
  let units := idle.unitsOrigin i new
  have idleFrame : Unchanged s idle everyEngine := unchanged_copyIdles _ (by simp [everyEngine]) (unchanged_refl s _)
  have idleStall (j : Stall) : idle.stall j = s.stall j := Unchanged.stall_eq idleFrame (by simp [everyEngine])
  have waiting : awaiting (idle.stall i) := by rwa [idleStall]
  have records := recordsOrigin_march_seq c new units i
  have unitsFrame (l : List Part) (hp : ∀ j, Part.stall j .page ∉ l) (hl : ∀ p ∈ unitParts, p ∈ l)
      (hr : noneReturns idle i ∨ ∀ q ∈ refitParts i, q ∈ l) : Unchanged idle units l ∧ Awaits i idle units :=
    unitsOrigin_facts idle i new hp hl hr waiting
  have unitsFull := unitsFrame (unitParts ++ refitParts i) (by simp [unitParts, refitParts]) (by simp +contextual)
    (.inr (by simp +contextual))
  have forget : (units.stall i).ledger.forgetPending = (s.stall i).ledger.forgetPending := by
    have same : (units.stall i).ledger = (idle.stall i).ledger := unitsFull.1 (.stall i .ledger) (by simp [unitParts, refitParts])
    rw [same, idleStall]
  refine ⟨fun l hp hl hf => ?_, ?_, fun none => ?_⟩
  · have named {p : Part} (hm : p ∈ originParts i) : p ∈ l := hl p hm
    have first := (unitsFrame l hp (fun p hm => named (by simp [originParts, hm]))
      (.inr fun p hm => named (by
        simp only [refitParts, List.mem_cons, List.not_mem_nil, or_false] at hm
        obtain rfl | rfl | rfl | rfl := hm <;> simp [originParts, unitParts]))).1
    exact Unchanged.trans (Unchanged.mono idleFrame fun p hm => named (by simp [originParts, hm]))
      (Unchanged.trans first (unchanged_recordsOrigin c new (named (by simp [originParts, unitParts])) (named (by simp [originParts]))
        (named (by simp [originParts])) (named (by simp [originParts])) (named (by simp [originParts])) (by rwa [forget])
        (unchanged_refl units l)))
  · exact (awaits_of_eq (by rw [idleStall]) (by rw [idleStall])).trans (unitsFull.2.trans (awaits_of_eq records.1 records.2))
  · have own : noneReturns idle i := by
      intro p hp
      have link : idle.lnk p = s.lnk p := idleFrame (.lnk p) (by simp [everyEngine])
      rw [link]
      exact none p (by rwa [portStall_congr (t := idle) (s := s) fun j => by rw [idleStall]] at hp)
    have same : units.stall i = idle.stall i :=
      Unchanged.stall_eq (unitsFrame unitParts (by simp [unitParts]) (fun _ h => h) (.inl own)).1 (by simp [unitParts])
    exact records.2.trans (by rw [same, idleStall])

theorem unchanged_accuse (due : Sequencer) (ho : Part.out ∈ l) (hq : Part.stall i .seq ∈ l) (h : Unchanged s t l) :
    Unchanged s (t.accuse i due) l :=
  unchanged_forEach _ _ (fun _ _ hu => unchanged_causeNow _ _ ho hq hu) h

/-- Causes that the march already has add none. -/
theorem accused_accuse (s : State) (i : Stall) (due : Sequencer)
    (had : ∀ n, bit due.nextCauses n = true → bit (s.stall i).seq.causes n = true) :
    Accused (s.stall i).seq ((s.accuse i due).stall i).seq (bit (s.stall i).seq.causes) := by
  let P (u : State) : Prop := Accused (s.stall i).seq (u.stall i).seq (bit (s.stall i).seq.causes)
  refine forEach_invariant P _ _ (fun u k hk hu => ?_) ⟨_, _, _, _, rfl, fun _ => rfl⟩
  obtain ⟨cs, r, h, x, seq, causes⟩ := hu.add (accused_causeNow u i k (reasonOf due.nextReasons k))
  refine ⟨cs, r, h, x, seq, fun n => (causes n).trans ?_⟩
  by_cases hn : n = k.toNat
  · have there : bit (s.stall i).seq.causes n = true := by
      rw [hn]
      exact had _ (by simpa using (Bool.and_eq_true_iff.mp (List.mem_filter.mp hk).2).2)
    simp only [there, Bool.true_or]
  · simp [hn]

/-- A march begins: what it is then, which causes it has, and what the origin may change. -/
theorem beginMarch_facts (hc : (s.stall i).charter.active = some c) (hs : awaiting (s.stall i))
    (hn : (s.stall i).charter.swapAt ≠ some (s.stall i).march.origin) :
    let t0 := s.stall i
    let t := s.beginMarch i
    ((t.stall i).march.state = .legs ∧ (t.stall i).march.leg = 0 ∧ (t.stall i).march.kind = kindOf c 0
      ∧ (t.stall i).march.num = t0.march.num ∧ (t.stall i).march.repeats = t0.march.repeats)
    ∧ ((t.stall i).seq.boundary = t0.march.origin + BitVec.ofNat 64 c.marchLength
      ∧ (t.stall i).seq.done = [] ∧ (t.stall i).seq.ran = [] ∧ (t.stall i).seq.nextCauses = 0)
    ∧ (∀ n, n ≠ 11 ∨ noneReturns s i →
        bit (t.stall i).seq.causes n = (bit t0.seq.nextCauses n || (n == 6 && t0.sync.outOfStep)))
    ∧ ∀ l : List Part, (∀ j, Part.stall j .page ∉ l) → (∀ p ∈ originParts i, p ∈ l) →
        (t0.ledger.forgetPending = true → ∀ p ∈ storeParts, p ∈ l) → Unchanged s t l := by
  extract_lets t0 t
  obtain ⟨frame, waits, still⟩ := stallOrigin_facts s i c hs
  let s1 := s.stallOrigin i c
  let s3 := s1.enterLegs i c t0
  let s4 := s3.accuse i (s1.stall i).seq
  have run : t = if t0.sync.outOfStep then s4.outOfStepCause i else s4 := beginMarch_eq hc hn
  have accused : Accused (s3.stall i).seq (s4.stall i).seq (bit (s3.stall i).seq.causes) :=
    accused_accuse s3 i _ fun n hb => by simpa [s3, State.enterLegs] using hb
  have last : Accused (s3.stall i).seq (t.stall i).seq
      fun n => bit (s3.stall i).seq.causes n || (n == 6 && t0.sync.outOfStep) := by
    rw [run]
    split
    · next out => simpa [out] using accused.add (accused_outOfStepCause s4 i)
    · next inStep => simpa [inStep] using accused
  have after (l : List Part) (ho : Part.out ∈ l) (hq : Part.stall i .seq ∈ l) : Unchanged s3 t l := by
    have h4 : Unchanged s3 s4 l := unchanged_accuse _ ho hq (unchanged_refl s3 l)
    rw [run]
    split
    · exact unchanged_outOfStepCause ho hq h4
    · exact h4
  have march : (t.stall i).march = (s3.stall i).march := after [.out, .stall i .seq] (by simp) (by simp) (.stall i .march) (by simp)
  obtain ⟨⟨v, e, k, x, m1⟩, n, r, q1, others⟩ := waits
  obtain ⟨cs, r', h, x', seq, causes⟩ := last
  refine ⟨?_, ?_, fun n' hn' => ?_, fun l hp hl hf => ?_⟩
  · rw [march]
    simp [s3, State.enterLegs, s1, m1, t0]
  · rw [seq]
    simp [s3, State.enterLegs, t0]
  · rw [seq]
    refine (causes n').trans ?_
    have waited : bit (s1.stall i).seq.nextCauses n' = bit t0.seq.nextCauses n' := by
      obtain hn' | hn' := hn'
      · rw [q1]
        exact others n' hn'
      · rw [still hn']
    simp [s3, State.enterLegs, waited]
  · have hm : Part.stall i .march ∈ l := hl _ (by simp [originParts])
    have hq : Part.stall i .seq ∈ l := hl _ (by simp [originParts])
    exact Unchanged.trans (unchanged_modSeq _ hq (unchanged_modMarch _ hm (frame l hp hl hf)))
      (after l (hl _ (by simp [originParts, unitParts])) hq)

theorem runs_marchOrigin (hc : (s.stall i).charter.active = some c) (hf : (s.stall i).seq.left = false) (hs : awaiting (s.stall i))
    (ho : (s.stall i).seq.repeatAt.isSome = true) (hn : (s.stall i).charter.swapAt ≠ some (s.stall i).march.origin) :
    let t0 := s.stall i
    Runs (.marchOrigin i) s fun t =>
      t.time = maxU s.time t0.march.origin ∧ (t.stall i).march.state = .legs ∧ (t.stall i).march.leg = 0
      ∧ (t.stall i).march.kind = kindOf c 0 ∧ (t.stall i).march.num = t0.march.num ∧ (t.stall i).march.repeats = t0.march.repeats
      ∧ (t.stall i).seq.boundary = t0.march.origin + BitVec.ofNat 64 c.marchLength
      ∧ (t.stall i).seq.done = [] ∧ (t.stall i).seq.ran = [] ∧ (t.stall i).seq.nextCauses = 0
      ∧ (∀ n, n ≠ 11 ∨ noneReturns s i →
          bit (t.stall i).seq.causes n = (bit t0.seq.nextCauses n || (n == 6 && t0.sync.outOfStep)))
      ∧ (t0.ledger.forgetPending = false → t.mem = s.mem)
      ∧ Unchanged s t ([.time, .delivered, .messages] ++ storeParts ++ everyCore ++ everyEngine ++ everyPort
          ++ ([.march, .seq, .ledger, .settle, .tally, .lot, .charter] : List StallPart).map (Part.stall i)) := by
  extract_lets t0
  let u := s.atTime t0.march.origin
  have taken : execMarchOrigin i s = .next (u.beginMarch i) := by
    obtain hs | hs := hs <;> simp [execMarchOrigin, hs, ho, hf, u, t0]
  obtain ⟨⟨state, leg, kind, num, repeats⟩, ⟨boundary, done, ran, waited⟩, causes, frame⟩ :=
    beginMarch_facts (s := u) hc hs hn
  have timed (l : List Part) (hm : Part.time ∈ l) : Unchanged s u l := unchanged_atTime _ hm (unchanged_refl s l)
  have whole := frame (originParts i ++ storeParts) (fun j => by simp [(not_mem_originParts i j).1])
    (by simp +contextual) (by simp +contextual)
  refine runs_of_exec taken ⟨whole .time (by simp [(not_mem_originParts i i).2.2, storeParts, tierParts]), state, leg, kind, num,
    repeats, boundary, done, ran, waited, causes,
    fun kept => frame (originParts i) (fun j => (not_mem_originParts i j).1) (fun _ h => h) ?_ .mem (not_mem_originParts i i).2.1,
    Unchanged.trans (timed _ (by simp)) (Unchanged.mono whole fun p hp => ?_)⟩
  · intro forgets
    exact absurd (kept.symm.trans forgets) (by decide)
  · simp only [originParts, unitParts, List.mem_append] at hp ⊢
    obtain ((((h | h) | h) | h) | h) | h := hp
    · have : p ∈ storeParts ∨ p ∈ [Part.time, .delivered, .messages] := by
        simp only [List.mem_cons, List.not_mem_nil, or_false] at h
        obtain rfl | rfl | rfl := h <;> simp [storeParts]
      obtain h | h := this <;> simp only [h, true_or, or_true]
    all_goals simp only [h, true_or, or_true]

end Sys2Proof.Machine
end

section
/-! PROOFS. What a tick does before the leg changes: its audits (R200, R246, R314, R451), and the buckets that it ends
(R239). -/

namespace Sys2Proof.Machine

open Sys2Proof.Safety

variable {s t : State} {l : List Part} {i : Stall} {c : Charter}

/-! ### Audits that find no mismatch -/

/-- A loop whose steps change nothing but what is sent. -/
theorem forEach_sends {α : Type} (xs : List α) (f : State → α → State) (g : α → List Out)
    (hf : ∀ os x, f { s with out := os } x = { s with out := os ++ g x }) (os : List Out) :
    forEach xs { s with out := os } f = { s with out := os ++ xs.flatMap g } := by
  unfold forEach
  induction xs generalizing os with
  | nil => simp
  | cons x xs ih => rw [List.foldl_cons, hf, ih, List.flatMap_cons, List.append_assoc]

/-- A loop whose steps change nothing. -/
theorem forEach_idle {α : Type} (xs : List α) (f : State → α → State) (hf : ∀ x ∈ xs, f s x = s) : forEach xs s f = s :=
  forEach_invariant (· = s) xs f (fun u x hx hu => by rw [hu, hf x hx]) rfl

/-- The AUDIT flits of a port (R314). -/
def auditsOf (s : State) (p : PortId) : List Out :=
  if portUp s p then (List.finRange 5).map fun k =>
    .audit p k ((s.lnk p).used.get k + (s.lnk p).credits.get k) ((s.lnk p).used.get k) ((s.lnk p).credits.get k)
  else []

theorem sendAudits_eq (s : State) (p : PortId) : s.sendAudits p = { s with out := s.out ++ auditsOf s p } := by
  unfold State.sendAudits auditsOf
  split
  · refine (forEach_sends (s := s) (List.finRange 5) _ (fun k => [.audit p k ((s.lnk p).used.get k + (s.lnk p).credits.get k)
      ((s.lnk p).used.get k) ((s.lnk p).credits.get k)]) (fun _ _ => rfl) s.out).trans ?_
    rw [← List.map_eq_flatMap]
  · rw [List.append_nil]

/-- The AUDIT flits that a stall's ports send at a tick. -/
def tickAudits (s : State) (i : Stall) : List Out :=
  ((List.finRange 8).filter fun p => portStall s p == some i).flatMap (auditsOf s)

theorem portAudits_eq (s : State) (i : Stall) : s.portAudits i = { s with out := s.out ++ tickAudits s i } :=
  forEach_sends _ _ (auditsOf s) (fun os p => sendAudits_eq { s with out := os } p) s.out

theorem mem_tickAudits {p : PortId} (own : portStall s p = some i) (up : portUp s p = true) (n : Fin 5) :
    ∃ granted spent held, Out.audit p n granted spent held ∈ tickAudits s i :=
  ⟨_, _, _, List.mem_flatMap.mpr ⟨p, by simp [own], by
    rw [auditsOf, if_pos up]
    exact List.mem_map_of_mem (List.mem_finRange n)⟩⟩

theorem audits_agree (h : AuditsAgree s i) : s.audits i = { s with out := s.out ++ tickAudits s i } := by
  obtain ⟨tokens, queues, posts⟩ := h
  have ledger : s.ledgerAudit i = s := if_pos tokens
  unfold State.audits
  extract_lets s0 s1 s2
  have h0 : s0 = { s with out := s.out ++ tickAudits s i } := by rw [← portAudits_eq, ← ledger]
  have h1 : s1 = s0 := by
    refine forEach_idle _ _ fun e he => if_pos ?_
    rw [h0]
    exact queues e (by simpa using he)
  have post (secure : Bool) (n : Fin 24) : s0.postAudit i secure n = s0 := by
    refine if_pos ?_
    rw [h0]
    exact posts secure n
  have h2 : s2 = s0 := by
    unfold s2
    rw [h1]
    exact forEach_idle _ _ fun n _ => post false n
  rw [h2, ← h0]
  exact forEach_idle _ _ fun n _ => post true n

/-! ### The tick (R47) -/

/-- The state at the tick that ends the current leg, its audits sent. -/
def State.atTick (s : State) (i : Stall) (c : Charter) : State :=
  { s with out := s.out ++ tickAudits s i }.atTime
    ((s.stall i).march.origin + BitVec.ofNat 64 (c.legOffset ((s.stall i).march.leg.toNat + 1)))

theorem unchanged_atTick (s : State) (i : Stall) (c : Charter) : Unchanged s (s.atTick i c) [.time, .out] :=
  unchanged_atTime _ (by simp) (unchanged_set_out _ (by simp) (unchanged_refl s _))

section tick
variable (hc : (s.stall i).charter.active = some c) (ha : AuditsAgree s i) (hk : (s.stall i).march.leg.toNat < c.legs.length)
include hc ha hk

theorem exec_tick (ht : ticking (s.stall i) = true) : exec (.tick i) s = .next (
    if (s.stall i).march.state == .legs then (s.atTick i c).tickLegs i c (s.stall i).march.leg.toNat
    else (s.atTick i c).tickAfter i c (s.stall i).march.leg.toNat) := by
  let v : State := { s with out := s.out ++ tickAudits s i }
  have fires : v.fireTick i = if (s.stall i).march.state == .legs then (s.atTick i c).tickLegs i c (s.stall i).march.leg.toNat
      else (s.atTick i c).tickAfter i c (s.stall i).march.leg.toNat := by
    have ticks : (!ticking (v.stall i) || decide (c.legs.length ≤ (v.stall i).march.leg.toNat)) = false := by
      have running : ticking (v.stall i) = true := ht
      have within : decide (c.legs.length ≤ (v.stall i).march.leg.toNat) = false := decide_eq_false (Nat.not_le.mpr hk)
      rw [running, within]
      rfl
    unfold State.fireTick
    have active : (v.stall i).charter.active = some c := hc
    simp only [active, Bool.or_eq_false_iff.mp ticks]
    rfl
  have taken : execTick i s = .next (v.fireTick i) := by
    unfold execTick
    rw [hc]
    simp only [ht, hk, decide_true, Bool.and_self, if_true, audits_agree ha]
    rfl
  rw [← fires]
  exact taken

end tick

/-! ### Messages are no verdict words -/

def isVerdictWord : Out → Bool
  | .verdictWord _ _ => true
  | _ => false

/-- A message of the module that is no verdict word. -/
def Wordless (o : Out) : Prop := isVerdictWord o = false

theorem SendsOnly.weaken {P Q : Out → Prop} (h : SendsOnly P s t) (hq : ∀ o, P o → Q o) : SendsOnly Q s t := by
  obtain ⟨os, out, all⟩ := h
  exact ⟨os, out, fun o ho => hq o (all o ho)⟩

theorem wordless_record (s : State) (r : Rec) : SendsOnly Wordless s (s.record r) := by
  refine (sendsOnly_record s r).weaken fun o ho => ?_
  obtain ⟨_, _, rfl⟩ | ⟨_, _, rfl⟩ := ho <;> rfl

theorem wordless_causeNow (s : State) (i : Stall) (code : BitVec 4) (reason : Reason) :
    SendsOnly Wordless s (s.causeNow i code reason) := by
  refine (sendsOnly_causeNow s i code reason).weaken fun o ho => ?_
  obtain rfl | rfl := ho <;> rfl

theorem wordless_missingPeer (s : State) (i : Stall) (m : Member) (reason : Reason) :
    SendsOnly Wordless s (s.missingPeer i m reason) := by
  refine SendsOnly.weaken (sendsOnly_cause (s.modSeq i _) i vFault reason) fun o ho => ?_
  obtain rfl | rfl := ho <;> rfl

theorem wordless_emit (s : State) (p : PortId) (f : Flit) : SendsOnly Wordless s (s.emit p f) := by
  have sent : SendsOnly Wordless s (s.send (.flit p f)) := SendsOnly.send (sendsOnly_of_out_eq rfl) rfl
  unfold State.emit
  extract_lets s1
  split
  · next g _ =>
    have both : SendsOnly Wordless s (s1.send (.flit p g)) := SendsOnly.send sent rfl
    exact both.trans (sendsOnly_of_out_eq rfl)
  · exact sent

theorem wordless_countInjection (s : State) (p : PortId) (a : BitVec 2) : SendsOnly Wordless s (s.countInjection p a) := by
  unfold State.countInjection
  extract_lets k a' n due s1
  split
  · exact SendsOnly.trans (sendsOnly_of_out_eq rfl) (wordless_record s1 _)
  · exact sendsOnly_of_out_eq rfl

theorem wordless_checkSwitch (s : State) (p : PortId) : SendsOnly Wordless s (s.checkSwitch p) := sendsOnly_of_out_eq rfl

theorem wordless_transmit (s : State) (p : PortId) (f : Flit) : SendsOnly Wordless s (s.transmit p f) := by
  unfold State.transmit
  extract_lets k hd g kk s1 offered s2 hit
  have h1 : SendsOnly Wordless s s1 := sendsOnly_of_out_eq (by simp [s1])
  have h2 : SendsOnly Wordless s s2 := by
    unfold s2
    split
    · exact h1.trans (sendsOnly_of_out_eq rfl)
    · exact h1
  have counted : SendsOnly Wordless s hit := h2.trans (wordless_countInjection s2 p k.banditAction)
  clear_value s2 hit
  obtain ⟨x0, x1⟩ := banditDraw s p k.offered
  refine SendsOnly.trans ?_ (wordless_checkSwitch _ p)
  simp only []
  split
  · exact h2.trans (wordless_emit s2 p g)
  · split
    · exact counted
    · split
      · exact counted.trans (wordless_emit hit p _)
      · split
        · exact counted.trans (sendsOnly_of_out_eq rfl)
        · exact counted.trans (sendsOnly_of_out_eq rfl)

theorem wordless_leaveBuffer (s : State) (q : QueuedFlit) : SendsOnly Wordless s (s.leaveBuffer q) := by
  unfold State.leaveBuffer State.freeBuffer
  split
  · exact SendsOnly.send (sendsOnly_of_out_eq rfl) rfl
  · exact sendsOnly_of_out_eq rfl

theorem wordless_pump (s : State) (p : PortId) (n : Nat) : SendsOnly Wordless s (s.pump p n) := by
  induction n generalizing s with
  | zero => exact sendsOnly_of_out_eq rfl
  | succ n ih =>
    unfold State.pump
    extract_lets k
    split
    · exact sendsOnly_of_out_eq rfl
    · split
      · exact sendsOnly_of_out_eq rfl
      · next q _ =>
        have sent := (wordless_transmit (s.modLnk p fun l => { l with queue := l.queue.erase q }) p q.flit).trans
          (wordless_leaveBuffer _ q)
        exact SendsOnly.trans (SendsOnly.trans (sendsOnly_of_out_eq rfl) sent) (ih _)

/-! ### The buckets that a tick ends (R239) -/

/-- What the end of buckets leaves of a member: a halt that it knows of, its fences; and it sends no verdict word. -/
structure EndsBuckets (i : Stall) (s t : State) : Prop where
  frame : Unchanged s t ([.stall i .seq, .stall i .ledger] ++ queueParts)
  known : (s.stall i).seq.haltKnown = true → (t.stall i).seq.haltKnown = true
  fences : (t.stall i).ledger.fences = (s.stall i).ledger.fences
  wordless : SendsOnly Wordless s t

theorem endsBuckets_refl (i : Stall) (s : State) : EndsBuckets i s s := ⟨unchanged_refl s _, id, rfl, sendsOnly_of_out_eq rfl⟩

theorem EndsBuckets.trans {u : State} (h : EndsBuckets i s t) (h' : EndsBuckets i t u) : EndsBuckets i s u :=
  ⟨Unchanged.trans h.frame h'.frame, fun k => h'.known (h.known k), h'.fences.trans h.fences, h.wordless.trans h'.wordless⟩

theorem endsBuckets_modLedger (s : State) (i : Stall) (f : Ledger → Ledger) (hf : ∀ x, (f x).fences = x.fences) :
    EndsBuckets i s (s.modLedger i f) :=
  ⟨unchanged_modLedger _ (by simp) (unchanged_refl s _), fun k => by simpa using k, by simp [hf], sendsOnly_of_out_eq rfl⟩

theorem endsBuckets_modSeq (s : State) (i : Stall) (f : Sequencer → Sequencer) (hf : ∀ x, (f x).haltKnown = x.haltKnown) :
    EndsBuckets i s (s.modSeq i f) :=
  ⟨unchanged_modSeq _ (by simp) (unchanged_refl s _), fun k => by simpa [hf] using k, by simp, sendsOnly_of_out_eq rfl⟩

theorem causeNow_known (code : BitVec 4) (reason : Reason) (h : (s.stall i).seq.haltKnown = true) :
    ((s.causeNow i code reason).stall i).seq.haltKnown = true := by
  unfold State.causeNow State.learnHalt
  simp only []
  split
  · split <;> simp
  · simpa using h

theorem endsBuckets_missingPeer (s : State) (i : Stall) (m : Member) (reason : Reason) :
    EndsBuckets i s (s.missingPeer i m reason) := by
  refine ⟨unchanged_missingPeer m reason (by simp [queueParts]) (by simp) (unchanged_refl s _), fun k => ?_, ?_,
    wordless_missingPeer s i m reason⟩
  · let noted := s.modSeq i fun q => { q with
      missing := if q.missing.any fun e => e.1 == m then q.missing else q.missing ++ [(m, reason)] }
    have known : (noted.stall i).seq.haltKnown = true := by simpa [noted] using k
    change ((noted.cause i vFault reason).stall i).seq.haltKnown = true
    obtain e | e | e := cause_cases noted i vFault reason <;> rw [e]
    · exact causeNow_known _ _ known
    · simpa [State.causeNext] using known
    · exact known
  · have same : ((s.missingPeer i m reason).stall i).ledger = (s.stall i).ledger :=
      unchanged_missingPeer (l := [.out, .stall i .seq]) m reason (by simp) (by simp) (unchanged_refl s _) (.stall i .ledger) (by simp)
    rw [same]

theorem unchanged_setSent (x : Vector (Vector Nat 5) 8) (hm : Part.messages ∈ l) (h : Unchanged s t l) :
    Unchanged s { t with fabric := { t.fabric with sentMsgs := x } } l := by
  intro p hp
  have h0 := h p hp
  cases p with
  | messages => exact absurd hm hp
  | _ => exact h0

theorem namesTraffic_queueParts (s : State) : NamesTraffic s queueParts :=
  ⟨by simp [queueParts], by simp [queueParts], by simp [queueParts], fun q => .inl (by simp [queueParts])⟩

theorem endsBuckets_sendMessage (s : State) (i : Stall) (cls : Nat) (dst : Member × BitVec 6) (bs : List Byte) :
    EndsBuckets i s (s.sendMessage i cls dst bs) := by
  unfold State.sendMessage
  extract_lets t0 n fabric s1
  split
  · exact endsBuckets_refl i s
  · split
    · exact endsBuckets_refl i s
    · split
      · exact endsBuckets_missingPeer s i dst.1 0x020D
      · next c0 _ _ _ p _ _ =>
        have counted : Unchanged s s1 queueParts := unchanged_setSent _ (by simp [queueParts]) (unchanged_refl s _)
        have queued := unchanged_queueFlits (p := p) (namesTraffic_queueParts s)
          ((messageFlits cls dst (ownRole t0) c0.caravanIx n bs).map fun f => { flit := f }) counted
        refine ⟨Unchanged.mono queued (by simp +contextual), fun k => ?_, ?_, ?_⟩
        · have same : ((s1.queueFlits p _).stall i).seq = (s.stall i).seq := queued (.stall i .seq) (by simp [queueParts])
          rwa [same]
        · have same : ((s1.queueFlits p _).stall i).ledger = (s.stall i).ledger := queued (.stall i .ledger) (by simp [queueParts])
          rw [same]
        · exact SendsOnly.trans (sendsOnly_of_out_eq rfl) (wordless_pump _ p _)

theorem endsBuckets_sendDown (s : State) (i : Stall) (c : Charter) (b : Nat) (gs : List Segment) :
    EndsBuckets i s (s.sendDown i c b gs) :=
  forEach_within (R := EndsBuckets i) (endsBuckets_refl i) EndsBuckets.trans _ _ (fun u ch => endsBuckets_sendMessage u i 1 ch _) s

/-- A ledger entry that ends with its bucket is done, and has run. -/
def State.endEntry (s : State) (i : Stall) (n : Nat) : State := s.modSeq i fun q => { q with
  done := if q.done.any fun d => d.entry == .ledger n then q.done else q.done ++ [⟨.ledger n, s.time⟩]
  ran := if q.ran.contains (.ledger n) then q.ran else q.ran ++ [.ledger n] }

theorem endsBuckets_ledgerDeadline (s : State) (i : Stall) (c : Charter) (leg : Nat) : EndsBuckets i s (s.ledgerDeadline i c leg) := by
  refine forEach_within (R := EndsBuckets i) (endsBuckets_refl i) EndsBuckets.trans _ _ (fun u r => ?_) s
  extract_lets t0 b ends s1
  have ended : EndsBuckets i u ends := endsBuckets_modSeq u i _ fun _ => rfl
  have short : EndsBuckets i u s1 := by
    have first : EndsBuckets i ends (ends.modRun i b fun r => { r with short := true }) := endsBuckets_modLedger ends i _ fun _ => rfl
    refine (ended.trans first).trans (endsBuckets_modLedger _ i _ fun x => ?_)
    split <;> rfl
  split
  · exact ended
  · split
    · exact short.trans (endsBuckets_sendDown s1 i c b _)
    · exact short

/-- Only ledger entries have been added to what is done and has run. -/
structure EndsEntries (i : Stall) (s t : State) : Prop where
  frame : Unchanged s t [.stall i .seq]
  seq : ∃ d r, (t.stall i).seq = { (s.stall i).seq with done := d, ran := r }
    ∧ ∀ e, (∀ n, e ≠ .ledger n) → doneTime (t.stall i) e = doneTime (s.stall i) e

theorem endsEntries_refl (i : Stall) (s : State) : EndsEntries i s s := ⟨unchanged_refl s _, _, _, rfl, fun _ _ => rfl⟩

theorem EndsEntries.trans {u : State} (h : EndsEntries i s t) (h' : EndsEntries i t u) : EndsEntries i s u := by
  obtain ⟨d, r, seq, same⟩ := h.seq
  obtain ⟨d', r', seq', same'⟩ := h'.seq
  exact ⟨Unchanged.trans h.frame h'.frame, d', r', by rw [seq', seq], fun e he => (same' e he).trans (same e he)⟩

theorem endsEntries_endEntry (s : State) (i : Stall) (n : Nat) : EndsEntries i s (s.endEntry i n) := by
  refine ⟨unchanged_modSeq _ (by simp) (unchanged_refl s _), _, _, State.modSeq_seq s i _, fun e he => ?_⟩
  have other : (EntryRef.ledger n == e) = false := by simpa using (he n).symm
  unfold doneTime State.endEntry
  rw [State.modSeq_seq]
  simp only []
  split
  · rfl
  · simp [List.find?_append, other]

/-- Where every total of a leg's buckets is there, their deadline ends their entries and does no more. -/
theorem endsEntries_ledgerDeadline (s : State) (i : Stall) (c : Charter) (leg : Nat)
    (totals : ∀ r ∈ (s.stall i).ledger.runs, bkDeadline (c.bucket r.bucket.toNat) = leg → r.complete = true) :
    EndsEntries i s (s.ledgerDeadline i c leg) := by
  refine forEach_invariant (EndsEntries i s) _ _ (fun u r hr hu => ?_) (endsEntries_refl i s)
  obtain ⟨there, ends⟩ := List.mem_filter.mp hr
  have complete : r.complete = true := totals r there (by simpa using ends)
  simp only [complete, if_true]
  exact hu.trans (endsEntries_endEntry u i r.index)

/-- A sequencer waits for no ledger entry (R58). -/
theorem marchEntries_not_ledger {u : StallState} {k : Nat} {e : EntryRef} (h : e ∈ marchEntries u c k) (n : Nat) : e ≠ .ledger n := by
  rintro rfl
  unfold marchEntries at h
  split at h
  · exact absurd h List.not_mem_nil
  · simp only [legEntries, List.mem_append, List.mem_flatMap, List.mem_filterMap, List.mem_map] at h
    obtain (((⟨q, -, m, -, h⟩ | ⟨q, -, m, -, h⟩) | ⟨m, -, h⟩) | ⟨m, -, h⟩) | ⟨m, -, h⟩ := h
    · split at h
      · split at h <;> cases h
      · cases h
    · split at h
      · split at h <;> cases h
      · cases h
    · cases h
    · cases h
    · cases h

end Sys2Proof.Machine
end

section
/-! PROOFS. The ticks of a march (R47, R57, R58, R59, R61, R62, R66, R67). -/

namespace Sys2Proof.Machine

open Sys2Proof.Safety

variable {s t : State} {l : List Part} {i : Stall} {c : Charter}

/-! ### The exchange begins (R61, R62) -/

/-- What the verdict exchange leaves: the causes of the march, and a member that has stopped. -/
structure KeepsCauses (i : Stall) (s t : State) : Prop where
  causes : (t.stall i).seq.causes = (s.stall i).seq.causes
  stopped : (t.stall i).seq.stopped = (s.stall i).seq.stopped
  frame : Unchanged s t (marchParts i)

theorem keepsCauses_tryVerdict (s : State) (i : Stall) (force : Bool) : KeepsCauses i s (s.tryVerdict i force) := by
  have stays : KeepsCauses i s s := ⟨rfl, rfl, unchanged_refl s _⟩
  have formed (c : Charter) (v : CaravanVerdict) (lost : List Member) : KeepsCauses i s (s.leadVerdict i c v lost) := by
    obtain ⟨-, -, -, causes, stopped, frame⟩ := leadVerdict_facts s i c v lost
    exact ⟨causes, stopped, frame⟩
  unfold State.tryVerdict
  simp only []
  split
  · exact stays
  · next c _ =>
    split
    · exact stays
    · split
      · exact ⟨by simp, by simp, unchanged_send _ (by simp [marchParts]) (unchanged_modLedger _ (by simp [marchParts])
          (unchanged_modSeq _ (by simp [marchParts]) (unchanged_refl s _)))⟩
      · split
        · rw [federate_eq]
          split
          · exact stays
          · exact formed c _ _
        · exact formed c _ _

section exchange
variable (s) (i) (c) (tick : Nat)

/-- At a member the exchange begins with its own word, from which a fenced member is left out (R62, R242). -/
theorem beginExchange_member (hl : (s.stall i).march.lead = false) :
    let t := s.beginExchange i c tick
    (t.stall i).march = { (s.stall i).march with state := .verdict }
    ∧ (t.stall i).seq = { (s.stall i).seq with verdictTick := BitVec.ofNat 64 tick, stopped := true, sentVerdict := false }
    ∧ (if selfFenced (s.stall i) then t.out = s.out
        else ∃ w : VerdictWord, w.member = (s.stall i).march.member ∧ w.step = (s.stall i).settle.step
          ∧ t.out = s.out ++ [.verdictWord i w])
    ∧ Unchanged s t [.out, .stall i .march, .stall i .seq, .stall i .ledger] := by
  generalize hu : s.beginExchange i c tick = u
  unfold State.beginExchange at hu
  extract_lets s1 w s2 s3 at hu
  have entered : Unchanged s s3 [.out, .stall i .march, .stall i .seq, .stall i .ledger] :=
    unchanged_modSeq _ (by simp) (unchanged_modMarch _ (by simp) (unchanged_modLedger _ (by simp) (unchanged_refl s _)))
  rw [hl, if_neg (by decide)] at hu
  by_cases fenced : selfFenced (s.stall i) = true
  · rw [if_pos fenced] at hu
    subst hu
    exact ⟨by simp [s3, s2, s1], by simp [s3, s2, s1], by rw [if_pos fenced]; rfl, entered⟩
  · rw [if_neg fenced] at hu
    subst hu
    refine ⟨by simp [s3, s2, s1], by simp [s3, s2, s1], ?_, unchanged_send _ (by simp) entered⟩
    rw [if_neg fenced]
    exact ⟨w, by simp [w, ownWord, s1], by simp [w, ownWord, s1], rfl⟩

/-- The exchange leaves the causes of the march, and stops its member. -/
theorem beginExchange_keeps :
    let t := s.beginExchange i c tick
    (t.stall i).seq.causes = (s.stall i).seq.causes ∧ (t.stall i).seq.stopped = true
    ∧ ((s.stall i).march.lead = false → t.log = s.log) ∧ Unchanged s t (marchParts i) := by
  extract_lets t
  cases hl : (s.stall i).march.lead with
  | false =>
    obtain ⟨-, seq, -, frame⟩ := beginExchange_member s i c tick hl
    exact ⟨by simp [t, seq], by simp [t, seq], fun _ => frame .log (by simp), Unchanged.mono frame (by simp [marchParts])⟩
  | true =>
    generalize ht : t = u
    unfold t State.beginExchange at ht
    extract_lets s1 w s2 s3 at ht
    rw [hl, if_pos rfl] at ht
    obtain ⟨causes, stopped, frame⟩ := keepsCauses_tryVerdict
      (s3.modSeq i fun q => { q with words := w :: q.words.filter fun x => x.member != w.member }) i false
    rw [ht] at causes stopped frame
    refine ⟨by simp [causes, s3, s2, s1], by simp [stopped, s3], nofun, Unchanged.trans ?_ frame⟩
    exact unchanged_modSeq _ (by simp [marchParts]) (unchanged_modSeq _ (by simp [marchParts])
      (unchanged_modMarch _ (by simp [marchParts]) (unchanged_modLedger _ (by simp [marchParts]) (unchanged_refl s _))))

end exchange

/-- A verdict word that left while no others did had left before. -/
theorem SendsOnly.word_mem {w : VerdictWord} (h : SendsOnly Wordless s t) (hw : Out.verdictWord i w ∈ t.out) :
    Out.verdictWord i w ∈ s.out := by
  obtain ⟨os, out, all⟩ := h
  rw [out] at hw
  exact (List.mem_append.mp hw).elim id fun new => absurd (all _ new) (by simp [Wordless, isVerdictWord])

theorem wordless_tickAudits {o : Out} (h : o ∈ tickAudits s i) : Wordless o := by
  obtain ⟨p, -, hp⟩ := List.mem_flatMap.mp h
  unfold auditsOf at hp
  split at hp
  · obtain ⟨n, -, rfl⟩ := List.mem_map.mp hp
    rfl
  · exact absurd hp List.not_mem_nil

/-! ### A tick in LEGS (R47, R57, R58, R61) -/

/-- Does a member know of a halt at a tick, by a flit or by its own timebase? -/
def knowsHalt (u : StallState) : Bool := u.seq.haltKnown || u.sync.outOfStep

/-- Is an entry of a leg unfinished at the tick that ends it (R57, R58)? -/
def lateAt (u : StallState) (c : Charter) (k : Nat) : Bool := (marchEntries u c k).any (unfinishedAt u (endTick u c k))

/-- The member passes to the next leg. -/
def State.nextLeg (s : State) (i : Stall) (c : Charter) (k : Nat) : State :=
  s.modMarch i fun m => { m with leg := BitVec.ofNat 8 (k + 1), kind := kindOf c (k + 1) }

/-- Unfinished work halts the march with OVERRUN, and is recorded (R58). -/
def State.overrun (s : State) (i : Stall) (k : Nat) : State :=
  (s.causeNow i vOverrun 0x0201).record { reason := 0x0201, cls := clsRepeat, stall := some i, detail := BitVec.ofNat 32 k }

theorem unchanged_guardOverrun (k : Nat) (hm : Part.stall i .march ∈ l) (hq : Part.stall i .seq ∈ l) (h : Unchanged s t l) :
    Unchanged s (t.guardOverrun i c k) l := by
  obtain e | ⟨d, e⟩ := guardOverrun_cases t i c k <;> rw [e]
  · exact h
  · exact unchanged_modSeq _ hq (unchanged_modMarch _ hm h)

section legs
variable (s) (i) (c) (k : Nat)

/-- A tick in LEGS after its buckets have ended: what the leg leaves undone, and the next leg or the verdict exchange. -/
def State.endLeg (s : State) (i : Stall) (c : Charter) (k : Nat) : State :=
  let s1 := if !knowsHalt (s.stall i) && !(s.stall i).seq.stopped && lateAt (s.stall i) c k then s.overrun i k
    else s.guardOverrun i c k
  if k = c.lastReduce then (s1.nextLeg i c k).beginExchange i c (endTick (s.stall i) c k)
  else if knowsHalt (s.stall i) then s1.beginExchange i c (endTick (s.stall i) c k)
  else s1.nextLeg i c k

theorem tickLegs_eq : s.tickLegs i c k = (s.ledgerDeadline i c k).endLeg i c k := rfl

theorem overrun_facts (hs : (s.stall i).march.state = .legs) :
    let t := s.overrun i k
    (t.stall i).seq.causes = setBit (s.stall i).seq.causes 7 ∧ (t.stall i).seq.stopped = true
    ∧ (t.stall i).march = (s.stall i).march ∧ Recorded s t 0x0201
    ∧ SendsOnly Wordless s t ∧ Unchanged s t [.out, .log, .stall i .seq] := by
  extract_lets t
  have halted := (causeNow_halts s i vOverrun 0x0201 hs rfl).1
  have frame : Unchanged s (s.causeNow i vOverrun 0x0201) [.out, .stall i .seq] :=
    unchanged_causeNow _ _ (by simp) (by simp) (unchanged_refl s _)
  have seq : (t.stall i).seq = ((s.causeNow i vOverrun 0x0201).stall i).seq := by
    simp [t, State.overrun]
  have march : ((s.causeNow i vOverrun 0x0201).stall i).march = (s.stall i).march := frame (.stall i .march) (by simp)
  have log : (s.causeNow i vOverrun 0x0201).log = s.log := frame .log (by simp)
  refine ⟨by rw [seq, halted]; rfl, by rw [seq, halted], (congrArg StallState.march (record_stall _ _ _)).trans march,
    recorded_record _ (by rw [log]) (by rw [log]), (wordless_causeNow s i _ _).trans (wordless_record _ _),
    unchanged_record _ (by simp) (by simp) (Unchanged.mono frame (by simp))⟩

variable {s} {i} {c} {k}

theorem endLeg_next (known : knowsHalt (s.stall i) = false) (late : lateAt (s.stall i) c k = false) (hr : k ≠ c.lastReduce) :
    s.endLeg i c k = (s.guardOverrun i c k).nextLeg i c k := by
  simp [State.endLeg, known, late, hr]

theorem endLeg_overrun (known : knowsHalt (s.stall i) = false) (late : lateAt (s.stall i) c k = true)
    (going : (s.stall i).seq.stopped = false) : s.endLeg i c k =
      if k = c.lastReduce then ((s.overrun i k).nextLeg i c k).beginExchange i c (endTick (s.stall i) c k)
      else (s.overrun i k).nextLeg i c k := by
  simp [State.endLeg, known, late, going]

/-- At the verdict's tick, and at the first after a halt, the exchange begins (R61, R62). -/
theorem endLeg_exchange (hs : (s.stall i).march.state = .legs) (h : k = c.lastReduce ∨ knowsHalt (s.stall i) = true) :
    ∃ u, s.endLeg i c k = u.beginExchange i c (endTick (s.stall i) c k)
      ∧ (u.stall i).march.member = (s.stall i).march.member ∧ (u.stall i).march.lead = (s.stall i).march.lead
      ∧ SendsOnly Wordless s u ∧ Unchanged s u [.out, .log, .stall i .march, .stall i .seq] := by
  let ended := if !knowsHalt (s.stall i) && !(s.stall i).seq.stopped && lateAt (s.stall i) c k then s.overrun i k
    else s.guardOverrun i c k
  have kept : (ended.stall i).march.member = (s.stall i).march.member ∧ (ended.stall i).march.lead = (s.stall i).march.lead
      ∧ SendsOnly Wordless s ended ∧ Unchanged s ended [.out, .log, .stall i .march, .stall i .seq] := by
    unfold ended
    split
    · obtain ⟨-, -, march, -, sent, frame⟩ := overrun_facts s i k hs
      exact ⟨by rw [march], by rw [march], sent, Unchanged.mono frame (by simp)⟩
    · have counted := unchanged_guardOverrun (i := i) (l := [.stall i .march, .stall i .seq]) k (c := c) (by simp) (by simp)
        (unchanged_refl s _)
      obtain ⟨-, ⟨a, b, march⟩, -⟩ := lateOnly_guardOverrun s i c k
      exact ⟨by rw [march], by rw [march], sendsOnly_of_out_eq (counted .out (by simp)), Unchanged.mono counted (by simp)⟩
  obtain ⟨member, lead, sent, frame⟩ := kept
  by_cases hr : k = c.lastReduce
  · exact ⟨ended.nextLeg i c k, if_pos hr, by simpa [State.nextLeg] using member, by simpa [State.nextLeg] using lead,
      sent.trans (sendsOnly_of_out_eq rfl), unchanged_modMarch _ (by simp) frame⟩
  · exact ⟨ended, (if_neg hr).trans (if_pos (h.resolve_left hr)), member, lead, sent, frame⟩

end legs

/-- The index of the next leg. -/
theorem ofNat_toNat_succ (x : BitVec 8) : BitVec.ofNat 8 (x.toNat + 1) = x + 1 := by
  apply BitVec.eq_of_toNat_eq
  simp [BitVec.toNat_add]

section entries
variable {k : Nat} (h : EndsEntries i s t)
include h

theorem EndsEntries.march : (t.stall i).march = (s.stall i).march := h.frame (.stall i .march) (by simp)

theorem EndsEntries.marchEntries : marchEntries (t.stall i) c k = marchEntries (s.stall i) c k := by
  have ledger : (t.stall i).ledger = (s.stall i).ledger := h.frame (.stall i .ledger) (by simp)
  have idle : idleStandby (t.stall i) = idleStandby (s.stall i) := by simp only [idleStandby, h.march, ledger]
  simp only [Machine.marchEntries, idle]

theorem EndsEntries.endTick : endTick (t.stall i) c k = endTick (s.stall i) c k := by
  simp only [Machine.endTick, legStart, h.march]

theorem EndsEntries.knowsHalt : knowsHalt (t.stall i) = knowsHalt (s.stall i) := by
  obtain ⟨d, r, seq, -⟩ := h.seq
  have sync : (t.stall i).sync = (s.stall i).sync := h.frame (.stall i .sync) (by simp)
  simp only [Machine.knowsHalt, seq, sync]

theorem EndsEntries.lateAt : lateAt (t.stall i) c k = lateAt (s.stall i) c k := by
  obtain ⟨-, -, -, same⟩ := h.seq
  simp only [Machine.lateAt, h.marchEntries, h.endTick]
  rw [Bool.eq_iff_iff]
  simp only [List.any_eq_true]
  exact exists_congr fun e => and_congr_right fun he => by rw [unfinishedAt, unfinishedAt, same e (marchEntries_not_ledger he)]

end entries

/-- The state at a tick whose buckets have ended. -/
def State.atDeadline (s : State) (i : Stall) (c : Charter) : State :=
  (s.atTick i c).ledgerDeadline i c (s.stall i).march.leg.toNat

/-- What a tick finds whose buckets have their totals and that knows of no halt: its causes, and as many entries unfinished
as there were. -/
theorem atDeadline_facts
    (ht : ∀ r ∈ (s.stall i).ledger.runs, bkDeadline (c.bucket r.bucket.toNat) = (s.stall i).march.leg.toNat → r.complete = true)
    (hn : ¬((s.stall i).seq.haltKnown = true ∨ (s.stall i).sync.outOfStep = true)) :
    let d := s.atDeadline i c
    knowsHalt (d.stall i) = false ∧ lateAt (d.stall i) c (s.stall i).march.leg.toNat = lateAt (s.stall i) c (s.stall i).march.leg.toNat
    ∧ (d.stall i).march = (s.stall i).march ∧ (d.stall i).seq.causes = (s.stall i).seq.causes
    ∧ (d.stall i).seq.stopped = (s.stall i).seq.stopped ∧ Unchanged (s.atTick i c) d [.stall i .seq] := by
  have ends : EndsEntries i (s.atTick i c) (s.atDeadline i c) :=
    endsEntries_ledgerDeadline (s.atTick i c) i c (s.stall i).march.leg.toNat ht
  obtain ⟨known, step⟩ := not_or.mp hn
  obtain ⟨d, r, seq, -⟩ := ends.seq
  exact ⟨ends.knowsHalt.trans (Bool.or_eq_false_iff.mpr ⟨Bool.eq_false_iff.mpr known, Bool.eq_false_iff.mpr step⟩), ends.lateAt,
    ends.march, by rw [seq]; rfl, by rw [seq]; rfl, ends.frame⟩

section tick
variable (hc : (s.stall i).charter.active = some c) (ha : AuditsAgree s i) (hk : (s.stall i).march.leg.toNat < c.legs.length)
include hc ha hk

section inLegs
variable (hf : (s.stall i).seq.left = false) (hs : (s.stall i).march.state = .legs)
include hf hs

theorem exec_tick_legs : exec (.tick i) s = .next ((s.atDeadline i c).endLeg i c (s.stall i).march.leg.toNat) := by
  have running : ticking (s.stall i) = true := by simp [ticking, hf, hs]
  rw [exec_tick hc ha hk running, hs]
  rfl

section unknown
variable (ht : ∀ r ∈ (s.stall i).ledger.runs, bkDeadline (c.bucket r.bucket.toNat) = (s.stall i).march.leg.toNat → r.complete = true)
  (hn : ¬((s.stall i).seq.haltKnown = true ∨ (s.stall i).sync.outOfStep = true)) (hp : (s.stall i).seq.stopped = false)
include ht hn

/-- A tick whose leg is done begins the next leg (R47). -/
theorem runs_tick_next (hr : (s.stall i).march.leg.toNat ≠ c.lastReduce)
    (all : ∀ e ∈ marchEntries (s.stall i) c (s.stall i).march.leg.toNat,
      unfinishedAt (s.stall i) (endTick (s.stall i) c (s.stall i).march.leg.toNat) e = false) :
    let t0 := s.stall i
    let k := t0.march.leg.toNat
    Runs (.tick i) s fun t =>
      t.time = maxU s.time (t0.march.origin + BitVec.ofNat 64 (c.legOffset (k + 1))) ∧ (t.stall i).march.state = .legs
      ∧ (t.stall i).march.leg = t0.march.leg + 1 ∧ (t.stall i).march.kind = kindOf c (k + 1)
      ∧ (t.stall i).seq.causes = t0.seq.causes
      ∧ (∀ p, portStall s p = some i → portUp s p = true → ∀ n : Fin 5,
          ∃ granted spent held, Out.audit p n granted spent held ∈ t.out)
      ∧ Unchanged s t [.time, .out, .stall i .march, .stall i .seq] := by
  extract_lets t0 k
  obtain ⟨known, late, march0, causes, -, frame⟩ := atDeadline_facts (c := c) ht hn
  let d := s.atDeadline i c
  have none : lateAt t0 c k = false := List.any_eq_false.mpr fun e he => by simp [all e he, t0, k]
  have run : d.endLeg i c k = (d.guardOverrun i c k).nextLeg i c k := endLeg_next known (late.trans none) hr
  obtain ⟨-, ⟨a, b, march⟩, ⟨o, x, seq⟩⟩ := lateOnly_guardOverrun d i c k
  have whole : Unchanged (s.atTick i c) ((d.guardOverrun i c k).nextLeg i c k) [.stall i .march, .stall i .seq] :=
    unchanged_modMarch _ (by simp) (unchanged_guardOverrun k (by simp) (by simp) (Unchanged.mono frame (by simp)))
  refine runs_of_exec ((exec_tick_legs hc ha hk hf hs).trans (congrArg _ run)) ⟨whole .time (by simp), ?_, ?_, ?_, ?_, ?_, ?_⟩
  · simp [State.nextLeg, march, d, march0, hs]
  · simpa [State.nextLeg] using ofNat_toNat_succ _
  · simp [State.nextLeg]
  · simp [State.nextLeg, seq, d, causes, t0]
  · intro p own up n
    obtain ⟨g, sp, h, there⟩ := mem_tickAudits own up n
    have out : ((d.guardOverrun i c k).nextLeg i c k).out = (s.atTick i c).out := whole .out (by simp)
    exact ⟨g, sp, h, by rw [out]; exact List.mem_append_right _ there⟩
  · exact Unchanged.trans (Unchanged.mono (unchanged_atTick s i c) (by simp)) (Unchanged.mono whole (by simp))

/-- A tick whose leg is not done halts the march with OVERRUN (R58). -/
theorem runs_tick_overrun (hp : (s.stall i).seq.stopped = false)
    (some : ∃ e ∈ marchEntries (s.stall i) c (s.stall i).march.leg.toNat,
      unfinishedAt (s.stall i) (endTick (s.stall i) c (s.stall i).march.leg.toNat) e = true) :
    let t0 := s.stall i
    Runs (.tick i) s fun t =>
      t.time = maxU s.time (t0.march.origin + BitVec.ofNat 64 (c.legOffset (t0.march.leg.toNat + 1)))
      ∧ (∀ n < 13, bit (t.stall i).seq.causes n = (bit t0.seq.causes n || n == 7)) ∧ (t.stall i).seq.stopped = true
      ∧ (t0.march.lead = false → Recorded s t 0x0201) ∧ Unchanged s t (.time :: marchParts i) := by
  extract_lets t0
  obtain ⟨known, late, march0, causes0, stopped0, frame0⟩ := atDeadline_facts (c := c) ht hn
  let d := s.atDeadline i c
  let k := t0.march.leg.toNat
  let v := (d.overrun i k).nextLeg i c k
  have legs : (d.stall i).march.state = .legs := by rw [march0, hs]
  obtain ⟨causes1, stopped1, march1, recorded, -, frame1⟩ := overrun_facts d i k legs
  have there : lateAt t0 c k = true := by simpa [lateAt, t0, k] using some
  have run : d.endLeg i c k = if k = c.lastReduce then v.beginExchange i c (endTick (d.stall i) c k) else v :=
    endLeg_overrun known (late.trans there) (stopped0.trans hp)
  have base : Unchanged (s.atTick i c) v (marchParts i) :=
    unchanged_modMarch _ (by simp [marchParts]) (Unchanged.trans (Unchanged.mono frame0 (by simp [marchParts]))
      (Unchanged.mono frame1 (by simp [marchParts])))
  have log : d.log = s.log := (frame0 .log (by simp)).trans (unchanged_atTick s i c .log (by simp))
  have last : ((d.endLeg i c k).stall i).seq.causes = (v.stall i).seq.causes ∧ ((d.endLeg i c k).stall i).seq.stopped = true
      ∧ (t0.march.lead = false → (d.endLeg i c k).log = v.log) ∧ Unchanged v (d.endLeg i c k) (marchParts i) := by
    rw [run]
    split
    · obtain ⟨causes, stopped, same, frame⟩ := beginExchange_keeps v i c (endTick (d.stall i) c k)
      exact ⟨causes, stopped, fun hl => same (by simpa [v, State.nextLeg, march1, d, march0] using hl), frame⟩
    · exact ⟨rfl, by simpa [v, State.nextLeg] using stopped1, fun _ => rfl, unchanged_refl v _⟩
  obtain ⟨causes, stopped, same, frame⟩ := last
  have whole : Unchanged (s.atTick i c) (d.endLeg i c k) (marchParts i) := Unchanged.trans base frame
  refine runs_of_exec (exec_tick_legs hc ha hk hf hs) ⟨whole .time (by simp [marchParts]), fun n _ => ?_, stopped, fun hl => ?_,
    Unchanged.trans (Unchanged.mono (unchanged_atTick s i c) (by simp [marchParts])) (Unchanged.mono whole (by simp +contextual))⟩
  · rw [causes]
    simp [v, State.nextLeg, causes1, d, causes0, bit_setBit, t0]
  · have noted : Recorded s (d.overrun i k) 0x0201 := by simpa only [Recorded, log] using recorded
    exact Recorded.of_log_eq noted (same hl)

end unknown

/-- The tick at the verdict, or the first after a halt, sends the member's word (R61, R62). -/
theorem runs_tick_exchange (hl : (s.stall i).march.lead = false)
    (hr : (s.stall i).march.leg.toNat = c.lastReduce ∨ (s.stall i).seq.haltKnown = true ∨ (s.stall i).sync.outOfStep = true) :
    let t0 := s.stall i
    let k := t0.march.leg.toNat
    Runs (.tick i) s fun t =>
      t.time = maxU s.time (t0.march.origin + BitVec.ofNat 64 (c.legOffset (k + 1))) ∧ (t.stall i).march.state = .verdict
      ∧ (t.stall i).seq.verdictTick = BitVec.ofNat 64 (endTick t0 c k) ∧ (t.stall i).seq.stopped = true
      ∧ (selfFenced t0 = false →
          ∃ w : VerdictWord, w.member = t0.march.member ∧ Out.verdictWord i w ∈ t.out ∧ w.step = t0.settle.step)
      ∧ (selfFenced t0 = true → ∀ w, Out.verdictWord i w ∈ t.out → Out.verdictWord i w ∈ s.out)
      ∧ Unchanged s t ([.time, .stall i .march, .stall i .seq, .stall i .ledger] ++ queueParts) := by
  extract_lets t0 k
  let d := s.atDeadline i c
  have ends : EndsBuckets i (s.atTick i c) d := endsBuckets_ledgerDeadline _ i c k
  have march0 : (d.stall i).march = t0.march := ends.frame (.stall i .march) (by simp [queueParts])
  have sync0 : (d.stall i).sync = t0.sync := ends.frame (.stall i .sync) (by simp [queueParts])
  have settle0 : (d.stall i).settle = t0.settle := ends.frame (.stall i .settle) (by simp [queueParts])
  have meets : k = c.lastReduce ∨ knowsHalt (d.stall i) = true := by
    refine hr.imp id fun known => ?_
    rw [knowsHalt, Bool.or_eq_true, sync0]
    exact known.imp ends.known id
  obtain ⟨u, run, member, lead, sent, frame1⟩ := endLeg_exchange (c := c) (by rw [march0]; exact hs) meets
  obtain ⟨march, seq, out, frame2⟩ := beginExchange_member u i c (endTick (d.stall i) c k) (by rw [lead, march0]; exact hl)
  have settle1 : (u.stall i).settle = (d.stall i).settle := frame1 (.stall i .settle) (by simp)
  have ledger1 : (u.stall i).ledger = (d.stall i).ledger := frame1 (.stall i .ledger) (by simp)
  have fenced : selfFenced (u.stall i) = selfFenced t0 := by
    simp only [selfFenced, isFenced, member, ledger1, ends.fences, march0]
    rfl
  have tick : endTick (d.stall i) c k = endTick t0 c k := by simp only [endTick, legStart, march0]
  have quiet : SendsOnly Wordless s u :=
    SendsOnly.trans ⟨tickAudits s i, rfl, fun o ho => wordless_tickAudits ho⟩ (ends.wordless.trans sent)
  have whole : Unchanged (s.atTick i c) (d.endLeg i c k) ([.stall i .march, .stall i .seq, .stall i .ledger] ++ queueParts) := by
    rw [run]
    exact Unchanged.trans (Unchanged.mono ends.frame (by simp +contextual)) (Unchanged.trans
      (Unchanged.mono frame1 (by simp [queueParts])) (Unchanged.mono frame2 (by simp [queueParts])))
  refine runs_of_exec (exec_tick_legs hc ha hk hf hs) ⟨whole .time (by simp [queueParts, everyPort]), ?_, ?_, ?_,
    fun free => ?_, fun isFenced w hw => ?_,
    Unchanged.trans (Unchanged.mono (unchanged_atTick s i c) (by simp [queueParts])) (Unchanged.mono whole (by simp +contextual))⟩
  · rw [run, march]
  · rw [run, seq, tick]
  · rw [run, seq]
  · rw [fenced, free, if_neg Bool.false_ne_true] at out
    obtain ⟨w, from_, step, out⟩ := out
    refine ⟨w, by rw [from_, member, march0], ?_, by rw [step, settle1, settle0]⟩
    rw [run, out]
    exact List.mem_append_right _ (List.mem_singleton_self _)
  · rw [fenced, isFenced, if_pos rfl] at out
    rw [run, out] at hw
    exact quiet.word_mem hw

end inLegs
end tick

end Sys2Proof.Machine
end

section
/-! PROOFS. The ticks after the verdict, and the boundary of a march (R47, R57, R59, R66, R67). -/

namespace Sys2Proof.Machine

open Sys2Proof.Safety

variable {s t : State} {l : List Part} {i : Stall} {c : Charter}

/-- A tick after the verdict: the guard overrun is counted, and the next leg or the march boundary follows. -/
theorem tickAfter_eq (s : State) (i : Stall) (c : Charter) (k : Nat) : s.tickAfter i c k =
    let s1 := s.guardOverrun i c k
    if k + 1 < c.legs.length then
      s1.modMarch i fun m => { m with leg := BitVec.ofNat 8 (k + 1), kind := kindNow (s.stall i) c (k + 1) }
    else
      let s2 := s1.modSeq i fun q => { q with ended := true }
      if (s.stall i).march.state = .held then
        if (s.stall i).march.hostDecision = 2 then (s2.modMarch i fun m => { m with state := .settle }).finishMarch i
        else s2
      else s2.finishMarch i := by
  have counted : (if (legDone (s.stall i) c k).isSome then s.guardOverrun i c k else s) = s.guardOverrun i c k := by
    cases h : legDone (s.stall i) c k with
    | none => simp [State.guardOverrun, h]
    | some d => rfl
  unfold State.tickAfter
  simp only [counted]

section tick
variable (hc : (s.stall i).charter.active = some c) (ha : AuditsAgree s i)
include hc ha

/-- The legs go on after the verdict, and in the holds that wait within the march's schedule (R67). -/
theorem runs_tick_passes (hs : (s.stall i).march.state = .settle ∨ (s.stall i).march.state = .held)
    (ht : ticking (s.stall i) = true) (hk : (s.stall i).march.leg.toNat + 1 < c.legs.length) :
    let t0 := s.stall i
    let k := t0.march.leg.toNat
    Runs (.tick i) s fun t =>
      t.time = maxU s.time (t0.march.origin + BitVec.ofNat 64 (c.legOffset (k + 1))) ∧ (t.stall i).march.state = t0.march.state
      ∧ (t.stall i).march.leg = t0.march.leg + 1 ∧ (t.stall i).march.kind = kindNow t0 c (k + 1)
      ∧ Unchanged s t [.time, .out, .stall i .march, .stall i .seq] := by
  extract_lets t0 k
  let u := (s.atTick i c).guardOverrun i c k
  let v := u.modMarch i fun m => { m with leg := BitVec.ofNat 8 (k + 1), kind := kindNow t0 c (k + 1) }
  have after : ((s.stall i).march.state == .legs) = false := by obtain hs | hs := hs <;> rw [hs] <;> rfl
  have taken : exec (.tick i) s = .next v := by
    rw [exec_tick hc ha (Nat.lt_of_succ_lt hk) ht, after, if_neg Bool.false_ne_true, tickAfter_eq]
    simp only [hk, if_true]
    rfl
  have frame : Unchanged (s.atTick i c) v [.stall i .march, .stall i .seq] :=
    unchanged_modMarch _ (by simp) (unchanged_guardOverrun k (by simp) (by simp) (unchanged_refl _ _))
  obtain ⟨-, ⟨a, b, march⟩, -⟩ := lateOnly_guardOverrun (s.atTick i c) i c k
  refine runs_of_exec taken ⟨frame .time (by simp), ?_, ?_, ?_,
    Unchanged.trans (Unchanged.mono (unchanged_atTick s i c) (by simp)) (Unchanged.mono frame (by simp))⟩
  · simp only [v, u, State.modMarch_march, march]
    rfl
  · simpa [v] using ofNat_toNat_succ _
  · simp [v]

/-- The march boundary of a settled march whose work is over advances its number (R59, R66, R250). -/
theorem runs_tick_boundary (hf : (s.stall i).seq.left = false) (hs : (s.stall i).march.state = .settle)
    (he : (s.stall i).seq.ended = false) (hk : (s.stall i).march.leg.toNat + 1 = c.legs.length)
    (hn : (s.stall i).seq.finished = false)
    (all : ∀ n < c.legs.length, ∀ e ∈ marchEntries (s.stall i) c n, isDone (s.stall i) e = true) :
    let t0 := s.stall i
    Runs (.tick i) s fun t =>
      t.time = maxU s.time (t0.march.origin + BitVec.ofNat 64 (c.legOffset (t0.march.leg.toNat + 1)))
      ∧ (t.stall i).seq.ended = true ∧ (t.stall i).seq.finished = true
      ∧ (t.stall i).march.num = t0.march.num + 1 ∧ (t.stall i).march.repeats = 0 ∧ (t.stall i).march.sinceStart = 0
      ∧ (t.stall i).settle.step = t0.settle.step + (if t0.seq.settles then 1 else 0)
      ∧ ∀ j, j ≠ i → t.stall j = s.stall j := by
  extract_lets t0
  let k := t0.march.leg.toNat
  let u := (s.atTick i c).guardOverrun i c k
  let v := u.modSeq i fun q => { q with ended := true }
  have running : ticking (s.stall i) = true := by simp [ticking, hf, hs, he]
  have taken : exec (.tick i) s = .next (v.finishMarch i) := by
    rw [exec_tick hc ha (by omega) running, hs, if_neg (by decide), tickAfter_eq]
    have last : ¬(s.stall i).march.leg.toNat + 1 < c.legs.length := by omega
    have settles : ¬((s.atTick i c).stall i).march.state = .held := by
      change ¬(s.stall i).march.state = .held
      rw [hs]
      decide
    simp only [last, settles, if_false]
    rfl
  have frame : Unchanged (s.atTick i c) v [.stall i .march, .stall i .seq] :=
    unchanged_modSeq _ (by simp) (unchanged_guardOverrun k (by simp) (by simp) (unchanged_refl _ _))
  obtain ⟨-, ⟨a, b, march0⟩, ⟨o, x, seq0⟩⟩ := lateOnly_guardOverrun (s.atTick i c) i c k
  have march : (v.stall i).march = { t0.march with guardOvr := a, guardMax := b } := (State.modSeq_march u i _).trans march0
  have seq : (v.stall i).seq = { t0.seq with overrunLegs := o, late := x, ended := true } := by
    simp only [v, u, State.modSeq_seq, seq0]
    rfl
  have charter : (v.stall i).charter = t0.charter := frame (.stall i .charter) (by simp)
  have ledger : (v.stall i).ledger = t0.ledger := frame (.stall i .ledger) (by simp)
  have settle : (v.stall i).settle = t0.settle := frame (.stall i .settle) (by simp)
  have allOver : workOver (v.stall i) c = true := by
    have entries (n : Nat) : marchEntries (v.stall i) c n = marchEntries t0 c n := by
      have idle : idleStandby (v.stall i) = idleStandby t0 := by simp only [idleStandby, march, ledger]
      simp only [marchEntries, idle]
    have done (e : EntryRef) : isDone (v.stall i) e = isDone t0 e := by simp only [isDone, seq]
    refine List.isEmpty_iff.mpr (List.filter_eq_nil_iff.mpr fun n hn' => ?_)
    have whole : ((marchEntries (v.stall i) c n).all fun r =>
        isDone (v.stall i) r || ((v.stall i).seq.noSettle && !hasRun (v.stall i) r)) = true := by
      rw [entries]
      exact List.all_eq_true.mpr fun e he' => by rw [done, all n (List.mem_range.mp hn') e he', Bool.true_or]
    simp [whole]
  have finishes : v.finishMarch i = (v.finishWork i c).closeMarch i := by
    rw [finishMarch_eq v i (by rw [charter]; exact hc), seq, allOver]
    simp [t0, hn]
  obtain ⟨march1, seq1, step1⟩ := finishWork_stall v i c
  obtain ⟨⟨x', o', march2⟩, ⟨h', r', n', seq2⟩, step2⟩ := closes_closeMarch (v.finishWork i c) i
  refine runs_of_exec taken ⟨finishMarch_time.trans (frame .time (by simp)), ?_, ?_, ?_, ?_, ?_, ?_, fun j hj => ?_⟩
  · rw [finishes, seq2, seq1, seq]
  · rw [finishes, seq2, seq1]
  · rw [finishes, march2, march1, march]
  · rw [finishes, march2, march1]
  · rw [finishes, march2, march1]
  · rw [finishes, step2, step1, settle, seq]
  · rw [finishMarch_stall_other hj]
    have whole : Unchanged s v [.time, .out, .stall i .march, .stall i .seq] :=
      Unchanged.trans (Unchanged.mono (unchanged_atTick s i c) (by simp)) (Unchanged.mono frame (by simp))
    exact Unchanged.stall_eq whole (by simp [hj])

end tick

/-- Settles O28: the origin, and each kind of tick, by what its buckets' deadline and its leg leave. -/
theorem marchesRunOnTicks : Obligations.MarchesRunOnTicks := by
  intro s i c hc hf t0 m q k tickTime known totals
  refine ⟨fun hs ho hn => runs_marchOrigin hc hf hs ho hn, fun ha => ⟨fun hs hk ht hn hp => ⟨fun hr all => ?_, fun some => ?_⟩,
    fun hs hk hr hl => ?_, fun hs ht hk => ?_, fun hs he hk hn all => ?_⟩⟩
  · exact runs_tick_next hc ha hk hf hs ht hn hr all
  · exact runs_tick_overrun hc ha hk hf hs ht hn hp some
  · exact runs_tick_exchange hc ha hk hf hs hl hr
  · exact runs_tick_passes hc ha hs ht hk
  · exact runs_tick_boundary hc ha hf hs he hk hn all

end Sys2Proof.Machine
end

section
/-! PROOFS. The queue and the timebase in a step on an empty queue (R39, R290, R372, R443, R444). -/

namespace Sys2Proof.Machine

open Sys2Proof.Safety

variable {s t : State} {l : List Part}

/-- The queue of commands and the timebase. -/
def clock (s : State) : List Instr × BitVec 64 := (s.pending, s.time)

theorem clock_of_unchanged (h : Unchanged s t l) (hp : Part.pending ∉ l) (ht : Part.time ∉ l) : clock t = clock s :=
  Prod.ext (h .pending hp) (h .time ht)

/-! ### Stall resets that end (R372) -/

section resets
variable (s) (i : Stall)

theorem clock_leaveBuffer (q : QueuedFlit) : clock (s.leaveBuffer q) = clock s := by
  unfold State.leaveBuffer
  split <;> rfl

theorem clock_freshUnits : clock (s.freshUnits i) = clock s := by
  unfold State.freshUnits
  extract_lets s1 s2 s3 fabric s4
  have h1 : clock s1 = clock s := forEach_keeps _ (fun s k => s.modCore k (freshCore (liveCore s k))) clock (fun _ _ => rfl) s
  have h2 : clock s2 = clock s1 := forEach_keeps _ (fun s e => s.modEngine e (freshEngine e)) clock (fun _ _ => rfl) s1
  have fresh (u : State) (p : PortId) : clock ((u.modPort p freshPort).modLnk p freshBandit) = clock u := rfl
  have h3 : clock s3 = clock s2 := forEach_keeps _
    (fun s p => ((forEach (s.lnk p).queue s fun s q => s.leaveBuffer q).modPort p freshPort).modLnk p freshBandit) clock
    (fun u p => (fresh _ p).trans (forEach_keeps (u.lnk p).queue _ clock clock_leaveBuffer u)) s2
  have h4 : clock s4 = clock s3 := by
    unfold s4
    split <;> rfl
  exact h4.trans (h3.trans (h2.trans h1))

theorem clock_noteRefusal (code detail : Reason) (sec item : Nat) : clock (s.noteRefusal i code detail sec item) = clock s :=
  clock_of_unchanged (l := [.out, .stall i .charter])
    (unchanged_raiseEvent _ _ (by simp) (unchanged_modCharter _ (by simp) (unchanged_refl s _))) (by simp) (by simp)

theorem clock_modCharter (f : CharterPage → CharterPage) : clock (s.modCharter i f) = clock s := rfl

theorem clock_passTable : clock (s.passTable i) = clock s := rfl

theorem clock_doLoad : clock (s.doLoad i) = clock s := by
  have chosen : clock (s.chooseSlot i).2 = clock s := rfl
  unfold State.doLoad
  generalize s.chooseSlot i = x at chosen
  obtain ⟨ch, s1⟩ := x
  cases ch with
  | refuse code detail => exact (clock_noteRefusal _ i _ _ _ _).trans chosen
  | winner slot =>
    refine (clock_modCharter _ i _).trans ?_
    split
    · exact (clock_passTable s1 i).trans chosen
    · exact chosen

theorem clock_tollgatePass : clock (s.tollgatePass i) = clock s := by
  have passed := clock_passTable s i
  unfold State.tollgatePass State.beginLoad
  simp only []
  split
  · split
    · exact passed
    · exact (clock_doLoad _ i).trans passed
  · exact passed

theorem clock_endStallReset : clock (s.endStallReset i) = clock s := by
  unfold State.endStallReset
  simp only []
  split
  · rfl
  · exact (clock_tollgatePass _ i).trans (clock_freshUnits _ i)

theorem clock_finishResets : clock s.finishResets = clock s := by
  unfold State.finishResets
  split
  · rfl
  · exact forEach_keeps _ _ clock clock_endStallReset s

end resets

/-! ### Retirements that reach their last step (R290) -/

section retirements
variable (s)

theorem clock_unitErr (u : MemUnit) (bay : BitVec 10) (row : BitVec 18) (kind : BitVec 8) :
    clock (s.unitErr u bay row kind) = clock s := by
  unfold State.unitErr
  cases u <;> rfl

theorem clock_record (r : Rec) : clock (s.record r) = clock s :=
  clock_of_unchanged (l := [.log, .out]) (unchanged_record _ (by simp) (by simp) (unchanged_refl s _)) (by simp) (by simp)

theorem clock_plainLost (u : MemUnit) : clock (s.plainLost u) = clock s :=
  forEach_keeps _ _ clock (fun w _ => forEach_keeps _ _ clock (fun x _ => (clock_record _ _).trans (clock_unitErr x _ _ _ _)) w) s

theorem clock_refitTier (tier : BitVec 3) : clock (s.refitTier tier) = clock s :=
  forEach_keeps _ _ clock (fun u i => clock_of_unchanged (unchanged_refit (l := refitParts i) (fun _ h => h) (unchanged_refl u _))
    (by simp [refitParts]) (by simp [refitParts])) s

theorem clock_retireNow (f : FailingUnit) : clock (s.retireNow f) = clock s := by
  unfold State.retireNow
  extract_lets u s1 s2
  clear_value u
  have unit : clock (s.setUnit u 2) = clock s := by
    unfold State.setUnit
    cases u <;> rfl
  have listed : clock s1 = clock s :=
    (clock_of_unchanged (l := [.log]) (unchanged_retire _ _ _ _ (by simp) (unchanged_refl _ _)) (by simp) (by simp)).trans
      ((clock_unitErr _ _ _ _ _).trans unit)
  have lost : clock s2 = clock s := by
    unfold s2
    split
    · exact (clock_plainLost _ _).trans listed
    · exact listed
  have rebuilds (v : State) : clock (v.startRebuild u) = clock v := by
    unfold State.startRebuild State.setRebuild
    cases u <;> rfl
  split
  · exact (clock_refitTier _ _).trans ((rebuilds _).trans ((clock_record _ _).trans lost))
  · exact lost

theorem clock_finishRetirements : clock s.finishRetirements = clock s :=
  forEach_keeps _ _ clock clock_retireNow _

end retirements

/-! ### The power state (R443, R444) -/

theorem clock_settlePower (s : State) : clock s.settlePower = clock s := by
  unfold State.settlePower
  simp only []
  split
  · rfl
  · split <;> rfl

theorem clock_enterStandby (s : State) : clock s.enterStandby = clock s := by
  have dark : clock s.allDark = clock s :=
    clock_of_unchanged (unchanged_allDark s) (by simp [everyPort]) (by simp [everyPort])
  unfold State.enterStandby
  split
  · rfl
  · simp only [clock]
    exact dark

/-- A step on an empty queue takes one nanosecond (R39). -/
theorem clock_idle (s : State) : clock s.idle = (s.pending, s.time + 1) :=
  (clock_enterStandby _).trans ((clock_settlePower _).trans ((clock_finishRetirements _).trans (clock_finishResets _)))

end Sys2Proof.Machine
end

section
/-! PROOFS. Every command completes, but for the named stops (R39, R418, R486). -/

namespace Sys2Proof.Machine

open Sys2Proof.Safety

variable {s : State}

/-- A command completes: it answers a next state. -/
def Completes (o : Host.Outcome State Fault Refusal) : Prop := ∃ t, o = .next t

/-- The commands by how they are shown to complete: those that have a named stop, those whose meaning has branches, by the
unit that they concern, and those that answer one next state outright. -/
inductive Family where
  | stopping | march | cores | spill | vectors | memory | fabric | tollgate | hosts | power | outright

/-- The family of a command. -/
def family : Instr → Family
  | .registerWrite .. | .writeLowHalf .. | .writeHighHalf .. | .readLowHalf .. | .w1cWrite .. | .rcRead ..
    | .relayRequest .. | .channelSample .. | .jtagTap .. => .stopping
  | .spareReady .. | .syncFlitSend .. | .syncFlitReceive .. | .holdover .. | .syncedLost .. | .outOfStep ..
    | .leadChange .. | .marchOrigin .. | .entryComplete .. | .settleLate .. | .haltFlit .. | .haltBroadcast ..
    | .verdictWord .. | .verdictLost .. | .federationWord .. | .federationWordTimeout .. | .caravanVerdict ..
    | .decisionLost .. | .commandRelay .. | .settled .. | .recordRequest .. | .recordAnswer ..
    | .settleUnconfirmed .. | .takeoverWait .. | .mirrorApply .. | .memberReady .. | .tick .. => .march
  | .matmul .. | .spmm .. | .ragged .. | .dispatchMain .. | .combine .. | .assay .. => .cores
  | .dispatchSpill .. => .spill
  | .vmapCopy .. | .vmapAdd .. | .vmapMul .. | .vmapFma .. | .vmapMax .. | .vmapMin .. | .vmapScale .. | .vfunc ..
    | .vderivTable .. | .vderivBits .. | .vdropForward .. | .vdropBackward .. | .vsum .. => .vectors
  | .copyEntry .. | .copyBatchTake .. | .copyBatchComplete .. | .contribute .. | .ledgerSendUp .. | .settle ..
    | .lotTestDone .. | .ceRate .. | .memRepeatRead .. | .patrolScrub .. | .rebuildRow .. | .cxlMemRead ..
    | .cxlMemWrite .. | .seraiHoldRoom .. | .backInvalidateResponse .. => .memory
  | .sourceFailover .. | .standbySourceFailed .. | .routeSend .. | .banditDelayExpire .. | .flitReceive ..
    | .receivedTransfer .. | .replayTimeout .. | .auditFlit .. | .retireMessage .. | .identMessage ..
    | .portReturn .. | .relayResponse .. | .relayTimeout .. | .relayEvent .. | .relayEventRead .. | .recalAuto ..
    | .recalComplete .. | .probeBurst .. | .lightIn .. | .portDark .. | .mateOpen .. => .fabric
  | .pllLockLoss .. | .qmWatchdog .. | .tollgateWatchdog .. | .exchangePut .. | .exchangeGet .. | .recoveryPut ..
    | .install .. | .kex .. | .commit .. | .waybillRequest .. | .fullReset .. | .componentRestart ..
    | .componentReady .. | .imageRollback .. | .customsDeny .. => .tollgate
  | .smbusMctp .. | .charterAccepted .. | .cxlLinkDown .. | .cxlHotReset .. | .configRequest ..
    | .cxlLinkTraining .. | .claim .. | .postAck .. | .postNotice .. | .ckptJobDone ..
    | .buddyCkptReceive .. => .hosts
  | .interlockLost .. | .osc156Stop .. | .inputReset .. | .perstN .. | .pwrokRise .. | .bringup ..
    | .startTimeout .. | .startRetry .. | .throttleStep .. | .powerCap .. | .thermalHaltEnd .. | .thermalTrip ..
    | .brace .. | .braceEnd .. | .haltSupply .. | .wakeTimer .. => .power
  | .coreChooserWrite .. | .permanentCoreFault .. | .d2dLinkRetire .. | .delayMeasure .. | .start .. | .single ..
    | .stop .. | .stopNow .. | .accept .. | .discard .. | .nak .. | .relayRead32 .. | .relayWrite32 ..
    | .relayPost .. | .recalGo .. | .mateClose .. | .rteBanditWrite .. | .compose .. | .clearRetired ..
    | .enrolKey .. | .revokeKey .. | .image .. | .commitSvn .. | .debugStall .. | .debugFull .. | .setThresh ..
    | .setPower .. | .governorStep .. | .governorHoldExpire .. | .cpyQtailWrite .. | .cpyQsizeWrite ..
    | .cpyQreset .. | .cpyQen .. | .ledgerSegment .. | .shortNotice .. | .ldgFenceWrite .. | .forget ..
    | .ldgHeadroomWrite .. | .stlStepWrite .. | .tlyStatsWrite .. | .tlyKWrite .. | .lotSeedWrite ..
    | .lotTestCall .. | .memCorrected .. | .memUncorrectable .. | .refit .. | .chtPortDataWrite .. | .load ..
    | .unload .. | .cancel .. | .acceptedWord .. | .withdraw .. | .updateFunction .. | .updateCoef ..
    | .stallReset .. | .heartbeat .. | .arm .. | .arbiterFrame .. | .postWrite .. | .postSend .. | .postTake ..
    | .powerOn .. | .railFault .. | .pwrVoteWrite .. | .wakeMessage .. | .aux3v3Loss .. | .restore ..
    | .fltMirrorWrite .. => .outright

/-! ### Commands without a stop -/

section complete
variable (c : Instr) (s : State)

theorem completes_march (h : family c = .march) : Completes (exec c s) := by
  unfold family at h
  split at h
  any_goals contradiction
  all_goals
    simp only [exec, execSpareReady, execSyncFlitSend, execSyncFlitReceive, execHoldover, execSyncedLost,
      execOutOfStep, execLeadChange, execMarchOrigin, execEntryComplete, execSettleLate, execHaltFlit,
      execHaltBroadcast, execVerdictWord, execVerdictLost, execFederationWord, execFederationWordTimeout,
      execCaravanVerdict, execDecisionLost, execCommandRelay, execSettled, execRecordRequest, execRecordAnswer,
      execSettleUnconfirmed, execTakeoverWait, execMirrorApply, execMemberReady, execTick]
    repeat' split
    all_goals exact ⟨_, rfl⟩

theorem completes_cores (h : family c = .cores) : Completes (exec c s) := by
  unfold family at h
  split at h
  any_goals contradiction
  all_goals
    simp only [exec, execMatmul, execSpmm, execRagged, execDispatchMain, execCombine, execAssay]
    repeat' split
    all_goals exact ⟨_, rfl⟩

theorem completes_spill (h : family c = .spill) : Completes (exec c s) := by
  unfold family at h
  split at h
  any_goals contradiction
  simp only [exec]
  unfold execDispatchSpill
  split
  · exact ⟨_, rfl⟩
  · extract_lets
    split
    · exact ⟨_, rfl⟩
    · split <;> exact ⟨_, rfl⟩

omit c in
theorem completes_runVector (k : CoreId) (index op : Nat) (sel : BitVec 512 → Bool) (run : Stall → Charter → BitVec 512 → State) :
    Completes (runVector s k index op sel run) := by
  unfold runVector
  repeat' split
  all_goals exact ⟨_, rfl⟩

theorem completes_vectors (h : family c = .vectors) : Completes (exec c s) := by
  unfold family at h
  split at h
  any_goals contradiction
  all_goals
    simp only [exec, execVmapCopy, execVmapAdd, execVmapMul, execVmapFma, execVmapMax, execVmapMin, execVmapScale, execVfunc,
      execVderivTable, execVderivBits, execVdropForward, execVdropBackward, execVsum, runVmap]
    exact completes_runVector s _ _ _ _ _

theorem completes_memory (h : family c = .memory) : Completes (exec c s) := by
  unfold family at h
  split at h
  any_goals contradiction
  all_goals
    simp only [exec, execCopyEntry, execCopyBatchTake, execCopyBatchComplete, execContribute, execLedgerSendUp,
      execSettle, execLotTestDone, execCeRate, execMemRepeatRead, execPatrolScrub, execRebuildRow, execCxlMemRead,
      execCxlMemWrite, execSeraiHoldRoom, execBackInvalidateResponse]
    repeat' split
    all_goals exact ⟨_, rfl⟩

theorem completes_fabric (h : family c = .fabric) : Completes (exec c s) := by
  unfold family at h
  split at h
  any_goals contradiction
  all_goals
    simp only [exec, execSourceFailover, execStandbySourceFailed, execRouteSend, execBanditDelayExpire,
      execFlitReceive, execReceivedTransfer, execReplayTimeout, execAuditFlit, execRetireMessage, execIdentMessage,
      execPortReturn, execRelayResponse, execRelayTimeout, execRelayEvent, execRelayEventRead, execRecalAuto,
      execRecalComplete, execProbeBurst, execLightIn, execPortDark, execMateOpen]
    repeat' split
    all_goals exact ⟨_, rfl⟩

theorem completes_tollgate (h : family c = .tollgate) : Completes (exec c s) := by
  unfold family at h
  split at h
  any_goals contradiction
  all_goals
    simp only [exec, execPllLockLoss, execQmWatchdog, execTollgateWatchdog, execExchangePut, execExchangeGet,
      execRecoveryPut, execInstall, execKex, execCommit, execWaybillRequest, execFullReset, execComponentRestart,
      execComponentReady, execImageRollback, execCustomsDeny]
    repeat' split
    all_goals exact ⟨_, rfl⟩

theorem completes_hosts (h : family c = .hosts) : Completes (exec c s) := by
  unfold family at h
  split at h
  any_goals contradiction
  all_goals
    simp only [exec, execSmbusMctp, execCharterAccepted, execCxlLinkDown, execCxlHotReset, execConfigRequest,
      execCxlLinkTraining, execClaim, execPostAck, execPostNotice, execCkptJobDone, execBuddyCkptReceive]
    repeat' split
    all_goals exact ⟨_, rfl⟩

theorem completes_power (h : family c = .power) : Completes (exec c s) := by
  unfold family at h
  split at h
  any_goals contradiction
  all_goals
    simp only [exec, execInterlockLost, execOsc156Stop, execInputReset, execPerstN, execPwrokRise, execBringup,
      execStartTimeout, execStartRetry, execThrottleStep, execPowerCap, execThermalHaltEnd, execThermalTrip,
      execBrace, execBraceEnd, execHaltSupply, execWakeTimer]
    repeat' split
    all_goals exact ⟨_, rfl⟩

theorem completes_outright (h : family c = .outright) : Completes (exec c s) := by
  unfold family at h
  split at h
  any_goals contradiction
  all_goals exact ⟨_, rfl⟩

end complete

/-! ### The named stops (R418, R486) -/

/-- A command that stops where a debug path is open, and completes elsewhere. -/
theorem stops_where (b : Bool) (x : State) : ∃ t, (if b then .refused .debugRegisters else .next x : Host.Outcome State Fault Refusal)
    = (if b then some (.refused .debugRegisters) else none : Option (Host.Outcome State Fault Refusal)).getD (.next t) := by
  cases b <;> exact ⟨x, rfl⟩

/-- The command that rouses the module changes nothing that opens a debug path. -/
theorem meetsDebug_rouse (s : State) (r : Requester) (off : BitVec 26) : meetsDebug s.rouse r off = meetsDebug s r off := by
  unfold State.rouse
  split <;> rfl

theorem relayServe_stops (s : State) (i : Stall) (m : Member) (op : RelayOp) :
    ∃ t, exec (.relayRequest i m op) s = (stopOf (.relayRequest i m op) s).getD (.next t) := by
  cases op with
  | read32 w =>
    simp only [stopOf, ← meetsDebug_rouse s]
    exact stops_where _ _
  | write32 w v =>
    simp only [stopOf, ← meetsDebug_rouse s]
    exact stops_where _ _
  | post w len buf => exact ⟨_, rfl⟩

theorem channelSample_stops (s : State) (ch : Fin 64) (raw : BitVec 16) :
    ∃ t, exec (.channelSample ch raw) s = (stopOf (.channelSample ch raw) s).getD (.next t) := by
  simp only [exec, execChannelSample, stopOf]
  by_cases beyond : beyondTable ch.val raw = true
  · exact ⟨s, by simp [beyond]⟩
  · simp only [beyond]
    by_cases aux : s.power.aux = true
    · exact ⟨_, by simp [aux]; rfl⟩
    · exact ⟨s, by simp [aux]⟩

theorem jtagTap_stops (s : State) (tck tms tdi trstN : Bool) :
    ∃ t, exec (.jtagTap tck tms tdi trstN) s = (stopOf (.jtagTap tck tms tdi trstN) s).getD (.next t) := by
  simp only [exec, execJtagTap, stopOf]
  cases trstN with
  | false => exact ⟨_, by simp; rfl⟩
  | true =>
    cases rise : tck && !s.tap.tck with
    | false =>
      by_cases fall : (!tck && s.tap.tck) = true
      · exact ⟨s.tapFall, by simp [rise, fall]⟩
      · exact ⟨s, by simp [rise, fall]⟩
    | true =>
      by_cases debug : s.tap.instr = 3 ∧ s.tollgate.debugFull = true ∧ s.tap.state = .captureDr
      · exact ⟨s, by simp [rise, debug]⟩
      · refine ⟨s.tapRise tms tdi, ?_⟩
        have closed : (true && tck && !s.tap.tck && s.tap.instr == 3 && s.tollgate.debugFull && s.tap.state == .captureDr) = false := by
          rw [Bool.true_and, rise, Bool.true_and]
          simpa [and_assoc] using debug
        rw [closed]
        simp [debug]

/-- A command with a named stop answers that stop where it meets it, and a next state elsewhere. -/
theorem exec_stopping (c : Instr) (s : State) (h : family c = .stopping) : ∃ t, exec c s = (stopOf c s).getD (.next t) := by
  unfold family at h
  split at h
  any_goals contradiction
  · exact stops_where _ _
  · exact stops_where _ _
  · exact stops_where _ _
  · exact stops_where _ _
  · exact stops_where _ _
  · exact stops_where _ _
  · exact relayServe_stops s _ _ _
  · exact channelSample_stops s _ _
  · exact jtagTap_stops s _ _ _ _

/-- No other command has a stop. -/
theorem family_of_stop {c : Instr} {o : Host.Outcome State Fault Refusal} (h : stopOf c s = some o) : family c = .stopping := by
  unfold stopOf at h
  simp only [] at h
  split at h
  any_goals rfl
  exact absurd h nofun

theorem completes_of_no_stop {c : Instr} (h : stopOf c s = none) : Completes (exec c s) := by
  cases hf : family c with
  | stopping =>
    obtain ⟨t, answer⟩ := exec_stopping c s hf
    exact ⟨t, by rw [answer, h]; rfl⟩
  | march => exact completes_march c s hf
  | cores => exact completes_cores c s hf
  | spill => exact completes_spill c s hf
  | vectors => exact completes_vectors c s hf
  | memory => exact completes_memory c s hf
  | fabric => exact completes_fabric c s hf
  | tollgate => exact completes_tollgate c s hf
  | hosts => exact completes_hosts c s hf
  | power => exact completes_power c s hf
  | outright => exact completes_outright c s hf

/-- Settles O2: each command by its family, the stops by what they answer, and the idle step by its clock. -/
theorem everyCommandCompletes : Obligations.EveryCommandCompletes := by
  refine ⟨fun c s h => completes_of_no_stop h, fun c s o h => ?_, fun s hq => ⟨s.idle, ?_, ?_, ?_⟩⟩
  · obtain ⟨t, answer⟩ := exec_stopping c s (family_of_stop h)
    rw [answer, h]
    rfl
  · simp only [step, hq]
  · exact (congrArg Prod.fst (clock_idle s)).trans hq
  · exact congrArg Prod.snd (clock_idle s)

end Sys2Proof.Machine
end

section
/-! PROOFS. A tile-op whose window lies partly in a PLAIN and partly in a GUARDED region of one Serai bay (R280): the write
of one element changes the parity that stands where the other was stored. -/

namespace Sys2Proof.Machine

open Sys2Proof.Safety

/-! ### A module whose memory works -/

/-- At reset every unit serves, no read is repeated and no channel holds a write: every place is plain. -/
theorem plain_of_reset_tiers {s : State} (h : s.tiers = State.reset.tiers) (p : Place) : Plain s p := by
  have near : ∀ q : Fin 256, serves State.reset.tiers (.near q) = true := by decide +kernel
  have serai : ∀ q : Fin 24, serves State.reset.tiers (.serai q) = true := by decide +kernel
  have idle : ∀ q : Fin 24, (State.reset.tiers.serai.get q).braceHold = false
      ∧ (State.reset.tiers.serai.get q).buffer = [] ∧ (State.reset.tiers.serai.get q).waiting = [] := by decide +kernel
  intro c _
  rw [h]
  have serving : serves State.reset.tiers c.unit = true := by
    cases c.unit with
    | near q => exact near q
    | serai q => exact serai q
  refine ⟨by simp [keepsByte, serving], ?_, fun q _ => idle q⟩
  simp [rawCell, show State.reset.tiers.repeatReads = [] from rfl]

/-! ### The tile-op and its window -/

/-- A tile-op of two rows, one column and K = 1 (Table 04-4): row 0 of its window at address 0, row 1 at 1,536 MiB. Its
operands lie at 2^44, where nothing is mapped, and are zeros. The descriptor's words, the highest first. -/
def twoRows : StreamEntry where
  desc := 0#64 ++ 0x60000000#64 ++ 0#64 ++ 0#64 ++ 0x100000000000#64 ++ 0x100000000000#64 ++ 1#64 ++ 0x0001000200000010#64
  sched := { leg := 0 }

def twoRowCharter : Charter := { streams := [[twoRows]] }

/-- Stall 0 in LEGS with that tile-op. Serai bay 0 is mapped twice, PLAIN at address 0 and GUARDED at 1,536 MiB, and the
first byte of the GUARDED mapping is 1. -/
def mixedBay : State :=
  { State.reset.modStall 0 fun x => { x with
      page := { x.page with comp := { x.page.comp with owner := some (some 0), groups := 1 } }
      charter := { x.charter with active := some twoRowCharter }
      march := { x.march with state := .legs }
      customs := { x.customs with regions :=
        [(0, { valid := true, tier := 2, perm := 3, va := 0, size := 0x60000000 }),
          (1, { valid := true, tier := 2, guarded := true, perm := 3, va := 0x60000000, size := 0x5C000000 })] } } with
    mem := [(placeKey (.serai 0 0 true), 1)] }

theorem mixedBay_sane : Sane mixedBay := by
  unfold Sane
  decide +kernel

theorem mixedBay_due : dueStream mixedBay 0 0 [0x10] = some (0, twoRowCharter, twoRows) := by decide +kernel

/-- The two elements of the window and their codes. -/
def twoZeros : List (Nat × Nat) := [(0, 0), (0x60000000, 0)]

theorem twoZeros_addrs {a : Nat} (h : codeAddrs 2 twoZeros a) : a ∈ [0, 1, 0x60000000, 0x60000001] := by
  obtain ⟨e, he, low, high⟩ := h
  simp only [twoZeros, List.mem_cons, List.not_mem_nil, or_false] at he ⊢
  obtain rfl | rfl := he <;> dsimp only at low high <;> omega

/-- The bytes of the window are mapped, to plain places, no two to one byte. -/
theorem twoZeros_plain : PlainAt mixedBay 0 (codeAddrs 2 twoZeros) := by
  have mapped : ∀ a ∈ [0, 1, 0x60000000, 0x60000001], (mixedBay.placeOf 0 a).isSome = true := by decide +kernel
  have distinct : ∀ a ∈ [0, 1, 0x60000000, 0x60000001], ∀ b ∈ [0, 1, 0x60000000, 0x60000001],
      (mixedBay.placeOf 0 a).map placeKey = (mixedBay.placeOf 0 b).map placeKey → a = b := by decide +kernel
  refine ⟨fun a ha => ?_, fun a b p q ha hb hp hq hk => ?_⟩
  · obtain ⟨p, hp⟩ := Option.isSome_iff_exists.mp (mapped a (twoZeros_addrs ha))
    exact ⟨p, hp, plain_of_reset_tiers rfl p⟩
  · exact distinct a (twoZeros_addrs ha) b (twoZeros_addrs hb) (by rw [hp, hq, Option.map_some, Option.map_some, hk])

/-- The store of row 1 clears the 1 and so sets the parity byte of its row, where row 0 was stored before (R289). -/
theorem mixedBay_rowZero {t : State} (ran : exec (.matmul 0 0) mixedBay = .next t) : t.readNat 0 0 2 = 1 := by
  have reads : (match exec (.matmul 0 0) mixedBay with | .next t => t.readNat 0 0 2 | _ => 0) = 1 := by decide +kernel
  rwa [ran] at reads

/-- The window does not read back. -/
theorem mixedBay_not_stored {t : State} {l : List (Nat × Nat)} (ran : exec (.matmul 0 0) mixedBay = .next t) (hl : l = twoZeros) :
    ¬Stored mixedBay t (.core 0) 0 twoRowCharter 0 2 l := by
  subst hl
  rintro ⟨readBack, -, -⟩
  have stored : t.readNat 0 0 2 = 0 :=
    readBack twoZeros_plain (by decide) (0, 0) (by decide) (by decide +kernel) (by decide +kernel)
  exact absurd ((mixedBay_rowZero ran).symm.trans stored) (by decide)

/-- Refutes O36: nothing keeps a window out of a bay that is mapped PLAIN and GUARDED at once. There the parity of a later
element (R289) overwrites an earlier one. -/
theorem not_denseTileOpsMultiply : ¬Obligations.DenseTileOpsMultiply := by
  intro h
  obtain ⟨t, ran, -, -, -, -, stored, -⟩ := h mixedBay 0 0 0 twoRowCharter twoRows mixedBay_sane mixedBay_due
  exact mixedBay_not_stored ran (by decide +kernel) (stored (by decide +kernel))

end Sys2Proof.Machine
end

section
/-! PROOFS. The controls of the cores: what a step of the governor and the end of a hold do to a dense array (R121 to R125),
and what an update message leaves behind it (R176, R254, R361). -/

namespace Sys2Proof.Machine

open Sys2Proof.Safety

/-! ### One dense array of a core -/

section array
variable (s : State) (k : CoreId) (a : Fin 2) (f : Core → DenseArray)

@[simp] theorem da_setArray_self : ((s.modCore k fun x => { x with da := x.da.set a (f x) }).core k).da[a] = f (s.core k) := by
  simp

theorem da_setArray_other {b : Fin 2} (h : b ≠ a) :
    ((s.modCore k fun x => { x with da := x.da.set a (f x) }).core k).da[b] = (s.core k).da[b] := by
  have : a.val ≠ b.val := fun e => h (Fin.ext e.symm)
  simp [Vector.getElem_set_ne, this]

/-- An array set to what it holds leaves its core as it is. -/
theorem core_setArray_same (h : f (s.core k) = (s.core k).da[a]) :
    (s.modCore k fun x => { x with da := x.da.set a (f x) }).core k = s.core k := by
  simp [h]

theorem unchanged_setArray : Unchanged s (s.modCore k fun x => { x with da := x.da.set a (f x) }) [.core k] :=
  unchanged_modCore _ (by simp) (unchanged_refl s _)

end array

/-! ### The governor (R121, R122, R125) -/

section govern
variable {k : Core} {x : DenseArray}

/-- A target is a level of seven bits, under the cap of a brace or not. -/
theorem governorTarget_lt (k : Core) (x : DenseArray) : governorTarget k x < 128 := by
  have := x.target.isLt
  unfold governorTarget
  split <;> omega

/-- Below its target an array rises by one level, without ballast. -/
theorem govern_rising (h : x.level.toNat < governorTarget k x) :
    (x.govern k).level.toNat = x.level.toNat + 1 ∧ (x.govern k).ballast = x.ballast := by
  have bound := governorTarget_lt k x
  have moves : x.level.toNat ≠ governorTarget k x := by omega
  simp only [DenseArray.govern, stepLevel, if_neg moves, h, decide_true, Bool.true_or, if_true, and_true,
    BitVec.toNat_ofNat]
  omega

/-- Above its target an array falls by one level, and the ballast of the step counts unless a hold counts it. -/
theorem govern_falling (h : governorTarget k x < x.level.toNat) :
    (x.govern k).level.toNat + 1 = x.level.toNat
      ∧ (x.govern k).ballast = if x.hold then x.ballast else satAdd x.ballast 46 := by
  have bound := x.level.isLt
  have moves : x.level.toNat ≠ governorTarget k x := by omega
  have down : ¬x.level.toNat < governorTarget k x := by omega
  simp only [DenseArray.govern, stepLevel, if_neg moves, h, down, decide_false, Bool.false_or, if_false, if_true, and_true,
    BitVec.toNat_ofNat]
  omega

theorem govern_steady (h : x.level.toNat = governorTarget k x) : x.govern k = x := if_pos h

/-- A hold that expires counts its 3,600 cycles of ballast and lets the target fall (R124). -/
theorem expireHold_held (h : x.hold = true) :
    x.expireHold.hold = false ∧ x.expireHold.target = 0 ∧ x.expireHold.level = x.level
      ∧ x.expireHold.ballast = satAdd x.ballast 3600 := by
  simp [DenseArray.expireHold, DenseArray.endHold, h]

theorem expireHold_free (h : x.hold = false) : x.expireHold = x := by
  simp [DenseArray.expireHold, DenseArray.endHold, h]

end govern

/-- A governor step moves its array alone. -/
theorem runs_governorStep (s : State) (k : CoreId) (a : Fin 2) :
    let x := (s.core k).da[a]
    Runs (.governorStep k a) s fun t =>
      let y := (t.core k).da[a]
      (x.level.toNat < governorTarget (s.core k) x → y.level.toNat = x.level.toNat + 1 ∧ y.ballast = x.ballast)
      ∧ (governorTarget (s.core k) x < x.level.toNat → y.level.toNat + 1 = x.level.toNat
          ∧ y.ballast = if x.hold then x.ballast else satAdd x.ballast 46)
      ∧ (x.level.toNat = governorTarget (s.core k) x → t.core k = s.core k)
      ∧ (∀ b, b ≠ a → (t.core k).da[b] = (s.core k).da[b]) ∧ Unchanged s t [.core k] := by
  refine runs_of_exec (c := .governorStep k a) rfl ?_
  simp only [da_setArray_self]
  exact ⟨govern_rising, govern_falling, fun h => core_setArray_same s k a _ (govern_steady h),
    fun b hb => da_setArray_other s k a _ hb, unchanged_setArray s k a _⟩

/-- The end of a hold is its array's alone. -/
theorem runs_governorHoldExpire (s : State) (k : CoreId) (a : Fin 2) :
    let x := (s.core k).da[a]
    Runs (.governorHoldExpire k a) s fun t =>
      let y := (t.core k).da[a]
      (x.hold = true → y.hold = false ∧ y.target = 0 ∧ y.level = x.level ∧ y.ballast = satAdd x.ballast 3600)
      ∧ (x.hold = false → t.core k = s.core k)
      ∧ (∀ b, b ≠ a → (t.core k).da[b] = (s.core k).da[b]) ∧ Unchanged s t [.core k] := by
  refine runs_of_exec (c := .governorHoldExpire k a) rfl ?_
  simp only [da_setArray_self s k a fun x => x.da[a].expireHold]
  exact ⟨expireHold_held, fun h => core_setArray_same s k a _ (expireHold_free h),
    fun b hb => da_setArray_other s k a _ hb, unchanged_setArray s k a _⟩

/-! ### The chooser (R137) -/

/-- A written chooser waits; the one in force stays. -/
theorem runs_coreChooserWrite {s : State} {r : Requester} (k : CoreId) (v : Word) (h : Allowed s r (coreOff k 0x140)) :
    Runs (.coreChooserWrite r k v) s fun t =>
      (t.core k).chooserWritten = fld v 0 10 ∧ (t.core k).chooser = (s.core k).chooser ∧ Unchanged s t [.core k] := by
  have taken : exec (.coreChooserWrite r k v) s = .next (writeChooser k v s) :=
    congrArg Host.Outcome.next (guardWrite_allowed _ h)
  refine runs_of_exec taken ?_
  simp only [writeChooser, State.modCore_core_self]
  exact ⟨trivial, trivial, unchanged_modCore _ (by simp) (unchanged_refl s _)⟩

/-! ### Acknowledged messages (R383) -/

section ack
variable {s t : State} {l : List Part} {i : Stall} {secure : Bool}

/-- The page of a post: the secure posts or the others (R392). -/
def postsOf (i : Stall) (secure : Bool) : Part := .stall i (if secure then .secure else .posts)

/-- The receiver's answer carries its code and empties the post. -/
theorem ackPost_post (s : State) (i : Stall) (secure : Bool) (code : Reason) (reply : List Byte) :
    ((s.ackPost i secure 0 code reply).post i secure 0).ackCode = code
      ∧ ((s.ackPost i secure 0 code reply).post i secure 0).full = false := by
  rw [State.ackPost, post_modPost_self s i secure 0 _ fun _ => by decide]
  exact ⟨rfl, rfl⟩

theorem unchanged_ackPost (n : Fin 24) (code : Reason) (reply : List Byte) (hm : postsOf i secure ∈ l) (h : Unchanged s t l) :
    Unchanged s (t.ackPost i secure n code reply) l := unchanged_modPost _ hm h

@[simp] theorem ackPost_core (n : Fin 24) (code : Reason) (reply : List Byte) (k : CoreId) :
    (s.ackPost i secure n code reply).core k = s.core k := rfl

@[simp] theorem ackPost_cores (n : Fin 24) (code : Reason) (reply : List Byte) :
    (s.ackPost i secure n code reply).cores = s.cores := rfl

@[simp] theorem ackPost_settle (n : Fin 24) (code : Reason) (reply : List Byte) :
    ((s.ackPost i secure n code reply).stall i).settle = (s.stall i).settle :=
  unchanged_ackPost (l := [postsOf i secure]) n code reply (by simp) (unchanged_refl s _) (.stall i .settle)
    (by cases secure <;> simp [postsOf])

end ack

/-! ### Update messages (R176, R254, R361) -/

section updates
variable {s : State} {i : Stall} {secure : Bool}

/-- The command of an update message of a kind. -/
def updateCmd (i : Stall) (secure coef : Bool) : Instr := if coef then .updateCoef i secure else .updateFunction i secure

theorem exec_updateCmd {coef : Bool} (h : hasUpdate s i secure coef = true) :
    exec (updateCmd i secure coef) s = .next (s.serveUpdate i secure) := by
  cases coef
  · change execUpdateFunction i secure s = _
    simp [execUpdateFunction, h]
  · change execUpdateCoef i secure s = _
    simp [execUpdateCoef, h]

/-- A message refused is answered with its code; a denial of customs counts in CUS_DENIED (R414). -/
theorem serveUpdate_refused {code : Reason} (h : checkUpdate s i secure = .inl code) :
    ∃ u, s.serveUpdate i secure = u.ackPost i secure 0 code [] ∧ u.cores = s.cores ∧ Unchanged s u [.stall i .customs] := by
  have denied (unit : Nat) (cause : BitVec 4) (va : Nat) : Unchanged s (s.denied i unit cause va) [.stall i .customs] :=
    unchanged_denied i unit cause va (by simp) (unchanged_refl s _)
  unfold State.serveUpdate
  rw [h]
  refine ⟨_, rfl, ?_⟩
  split
  · split
    · exact ⟨rfl, denied _ _ _⟩
    · exact ⟨rfl, unchanged_refl s _⟩
  · exact ⟨rfl, unchanged_refl s _⟩

theorem serveUpdate_held {u : Update} (h : checkUpdate s i secure = .inr u) :
    s.serveUpdate i secure = (s.holdUpdate i u).ackPost i secure 0 0 [] := by
  unfold State.serveUpdate
  rw [h]

variable {coef : Bool} (given : hasUpdate s i secure coef = true)
include given

theorem runs_update_refused {code : Reason} (h : checkUpdate s i secure = .inl code) :
    Runs (updateCmd i secure coef) s fun t =>
      (t.post i secure 0).ackCode = code ∧ (t.post i secure 0).full = false ∧ t.cores = s.cores
      ∧ Unchanged s t [postsOf i secure, .stall i .customs] := by
  obtain ⟨u, served, cores, frame⟩ := serveUpdate_refused h
  refine runs_of_exec (exec_updateCmd given) ?_
  rw [served]
  obtain ⟨answered, emptied⟩ := ackPost_post u i secure code []
  exact ⟨answered, emptied, cores, unchanged_ackPost 0 code [] (by simp) (Unchanged.mono frame (by simp))⟩

/-- A table that passes waits in its slot; the tables in force stay. -/
theorem runs_update_function {k : CoreId} {n : Fin 16} {table : List Byte}
    (h : checkUpdate s i secure = .inr (.function k n table)) :
    Runs (updateCmd i secure coef) s fun t =>
      (t.core k).vu.heldTables = (s.core k).vu.heldTables.set n table ∧ (t.core k).vu.tables = (s.core k).vu.tables
      ∧ (t.post i secure 0).ackCode = 0 ∧ (t.post i secure 0).full = false ∧ Unchanged s t [postsOf i secure, .core k] := by
  refine runs_of_exec (exec_updateCmd given) ?_
  rw [serveUpdate_held h]
  obtain ⟨answered, emptied⟩ := ackPost_post (s.holdUpdate i (.function k n table)) i secure 0 []
  have frame : Unchanged s (s.holdUpdate i (.function k n table)) [postsOf i secure, .core k] :=
    unchanged_modCore _ (by simp) (unchanged_refl s _)
  refine ⟨?_, ?_, answered, emptied, unchanged_ackPost 0 0 [] (by simp) frame⟩ <;> simp [State.holdUpdate]

/-- Coefficients that pass wait, in the stead of those held for an overlapping range; those in force stay. -/
theorem runs_update_coef {x : HeldCoef} (h : checkUpdate s i secure = .inr (.coef x)) :
    Runs (updateCmd i secure coef) s fun t =>
      x ∈ (t.stall i).settle.heldCoef ∧ (t.stall i).settle.coef = (s.stall i).settle.coef
      ∧ (∀ o ∈ (s.stall i).settle.heldCoef, coefOverlap o x = false → o ∈ (t.stall i).settle.heldCoef)
      ∧ (t.post i secure 0).ackCode = 0 ∧ (t.post i secure 0).full = false
      ∧ Unchanged s t [postsOf i secure, .stall i .settle] := by
  refine runs_of_exec (exec_updateCmd given) ?_
  rw [serveUpdate_held h]
  obtain ⟨answered, emptied⟩ := ackPost_post (s.holdUpdate i (.coef x)) i secure 0 []
  have frame : Unchanged s (s.holdUpdate i (.coef x)) [postsOf i secure, .stall i .settle] :=
    unchanged_modSettle _ (by simp) (unchanged_refl s _)
  refine ⟨?_, ?_, ?_, answered, emptied, unchanged_ackPost 0 0 [] (by simp) frame⟩
  · simp [State.holdUpdate]
  · simp [State.holdUpdate]
  · intro o held apart
    simp [State.holdUpdate, held, apart]

end updates

/-- The length of the message is checked first (Table 12-10). -/
theorem checkUpdate_length {s : State} {i : Stall} {secure : Bool} (h : (s.post i secure 0).len ≠ 48) :
    checkUpdate s i secure = .inl 0x0602 := if_pos h

/-- Then its fields. -/
theorem checkUpdate_fields {s : State} {i : Stall} {secure : Bool} (h : (s.post i secure 0).len = 48)
    (bad : updateFieldsOk (s.post i secure 0) = false) : checkUpdate s i secure = .inl 0x0109 := by
  simp [checkUpdate, h, bad]

/-- Settles O41, one command at a time. -/
theorem coresFollowTheirControls : Obligations.CoresFollowTheirControls := by
  refine fun s => ⟨fun k a => ⟨runs_governorStep s k a, runs_governorHoldExpire s k a⟩,
    fun r k v allowed => runs_coreChooserWrite k v allowed, fun i secure => ⟨fun coef given => ?_, checkUpdate_length,
    checkUpdate_fields⟩⟩
  exact ⟨fun code => runs_update_refused given, fun k n table => runs_update_function given, fun x => runs_update_coef given⟩

end Sys2Proof.Machine
end

section
/-! PROOFS. The gather-merge engines and the Assay unit over a Serai bay that is mapped PLAIN and GUARDED at once (R280): a
byte written under a parity stripe changes the parity byte of its row (R289), which stands where the PLAIN mapping keeps a
byte of its own. A charter with such records is refused (R416), but no hypothesis of the statements says that it was. -/

namespace Sys2Proof.Machine

open Sys2Proof.Safety

/-! ### A bay mapped twice -/

/-- Stall 0 in LEGS under a charter. Serai bay 0 is mapped twice, PLAIN below an address and GUARDED from there. -/
def bayTwice (n : Nat) (c : Charter) (m : List Host.Cell) : State :=
  { (mixedBay.modCharter 0 fun x => { x with active := some c }).modCustoms 0 fun x => { x with regions :=
      [(0, { valid := true, tier := 2, perm := 3, va := 0, size := BitVec.ofNat 48 n }),
        (1, { valid := true, tier := 2, guarded := true, perm := 3, va := BitVec.ofNat 48 n, size := 0x5C000000 })] } with
    mem := m }

section bay
variable {n : Nat} {c : Charter} {m : List Host.Cell}

theorem bayTwice_regions : ((bayTwice n c m).stall 0).customs.regions =
    [(0, { valid := true, tier := 2, perm := 3, va := 0, size := BitVec.ofNat 48 n }),
      (1, { valid := true, tier := 2, guarded := true, perm := 3, va := BitVec.ofNat 48 n, size := 0x5C000000 })] := rfl

/-- Below the address lies the PLAIN bay. -/
theorem placeOf_bayTwice_plain {a : Nat} (hn : n ≤ 0x60000000) (h : a < n) :
    (bayTwice n c m).placeOf 0 a = some (.serai 0 a false) := by
  have fits : n % 281474976710656 = n := Nat.mod_eq_of_lt (by omega)
  have small : a < 1610612736 := by omega
  simp [State.placeOf, regionAt, bayTwice_regions, translate, seraiBayBytes, h, fits, Nat.div_eq_of_lt small,
    Nat.mod_eq_of_lt small]

/-- From the address on lies the GUARDED one. -/
theorem placeOf_bayTwice_guarded {o : Nat} (hn : n ≤ 0x60000000) (h : o < 0x5C000000) :
    (bayTwice n c m).placeOf 0 (n + o) = some (.serai 0 o true) := by
  have fits : n % 281474976710656 = n := Nat.mod_eq_of_lt (by omega)
  simp [State.placeOf, regionAt, bayTwice_regions, translate, seraiBayBytes, h, fits, Nat.div_eq_of_lt h, Nat.mod_eq_of_lt h]

/-- No host sees a line of either mapping. -/
theorem hostVisible_bayTwice (a : Nat) : hostVisible (bayTwice n c m) 0 a = false := by
  have hidden : ∀ e ∈ ((bayTwice n c m).stall 0).customs.regions, e.2.perm &&& permHost = 0 := by
    simp [bayTwice_regions, permHost]
  unfold hostVisible
  split
  · next found => simp [hidden _ (List.mem_of_find?_eq_some found)]
  · rfl

end bay

/-! ### The bytes of the two mappings -/

/-- The PLAIN mapping's first bytes are those of channel 0. -/
theorem placeKey_plain {a : Nat} (h : a < 256) : placeKey (.serai 0 a false) = unitKey (.serai 0) a := by
  simp [placeKey, cellOf, cellKey, seraiPlace, seraiBayBytes, Nat.mod_eq_of_lt (show a < 1610612736 by omega),
    Nat.mod_eq_of_lt (show a < 6144 by omega), Nat.mod_eq_of_lt h, Nat.div_eq_of_lt h, Nat.div_eq_of_lt (show a < 6144 by omega)]

/-- The key of a byte of the GUARDED mapping: the units of a row leave out its parity unit (R282). -/
theorem placeKey_guarded {o : Nat} (h : o < 0x5C000000) : ∃ ch : Fin 24,
    ch.val = (if o / 5888 % 24 ≤ o % 5888 / 256 then o % 5888 / 256 + 1 else o % 5888 / 256)
      ∧ placeKey (.serai 0 o true) = unitKey (.serai ch) (o / 5888 * 256 + o % 256) := by
  refine ⟨Fin.ofNat 24 (seraiPlace 0 o true).1, ?_, ?_⟩
  · simp only [seraiPlace, if_true, Fin.ofNat]
    split <;> omega
  · simp only [placeKey, cellOf, cellKey, seraiPlace, seraiBayBytes, if_true, Nat.mod_eq_of_lt (show o < 1472 * 2 ^ 20 by omega),
      Nat.zero_mul, Nat.zero_add]

/-- The first row's parity unit holds no byte of the GUARDED mapping. -/
theorem placeKey_plain_ne_guarded {a o : Nat} (ha : a < 256) (ho : o < 0x5C000000) :
    placeKey (.serai 0 a false) ≠ placeKey (.serai 0 o true) := by
  obtain ⟨ch, value, key⟩ := placeKey_guarded ho
  rw [placeKey_plain ha, key]
  intro same
  obtain ⟨unit, address⟩ := (unitKey_inj _ _ _ _).mp same
  obtain rfl := MemUnit.serai.inj unit
  simp only [Fin.val_zero] at value
  split at value <;> omega

/-- The GUARDED mapping takes no two bytes to one. -/
theorem placeKey_guarded_inj {o o' : Nat} (ho : o < 0x5C000000) (ho' : o' < 0x5C000000)
    (same : placeKey (.serai 0 o true) = placeKey (.serai 0 o' true)) : o = o' := by
  obtain ⟨ch, value, key⟩ := placeKey_guarded ho
  obtain ⟨ch', value', key'⟩ := placeKey_guarded ho'
  rw [key, key'] at same
  obtain ⟨unit, address⟩ := (unitKey_inj _ _ _ _).mp same
  obtain rfl := MemUnit.serai.inj unit
  have row : o / 5888 = o' / 5888 := by omega
  have column : o % 5888 / 256 = o' % 5888 / 256 := by
    rw [row] at value
    split at value <;> split at value' <;> omega
  omega

/-- The bytes of the first row's parity unit in the PLAIN mapping and all of the GUARDED one are mapped to plain places, no
two to one byte. -/
theorem plainAt_bayTwice {n : Nat} {c : Charter} {m : List Host.Cell} {addrs : Nat → Prop} (hn : n ≤ 0x60000000)
    (within : ∀ a, addrs a → a < n ∧ a < 256 ∨ n ≤ a ∧ a < n + 0x5C000000) :
    PlainAt (bayTwice n c m) 0 addrs := by
  have place (a : Nat) (ha : addrs a) : (a < 256 ∧ (bayTwice n c m).placeOf 0 a = some (.serai 0 a false))
      ∨ ∃ o < 0x5C000000, a = n + o ∧ (bayTwice n c m).placeOf 0 a = some (.serai 0 o true) := by
    obtain ⟨low, first⟩ | ⟨low, high⟩ := within a ha
    · exact .inl ⟨first, placeOf_bayTwice_plain hn low⟩
    · obtain ⟨o, rfl⟩ := Nat.exists_eq_add_of_le low
      exact .inr ⟨o, by omega, rfl, placeOf_bayTwice_guarded hn (by omega)⟩
  refine ⟨fun a ha => ?_, fun a b p q ha hb hp hq same => ?_⟩
  · obtain ⟨-, h⟩ | ⟨o, -, -, h⟩ := place a ha <;> exact ⟨_, h, plain_of_reset_tiers rfl _⟩
  · obtain ⟨ga, h⟩ | ⟨o, ga, rfl, h⟩ := place a ha <;> obtain ⟨gb, k⟩ | ⟨o', gb, rfl, k⟩ := place b hb <;>
      obtain rfl := Option.some.inj (h.symm.trans hp) <;> obtain rfl := Option.some.inj (k.symm.trans hq)
    · rw [placeKey_plain ga, placeKey_plain gb] at same
      exact ((unitKey_inj _ _ _ _).mp same).2
    · exact absurd same (placeKey_plain_ne_guarded ga gb)
    · exact absurd same.symm (placeKey_plain_ne_guarded gb ga)
    · rw [placeKey_guarded_inj ga gb same]

/-- A module with a canonical memory. -/
theorem bayTwice_sane {n : Nat} {c : Charter} {m : List Host.Cell} (h : memWf m = true) : Sane (bayTwice n c m) := by
  obtain ⟨-, log, events⟩ := mixedBay_sane
  exact ⟨h, log, events⟩

/-! ### A ragged product over both mappings (R147) -/

/-- A RAGGED of two rows, one column and K = 1 (Table 05-4): row 0 of its window at address 0, row 1 at 1,536 MiB. Operands
and lengths lie at 3 GiB, where nothing is mapped, and are zeros. The descriptor's words, the highest first. -/
def raggedRows : StreamEntry where
  desc := 0#64 ++ 0xC000000060000000#64 ++ 0#64 ++ 0#64 ++ 0xC0000000#64 ++ 0xC0000000#64 ++ 1#64 ++ 0x0002000100000021#64
  sched := { leg := 0 }

def raggedCharter : Charter := { streams := [[raggedRows]] }

/-- The bay as in `mixedBay`: the first byte of its GUARDED mapping is 1. -/
def raggedBay : State := bayTwice 0x60000000 raggedCharter mixedBay.mem

theorem raggedBay_due : dueStream raggedBay 0 0 [0x21] = some (0, raggedCharter, raggedRows) := by decide +kernel

theorem raggedBay_plain : PlainAt raggedBay 0 (codeAddrs 2 twoZeros) :=
  plainAt_bayTwice (by decide) fun a ha => by
    have := twoZeros_addrs ha
    simp only [List.mem_cons, List.not_mem_nil, or_false] at this
    omega

/-- The store of row 1 clears the 1 and so sets the parity byte of its row, where row 0 was stored before (R289). -/
theorem raggedBay_rowZero {t : State} (ran : exec (.ragged 0 0) raggedBay = .next t) : t.readNat 0 0 2 = 1 := by
  have reads : (match exec (.ragged 0 0) raggedBay with | .next t => t.readNat 0 0 2 | _ => 0) = 1 := by decide +kernel
  rwa [ran] at reads

/-- The window does not read back. -/
theorem raggedBay_not_stored {t : State} {l : List (Nat × Nat)} (ran : exec (.ragged 0 0) raggedBay = .next t)
    (hl : l = twoZeros) : ¬Stored raggedBay t (.core 0) 0 raggedCharter 0 2 l := by
  subst hl
  rintro ⟨readBack, -, -⟩
  have stored : t.readNat 0 0 2 = 0 :=
    readBack raggedBay_plain (by decide) (0, 0) (by decide) (by decide +kernel) fun _ _ => hostVisible_bayTwice _
  exact absurd ((raggedBay_rowZero ran).symm.trans stored) (by decide)

/-- Refutes O37: nothing keeps a window out of a bay that is mapped PLAIN and GUARDED at once. There the parity of a later
element (R289) overwrites an earlier one. -/
theorem not_sparseProductsFollowTheReference : ¬Obligations.SparseProductsFollowTheReference := by
  intro h
  obtain ⟨-, ragged⟩ := h raggedBay 0 0 0 raggedCharter raggedRows (bayTwice_sane (by decide +kernel))
  obtain ⟨t, ran, -, stored, -⟩ := ragged raggedBay_due
  exact raggedBay_not_stored ran (by decide +kernel) (stored (by decide +kernel))

/-! ### A dispatch whose slots and verdict list lie in both mappings (R150, R151) -/

/-- A DISPATCH of one token with one choice to one slot of one element (Table 05-5): the slot at address 0, the verdict list
at 1,536 MiB. Router list and source lie at 3 GiB, where nothing is mapped, and are zeros. -/
def routedRow : StreamEntry where
  desc := 0#64 ++ 0#64 ++ 0x60000000#64 ++ 0#64 ++ 0xC0000000#64 ++ 0xC0000000#64 ++ 0x0001000100010001#64 ++ 0x0000000100010022#64
  sched := { leg := 0 }

def routedCharter : Charter := { streams := [[routedRow]] }

/-- The bay as in `mixedBay`: the first byte of its GUARDED mapping is 1. -/
def routedBay : State := bayTwice 0x60000000 routedCharter mixedBay.mem

theorem routedBay_due : dueStream routedBay 0 0 [0x22] = some (0, routedCharter, routedRow) := by decide +kernel

/-- The slot takes the first two bytes, the lists twelve of the GUARDED mapping. -/
theorem routedRow_places : dpDst routedRow.desc = 0
    ∧ dpDests routedRow.desc * dpSlots routedRow.desc * dpRowBytes routedRow.desc = 2
    ∧ dpVerdict routedRow.desc = 0x60000000 ∧ 8 * dpCount routedRow.desc + 4 * dpDests routedRow.desc = 12 := by decide +kernel

/-- The verdict clears the 1 and so sets the parity byte of its row, where the slot was stored before (R289). -/
theorem routedBay_slot {t : State} (ran : exec (.dispatchMain 0 0) routedBay = .next t) : t.readNat 0 0 2 = 1 := by
  have reads : (match exec (.dispatchMain 0 0) routedBay with | .next t => t.readNat 0 0 2 | _ => 0) = 1 := by decide +kernel
  rwa [ran] at reads

/-- The slot does not read back. -/
theorem routedBay_not_readBack {t : State} {l : List (Nat × Nat)} (ran : exec (.dispatchMain 0 0) routedBay = .next t)
    (hl : l = [(0, 0)]) : ¬ReadBack routedBay t 0 routedCharter 0 2 l := by
  subst hl
  intro readBack
  have stored : t.readNat 0 0 2 = 0 := readBack (0, 0) (by decide) (by decide +kernel) fun _ _ => hostVisible_bayTwice _
  exact absurd ((routedBay_slot ran).symm.trans stored) (by decide)

/-- Refutes O38: nothing keeps slots and lists out of a bay that is mapped PLAIN and GUARDED at once. There the parity of a
verdict (R289) overwrites the row of a slot. -/
theorem not_routersServeTheirRanks : ¬Obligations.RoutersServeTheirRanks := by
  intro h
  obtain ⟨-, dispatch, -⟩ := h routedBay 0 0 0 routedCharter routedRow (bayTwice_sane (by decide +kernel))
  obtain ⟨t, ran, -, -, -, reads, -⟩ := dispatch routedBay_due (by decide +kernel) (by decide +kernel)
  obtain ⟨dst, slots, verdict, lists⟩ := routedRow_places
  obtain ⟨served, -⟩ := reads (by decide +kernel) (plainAt_bayTwice (by decide) fun a ha => by dsimp only at ha; omega)
    (fun a ha => by dsimp only at ha; omega)
  obtain ⟨-, row⟩ := served 0 (by decide +kernel) (by decide +kernel)
  exact routedBay_not_readBack ran (by decide +kernel) (row (by decide +kernel))

/-! ### Directory entries (R133 to R135) -/

section dir
variable (f : SparseForm) (rows : TileRows) (stamp : Nat)

theorem formFor_lt (nnz : Nat) : formFor f nnz < 4 := by unfold formFor; split <;> [skip; split] <;> decide

theorem formFor_eq_zero {nnz : Nat} (h : formFor f nnz = 0) : nnz = 0 := by
  unfold formFor at h
  split at h
  · assumption
  · split at h <;> simp at h

/-- The form is the two lowest bits of an entry. -/
theorem dirForm_ofNat (n : Nat) : dirForm (BitVec.ofNat 128 n) = n % 4 := by
  simp only [dirForm, fldN, BitVec.extractLsb'_toNat, BitVec.toNat_ofNat, Nat.shiftRight_zero]
  omega

/-- The fields of the heavy rows stand above the form. -/
theorem heavyFields_dvd (l : List Nat) : 4 ∣ ((List.range l.length).map fun j => l.getD j 0 * 2 ^ (32 + 8 * j)).sum := by
  refine List.dvd_sum fun x hx => ?_
  obtain ⟨j, -, rfl⟩ := List.mem_map.mp hx
  exact ⟨l.getD j 0 * 2 ^ (30 + 8 * j), by rw [show 32 + 8 * j = 2 + (30 + 8 * j) by omega, Nat.pow_add]; ring⟩

/-- An entry names the form that R133 gives its count of positions. -/
theorem dirForm_dirFor : dirForm (dirFor f rows stamp) = formFor f (rows.map List.length).sum := by
  have := formFor_lt f (rows.map List.length).sum
  obtain ⟨b, bits⟩ := heavyFields_dvd (heavyRows (rows.map List.length))
  simp only [dirFor, dirForm_ofNat, bits]
  omega

/-- No row of a tile without stored positions is heavy. -/
theorem heavyRows_of_empty {counts : List Nat} (h : counts.sum = 0) : heavyRows counts = [] := by
  have zero (r : Nat) : counts[r]?.getD 0 = 0 := by
    cases found : counts[r]? with
    | none => rfl
    | some n => exact List.sum_eq_zero_iff.mp h n (List.mem_of_getElem? found)
  simp [heavyRows, zero]

/-- The entry of an EMPTY tile holds its stamp alone. -/
theorem dirFor_of_empty (h : dirForm (dirFor f rows stamp) = 0) : dirFor f rows stamp = BitVec.ofNat 128 (stamp * 2 ^ 96) := by
  have none : (rows.map List.length).sum = 0 := formFor_eq_zero f ((dirForm_dirFor f rows stamp).symm.trans h)
  simp [dirFor, heavyRows_of_empty none, none, formFor]

end dir

/-! ### An assay whose directory lies in both mappings (R155, R157) -/

/-- An ASSAY of two tiles of one row (Table 05-6), with G = 4, KEEP 1, PERIOD 2 and PHASE 0. -/
def assayRow : StreamEntry where
  desc := 0x0000000100000000#64 ++ 0#64 ++ 0#64 ++ 0#64 ++ 0#64 ++ 0#64 ++ 0x0002000000010000#64 ++ 0x0000000200000824#64
  sched := { leg := 0 }

/-- A tensor of one row of 17 H16 codes at 3 GiB, where nothing is mapped. -/
def row17 : BitVec 512 :=
  0#64 ++ 0#64 ++ 0#64 ++ 0x0000000000220000#64 ++ 0x0002000000000000#64 ++ 0#64 ++ 0x0100001100000000#64 ++ 0xC000000000000000#64

/-- The weights and the sparse tensor are alike; the sparse form has T_K = 16, its slots at 4 KiB and its directory at address 0. -/
def assayCharter : Charter where
  tensors := [row17, row17]
  exts := [0#256 ++ 0#192 ++ 0x0000100000100010#64]
  streams := [[assayRow]]

/-- March 1, in which the mask stays as it is, with both tiles EMPTY. The entry of the first tile lies in the PLAIN mapping,
everything else in the GUARDED one. -/
def assayBay : State := (bayTwice 16 assayCharter []).modMarch 0 fun x => { x with num := 1 }

/-- The row form of the sparse tensor. -/
def assayForm : SparseForm where
  rows := 1
  kdim := 17
  tk := 16
  cap16 := 16
  slotBase := 0x1000
  dirBase := 0
  size := 2

theorem assayForm_eq : sparseForm assayCharter (assayCharter.tensor (asTensorS assayRow.desc)) false = assayForm := by
  decide +kernel

theorem assayBay_due : dueStream assayBay 0 0 [0x24] = some (0, assayCharter, assayRow) := by decide +kernel

/-- The range is the two tiles. -/
theorem assayRow_range : asFirstRow assayRow.desc = 0 ∧ asRowTiles assayRow.desc = 1 ∧ asFirstK assayRow.desc = 0
    ∧ asKTiles assayRow.desc = 2 := by decide +kernel

/-- Where the tiles and their entries lie (R131, R134). -/
theorem assayForm_layout : assayForm.kt = 2 ∧ assayForm.slot = 4352 ∧ (∀ ix, assayForm.slotAddr ix = 0x1000 + ix * 4352)
    ∧ ∀ ix, assayForm.dirAddr ix = 0 + 16 * ix := ⟨rfl, rfl, fun _ => rfl, fun _ => rfl⟩

/-- All bytes of the two mappings up to the end of the GUARDED one are plain. -/
theorem assayBay_plain {addrs : Nat → Prop} (within : ∀ a, addrs a → a < 16 + 0x5C000000) : PlainAt assayBay 0 addrs :=
  plainAt_bayTwice (n := 16) (c := assayCharter) (m := []) (by decide) fun a ha => by
    have := within a ha
    omega

/-- The entry of the second tile takes the stamp, and the parity byte of its row loses it, where the stamp of the first
tile's entry was stored before (R289). -/
theorem assayBay_entry {t : State} (ran : exec (.assay 0 0) assayBay = .next t) : dirEntry t 0 assayForm 0 = 0 := by
  have reads : (match exec (.assay 0 0) assayBay with | .next t => t.readNat 0 0 16 | _ => 1) = 0 := by decide +kernel
  rw [ran] at reads
  exact congrArg (BitVec.ofNat 128) reads

/-- No tile has the entry of the first one: an EMPTY tile's entry holds the stamp. -/
theorem assayBay_not_dirFor {t : State} (ran : exec (.assay 0 0) assayBay = .next t) (rows : TileRows) :
    dirEntry t 0 assayForm 0 ≠ dirFor assayForm rows 1 := by
  intro entry
  have empty : dirFor assayForm rows 1 = 0 := entry.symm.trans (assayBay_entry ran)
  have stamped := dirFor_of_empty assayForm rows 1 (by rw [empty]; decide)
  exact absurd (empty.symm.trans stamped) (by decide)

/-- Refutes O39: nothing keeps the tiles out of a bay that is mapped PLAIN and GUARDED at once. There the parity of one
directory entry (R289) overwrites the stamp of another. -/
theorem not_assayRewritesItsTiles : ¬Obligations.AssayRewritesItsTiles := by
  intro h
  obtain ⟨t, ran, -, -, -, -, -, entries, -⟩ := h assayBay 0 0 0 assayCharter assayRow
    (bayTwice_sane (n := 16) (c := assayCharter) (m := []) rfl) assayBay_due
  obtain ⟨firstRow, rowTiles, firstK, kTiles⟩ := assayRow_range
  obtain ⟨kt, slot, slotAddr, dirAddr⟩ := assayForm_layout
  simp only [assayForm_eq, firstRow, rowTiles, firstK, kTiles, kt, slot, slotAddr, dirAddr] at entries
  obtain ⟨rows, entry, -⟩ := entries (by decide +kernel) (by decide) (by decide)
    (assayBay_plain fun a ⟨ix, ⟨x, hx, y, hy, e⟩, ha⟩ => by omega)
    (fun _ a _ _ => hostVisible_bayTwice (n := 16) (c := assayCharter) (m := []) a)
    (fun x y a ⟨_, _, _, _, ex⟩ _ low high => by omega) 0 (by decide) 0 (by decide)
  exact assayBay_not_dirFor ran rows entry

end Sys2Proof.Machine
end

section
/-! PROOFS. The vector unit and the copy engines over a Serai bay that is mapped PLAIN and GUARDED at once (R280): what an op
or a copy writes under the parity stripe changes the parity byte (R289) that stands where an earlier write of its own went
through the PLAIN mapping. -/

/- As in the tests: a thread that waits to evaluate in the kernel holds its stack, and many at once exceed the memory. -/
set_option Elab.async false

namespace Sys2Proof.Machine

open Sys2Proof.Safety

/-! ### A vector op whose destination lies in both mappings (R170) -/

/-- A VMAP COPY of two H16 elements (Table 06-3) to address 0. Its operands lie at 3 GiB, where nothing is mapped, and are
zeros. The descriptor's words, the highest first. -/
def copiedPair : StreamEntry where
  desc := 0#64 ++ 0#64 ++ 0#64 ++ 0#64 ++ 0#64 ++ 0xC0000000#64 ++ 0#64 ++ 0x0000000200000030#64
  sched := { leg := 0 }

def pairCharter : Charter := { streams := [[copiedPair]] }

/-- Element 0 lies in the PLAIN mapping, element 1 in the GUARDED one, whose first byte is 1 as in `mixedBay`. -/
def pairBay : State := bayTwice 2 pairCharter mixedBay.mem

theorem pairBay_due : dueStream pairBay 0 0 [0x30] = some (0, pairCharter, copiedPair) := rfl

/-- The two elements of the destination and their codes. -/
def pairZeros : List (Nat × Nat) := [(0, 0), (2, 0)]

theorem pairZeros_addrs {a : Nat} (h : codeAddrs 2 pairZeros a) : a < 4 := by
  obtain ⟨e, he, -, high⟩ := h
  simp only [pairZeros, List.mem_cons, List.not_mem_nil, or_false] at he
  obtain rfl | rfl := he <;> dsimp only at high <;> omega

theorem pairBay_plain : PlainAt pairBay 0 (codeAddrs 2 pairZeros) :=
  plainAt_bayTwice (by decide) fun a ha => by
    have := pairZeros_addrs ha
    omega

/-- Where element 0 reads as 1, the destination does not read back. -/
theorem pairBay_not_stored {t : State} {l : List (Nat × Nat)} (reads : t.readNat 0 0 2 = 1) (hl : l = pairZeros) :
    ¬Stored pairBay t (.core 0) 0 pairCharter 0 2 l := by
  subst hl
  rintro ⟨readBack, -, -⟩
  have unpadded : noPad pairCharter 0 0 = true := by simp [noPad, tPad, bit]
  have stored : t.readNat 0 0 2 = 0 :=
    readBack pairBay_plain (by decide) (0, 0) (by decide) unpadded fun _ _ => hostVisible_bayTwice _
  exact absurd (reads.symm.trans stored) (by decide)

/-- Refutes O40: nothing keeps a destination out of a bay that is mapped PLAIN and GUARDED at once. There the store of
element 1 clears the 1 and so sets the parity byte of its row (R289), where element 0 was stored before. -/
theorem not_vectorOpsComputeTheirElements : ¬Obligations.VectorOpsComputeTheirElements := by
  intro h
  obtain ⟨maps, -⟩ := h pairBay 0 0 0 pairCharter copiedPair (bayTwice_sane mixedBay_sane.1)
  obtain ⟨copies, -⟩ := maps pairBay_due
  obtain ⟨t, ran, -, stored⟩ := copies rfl
  have reads : (match exec (.vmapCopy 0 0) pairBay with | .next t => t.readNat 0 0 2 | _ => 0) = 1 := by decide +kernel
  rw [ran] at reads
  exact pairBay_not_stored reads (by decide) stored

/-! ### A copy whose destination lies in both mappings (R206) -/

/-- A copy of one box of two I8 elements to address 0 (Table 07-2), in the order of its source at 3 GiB, where nothing is
mapped and all bytes are zeros. -/
def copiedBox : CopyOp where
  d := 0#64 ++ 0x0000000100000000#64 ++ 0#64 ++ 0#64 ++ 2#64 ++ 0#64 ++ 0xC0000000#64 ++ 0x0002C68800002140#64
  h := 0#256 ++ 1#192 ++ 1#192

def boxCharter : Charter := { copies := [{ entries := [{ leg := 0 }], descs := [copiedBox.d], shapes := [copiedBox.h] }] }

/-- Stall 0 owns copy engine 0. Element 0 lies in the PLAIN mapping, element 1 in the GUARDED one, whose first byte is 1 as
in `mixedBay`. -/
def boxBay : State :=
  (bayTwice 1 boxCharter mixedBay.mem).modPage 0 fun p => { p with comp := { p.comp with engines := 1 } }

theorem boxBay_sane : Sane boxBay := bayTwice_sane (n := 1) (c := boxCharter) (m := mixedBay.mem) mixedBay_sane.1

/-- The entry is due on engine 0 of stall 0. -/
theorem boxBay_due : engineStall boxBay 0 = some 0 ∧ (boxBay.stall 0).charter.active = some boxCharter
    ∧ (boxCharter.copies.getD 0 {}).entries[0]? = some { leg := 0 }
    ∧ due (boxBay.stall 0) boxCharter (.copy 0 0) = true ∧ (boxBay.engine 0).retired = false := ⟨rfl, rfl, rfl, rfl, rfl⟩

/-- The batch is the one descriptor. -/
theorem boxCharter_batch : batchFrom (boxCharter.copies.getD 0 {}) 0 = [copiedBox] := rfl

/-- A batch without a list passes the scan (R213). -/
theorem boxBay_passes : listCheck (boxBay.seen (.copy 0)) 0 boxCharter [copiedBox] = none := by decide

/-- The writes of the two elements. -/
def boxZeros : List CopyWrite := [⟨some 0xC0000000, 0, [0]⟩, ⟨some 0xC0000001, 1, [0]⟩]

/-- What the model evaluates to: those writes, of which the second clears the 1 and so sets the parity byte of its row
(R289), where element 0 was written before. -/
theorem boxBay_evaluates :
    ((copyWrites (boxBay.seen (.copy 0)) 0 boxCharter copiedBox (scanBoxes (boxBay.seen (.copy 0)) 0 copiedBox)).map
      fun w => (w.src, w.dst, w.bytes)) = boxZeros.map (fun w => (w.src, w.dst, w.bytes))
    ∧ (match exec (.copyEntry 0 0) boxBay with | .next t => t.readBytes 0 0 1 | _ => []) = [1] := by decide +kernel

theorem boxBay_writes : copyWrites (boxBay.seen (.copy 0)) 0 boxCharter copiedBox
    (scanBoxes (boxBay.seen (.copy 0)) 0 copiedBox) = boxZeros := by
  have fields : Function.Injective fun w : CopyWrite => (w.src, w.dst, w.bytes) := by
    rintro ⟨⟩ ⟨⟩ same
    simpa using same
  exact fields.list_map boxBay_evaluates.1

theorem boxBay_elementZero {t : State} (ran : exec (.copyEntry 0 0) boxBay = .next t) : t.readBytes 0 0 1 = [1] := by
  obtain ⟨-, reads⟩ := boxBay_evaluates
  rwa [ran] at reads

theorem boxZeros_addrs {a : Nat} (h : ∃ w ∈ boxZeros, w.dst ≤ a ∧ a < w.dst + w.bytes.length) : a < 2 := by
  obtain ⟨w, hw, -, high⟩ := h
  simp only [boxZeros, List.mem_cons, List.not_mem_nil, or_false] at hw
  obtain rfl | rfl := hw <;> simp only [List.length_singleton] at high <;> omega

theorem boxBay_plain : PlainAt boxBay 0 fun a => ∃ w ∈ boxZeros, w.dst ≤ a ∧ a < w.dst + w.bytes.length :=
  plainAt_bayTwice (n := 1) (c := boxCharter) (m := mixedBay.mem) (by decide) fun a ha => by
    have := boxZeros_addrs ha
    omega

theorem hostVisible_boxBay (a : Nat) : hostVisible boxBay 0 a = false :=
  hostVisible_bayTwice (n := 1) (c := boxCharter) (m := mixedBay.mem) a

/-- Refutes O42: nothing keeps a destination out of a bay that is mapped PLAIN and GUARDED at once. There the parity of a
later element (R289) overwrites an earlier one. -/
theorem not_copiesMoveTheirElements : ¬Obligations.CopiesMoveTheirElements := by
  intro h
  obtain ⟨stall, charter, entry, isDue, serving⟩ := boxBay_due
  obtain ⟨-, moves⟩ := h boxBay 0 0 0 boxCharter { leg := 0 } boxBay_sane stall charter entry isDue serving
  obtain ⟨t, ran, -, -, -, -, -, -, -, -, single⟩ := moves boxBay_passes
  obtain ⟨-, -, holds, -⟩ := single copiedBox boxCharter_batch
  simp only [boxBay_writes] at holds
  have moved : t.readBytes 0 0 1 = [0] :=
    holds boxBay_plain (by decide) ⟨some 0xC0000000, 0, [0]⟩ (by simp [boxZeros]) fun _ _ => hostVisible_boxBay _
  exact absurd ((boxBay_elementZero ran).symm.trans moved) (by decide)

end Sys2Proof.Machine
end

section
/-! PROOFS. Registers with rules of their own: the queue of a copy engine (R219 to R221), the ledger (R235, R237, R242), the
settlement step (R251), the tally (R269, R277) and the lot generator (R273, R278). -/

namespace Sys2Proof.Machine

open Sys2Proof.Safety

/-- A command that is an allowed write of a register does what the write does. -/
theorem runs_write {c : Instr} {s : State} {r : Requester} {off : BitVec 26} {f : State → State} {post : State → Prop}
    (he : exec c s = .next (s.guardWrite r off f)) (allowed : Allowed s r off) (hp : post (f s)) : Runs c s post :=
  runs_of_exec (he.trans (congrArg _ (guardWrite_allowed f allowed))) hp

/-- A command that is an allowed write of a register which refuses the value changes nothing. -/
theorem exec_write_same {c : Instr} {s : State} {r : Requester} {off : BitVec 26} {f : State → State}
    (he : exec c s = .next (s.guardWrite r off f)) (allowed : Allowed s r off) (same : f s = s) : exec c s = .next s := by
  rw [he, guardWrite_allowed f allowed, same]

/-! ### The queue of a copy engine (R219 to R221) -/

section queue
variable {s : State} {r : Requester} {e : EngineId} {i : Stall}

/-- The tail that a doorbell names (R221). -/
def rungTail (k : CopyEngine) (v : Word) : Nat := v.toNat % 2 ^ 17 % (2 * ringSize k)

/-- The descriptors that would stand in the ring after a doorbell (R221). -/
def rungPending (k : CopyEngine) (v : Word) : Nat :=
  (rungTail k v + 2 * ringSize k - k.qhead.toNat) % (2 * ringSize k)

/-- A refused request counts at its stall with its code and its engine (R380). -/
theorem stallVerdict_refused (s : State) (i : Stall) (reason : Reason) (last : BitVec 16) :
    s.stallVerdict i 2 reason last = s.modPage i fun p => { p with refused := satAdd p.refused 1, last := reason ++ last } := rfl

theorem writeQtail_taken {v : Word} (stall : engineStall s e = some i) (ready : (s.stall i).page.state ≠ 1)
    (fits : rungPending (s.engine e) v ≤ ringSize (s.engine e)) :
    writeQtail e v s = s.modEngine e fun x => { x with
      qtail := BitVec.ofNat 17 (rungTail (s.engine e) v)
      accepted := x.accepted + rungPending (s.engine e) v - queued x } := by
  simp only [writeQtail, stall, if_neg ready]
  exact if_neg (Nat.not_lt.mpr fits)

theorem writeQtail_tooFar {v : Word} (stall : engineStall s e = some i) (ready : (s.stall i).page.state ≠ 1)
    (beyond : ringSize (s.engine e) < rungPending (s.engine e) v) :
    writeQtail e v s = s.stallVerdict i 2 0x0C01 (BitVec.ofNat 16 e.val) := by
  simp only [writeQtail, stall, if_neg ready]
  exact if_pos beyond

theorem writeQtail_resetting {v : Word} (stall : engineStall s e = some i) (resetting : (s.stall i).page.state = 1) :
    writeQtail e v s = s.stallVerdict i 2 0x0C03 (BitVec.ofNat 16 e.val) := by
  simp only [writeQtail, stall, if_pos resetting]

theorem runs_qtail_taken {v : Word} (allowed : Allowed s r (copyOff e 0x1C)) (stall : engineStall s e = some i)
    (ready : (s.stall i).page.state ≠ 1) (fits : rungPending (s.engine e) v ≤ ringSize (s.engine e)) :
    Runs (.cpyQtailWrite r e v) s fun t =>
      (t.engine e).qtail = BitVec.ofNat 17 (rungTail (s.engine e) v) ∧ (t.engine e).qhead = (s.engine e).qhead
      ∧ Unchanged s t [.engine e] := by
  refine runs_write (f := writeQtail e v) rfl allowed ?_
  rw [writeQtail_taken stall ready fits, State.modEngine_engine_self]
  exact ⟨rfl, rfl, unchanged_modEngine _ (by simp) (unchanged_refl s _)⟩

/-- A doorbell that is refused shows at its stall and changes no engine. -/
theorem runs_qtail_refused {v : Word} {code : Reason} (allowed : Allowed s r (copyOff e 0x1C))
    (refused : writeQtail e v s = s.stallVerdict i 2 code (BitVec.ofNat 16 e.val)) :
    Runs (.cpyQtailWrite r e v) s fun t =>
      (t.stall i).page = { (s.stall i).page with
        refused := satAdd (s.stall i).page.refused 1, last := code ++ BitVec.ofNat 16 e.val }
      ∧ Unchanged s t [.stall i .page] := by
  refine runs_write (f := writeQtail e v) rfl allowed ?_
  rw [refused, stallVerdict_refused]
  exact ⟨State.modPage_page s i _, unchanged_modPage _ (by simp) (unchanged_refl s _)⟩

theorem runs_qsize_taken {v : Word} (allowed : Allowed s r (copyOff e 0x18)) (off : (s.engine e).qen = false)
    (low : 4 ≤ (fld v 0 5).toNat) (high : (fld v 0 5).toNat ≤ 16) :
    Runs (.cpyQsizeWrite r e v) s fun t =>
      t.engine e = { s.engine e with log2 := fld v 0 5 } ∧ Unchanged s t [.engine e] := by
  refine runs_write (f := writeQsize e v) rfl allowed ⟨?_, unchanged_modEngine _ (by simp) (unchanged_refl s _)⟩
  simp [writeQsize, off, Nat.not_lt.mpr low, Nat.not_lt.mpr high]

/-- An engine set to what it is leaves the state as it is. -/
theorem modEngine_same {f : CopyEngine → CopyEngine} (h : f (s.engine e) = s.engine e) : s.modEngine e f = s := by
  change f s.engines[e] = s.engines[e] at h
  rw [State.modEngine, h]
  simp

theorem runs_qsize_ignored {v : Word} (allowed : Allowed s r (copyOff e 0x18))
    (bad : (s.engine e).qen = true ∨ (fld v 0 5).toNat < 4 ∨ 16 < (fld v 0 5).toNat) :
    Runs (.cpyQsizeWrite r e v) s fun t => t.engine e = s.engine e ∧ Unchanged s t [] := by
  have same : writeQsize e v s = s := modEngine_same (by simp [or_assoc, bad])
  refine runs_write (f := writeQsize e v) rfl allowed ?_
  rw [same]
  exact ⟨rfl, unchanged_refl s _⟩

/-- A write of CPY_CTRL, whichever of its two commands it is (Table 07-10). -/
theorem runs_cpyCtrl {v : Word} {cmd : Instr} (allowed : Allowed s r (copyOff e 0x04))
    (hc : cmd ∈ [Instr.cpyQreset r e v, .cpyQen r e v]) :
    Runs cmd s fun t =>
      (t.engine e).qen = bit v 0 ∧ (t.engine e).vector = fld v 8 6
      ∧ (bit v 1 = true → (s.engine e).qen = false → (t.engine e).qhead = 0 ∧ (t.engine e).qtail = 0)
      ∧ (bit v 1 = false ∨ (s.engine e).qen = true →
          (t.engine e).qhead = (s.engine e).qhead ∧ (t.engine e).qtail = (s.engine e).qtail)
      ∧ (t.engine e).batch = (s.engine e).batch ∧ (t.engine e).done = (s.engine e).done ∧ Unchanged s t [.engine e] := by
  have he : exec cmd s = .next (s.guardWrite r (copyOff e 0x04) (writeCpyCtrl e v)) := by
    simp only [List.mem_cons, List.not_mem_nil, or_false] at hc
    obtain rfl | rfl := hc <;> rfl
  refine runs_write he allowed ?_
  cases reset : bit v 1 <;> cases on : (s.engine e).qen <;>
    simp [writeCpyCtrl, reset, on]

end queue

/-! ### The ledger's registers (R235, R237, R242) -/

section ledger
variable {s : State} {r : Requester} {i : Stall}

/-- The lead lifts the fences that are set, and relays them where there are some. -/
theorem runs_fence_lead {reg : Fin 3} {v : Word} (allowed : Allowed s r (ledgerOff i (0x2C + 4 * reg.val)))
    (lead : (s.stall i).march.lead = true) :
    let l := (s.stall i).ledger
    let m := fenceMask reg v &&& l.fences
    Runs (.ldgFenceWrite r i reg v) s fun t =>
      (t.stall i).ledger = { l with lifts := l.lifts ||| m }
      ∧ t.out = (if m = 0 then s.out else s.out ++ [.relayed i (.lift m)]) ∧ Unchanged s t [.out, .stall i .ledger] := by
  intro l m
  refine runs_write (f := writeFence i reg v) rfl allowed ?_
  have written : writeFence i reg v s = if m = 0 then s else
      (s.modLedger i fun l => { l with lifts := l.lifts ||| m }).send (.relayed i (.lift m)) := if_pos lead
  by_cases empty : m = 0
  · rw [written, if_pos empty, if_pos empty]
    simp [l, empty]
  · rw [written, if_neg empty, if_neg empty]
    exact ⟨by rw [State.send_stall, State.modLedger_ledger], rfl,
      unchanged_send _ (by simp) (unchanged_modLedger _ (by simp) (unchanged_refl s _))⟩

theorem runs_fence_other {reg : Fin 3} {v : Word} (allowed : Allowed s r (ledgerOff i (0x2C + 4 * reg.val)))
    (other : (s.stall i).march.lead = false) :
    Runs (.ldgFenceWrite r i reg v) s fun t =>
      (t.stall i).march = { (s.stall i).march with cmdIgnored := true } ∧ Unchanged s t [.stall i .march] := by
  refine runs_write (f := writeFence i reg v) rfl allowed ?_
  have dropped : writeFence i reg v s = s.ignored i := by simp [writeFence, other]
  rw [dropped]
  exact ⟨State.modMarch_march s i _, unchanged_modMarch _ (by simp) (unchanged_refl s _)⟩

theorem runs_forget (allowed : Allowed s r (ledgerOff i 0)) :
    Runs (.forget r i) s fun t =>
      (t.stall i).ledger = { (s.stall i).ledger with forgetPending := true } ∧ Unchanged s t [.stall i .ledger] :=
  runs_write (f := writeForget i) rfl allowed
    ⟨State.modLedger_ledger s i _, unchanged_modLedger _ (by simp) (unchanged_refl s _)⟩

theorem runs_headroom {v : Word} (allowed : Allowed s r (ledgerOff i 0)) :
    Runs (.ldgHeadroomWrite r i v) s fun t =>
      (t.stall i).ledger.headroom = fld v 0 4 ∧ (t.stall i).ledger.headroomUsed = (s.stall i).ledger.headroomUsed
      ∧ (t.stall i).ledger.forgetPending = ((s.stall i).ledger.forgetPending || bit v 8)
      ∧ (t.stall i).ledger.runs = (s.stall i).ledger.runs ∧ Unchanged s t [.stall i .ledger] := by
  refine runs_write (f := writeLdgCtrl i v) rfl allowed ?_
  simp only [writeLdgCtrl, State.modLedger_ledger, true_and]
  exact unchanged_modLedger _ (by simp) (unchanged_refl s _)

end ledger

/-! ### Settlement and tally (R251, R269, R277) -/

section settlement
variable {s : State} {r : Requester} {i : Stall}

/-- The states in which STEP may be written: READY, or a hold after COUNTER_MISMATCH (R251). -/
def mayStep (m : March) : Prop := m.state = .ready ∨ m.state = .held ∧ m.verdict.code = 10

theorem runs_step_taken {d : BitVec 64} (allowed : Allowed s r (settleOff i 8)) (may : mayStep (s.stall i).march) :
    Runs (.stlStepWrite r i d) s fun t =>
      (t.stall i).settle = { (s.stall i).settle with step := d.setWidth 40 } ∧ Unchanged s t [.stall i .settle] := by
  have taken : writeStep i d s = s.modSettle i fun x => { x with step := d.setWidth 40 } := if_pos may
  refine runs_write (f := writeStep i d) rfl allowed ?_
  rw [taken]
  exact ⟨State.modSettle_settle s i _, unchanged_modSettle _ (by simp) (unchanged_refl s _)⟩

theorem runs_step_ignored {d : BitVec 64} (allowed : Allowed s r (settleOff i 8)) (may : ¬mayStep (s.stall i).march) :
    Runs (.stlStepWrite r i d) s fun t =>
      (t.stall i).march = { (s.stall i).march with cmdIgnored := true } ∧ Unchanged s t [.stall i .march] := by
  have dropped : writeStep i d s = s.ignored i := if_neg may
  refine runs_write (f := writeStep i d) rfl allowed ?_
  rw [dropped]
  exact ⟨State.modMarch_march s i _, unchanged_modMarch _ (by simp) (unchanged_refl s _)⟩

theorem runs_stats_taken {which : Fin 3} {v : Word} (allowed : Allowed s r (tallyOff i (0x14 + 4 * which.val)))
    (ready : (s.stall i).march.state = .ready) :
    let y := (s.stall i).tally
    Runs (.tlyStatsWrite r i which v) s fun t =>
      (t.stall i).tally = (if which = 0 then { y with mean := v } else if which = 1 then { y with var := v }
        else { y with samples := v }) ∧ Unchanged s t [.stall i .tally] := by
  intro y
  refine runs_write (f := writeStats i which v) rfl allowed ?_
  simp only [writeStats, if_pos ready, State.modTally_tally, Fin.ext_iff]
  exact ⟨rfl, unchanged_modTally _ (by simp) (unchanged_refl s _)⟩

theorem exec_stats_ignored {which : Fin 3} {v : Word} (allowed : Allowed s r (tallyOff i (0x14 + 4 * which.val)))
    (busy : (s.stall i).march.state ≠ .ready) : exec (.tlyStatsWrite r i which v) s = .next s :=
  exec_write_same (f := writeStats i which v) rfl allowed (if_neg busy)

theorem runs_k_taken {v : Word} (allowed : Allowed s r (tallyOff i 4)) (finite : nonFinite32 v = false)
    (positive : ltVal (.fin false 0 0) (val32 v) = true) :
    Runs (.tlyKWrite r i v) s fun t =>
      (t.stall i).tally = { (s.stall i).tally with k := v } ∧ Unchanged s t [.stall i .tally] := by
  refine runs_write (f := writeK i v) rfl allowed ?_
  simp only [writeK, finite, positive, Bool.not_false, Bool.true_and, if_true]
  exact ⟨State.modTally_tally s i _, unchanged_modTally _ (by simp) (unchanged_refl s _)⟩

theorem exec_k_ignored {v : Word} (allowed : Allowed s r (tallyOff i 4))
    (bad : nonFinite32 v = true ∨ ltVal (.fin false 0 0) (val32 v) = false) : exec (.tlyKWrite r i v) s = .next s := by
  refine exec_write_same (f := writeK i v) rfl allowed ?_
  obtain bad | bad := bad <;> simp [writeK, bad]

end settlement

/-! ### The lot generator (R273, R278) -/

section lot
variable {s : State} {r : Requester} {i : Stall}

theorem runs_seed {d : BitVec 64} (allowed : Allowed s r (lotOff i 4)) :
    Runs (.lotSeedWrite r i d) s fun t =>
      (t.stall i).lot = { (s.stall i).lot with written := d, pending := true } ∧ Unchanged s t [.stall i .lot] :=
  runs_write (f := writeSeed i d) rfl allowed ⟨State.modLot_lot s i _, unchanged_modLot _ (by simp) (unchanged_refl s _)⟩

theorem get_set_ctr3 (ctr : Vector Word 4) (v : Word) (n : Fin 4) :
    (ctr.set 3 v).get n = if n = 3 then v else ctr.get n := by
  change (ctr.set 3 v)[n.val] = if n = 3 then v else ctr[n.val]
  rw [Vector.getElem_set]
  simp only [Fin.ext_iff, eq_comm]
  rfl

/-- An idle generator takes the last counter and computes the draw (R278). -/
theorem writeTestCtr_idle (v : Word) (idle : (s.stall i).lot.busy = false) :
    let l := (s.stall i).lot
    let o := lotWords l.testKey (l.ctr.get 0) (l.ctr.get 1) (l.ctr.get 2) v
    ((writeTestCtr i 3 v s).stall i).lot = { l with
      ctr := l.ctr.set 3 v, busy := true, result := #v[fld o 0 32, fld o 32 32, fld o 64 32, fld o 96 32] } := by
  intro l o
  have words : lotWords l.testKey ((l.ctr.set 3 v).get 0) ((l.ctr.set 3 v).get 1) ((l.ctr.set 3 v).get 2)
      ((l.ctr.set 3 v).get 3) = o := by
    rw [get_set_ctr3, get_set_ctr3, get_set_ctr3, get_set_ctr3]
    rfl
  rw [writeTestCtr, State.modLot_lot, idle, ← words]
  rfl

theorem runs_testCall {v : Word} (allowed : Allowed s r (lotOff i 0x24)) (idle : (s.stall i).lot.busy = false) :
    let l := (s.stall i).lot
    Runs (.lotTestCall r i v) s fun t =>
      (t.stall i).lot.busy = true ∧ (t.stall i).lot.seed = l.seed ∧ (t.stall i).lot.ctr = l.ctr.set 3 v
      ∧ (let o := lotWords l.testKey (l.ctr.get 0) (l.ctr.get 1) (l.ctr.get 2) v
         (t.stall i).lot.result = #v[fld o 0 32, fld o 32 32, fld o 64 32, fld o 96 32])
      ∧ Unchanged s t [.stall i .lot] := by
  refine runs_write (f := writeTestCtr i 3 v) rfl allowed ?_
  rw [writeTestCtr_idle v idle]
  exact ⟨rfl, rfl, rfl, rfl, unchanged_modLot _ (by simp) (unchanged_refl s _)⟩

/-- A stall set to what it is leaves the state as it is. -/
theorem modStall_same {f : StallState → StallState} (h : f (s.stall i) = s.stall i) : s.modStall i f = s := by
  change f s.stalls[i] = s.stalls[i] at h
  rw [State.modStall, h]
  simp

theorem modLot_same {f : Lot → Lot} (h : f (s.stall i).lot = (s.stall i).lot) : s.modLot i f = s :=
  modStall_same (by rw [h])

theorem runs_testCall_busy {v : Word} (allowed : Allowed s r (lotOff i 0x24)) (busy : (s.stall i).lot.busy = true) :
    Runs (.lotTestCall r i v) s fun t => (t.stall i).lot = (s.stall i).lot ∧ Unchanged s t [] := by
  have same : writeTestCtr i 3 v s = s := modLot_same (if_pos busy)
  refine runs_write (f := writeTestCtr i 3 v) rfl allowed ?_
  rw [same]
  exact ⟨rfl, unchanged_refl s _⟩

theorem runs_testDone (busy : (s.stall i).lot.busy = true) :
    Runs (.lotTestDone i) s fun t =>
      t.time = s.time + 8 ∧ (t.stall i).lot = { (s.stall i).lot with busy := false }
      ∧ Unchanged s t [.time, .stall i .lot] := by
  have done : exec (.lotTestDone i) s = .next ({ s with time := s.time + 8 }.modLot i fun l => { l with busy := false }) :=
    if_pos busy
  exact runs_of_exec done ⟨rfl, State.modLot_lot _ i _,
    unchanged_modLot _ (by simp) (unchanged_set_time _ (by simp) (unchanged_refl s _))⟩

end lot

/-- Settles O44, one command at a time. -/
theorem registersKeepTheirRules : Obligations.RegistersKeepTheirRules := by
  refine ⟨fun s r e v => ⟨fun i allowed stall =>
        ⟨runs_qtail_taken allowed stall, fun ready beyond => ?_, fun resetting => ?_⟩,
      fun allowed => ⟨runs_qsize_taken allowed, runs_qsize_ignored allowed⟩, fun allowed cmd => runs_cpyCtrl allowed⟩,
    fun s r i v => ⟨fun reg allowed => ⟨runs_fence_lead allowed, runs_fence_other allowed⟩,
      fun allowed => ⟨runs_forget allowed, runs_headroom allowed⟩⟩,
    fun s r i v d => ⟨fun allowed => ⟨runs_step_taken allowed, runs_step_ignored allowed⟩,
      fun which allowed => ⟨runs_stats_taken allowed, exec_stats_ignored allowed⟩,
      fun allowed => ⟨runs_k_taken allowed, exec_k_ignored allowed⟩, runs_seed,
      fun allowed => ⟨runs_testCall allowed, runs_testCall_busy allowed⟩, runs_testDone⟩⟩
  · exact runs_qtail_refused allowed (writeQtail_tooFar stall ready beyond)
  · exact runs_qtail_refused allowed (writeQtail_resetting stall resetting)

end Sys2Proof.Machine
end

section
/-! PROOFS. The completion records of a batch in a Serai bay that is mapped PLAIN and GUARDED at once (R280, R289). -/

namespace Sys2Proof.Machine

open Sys2Proof.Safety

/-! ### Completion records that lie in both mappings (R199, R215) -/

/-- A batch of two empty descriptors, tagged 0 and 1, whose completion records go to address 0 and up. -/
def tagged : Batch where
  first := 0
  cbase := 0
  counts := [0, 0]
  moved := []
  recorded := false
  tags := [0, 1]
  verdict := 0
  reason := 0
  notify := false

/-- Stall 0 owns copy engine 0, which has taken that batch from a ring of 16 slots. Record 0 lies in the PLAIN mapping of an
empty bay, record 1 in the GUARDED one. -/
def recordBay : State :=
  ((bayTwice 16 {} []).modPage 0 fun p => { p with comp := { p.comp with engines := 1 } }).modEngine 0 fun k => { k with
    qen := true, log2 := 4, state := 3, batch := some tagged }

theorem recordBay_sane : Sane recordBay := bayTwice_sane (n := 16) (c := {}) (m := []) rfl

/-- The batch is there to be completed. -/
theorem recordBay_due : engineStall recordBay 0 = some 0 ∧ (recordBay.engine 0).batch = some tagged
    ∧ recordBay.waits (.copy 0) = false ∧ (recordBay.engine 0).state ≠ 4
    ∧ tagged.counts.length ≤ ringSize (recordBay.engine 0) := by decide +kernel

/-- Where the record of a descriptor of the batch goes. -/
def taggedSlot (j : Nat) : Nat := recordSlot (recordBay.engine 0) tagged.cbase (tagged.first.toNat + j)

theorem taggedSlot_eq : ∀ j < 2, taggedSlot j = 16 * j := by decide +kernel

/-- Customs lets the engine write both records. -/
theorem recordBay_open : ∀ j < 2, denyCause (recordBay.stall 0).customs .copy permWrite (taggedSlot j) 16 = none := by
  decide +kernel

theorem hostVisible_recordBay (a : Nat) : hostVisible recordBay 0 a = false :=
  hostVisible_bayTwice (n := 16) (c := {}) (m := []) a

/-- The bytes of the two records lie at plain places. -/
theorem recordBay_plain : PlainAt recordBay 0 fun a => ∃ j < 2, taggedSlot j ≤ a ∧ a < taggedSlot j + 16 :=
  plainAt_bayTwice (n := 16) (c := {}) (m := []) (by decide) fun a ha => by
    obtain ⟨j, hj, low, high⟩ := ha
    rw [taggedSlot_eq j hj] at low high
    omega

/-- What the model evaluates to: record 0 is zeros, but the tag of record 1 sets the parity bytes of its row (R289), where
record 0 was written before. -/
theorem recordBay_evaluates : completionRecord (recordBay.engine 0) tagged 0 = 0
    ∧ (match exec (.copyBatchComplete 0) recordBay with | .next t => t.readNat 0 0 16 | _ => 0) = 2 ^ 32 := by decide +kernel

/-- Refutes O43: nothing keeps a completion ring out of a bay that is mapped PLAIN and GUARDED at once. There the parity of a
later record (R289) overwrites an earlier one. -/
theorem not_queuesMoveWholeBatches : ¬Obligations.QueuesMoveWholeBatches := by
  intro h
  obtain ⟨stall, batch, idle, moving, fits⟩ := recordBay_due
  obtain ⟨-, completes, -⟩ := h recordBay 0 0 recordBay_sane stall
  obtain ⟨-, -, records⟩ := completes tagged batch idle moving fits
  obtain ⟨t, ran, hidden, -⟩ := records rfl recordBay_open
  obtain ⟨-, reads⟩ := hidden fun a _ => hostVisible_recordBay a
  obtain ⟨zeros, tagOne⟩ := recordBay_evaluates
  have first : t.readNat 0 (taggedSlot 0) 16 = (completionRecord (recordBay.engine 0) tagged 0).toNat :=
    reads recordBay_plain 0 (by decide)
  rw [taggedSlot_eq 0 (by decide), zeros] at first
  rw [ran] at tagOne
  exact absurd (tagOne.symm.trans first) (by decide)

end Sys2Proof.Machine
end

section
/-! PROOFS. The total of a ledger bucket in a Serai bay that is mapped PLAIN and GUARDED at once (R280, R289). -/

namespace Sys2Proof.Machine

open Sys2Proof.Safety

/-! ### A total that lies in both mappings (R229, R232) -/

/-- One bucket of two elements with one contribution (Table 08-1), whose total goes to address 0. Its tree is empty, so that
every member is a root without children. -/
def totalCharter : Charter := { buckets := [0x100000002#256] }

/-- The contribution is there: 0 and 1 in units of 2^-46. -/
def totalRun : BucketRun := { bucket := 0, own := some [0, 1], width := 47 }

/-- Element 0 of the total lies in the PLAIN mapping of an empty bay, element 1 in the GUARDED one. -/
def totalBay : State := (bayTwice 4 totalCharter []).modLedger 0 fun l => { l with runs := [totalRun] }

theorem totalBay_sane : Sane totalBay := bayTwice_sane (n := 4) (c := totalCharter) (m := []) rfl

theorem totalBay_active : (totalBay.stall 0).charter.active = some totalCharter := rfl

/-- The bucket is open, its run is unsent, and no earlier entry holds the add stage. -/
theorem totalBay_ready : runOf (totalBay.stall 0) 0 = some totalRun ∧ bucketOpen (totalBay.stall 0) totalCharter 0 = true
    ∧ selfFenced (totalBay.stall 0) = false ∧ addBlocked (totalBay.stall 0) totalCharter totalRun = false := by decide +kernel

/-- The member is the root, and lacks no child's partial sum. -/
theorem totalBay_root : parentOf (totalBay.stall 0) totalCharter 0 = none
    ∧ (let kids := totalCharter.children (bkTree (totalCharter.bucket 0)) (ownRole (totalBay.stall 0))
      (kids.filterMap (partialOf totalRun)).length = kids.length) := by decide +kernel

/-- The member's partial sum, which is the total. -/
def totalSum : SegmentHeader × List (BitVec 48) := partialSum (segmentHeader (totalBay.stall 0) totalCharter totalRun) [0, 1] []

/-- The total as it is stored: 0, and 2^-46 as F32. -/
def totalCodes : List (Nat × Nat) := [(0, 0), (4, 0x28800000)]

/-- The total counts every contribution, and comes down to those codes. -/
theorem totalSum_codes : totalSum.1.count.toNat = bkN (totalCharter.bucket 0)
    ∧ ((List.range totalSum.2.length).map fun n => (bkDst (totalCharter.bucket 0) + 4 * n,
        (dequantise (totalSum.2.getD n 0) totalSum.1.tariff.toInt totalSum.1.width.toNat).toNat)) = totalCodes := by
  decide +kernel

theorem totalCodes_addrs {a : Nat} (h : codeAddrs 4 totalCodes a) : a < 8 := by
  obtain ⟨e, he, -, high⟩ := h
  simp only [totalCodes, List.mem_cons, List.not_mem_nil, or_false] at he
  obtain rfl | rfl := he <;> dsimp only at high <;> omega

theorem totalBay_plain : PlainAt totalBay 0 (codeAddrs 4 totalCodes) :=
  plainAt_bayTwice (n := 4) (c := totalCharter) (m := []) (by decide) fun a ha => by
    have := totalCodes_addrs ha
    omega

/-- What the model evaluates to: element 1 sets the parity bytes of its row (R289), where element 0 was written before. -/
theorem totalBay_evaluates :
    (match exec (.ledgerSendUp 0 0) totalBay with | .next t => t.readNat 0 0 4 | _ => 0) = 0x28800000 := by decide +kernel

/-- The total does not read back. -/
theorem totalBay_not_stored {t : State} (ran : exec (.ledgerSendUp 0 0) totalBay = .next t) :
    ¬Stored totalBay t (.ledger 0) 0 totalCharter (totalCharter.tensor (bkDstTensor (totalCharter.bucket 0))) 4 totalCodes := by
  rintro ⟨readBack, -, -⟩
  have stored : t.readNat 0 0 4 = 0 :=
    readBack totalBay_plain (by decide) (0, 0) (by decide) (by decide +kernel)
      fun _ _ => hostVisible_bayTwice (n := 4) (c := totalCharter) (m := []) _
  have reads := totalBay_evaluates
  rw [ran] at reads
  exact absurd (reads.symm.trans stored) (by decide)

/-- Refutes O46: nothing keeps a bucket's destination out of a bay that is mapped PLAIN and GUARDED at once. There the parity
of a later element of the total (R289) overwrites an earlier one. -/
theorem not_ledgerEntriesAddUp : ¬Obligations.LedgerEntriesAddUp := by
  intro h
  obtain ⟨runs, isOpen, unfenced, unblocked⟩ := totalBay_ready
  obtain ⟨root, allKids⟩ := totalBay_root
  obtain ⟨whole, codes⟩ := totalSum_codes
  obtain ⟨-, sendsUp, -⟩ := h totalBay 0 totalCharter totalBay_sane totalBay_active
  obtain ⟨-, total⟩ := sendsUp 0 totalRun runs isOpen rfl rfl rfl unfenced unblocked [0, 1] rfl allKids
  obtain ⟨t, ran, -, stores, -⟩ := total root
  obtain ⟨-, stored⟩ := stores whole
  exact totalBay_not_stored ran (codes ▸ stored)

end Sys2Proof.Machine
end

section
/-! PROOFS. The width that the group size gives a ledger contribution, and the sums it leaves room for (R227, R229). -/

namespace Sys2Proof.Machine

open Sys2Proof.Safety

/-! ### The contribution width (R227) -/

theorem clog_two_eq {n : Nat} (h : 1 < n) : Nat.clog 2 n = (n - 1).log2 + 1 := by
  refine eq_of_forall_ge_iff fun k => ?_
  have shift : n ≤ 2 ^ k ↔ n - 1 < 2 ^ k := by omega
  rw [Nat.clog_le_iff_le_pow one_lt_two, shift, ← Nat.log2_lt (by omega), Nat.succ_le_iff]

/-- The width is 47 - ceil(log2 N), as the spec words it. -/
theorem contributionWidth_eq (n : Nat) : contributionWidth n = 47 - Nat.clog 2 n := by
  unfold contributionWidth
  split
  next single => rw [Nat.clog_of_right_le_one single]
  next several => rw [clog_two_eq (by omega)]

theorem contributionWidth_le (n : Nat) : contributionWidth n ≤ 47 := Nat.sub_le _ _

theorem contributionWidth_pos {n : Nat} (h : n < 2 ^ 13) : 0 < contributionWidth n := by
  have := Nat.clog_le_of_le_pow h.le
  rw [contributionWidth_eq]
  omega

/-- N contributions at the bound of their width sum to half the magnitude that an L48 holds, at most. -/
theorem mul_contributionBound_le {n : Nat} (h : n < 2 ^ 13) : n * 2 ^ (contributionWidth n - 1) ≤ 2 ^ 46 := by
  have narrow := Nat.clog_le_of_le_pow h.le
  calc n * 2 ^ (contributionWidth n - 1)
      ≤ 2 ^ Nat.clog 2 n * 2 ^ (contributionWidth n - 1) := Nat.mul_le_mul_right _ (Nat.le_pow_clog one_lt_two n)
    _ = 2 ^ 46 := by rw [← pow_add, contributionWidth_eq]; congr 1; omega

/-! ### Rounding to an integer -/

/-- Rounding never passes a whole number. -/
theorem rneShift_le {m k b : Nat} (h : m ≤ b * 2 ^ k) : rneShift m k ≤ b := by
  have unit : 0 < 2 ^ k := Nat.two_pow_pos k
  have floor_le : m / 2 ^ k ≤ b := Nat.div_le_of_le_mul (by rwa [Nat.mul_comm])
  have ceil_le (rest : 0 < m - m / 2 ^ k * 2 ^ k) : m / 2 ^ k + 1 ≤ b :=
    Nat.lt_of_mul_lt_mul_right (a := 2 ^ k) (by omega)
  simp only [rneShift, Nat.shiftRight_eq_div_pow, Nat.shiftLeft_eq]
  split_ifs with below above even
  · exact floor_le
  · exact ceil_le (by omega)
  · exact floor_le
  · exact ceil_le (by omega)

@[simp] theorem rneInteger_zero (e : Int) : rneInteger 0 e = 0 := by
  unfold rneInteger
  split
  · exact Nat.zero_shiftLeft _
  · exact Nat.le_zero.mp (rneShift_le (Nat.zero_le _))

theorem rneInteger_le {m a b : Nat} {e : Int} (hm : m < 2 ^ a) (h : a + e ≤ b) : rneInteger m e ≤ 2 ^ b := by
  unfold rneInteger
  split
  next scaled =>
    rw [Nat.shiftLeft_eq]
    calc m * 2 ^ e.toNat ≤ 2 ^ a * 2 ^ e.toNat := Nat.mul_le_mul_right _ hm.le
      _ = 2 ^ (a + e.toNat) := (pow_add ..).symm
      _ ≤ 2 ^ b := Nat.pow_le_pow_right two_pos (by omega)
  next rounded =>
    refine rneShift_le ?_
    calc m ≤ 2 ^ a := hm.le
      _ ≤ 2 ^ (b + (-e).toNat) := Nat.pow_le_pow_right two_pos (by omega)
      _ = 2 ^ b * 2 ^ (-e).toNat := pow_add ..

@[simp] theorem natAbs_signedMag (neg : Bool) (m : Nat) : (signedMag neg m).natAbs = m := by
  cases neg <;> simp [signedMag]

/-! ### One contribution (R227) -/

theorem toInt_ofInt_of_natAbs_le {v : Int} (h : v.natAbs ≤ 2 ^ 46) : (BitVec.ofInt 48 v).toInt = v :=
  BitVec.toInt_ofInt_eq_self (by decide) (by omega) (by omega)

/-- What no flag reports lies within the width: the tariff bounds |x| by 2^E, which the scaling takes to 2^(W - 1). -/
theorem quantise_natAbs_le {x : Val} {e : Int} {w : Nat} (pos : 0 < w) (wide : w ≤ 47)
    (finite : (quantise x e w).nonfinite = false) (fits : (quantise x e w).saturated = false) :
    (quantise x e w).q.toInt.natAbs ≤ 2 ^ (w - 1) := by
  cases x with
  | nan | inf => simp [quantise] at finite
  | fin neg m k =>
    simp only [quantise] at fits ⊢
    split at fits
    next => simp at fits
    next inTariff =>
      have bound : rneInteger m (k + (w : Int) - 1 - e) ≤ 2 ^ (w - 1) := by
        obtain rfl | nonzero := eq_or_ne m 0
        · simp
        · exact rneInteger_le Nat.lt_log2_self (by push_cast; omega)
      rw [if_neg inTariff, toInt_ofInt_of_natAbs_le, natAbs_signedMag]
      · exact bound
      · rw [natAbs_signedMag]
        exact bound.trans (Nat.pow_le_pow_right two_pos (by omega))

/-! ### The sum (R229) -/

theorem foldl_add_eq_ofInt_sum (qs : List Quantised) (acc : BitVec 48) :
    qs.foldl (fun acc q => acc + q.q) acc = acc + BitVec.ofInt 48 (qs.map fun q => q.q.toInt).sum := by
  induction qs generalizing acc with
  | nil => simp
  | cons q qs ih =>
    rw [List.foldl_cons, ih, List.map_cons, List.sum_cons, BitVec.ofInt_add, BitVec.ofInt_toInt, BitVec.add_assoc]

theorem natAbs_sum_le {l : List Int} {b : Nat} (h : ∀ v ∈ l, v.natAbs ≤ b) : l.sum.natAbs ≤ l.length * b := by
  induction l with
  | nil => simp
  | cons v l ih =>
    rw [List.forall_mem_cons] at h
    have := ih h.2
    rw [List.sum_cons, List.length_cons, Nat.succ_mul]
    omega

/-- Settles O45: the width gives each of N contributions an N-th of the room that the L48 has, so no sum leaves it. -/
theorem ledgerSumsNeverWrap : Obligations.LedgerSumsNeverWrap := by
  intro n e xs _ small few qs clean
  have bounded : ∀ q ∈ qs, q.q.toInt.natAbs ≤ 2 ^ (contributionWidth n - 1) := by
    intro q hq
    obtain ⟨finite, fits⟩ := clean q hq
    obtain ⟨x, -, rfl⟩ := List.mem_map.mp hq
    exact quantise_natAbs_le (contributionWidth_pos small) (contributionWidth_le n) finite fits
  have inRange : (qs.map fun q : Quantised => q.q.toInt).sum.natAbs ≤ 2 ^ 46 := by
    calc _ ≤ (qs.map fun q => q.q.toInt).length * 2 ^ (contributionWidth n - 1) :=
          natAbs_sum_le (List.forall_mem_map.mpr bounded)
      _ ≤ n * 2 ^ (contributionWidth n - 1) := Nat.mul_le_mul_right _ (by simpa [qs] using few)
      _ ≤ 2 ^ 46 := mul_contributionBound_le small
  refine ⟨bounded, ?_⟩
  rw [foldl_add_eq_ofInt_sum]
  exact (congrArg _ (BitVec.zero_add _)).trans (toInt_ofInt_of_natAbs_le inRange)

end Sys2Proof.Machine
end

section
/-! PROOFS. A settlement entry over a Serai bay that is mapped PLAIN and GUARDED at once (R280): the store of an element's
average changes the parity byte (R289) that stands where its weight was stored before. Such regions break R416, but no
hypothesis of the statement says that they were checked. -/

namespace Sys2Proof.Machine

open Sys2Proof.Safety

/-! ### A weight and an average that lie in both mappings (R258, R259) -/

/-- A settlement entry of one H16 weight at address 0 and its G16 average at address 2, with its gradient at address 4
(Table 09-3). The record's words, the highest first. -/
def settledOne : SettleRec where
  raw := 0#64 ++ 0#64 ++ 0#64 ++ 0#64 ++ 4#64 ++ 2#64 ++ 0#64 ++ 0x0000000100000000#64
  sched := { leg := 0 }

def settledCharter : Charter := { settle := [settledOne] }

/-- Stall 0 settles, and all coefficients are zeros. The weight lies in the PLAIN mapping; the average, whose code is 1
as in `mixedBay`, and the gradient, which is zero, lie in the GUARDED one. -/
def settledBay : State :=
  ((bayTwice 2 settledCharter mixedBay.mem).modMarch 0 fun x => { x with state := .settle }).modSeq 0 fun q => { q with
    settles := true }

theorem settledBay_sane : Sane settledBay := bayTwice_sane (n := 2) (c := settledCharter) (m := mixedBay.mem) mixedBay_sane.1

/-- The entry is due, and no byte waits for a host. -/
theorem settledBay_due : (settledBay.stall 0).charter.active = some settledCharter ∧ settledCharter.settle[0]? = some settledOne
    ∧ due (settledBay.stall 0) settledCharter (.settle 0) = true ∧ (settledBay.stall 0).march.state = .settle
    ∧ (settledBay.stall 0).seq.settles = true ∧ settledBay.waits (.settle 0) = false := by decide +kernel

/-- Where the element lies, in which formats, and that nothing freezes it. -/
theorem settledOne_fields : seCount settledOne.raw = 1 ∧ seCompat settledOne.raw = false ∧ seFreeze settledOne.raw = 0
    ∧ seW settledOne.raw = 0 ∧ seS settledOne.raw = 2 ∧ seG settledOne.raw = 4 := by decide +kernel

/-- Bytes of the two mappings up to the end of the gradient are plain. -/
theorem settledBay_plain {addrs : Nat → Prop} (within : ∀ a, addrs a → a < 8) : PlainAt settledBay 0 addrs :=
  plainAt_bayTwice (n := 2) (c := settledCharter) (m := mixedBay.mem) (by decide) fun a ha => by
    have := within a ha
    omega

/-- What the model evaluates to: the new average is zero, so that its store clears the 1 and sets the parity byte of its
row (R289), where the weight was stored before. -/
theorem settledBay_weight {t : State} (ran : exec (.settle 0 0) settledBay = .next t) : t.readNat 0 0 2 = 1 := by
  have reads : (match exec (.settle 0 0) settledBay with | .next t => t.readNat 0 0 2 | _ => 0) = 1 := by decide +kernel
  rwa [ran] at reads

/-- A weight of zero does not read back. -/
theorem settledBay_not_readBack {t : State} {ten : BitVec 512} {l : List (Nat × Nat)}
    (ran : exec (.settle 0 0) settledBay = .next t) (hten : ten = 0) (hl : l = [(0, 0)]) :
    ¬ReadBack settledBay t 0 settledCharter ten 2 l := by
  subst hten hl
  intro readBack
  have stored : t.readNat 0 0 2 = 0 := readBack (0, 0) (by decide) (by decide +kernel)
    fun _ _ => hostVisible_bayTwice (n := 2) (c := settledCharter) (m := mixedBay.mem) _
  exact absurd ((settledBay_weight ran).symm.trans stored) (by decide)

/-- Refutes O47: nothing keeps an element out of a bay that is mapped PLAIN and GUARDED at once. There the parity of its
average (R289) overwrites its weight. -/
theorem not_settlementUpdatesItsElements : ¬Obligations.SettlementUpdatesItsElements := by
  intro h
  obtain ⟨active, entry, isDue, state, settles, idle⟩ := settledBay_due
  obtain ⟨count, compat, freeze, weight, average, gradient⟩ := settledOne_fields
  obtain ⟨t, ran, -, -, -, -, -, -, -, elements, -⟩ :=
    h settledBay 0 0 settledCharter settledOne settledBay_sane active entry isDue state settles
  simp only [count, compat, freeze, weight, average, gradient, Bool.false_eq_true, if_false, false_and, and_false, or_false,
    not_false_eq_true, and_true, fmtBytes] at elements
  obtain ⟨-, updated⟩ := elements (settledBay_plain fun a ha => by omega) (fun a ha => by omega) (fun a => by omega) idle 0 one_pos
  obtain ⟨⟨reads, -⟩, -⟩ := updated (by decide +kernel)
  exact settledBay_not_readBack ran (by decide +kernel) (by decide +kernel) reads

end Sys2Proof.Machine
end

section
/-! PROOFS. What the memory tiers are read through: a unit's part, its service, its group and its rebuild, and what the
shared operations of the tiers leave of them (R281 to R294). -/

namespace Sys2Proof.Machine

open Sys2Proof.Safety

variable {s t : State} {l : List Part}

/-! ### Stacks and channels -/

/-- The part of the state that holds the registers of a unit. -/
def unitPart : MemUnit → Part
  | .near pc => .stack (stackOf pc)
  | .serai ch => .channel ch

theorem modStack_self (s : State) (k : Fin 8) (f : NearStack → NearStack) :
    (s.modStack k f).tiers.near[k] = f s.tiers.near[k] := by
  simp [State.modStack]

theorem modChannel_self (s : State) (k : Fin 24) (f : SeraiChannel → SeraiChannel) :
    (s.modChannel k f).tiers.serai[k] = f s.tiers.serai[k] := by
  simp [State.modChannel]

/-- An update of one stack leaves what is seen of every stack, where it leaves what is seen of that one. -/
theorem map_near_modStack {α : Type} (v : NearStack → α) (s : State) (k : Fin 8) {f : NearStack → NearStack}
    (hf : v (f s.tiers.near[k]) = v s.tiers.near[k]) : (s.modStack k f).tiers.near.map v = s.tiers.near.map v := by
  simp only [State.modStack, Vector.map_set, hf]
  exact Vector.ext fun j hj => by
    rw [Vector.getElem_set]
    split
    · next same => subst same; simp
    · rfl

theorem map_serai_modChannel {α : Type} (v : SeraiChannel → α) (s : State) (k : Fin 24) {f : SeraiChannel → SeraiChannel}
    (hf : v (f s.tiers.serai[k]) = v s.tiers.serai[k]) : (s.modChannel k f).tiers.serai.map v = s.tiers.serai.map v := by
  simp only [State.modChannel, Vector.map_set, hf]
  exact Vector.ext fun j hj => by
    rw [Vector.getElem_set]
    split
    · next same => subst same; simp
    · rfl

/-! ### Units and groups (Tables 10-8, 10-12) -/

theorem pcState_eq (t : Tiers) (pc : Fin 256) : pcState t pc.val = t.near[stackOf pc].pcs[inStack pc] := by
  have : pc.val / 32 < 8 := by omega
  simp [pcState, stackOf, inStack, Vector.getD, this, Nat.mod_lt]

theorem chState_eq (t : Tiers) (ch : Fin 24) : chState t ch.val = t.serai[ch].state := by
  simp [chState, Vector.getD]

theorem groupState_near (t : Tiers) (pc : Fin 256) : groupState t (.near pc) = t.nearGroups[groupOf pc] := by
  simp [groupState, groupOf, Vector.getD, Nat.mod_lt]

theorem rebuildOf_near (t : Tiers) (pc : Fin 256) : rebuildOf t (.near pc) = t.nearRebuilds[groupOf pc] := by
  simp [rebuildOf, groupOf, Vector.getD, Nat.mod_lt]

/-- What says whether units are in service: the states of the pseudo-channels and of the channels, and the units that are
FAILING. Beside them stand the repeat reads, by which units come to fail. -/
def unitStates (s : State) :
    Vector (Vector (BitVec 2) 32) 8 × Vector (BitVec 4) 24 × List FailingUnit × List (MemUnit × BitVec 10 × BitVec 18) :=
  (s.tiers.near.map NearStack.pcs, s.tiers.serai.map SeraiChannel.state, s.tiers.failing, s.tiers.repeatReads)

theorem failing_of_unitStates (h : unitStates t = unitStates s) : t.tiers.failing = s.tiers.failing :=
  congrArg (fun v => v.2.2.1) h

theorem repeatReads_of_unitStates (h : unitStates t = unitStates s) : t.tiers.repeatReads = s.tiers.repeatReads :=
  congrArg (fun v => v.2.2.2) h

theorem unitServes_congr (h : unitStates t = unitStates s) (u : MemUnit) : unitServes t u = unitServes s u := by
  simp only [unitStates, Prod.mk.injEq] at h
  obtain ⟨pcs, states, failing, -⟩ := h
  have pcs_eq (k : Fin 8) : t.tiers.near[k].pcs = s.tiers.near[k].pcs := by
    simpa using congrArg (fun v => v[k]) pcs
  have state_eq (k : Fin 24) : t.tiers.serai[k].state = s.tiers.serai[k].state := by
    simpa using congrArg (fun v => v[k]) states
  cases u with
  | near pc => simp only [unitServes, serves, pcState_eq, pcs_eq]
  | serai ch => simp only [unitServes, serves, chLost, chState_eq, state_eq, failing]

theorem unitStates_modStack (s : State) (k : Fin 8) {f : NearStack → NearStack} (hf : ∀ x, (f x).pcs = x.pcs) :
    unitStates (s.modStack k f) = unitStates s := by
  rw [unitStates, map_near_modStack _ _ _ (hf _)]
  rfl

theorem unitStates_modChannel (s : State) (k : Fin 24) {f : SeraiChannel → SeraiChannel} (hf : ∀ x, (f x).state = x.state) :
    unitStates (s.modChannel k f) = unitStates s := by
  rw [unitStates, map_serai_modChannel _ _ _ (hf _)]
  rfl

/-- The states of the parity groups. -/
def groupStates (s : State) : Vector (BitVec 2) 16 × BitVec 2 := (s.tiers.nearGroups, s.tiers.seraiGroup)

theorem unitGroup_congr (h : groupStates t = groupStates s) (u : MemUnit) : unitGroup t u = unitGroup s u := by
  simp only [groupStates, Prod.mk.injEq] at h
  cases u with
  | near pc => simp only [unitGroup, groupState, h.1]
  | serai ch => simp only [unitGroup, groupState, h.2]

theorem groupStates_of_unchanged (h : Unchanged s t l) (hg : Part.groups ∉ l) : groupStates t = groupStates s := by
  obtain ⟨near, -, -, serai, -⟩ := h .groups hg
  exact Prod.ext near serai

/-! ### Records -/

theorem record_tiers (s : State) (r : Rec) : (s.record r).tiers = s.tiers := by
  obtain ⟨os, h, -⟩ := record_eq s r
  exact h ▸ rfl

theorem unitStates_record (s : State) (r : Rec) : unitStates (s.record r) = unitStates s := by
  rw [unitStates, record_tiers, unitStates]

theorem record_retired (s : State) (r : Rec) : (s.record r).log.retired = s.log.retired := by
  rw [record_log]

/-! ### The registers of a unit (R285, R304) -/

theorem unchanged_unitErr (u : MemUnit) (bay : BitVec 10) (row : BitVec 18) (kind : BitVec 8) (hu : unitPart u ∈ l)
    (h : Unchanged s t l) : Unchanged s (t.unitErr u bay row kind) l := by
  cases u with
  | near pc => exact unchanged_modStack _ hu h
  | serai ch => exact unchanged_modChannel _ hu h

theorem unitStates_unitErr (s : State) (u : MemUnit) (bay : BitVec 10) (row : BitVec 18) (kind : BitVec 8) :
    unitStates (s.unitErr u bay row kind) = unitStates s := by
  cases u with
  | near pc => exact unitStates_modStack s _ fun _ => rfl
  | serai ch => exact unitStates_modChannel s _ fun _ => rfl

theorem unitErr_near (s : State) (pc : Fin 256) (bay : BitVec 10) (row : BitVec 18) (kind : BitVec 8) :
    (s.unitErr (.near pc) bay row kind).tiers.near[stackOf pc]
      = { s.tiers.near[stackOf pc] with err := errBits bay row kind (unitIndex (.near pc)) true } :=
  modStack_self s (stackOf pc) fun x => { x with err := errBits bay row kind (unitIndex (.near pc)) true }

theorem unitErr_serai (s : State) (ch : Fin 24) (bay : BitVec 10) (row : BitVec 18) (kind : BitVec 8) :
    (s.unitErr (.serai ch) bay row kind).tiers.serai[ch]
      = { s.tiers.serai[ch] with err := errBits bay row kind (unitIndex (.serai ch)) (bayGuarded s bay.toNat) } :=
  modChannel_self s ch fun x => { x with err := errBits bay row kind (unitIndex (.serai ch)) (bayGuarded s bay.toNat) }

theorem unitErr_log (s : State) (u : MemUnit) (bay : BitVec 10) (row : BitVec 18) (kind : BitVec 8) :
    (s.unitErr u bay row kind).log = s.log := by
  cases u <;> rfl

theorem errBits_kind (bay : BitVec 10) (row : BitVec 18) (kind : BitVec 8) (unit : BitVec 16) (guarded : Bool) :
    fld (errBits bay row kind unit guarded) 48 8 = kind := by
  unfold errBits fld
  iterate 6 rw [BitVec.extractLsb'_append_eq_of_le (by decide)]
  rw [BitVec.extractLsb'_append_eq_of_add_le (by decide)]
  simp
end Sys2Proof.Machine
end

section
/-! PROOFS. Errors of memory units: what is counted, and the repeat read of an uncorrectable location (R283 to R287). -/

namespace Sys2Proof.Machine

open Sys2Proof.Safety

variable {s t : State} {l : List Part} {u : MemUnit} {e : SymbolErrors} {bay : BitVec 10} {row : BitVec 18}

/-! ### The commands -/

theorem exec_memCorrected_eq : exec (.memCorrected u e) s
    = .next (if unitServes s u && classify u e == .correctable then s.corrected u e.length else s) := rfl

theorem exec_memUncorrectable_eq : exec (.memUncorrectable u bay ⟨row, e⟩) s
    = .next (if unitServes s u && classify u e == .uncorrectable then s.scheduleRepeat u bay row else s) := rfl

/-- A unit that does not serve is not read. -/
theorem exec_errors_of_not_serves (h : unitServes s u = false) :
    exec (.memCorrected u e) s = .next s ∧ exec (.patrolScrub u e) s = .next s
      ∧ exec (.memUncorrectable u bay ⟨row, e⟩) s = .next s := by
  refine ⟨?_, ?_, ?_⟩
  · simp [exec_memCorrected_eq, h]
  · change execPatrolScrub u e s = _
    simp [execPatrolScrub, h]
  · simp [exec_memUncorrectable_eq, h]

theorem exec_memCorrected_of_ne (h : classify u e ≠ .correctable) : exec (.memCorrected u e) s = .next s := by
  simp [exec_memCorrected_eq, h]

theorem exec_memUncorrectable_of_ne (h : classify u e ≠ .uncorrectable) :
    exec (.memUncorrectable u bay ⟨row, e⟩) s = .next s := by
  simp [exec_memUncorrectable_eq, h]

theorem exec_memCorrected (hs : unitServes s u = true) (h : classify u e = .correctable) :
    exec (.memCorrected u e) s = .next (s.corrected u e.length) := by
  simp [exec_memCorrected_eq, hs, h]

theorem exec_memUncorrectable (hs : unitServes s u = true) (h : classify u e = .uncorrectable) :
    exec (.memUncorrectable u bay ⟨row, e⟩) s = .next (s.scheduleRepeat u bay row) := by
  simp [exec_memUncorrectable_eq, hs, h]

/-! ### Counted symbols and reads (R285) -/

theorem unchanged_corrected (n : Nat) (hu : unitPart u ∈ l) (h : Unchanged s t l) : Unchanged s (t.corrected u n) l := by
  cases u with
  | near pc => exact unchanged_modStack _ hu h
  | serai ch => exact unchanged_modChannel _ hu h

theorem unchanged_countUncorrectable (hu : unitPart u ∈ l) (h : Unchanged s t l) :
    Unchanged s (t.countUncorrectable u) l := by
  cases u with
  | near pc => exact unchanged_modStack _ hu h
  | serai ch => exact unchanged_modChannel _ hu h

theorem corrected_near (s : State) (pc : Fin 256) (n : Nat) : ∃ recent,
    (s.corrected (.near pc) n).tiers.near[stackOf pc]
      = { s.tiers.near[stackOf pc] with ce := satAdd s.tiers.near[stackOf pc].ce n, recent := recent } :=
  ⟨_, modStack_self s _ _⟩

theorem corrected_serai (s : State) (ch : Fin 24) (n : Nat) : ∃ recent,
    (s.corrected (.serai ch) n).tiers.serai[ch]
      = { s.tiers.serai[ch] with ce := satAdd s.tiers.serai[ch].ce n, recent := recent } :=
  ⟨_, modChannel_self s _ _⟩

theorem corrected_repeatReads (s : State) (u : MemUnit) (n : Nat) :
    (s.corrected u n).tiers.repeatReads = s.tiers.repeatReads := by
  cases u <;> rfl

/-- A location that awaits its repeat read is not scheduled twice. -/
theorem scheduleRepeat_eq (s : State) (u : MemUnit) (bay : BitVec 10) (row : BitVec 18) :
    s.scheduleRepeat u bay row = { s.countUncorrectable u with tiers := { (s.countUncorrectable u).tiers with
      repeatReads := if (u, bay, row) ∈ s.tiers.repeatReads then s.tiers.repeatReads
        else s.tiers.repeatReads ++ [(u, bay, row)] } } := by
  have kept : (s.countUncorrectable u).tiers.repeatReads = s.tiers.repeatReads := by cases u <;> rfl
  unfold State.scheduleRepeat
  simp only [List.contains_iff_mem]
  split
  · rw [← kept]
  · rw [kept]

theorem scheduleRepeat_near (s : State) (pc : Fin 256) (bay : BitVec 10) (row : BitVec 18) :
    (s.scheduleRepeat (.near pc) bay row).tiers.near[stackOf pc]
      = { s.tiers.near[stackOf pc] with ue := satAdd s.tiers.near[stackOf pc].ue 1 } := by
  rw [scheduleRepeat_eq]
  exact modStack_self s (stackOf pc) fun x => { x with ue := satAdd x.ue 1 }

theorem scheduleRepeat_serai (s : State) (ch : Fin 24) (bay : BitVec 10) (row : BitVec 18) :
    (s.scheduleRepeat (.serai ch) bay row).tiers.serai[ch]
      = { s.tiers.serai[ch] with ue := satAdd s.tiers.serai[ch].ue 1 } := by
  rw [scheduleRepeat_eq]
  exact modChannel_self s ch fun x => { x with ue := satAdd x.ue 1 }

theorem scheduleRepeat_repeatReads (s : State) (u : MemUnit) (bay : BitVec 10) (row : BitVec 18) :
    (s.scheduleRepeat u bay row).tiers.repeatReads
      = if (u, bay, row) ∈ s.tiers.repeatReads then s.tiers.repeatReads else s.tiers.repeatReads ++ [(u, bay, row)] := by
  rw [scheduleRepeat_eq]

/-- The reads that are scheduled and the units that are FAILING stand with the groups. -/
theorem unchanged_set_repeatReads (x : List (MemUnit × BitVec 10 × BitVec 18)) (hg : Part.groups ∈ l) (h : Unchanged s t l) :
    Unchanged s { t with tiers := { t.tiers with repeatReads := x } } l := by
  intro p hp
  have h0 := h p hp
  cases p with
  | groups => exact absurd hg hp
  | _ => exact h0

theorem unchanged_scheduleRepeat (bay : BitVec 10) (row : BitVec 18) (hu : unitPart u ∈ l) (hg : Part.groups ∈ l)
    (h : Unchanged s t l) : Unchanged s (t.scheduleRepeat u bay row) l := by
  rw [scheduleRepeat_eq]
  exact unchanged_set_repeatReads _ hg (unchanged_countUncorrectable hu h)

/-! ### Any read with errors (R285, R287) -/

/-- The state after a read of a location with errors of any class. -/
def State.readErrors (s : State) (u : MemUnit) (e : SymbolErrors) (bay : BitVec 10) (row : BitVec 18) : State :=
  match classify u e with
  | .clean => s
  | .correctable => s.corrected u e.length
  | .uncorrectable => s.scheduleRepeat u bay row

theorem unchanged_readErrors (e : SymbolErrors) (bay : BitVec 10) (row : BitVec 18) (hu : unitPart u ∈ l) (hg : Part.groups ∈ l)
    (h : Unchanged s t l) : Unchanged s (t.readErrors u e bay row) l := by
  unfold State.readErrors
  split
  · exact h
  · exact unchanged_corrected _ hu h
  · exact unchanged_scheduleRepeat bay row hu hg h

theorem readErrors_near (s : State) (pc : Fin 256) (e : SymbolErrors) (bay : BitVec 10) (row : BitVec 18) :
    let c := classify (.near pc) e
    let x := s.tiers.near[stackOf pc]
    ∃ recent, (s.readErrors (.near pc) e bay row).tiers.near[stackOf pc] = { x with
      ce := if c = .correctable then satAdd x.ce e.length else x.ce
      ue := if c = .uncorrectable then satAdd x.ue 1 else x.ue
      recent := recent } := by
  intro c x
  unfold State.readErrors
  cases hc : classify (.near pc) e with
  | clean => exact ⟨x.recent, by simp [c, hc, x]⟩
  | correctable => simpa [c, hc, x] using corrected_near s pc e.length
  | uncorrectable => exact ⟨x.recent, by simpa [c, hc, x] using scheduleRepeat_near s pc bay row⟩

theorem readErrors_serai (s : State) (ch : Fin 24) (e : SymbolErrors) (bay : BitVec 10) (row : BitVec 18) :
    let c := classify (.serai ch) e
    let x := s.tiers.serai[ch]
    ∃ recent, (s.readErrors (.serai ch) e bay row).tiers.serai[ch] = { x with
      ce := if c = .correctable then satAdd x.ce e.length else x.ce
      ue := if c = .uncorrectable then satAdd x.ue 1 else x.ue
      recent := recent } := by
  intro c x
  unfold State.readErrors
  cases hc : classify (.serai ch) e with
  | clean => exact ⟨x.recent, by simp [c, hc, x]⟩
  | correctable => simpa [c, hc, x] using corrected_serai s ch e.length
  | uncorrectable => exact ⟨x.recent, by simpa [c, hc, x] using scheduleRepeat_serai s ch bay row⟩

theorem mem_readErrors_repeatReads (s : State) (bay : BitVec 10) (row : BitVec 18) (h : classify u e = .uncorrectable) :
    (u, bay, row) ∈ (s.readErrors u e bay row).tiers.repeatReads := by
  simp only [State.readErrors, h, scheduleRepeat_repeatReads]
  split
  · assumption
  · simp

theorem readErrors_repeatReads (s : State) (bay : BitVec 10) (row : BitVec 18) (h : classify u e ≠ .uncorrectable) :
    (s.readErrors u e bay row).tiers.repeatReads = s.tiers.repeatReads := by
  unfold State.readErrors
  split
  · rfl
  · exact corrected_repeatReads s u _
  · next bad => exact absurd bad h

/-! ### What is counted and scheduled -/

theorem runs_memCorrected_near {pc : Fin 256} (hs : unitServes s (.near pc) = true)
    (h : classify (.near pc) e = .correctable) : Runs (.memCorrected (.near pc) e) s fun t =>
      t.tiers.near[stackOf pc].ce = satAdd s.tiers.near[stackOf pc].ce e.length
      ∧ t.tiers.near[stackOf pc].ue = s.tiers.near[stackOf pc].ue ∧ Unchanged s t [.stack (stackOf pc)] := by
  obtain ⟨recent, stack⟩ := corrected_near s pc e.length
  exact runs_of_exec (exec_memCorrected hs h) ⟨by rw [stack], by rw [stack],
    unchanged_corrected _ (by simp [unitPart]) (unchanged_refl s _)⟩

theorem runs_memCorrected_serai {ch : Fin 24} (hs : unitServes s (.serai ch) = true)
    (h : classify (.serai ch) e = .correctable) : Runs (.memCorrected (.serai ch) e) s fun t =>
      t.tiers.serai[ch].ce = satAdd s.tiers.serai[ch].ce e.length
      ∧ t.tiers.serai[ch].ue = s.tiers.serai[ch].ue ∧ Unchanged s t [.channel ch] := by
  obtain ⟨recent, channel⟩ := corrected_serai s ch e.length
  exact runs_of_exec (exec_memCorrected hs h) ⟨by rw [channel], by rw [channel],
    unchanged_corrected _ (by simp [unitPart]) (unchanged_refl s _)⟩

/-- An uncorrectable read is counted, and its location scheduled where it is not yet. -/
theorem runs_memUncorrectable (hs : unitServes s u = true) (h : classify u e = .uncorrectable)
    (new : (u, bay, row) ∉ s.tiers.repeatReads) : Runs (.memUncorrectable u bay ⟨row, e⟩) s fun t =>
      t = s.scheduleRepeat u bay row ∧ t.tiers.repeatReads = s.tiers.repeatReads ++ [(u, bay, row)]
      ∧ Unchanged s t [unitPart u, .groups] :=
  runs_of_exec (exec_memUncorrectable hs h) ⟨rfl, by rw [scheduleRepeat_repeatReads, if_neg new],
    unchanged_scheduleRepeat bay row (by simp) (by simp) (unchanged_refl s _)⟩

/-- A stack whose scrub has read one more block of a unit, at a bay. -/
def scrubbedStack (pc : Fin 256) (bay : BitVec 10) (x : NearStack) : NearStack :=
  let scrubs := x.scrubs.set (inStack pc).val (x.scrubs.get (inStack pc) + 1) (inStack pc).isLt
  let live := (List.finRange 32).filter fun k => x.pcs.get k == 0
  { x with
    scrubbing := true, scrubBay := bay, scrubs := scrubs
    passes := BitVec.ofNat 16 (min 0xFFFF (minOf (live.map fun k => scrubs.get k / pcBlocks) 0xFFFF)) }

/-- A channel whose scrub has read one more block, at a bay. -/
def scrubbedChannel (bay : BitVec 10) (x : SeraiChannel) : SeraiChannel :=
  { x with
    scrubbing := true, scrubBay := bay, scrubs := x.scrubs + 1
    passes := BitVec.ofNat 16 (min 0xFFFF ((x.scrubs + 1) / channelBlocks)) }

theorem exec_patrolScrub_near {pc : Fin 256} (hs : unitServes s (.near pc) = true) (hg : unitGroup s (.near pc) ≠ 3) :
    exec (.patrolScrub (.near pc) e) s = .next ((s.readErrors (.near pc) e (scrubRow s (.near pc)).1
      (scrubRow s (.near pc)).2).modStack (stackOf pc) (scrubbedStack pc (scrubRow s (.near pc)).1)) := by
  change execPatrolScrub (.near pc) e s = _
  simp only [execPatrolScrub, hs, hg, Bool.not_true, Bool.false_or, beq_iff_eq, if_false]
  rfl

theorem exec_patrolScrub_serai {ch : Fin 24} (hs : unitServes s (.serai ch) = true) (hg : unitGroup s (.serai ch) ≠ 3) :
    exec (.patrolScrub (.serai ch) e) s = .next ((s.readErrors (.serai ch) e (scrubRow s (.serai ch)).1
      (scrubRow s (.serai ch)).2).modChannel ch (scrubbedChannel (scrubRow s (.serai ch)).1)) := by
  change execPatrolScrub (.serai ch) e s = _
  simp only [execPatrolScrub, hs, hg, Bool.not_true, Bool.false_or, beq_iff_eq, if_false]
  rfl

theorem runs_patrolScrub_near {pc : Fin 256} (hs : unitServes s (.near pc) = true) (hg : unitGroup s (.near pc) ≠ 3) :
    let u := MemUnit.near pc
    let x := s.tiers.near[stackOf pc]
    Runs (.patrolScrub u e) s fun t =>
      let y := t.tiers.near[stackOf pc]
      y.scrubs.get (inStack pc) = x.scrubs.get (inStack pc) + 1 ∧ y.scrubbing = true ∧ y.scrubBay = (scrubRow s u).1
      ∧ y.pcs = x.pcs ∧ y.ce = (if classify u e = .correctable then satAdd x.ce e.length else x.ce)
      ∧ y.ue = (if classify u e = .uncorrectable then satAdd x.ue 1 else x.ue)
      ∧ (classify u e = .uncorrectable → (u, (scrubRow s u).1, (scrubRow s u).2) ∈ t.tiers.repeatReads)
      ∧ (classify u e ≠ .uncorrectable → t.tiers.repeatReads = s.tiers.repeatReads)
      ∧ Unchanged s t [.stack (stackOf pc), .groups] := by
  intro u x
  obtain ⟨recent, read⟩ := readErrors_near s pc e (scrubRow s u).1 (scrubRow s u).2
  have stack := modStack_self (s.readErrors u e (scrubRow s u).1 (scrubRow s u).2) (stackOf pc) (scrubbedStack pc (scrubRow s u).1)
  rw [read] at stack
  refine runs_of_exec (exec_patrolScrub_near hs hg) ⟨?_, by rw [stack]; rfl, by rw [stack]; rfl, by rw [stack]; rfl,
    by rw [stack]; rfl, by rw [stack]; rfl, mem_readErrors_repeatReads s _ _, readErrors_repeatReads s _ _, ?_⟩
  · rw [stack]
    simp [scrubbedStack, Vector.get_eq_getElem, x]
  · exact unchanged_modStack _ (by simp) (unchanged_readErrors e _ _ (by simp [unitPart]) (by simp) (unchanged_refl s _))

theorem runs_patrolScrub_serai {ch : Fin 24} (hs : unitServes s (.serai ch) = true) (hg : unitGroup s (.serai ch) ≠ 3) :
    let u := MemUnit.serai ch
    let x := s.tiers.serai[ch]
    Runs (.patrolScrub u e) s fun t =>
      let y := t.tiers.serai[ch]
      y.scrubs = x.scrubs + 1 ∧ y.scrubbing = true ∧ y.scrubBay = (scrubRow s u).1 ∧ y.state = x.state
      ∧ y.ce = (if classify u e = .correctable then satAdd x.ce e.length else x.ce)
      ∧ y.ue = (if classify u e = .uncorrectable then satAdd x.ue 1 else x.ue)
      ∧ (classify u e = .uncorrectable → (u, (scrubRow s u).1, (scrubRow s u).2) ∈ t.tiers.repeatReads)
      ∧ (classify u e ≠ .uncorrectable → t.tiers.repeatReads = s.tiers.repeatReads)
      ∧ Unchanged s t [.channel ch, .groups] := by
  intro u x
  obtain ⟨recent, read⟩ := readErrors_serai s ch e (scrubRow s u).1 (scrubRow s u).2
  have channel := modChannel_self (s.readErrors u e (scrubRow s u).1 (scrubRow s u).2) ch (scrubbedChannel (scrubRow s u).1)
  rw [read] at channel
  refine runs_of_exec (exec_patrolScrub_serai hs hg) ⟨by rw [channel]; rfl, by rw [channel]; rfl, by rw [channel]; rfl,
    by rw [channel]; rfl, by rw [channel]; rfl, by rw [channel]; rfl, mem_readErrors_repeatReads s _ _,
    readErrors_repeatReads s _ _, ?_⟩
  exact unchanged_modChannel _ (by simp) (unchanged_readErrors e _ _ (by simp [unitPart]) (by simp) (unchanged_refl s _))

/-! ### The repeat read (R285) -/

/-- The repeat read of a location: 200 ns later, and no longer scheduled. -/
def State.secondRead (s : State) (u : MemUnit) (bay : BitVec 10) (row : BitVec 18) : State :=
  let s1 := s.atTime (s.time + 200)
  { s1 with tiers := { s1.tiers with repeatReads := s1.tiers.repeatReads.erase (u, bay, row) } }

theorem unchanged_secondRead (u : MemUnit) (bay : BitVec 10) (row : BitVec 18) (ht : Part.time ∈ l) (hg : Part.groups ∈ l) :
    Unchanged s (s.secondRead u bay row) l :=
  unchanged_set_repeatReads _ hg (unchanged_atTime _ ht (unchanged_refl s l))

theorem exec_memRepeatRead_right (h : (u, bay, row) ∈ s.tiers.repeatReads) (hc : classify u e ≠ .uncorrectable) :
    exec (.memRepeatRead u bay row e) s = .next ((s.secondRead u bay row).transient u bay row) := by
  change execMemRepeatRead u bay row e s = _
  simp only [execMemRepeatRead, List.contains_iff_mem.mpr h, Bool.not_true, Bool.false_eq_true, if_false]
  split
  · rfl
  · rfl
  · next bad => exact absurd bad hc

theorem exec_memRepeatRead_wrong (h : (u, bay, row) ∈ s.tiers.repeatReads) (hc : classify u e = .uncorrectable) :
    exec (.memRepeatRead u bay row e) s = .next ((if rawRow s u bay then (s.secondRead u bay row).rawReturned u bay row
      else s.secondRead u bay row).retireUnit u bay row 0x0903) := by
  change execMemRepeatRead u bay row e s = _
  simp only [execMemRepeatRead, List.contains_iff_mem.mpr h, Bool.not_true, Bool.false_eq_true, if_false, hc]
  rfl

/-- A unit whose error proved a transient: counted, and shown in its error register. -/
def State.countTransient (s : State) (u : MemUnit) (bay : BitVec 10) (row : BitVec 18) : State :=
  (match u with
    | .near pc => s.modStack (stackOf pc) fun t => { t with transient := satAdd t.transient 1 }
    | .serai ch => s.modChannel ch fun c => { c with transient := satAdd c.transient 1 }).unitErr u bay row 0x02

theorem transient_eq (s : State) (u : MemUnit) (bay : BitVec 10) (row : BitVec 18) :
    s.transient u bay row = (s.countTransient u bay row).recordPause (unitRec u 0x0902 clsTransient) := by
  cases u <;> rfl

theorem unchanged_countTransient (bay : BitVec 10) (row : BitVec 18) (hu : unitPart u ∈ l) (h : Unchanged s t l) :
    Unchanged s (t.countTransient u bay row) l := by
  cases u with
  | near pc => exact unchanged_modStack _ hu (unchanged_modStack _ hu h)
  | serai ch => exact unchanged_modChannel _ hu (unchanged_modChannel _ hu h)

theorem recordPause_tiers (s : State) (r : Rec) : (s.recordPause r).tiers = s.tiers := record_tiers _ _

/-- What a transient leaves of the unit's group and of what is scheduled, and what it records. -/
theorem unchanged_transient (bay : BitVec 10) (row : BitVec 18) (hu : unitPart u ∈ l) (hf : Part.free ∈ l)
    (hm : Part.log ∈ l) (ho : Part.out ∈ l) (h : Unchanged s t l) : Unchanged s (t.transient u bay row) l := by
  rw [transient_eq]
  exact unchanged_recordPause _ hf hm ho (unchanged_countTransient bay row hu h)

theorem transient_near (s : State) (pc : Fin 256) (bay : BitVec 10) (row : BitVec 18) :
    (s.transient (.near pc) bay row).tiers.near[stackOf pc] = { s.tiers.near[stackOf pc] with
      transient := satAdd s.tiers.near[stackOf pc].transient 1, err := errBits bay row 0x02 (unitIndex (.near pc)) true } := by
  rw [transient_eq, recordPause_tiers, State.countTransient, unitErr_near, modStack_self]

theorem transient_serai (s : State) (ch : Fin 24) (bay : BitVec 10) (row : BitVec 18) :
    (s.transient (.serai ch) bay row).tiers.serai[ch] = { s.tiers.serai[ch] with
      transient := satAdd s.tiers.serai[ch].transient 1
      err := errBits bay row 0x02 (unitIndex (.serai ch)) (bayGuarded s bay.toNat) } := by
  rw [transient_eq, recordPause_tiers, State.countTransient, unitErr_serai, modChannel_self]
  rfl

theorem recorded_transient (s : State) (u : MemUnit) (bay : BitVec 10) (row : BitVec 18) :
    Recorded s (s.transient u bay row) 0x0902 := by
  have log : (s.countTransient u bay row).log = s.log := by cases u <;> rfl
  rw [transient_eq]
  exact recorded_recordPause _ (by rw [log]) (by rw [log])

theorem runs_memRepeatRead_right (h : (u, bay, row) ∈ s.tiers.repeatReads) (hc : classify u e ≠ .uncorrectable) :
    Runs (.memRepeatRead u bay row e) s fun t =>
      t.time = maxU s.time (s.time + 200) ∧ t.tiers.repeatReads = s.tiers.repeatReads.erase (u, bay, row)
      ∧ (∀ pc, u = .near pc → t.tiers.near[stackOf pc].transient = satAdd s.tiers.near[stackOf pc].transient 1
          ∧ fld t.tiers.near[stackOf pc].err 48 8 = 0x02
          ∧ Unchanged s t [.time, .free, .out, .log, .groups, .stack (stackOf pc)])
      ∧ (∀ ch, u = .serai ch → t.tiers.serai[ch].transient = satAdd s.tiers.serai[ch].transient 1
          ∧ fld t.tiers.serai[ch].err 48 8 = 0x02
          ∧ Unchanged s t [.time, .free, .out, .log, .groups, .channel ch])
      ∧ Recorded s t 0x0902 ∧ unitGroup t u = unitGroup s u := by
  have counted : Unchanged (s.secondRead u bay row) ((s.secondRead u bay row).transient u bay row)
      [.free, .out, .log, unitPart u] :=
    unchanged_transient bay row (by simp) (by simp) (by simp) (by simp) (unchanged_refl _ _)
  have frame : Unchanged s ((s.secondRead u bay row).transient u bay row) [.time, .free, .out, .log, .groups, unitPart u] :=
    unchanged_transient bay row (by simp) (by simp) (by simp) (by simp) (unchanged_secondRead u bay row (by simp) (by simp))
  have unnamed : Part.groups ∉ [.free, .out, .log, unitPart u] ∧ Part.time ∉ [.free, .out, .log, unitPart u] := by
    cases u <;> simp [unitPart]
  obtain ⟨-, -, -, -, -, reads, -⟩ := counted .groups unnamed.1
  refine runs_of_exec (exec_memRepeatRead_right h hc) ⟨counted .time unnamed.2, reads, ?_, ?_, recorded_transient _ u bay row,
    unitGroup_congr (groupStates_of_unchanged counted unnamed.1) u⟩
  · rintro pc rfl
    have stack := transient_near (s.secondRead (.near pc) bay row) pc bay row
    exact ⟨by rw [stack]; rfl, by rw [stack]; exact errBits_kind _ _ _ _ _, frame⟩
  · rintro ch rfl
    have channel := transient_serai (s.secondRead (.serai ch) bay row) ch bay row
    exact ⟨by rw [channel]; rfl, by rw [channel]; exact errBits_kind _ _ _ _ _, frame⟩

/-- Settles O48: each read with errors comes down to the registers of its unit, and to the list of scheduled reads. -/
theorem errorsAreCountedAndRepeated : Obligations.ErrorsAreCountedAndRepeated := by
  intro s e
  refine ⟨fun u bay row => ⟨exec_errors_of_not_serves, exec_memCorrected_of_ne, exec_memUncorrectable_of_ne⟩,
    fun pc serves => ⟨runs_memCorrected_near serves, fun bay row bad new => ?_, runs_patrolScrub_near serves⟩,
    fun ch serves => ⟨runs_memCorrected_serai serves, fun bay row bad new => ?_, runs_patrolScrub_serai serves⟩,
    fun u bay row => runs_memRepeatRead_right⟩
  · obtain ⟨t, ran, rfl, reads, frame⟩ := runs_memUncorrectable serves bad new
    exact ⟨_, ran, scheduleRepeat_near s pc bay row, reads, frame⟩
  · obtain ⟨t, ran, rfl, reads, frame⟩ := runs_memUncorrectable serves bad new
    exact ⟨_, ran, scheduleRepeat_serai s ch bay row, reads, frame⟩

end Sys2Proof.Machine
end

section
/-! PROOFS. Units that fail: FAILING, and the state of their group (R285, R286, R290, R292). -/

namespace Sys2Proof.Machine

open Sys2Proof.Safety

variable {s t : State} {l : List Part} {u : MemUnit} {bay : BitVec 10} {row : BitVec 18} {reason : Reason}

/-! ### The groups' states and rebuilds -/

theorem unchanged_setGroup (u : MemUnit) (g : BitVec 2) (hg : Part.groups ∈ l) (h : Unchanged s t l) :
    Unchanged s (t.setGroup u g) l := by
  intro p hp
  have h0 := h p hp
  cases p with
  | groups => exact absurd hg hp
  | _ => cases u <;> exact h0

theorem unchanged_setRebuild (u : MemUnit) (r : Rebuild) (hg : Part.groups ∈ l) (h : Unchanged s t l) :
    Unchanged s (t.setRebuild u r) l := by
  intro p hp
  have h0 := h p hp
  cases p with
  | groups => exact absurd hg hp
  | _ => cases u <;> exact h0

theorem unitStates_setGroup (s : State) (u : MemUnit) (g : BitVec 2) : unitStates (s.setGroup u g) = unitStates s := by
  cases u <;> rfl

theorem unitStates_setRebuild (s : State) (u : MemUnit) (r : Rebuild) : unitStates (s.setRebuild u r) = unitStates s := by
  cases u <;> rfl

theorem unitGroup_setGroup (s : State) (u : MemUnit) (g : BitVec 2) : unitGroup (s.setGroup u g) u = g := by
  cases u with
  | near pc => simp [unitGroup, groupState_near, State.setGroup]
  | serai ch => rfl

theorem groupStates_setRebuild (s : State) (u : MemUnit) (r : Rebuild) : groupStates (s.setRebuild u r) = groupStates s := by
  cases u <;> rfl

theorem rebuildOf_setRebuild (s : State) (u : MemUnit) (r : Rebuild) : rebuildOf (s.setRebuild u r).tiers u = r := by
  cases u with
  | near pc => simp [rebuildOf_near, State.setRebuild]
  | serai ch => rfl

/-! ### A unit that is FAILING or RETIRED (R290) -/

theorem unchanged_setUnit (v : BitVec 2) (hu : unitPart u ∈ l) (h : Unchanged s t l) : Unchanged s (t.setUnit u v) l := by
  cases u with
  | near pc => exact unchanged_modStack _ hu h
  | serai ch =>
    unfold State.setUnit
    simp only []
    split
    · exact unchanged_modChannel _ hu h
    · exact h

/-- A unit is marked FAILING, and listed until it reaches the last step of its retirement. -/
def State.markFailing (s : State) (f : FailingUnit) : State :=
  let s1 := s.setUnit f.unit 1
  { s1 with tiers := { s1.tiers with failing := s1.tiers.failing ++ [f] } }

theorem unchanged_set_failing (x : List FailingUnit) (hg : Part.groups ∈ l) (h : Unchanged s t l) :
    Unchanged s { t with tiers := { t.tiers with failing := x } } l := by
  intro p hp
  have h0 := h p hp
  cases p with
  | groups => exact absurd hg hp
  | _ => exact h0

theorem unchanged_markFailing (f : FailingUnit) (hu : unitPart f.unit ∈ l) (hg : Part.groups ∈ l) (h : Unchanged s t l) :
    Unchanged s (t.markFailing f) l :=
  unchanged_set_failing _ hg (unchanged_setUnit 1 hu h)

theorem unitServes_setUnit_near (s : State) (pc : Fin 256) {v : BitVec 2} (hv : v ≠ 0) :
    unitServes (s.setUnit (.near pc) v) (.near pc) = false := by
  have stack : (s.setUnit (.near pc) v).tiers.near[stackOf pc]
      = { s.tiers.near[stackOf pc] with pcs := s.tiers.near[stackOf pc].pcs.set (inStack pc).val v (inStack pc).isLt } :=
    modStack_self s (stackOf pc) fun t => { t with pcs := t.pcs.set (inStack pc).val v (inStack pc).isLt }
  simp only [unitServes, serves, pcState_eq, stack]
  simpa using hv

/-- A channel that is RETIRED serves no more. -/
theorem unitServes_setUnit_serai (s : State) (ch : Fin 24) : unitServes (s.setUnit (.serai ch) 2) (.serai ch) = false := by
  have channel : (s.setUnit (.serai ch) 2).tiers.serai[ch] = { s.tiers.serai[ch] with state := 4, scrubbing := false } :=
    modChannel_self s ch fun c => { c with state := 4, scrubbing := false }
  simp only [unitServes, serves, chLost, chState_eq, channel]
  rfl

theorem unitServes_setUnit_retired (s : State) (u : MemUnit) : unitServes (s.setUnit u 2) u = false := by
  cases u with
  | near pc => exact unitServes_setUnit_near s pc (by decide)
  | serai ch => exact unitServes_setUnit_serai s ch

theorem unitServes_markFailing (s : State) (f : FailingUnit) : unitServes (s.markFailing f) f.unit = false := by
  obtain ⟨u, bay, row, reason⟩ := f
  cases u with
  | near pc => exact unitServes_setUnit_near s pc (by decide)
  | serai ch => simp [unitServes, serves, State.markFailing]

theorem markFailing_failing (s : State) (f : FailingUnit) : (s.markFailing f).tiers.failing = s.tiers.failing ++ [f] := by
  obtain ⟨u, bay, row, reason⟩ := f
  cases u <;> rfl

theorem markFailing_repeatReads (s : State) (f : FailingUnit) : (s.markFailing f).tiers.repeatReads = s.tiers.repeatReads := by
  obtain ⟨u, bay, row, reason⟩ := f
  cases u <;> rfl

theorem groupStates_markFailing (s : State) (f : FailingUnit) : groupStates (s.markFailing f) = groupStates s := by
  obtain ⟨u, bay, row, reason⟩ := f
  cases u <;> rfl

theorem markFailing_log (s : State) (f : FailingUnit) : (s.markFailing f).log = s.log := by
  obtain ⟨u, bay, row, reason⟩ := f
  cases u <;> rfl

/-! ### A group that fails (R292) -/

/-- A module fault records once; the causes of the marches leave the log. -/
theorem moduleFault_log (s : State) (r : Rec) : (s.moduleFault r).log = (s.record { r with cls := clsModule }).log :=
  unchanged_forEach (l := .out :: allStalls.map (Part.stall · .seq)) _ _
    (fun _ i hu => unchanged_cause _ _ (by simp) (by simp [mem_allStalls]) hu) (unchanged_refl _ _) .log (by simp)

theorem moduleFault_tiers (s : State) (r : Rec) : (s.moduleFault r).tiers = s.tiers := by
  have frame : Unchanged s (s.moduleFault r) ([.out, .log] ++ allStalls.map (Part.stall · .seq)) :=
    unchanged_moduleFault r (by simp) (by simp) (by simp [mem_allStalls]) (unchanged_refl s _)
  exact Unchanged.tiers_eq frame (by simp) (by simp) (by simp) (by simp)

/-- The patrol scrub of a tier ends; the near stacks show the failed group (R287, R292). -/
def State.scrubsStop (s : State) (u : MemUnit) : State :=
  match u with
  | .near _ => forEach (List.finRange 8) s fun s k => s.modStack k fun t => { t with state := 4, scrubbing := false }
  | .serai _ => forEach (List.finRange 24) s fun s k => s.modChannel k fun c => { c with scrubbing := false }

theorem groupFailed_eq (s : State) (u : MemUnit) (bay : BitVec 10) (row : BitVec 18) : s.groupFailed u bay row
    = ((((s.setGroup u 3).setRebuild u { rebuildOf s.tiers u with active := false }).scrubsStop u).unitErr u bay row 0x05).moduleFault
        (unitRec u 0x0905 clsModule) := by
  cases u <;> rfl

theorem unchanged_scrubsStop (u : MemUnit) (hn : ∀ k, Part.stack k ∈ l) (hc : ∀ k, Part.channel k ∈ l) (h : Unchanged s t l) :
    Unchanged s (t.scrubsStop u) l := by
  cases u with
  | near pc => exact unchanged_forEach _ _ (fun _ k hu => unchanged_modStack _ (hn k) hu) h
  | serai ch => exact unchanged_forEach _ _ (fun _ k hu => unchanged_modChannel _ (hc k) hu) h

/-- What every update of a stack or of a channel keeps, the end of the scrub keeps. -/
theorem scrubsStop_keeps {β : Type} (v : State → β) (s : State) (u : MemUnit)
    (near : ∀ w k, v (w.modStack k fun t => { t with state := 4, scrubbing := false }) = v w)
    (serai : ∀ w k, v (w.modChannel k fun c => { c with scrubbing := false }) = v w) : v (s.scrubsStop u) = v s := by
  cases u with
  | near pc =>
    exact forEach_keeps (List.finRange 8) (fun s k => s.modStack k fun t => { t with state := 4, scrubbing := false }) v near s
  | serai ch =>
    exact forEach_keeps (List.finRange 24) (fun s k => s.modChannel k fun c => { c with scrubbing := false }) v serai s

theorem unitStates_scrubsStop (s : State) (u : MemUnit) : unitStates (s.scrubsStop u) = unitStates s :=
  scrubsStop_keeps unitStates s u (fun w k => unitStates_modStack w k fun _ => rfl)
    fun w k => unitStates_modChannel w k fun _ => rfl

theorem groupStates_scrubsStop (s : State) (u : MemUnit) : groupStates (s.scrubsStop u) = groupStates s :=
  scrubsStop_keeps groupStates s u (fun _ _ => rfl) fun _ _ => rfl

theorem scrubsStop_log (s : State) (u : MemUnit) : (s.scrubsStop u).log = s.log :=
  scrubsStop_keeps State.log s u (fun _ _ => rfl) fun _ _ => rfl

theorem unitStates_congr_tiers (h : t.tiers = s.tiers) : unitStates t = unitStates s := by
  rw [unitStates, h, unitStates]

theorem groupStates_congr_tiers (h : t.tiers = s.tiers) : groupStates t = groupStates s := by
  rw [groupStates, h, groupStates]

theorem groupStates_unitErr (s : State) (u : MemUnit) (bay : BitVec 10) (row : BitVec 18) (kind : BitVec 8) :
    groupStates (s.unitErr u bay row kind) = groupStates s := by
  cases u <;> rfl

theorem unitStates_groupFailed (s : State) (u : MemUnit) (bay : BitVec 10) (row : BitVec 18) :
    unitStates (s.groupFailed u bay row) = unitStates s := by
  rw [groupFailed_eq, unitStates_congr_tiers (moduleFault_tiers _ _), unitStates_unitErr, unitStates_scrubsStop,
    unitStates_setRebuild, unitStates_setGroup]

theorem groupStates_groupFailed (s : State) (u : MemUnit) (bay : BitVec 10) (row : BitVec 18) :
    groupStates (s.groupFailed u bay row) = groupStates (s.setGroup u 3) := by
  rw [groupFailed_eq, groupStates_congr_tiers (moduleFault_tiers _ _), groupStates_unitErr, groupStates_scrubsStop,
    groupStates_setRebuild]

theorem groupFailed_log (s : State) (u : MemUnit) (bay : BitVec 10) (row : BitVec 18) : ∃ b,
    (s.groupFailed u bay row).log = { s.log with ring := (b :: s.log.ring).take 1024, newest := s.log.newest + 1 } := by
  have before : (((s.setGroup u 3).setRebuild u { rebuildOf s.tiers u with active := false }).scrubsStop u).log = s.log := by
    rw [scrubsStop_log]
    cases u with
    | near pc => rfl
    | serai ch => rfl
  rw [groupFailed_eq, moduleFault_log, record_log, unitErr_log, before]
  exact ⟨_, rfl⟩

/-! ### A permanent fault (R285, R290, R292) -/

/-- What a permanent fault may change: the tiers, and what a module fault reaches. -/
def failParts : List Part :=
  [.log, .out, .groups] ++ (List.finRange 8).map Part.stack ++ (List.finRange 24).map Part.channel
    ++ allStalls.map (Part.stall · .seq)

theorem unitPart_failParts (u : MemUnit) : unitPart u ∈ failParts := by
  cases u <;> simp [unitPart, failParts]

theorem unchanged_groupFailed (u : MemUnit) (bay : BitVec 10) (row : BitVec 18) (h : Unchanged s t failParts) :
    Unchanged s (t.groupFailed u bay row) failParts := by
  rw [groupFailed_eq]
  refine unchanged_moduleFault _ (by simp [failParts]) (by simp [failParts]) (by simp [failParts, mem_allStalls]) ?_
  refine unchanged_unitErr u bay row _ (unitPart_failParts u) ?_
  refine unchanged_scrubsStop u (by simp [failParts]) (by simp [failParts]) ?_
  exact unchanged_setRebuild u _ (by simp [failParts]) (unchanged_setGroup u 3 (by simp [failParts]) h)

/-- A unit has become FAILING: it serves no more, and its group has lost a unit. Nothing is retired yet, and at most one
record stands before those of the log. -/
structure Fails (s t : State) (f : FailingUnit) : Prop where
  serves : unitServes t f.unit = false
  group : unitGroup t f.unit = if unitGroup s f.unit = 0 then 1 else 3
  failing : t.tiers.failing = [f]
  repeatReads : t.tiers.repeatReads = s.tiers.repeatReads
  retired : t.log.retired = s.log.retired
  ring : t.log.ring = s.log.ring ∨ ∃ b, t.log.ring = (b :: s.log.ring).take 1024
  frame : Unchanged s t failParts

theorem finishRetirements_nil (h : s.tiers.failing = []) : s.finishRetirements = s := by
  have same : ({ s with tiers := { s.tiers with failing := [] } } : State) = s := by rw [← h]
  rw [State.finishRetirements, h, same]
  rfl

theorem fails_retireUnit (hs : unitServes s u = true) (h : s.tiers.failing = []) :
    Fails s (s.retireUnit u bay row reason) ⟨u, bay, row, reason⟩ := by
  let f : FailingUnit := ⟨u, bay, row, reason⟩
  have marked : s.retireUnit u bay row reason = if unitGroup s u = 0 then (s.markFailing f).setGroup u 1
      else if unitGroup s u = 3 then s.markFailing f else (s.markFailing f).groupFailed u bay row := by
    simp only [State.retireUnit, hs, finishRetirements_nil h]
    rfl
  have failing : (s.markFailing f).tiers.failing = [f] := by rw [markFailing_failing, h, List.nil_append]
  have frame : Unchanged s (s.markFailing f) failParts :=
    unchanged_markFailing f (unitPart_failParts u) (by simp [failParts]) (unchanged_refl s _)
  have log := markFailing_log s f
  have idle := unitServes_markFailing s f
  have reads := markFailing_repeatReads s f
  rw [marked]
  split
  · next whole =>
    have states := unitStates_setGroup (s.markFailing f) u 1
    have kept : ((s.markFailing f).setGroup u 1).log = s.log := by
      rw [← log]
      cases u <;> rfl
    refine ⟨(unitServes_congr states u).trans idle, ?_, (failing_of_unitStates states).trans failing,
      (repeatReads_of_unitStates states).trans reads, by rw [kept], .inl (by rw [kept]),
      unchanged_setGroup u 1 (by simp [failParts]) frame⟩
    rw [if_pos whole, unitGroup_setGroup]
  · next broken =>
    split
    · next lost =>
      refine ⟨idle, ?_, failing, reads, by rw [log], .inl (by rw [log]), frame⟩
      rw [if_neg broken, unitGroup_congr (groupStates_markFailing s f)]
      exact lost
    · have states := unitStates_groupFailed (s.markFailing f) u bay row
      obtain ⟨b, recorded⟩ := groupFailed_log (s.markFailing f) u bay row
      refine ⟨(unitServes_congr states u).trans idle, ?_, (failing_of_unitStates states).trans failing,
        (repeatReads_of_unitStates states).trans reads, by rw [recorded, log], .inr ⟨b, by rw [recorded, log]⟩,
        unchanged_groupFailed u bay row frame⟩
      rw [if_neg broken, unitGroup_congr (groupStates_groupFailed _ u bay row), unitGroup_setGroup]

end Sys2Proof.Machine
end

section
/-! PROOFS. The commands that find a permanent fault, and the last step of a retirement (R285, R286, R290, R291, R294). -/

namespace Sys2Proof.Machine

open Sys2Proof.Safety

variable {s t : State} {l : List Part} {u : MemUnit} {bay : BitVec 10} {row : BitVec 18} {reason : Reason}

/-! ### What a unit that fails leaves as it was -/

/-- Where no part of the fabric is named, it stays. -/
theorem Unchanged.fabric_eq (h : Unchanged s t l) (hp : ∀ p, Part.port p ∉ l) (ho : ∀ p, Part.optic p ∉ l)
    (hk : ∀ p, Part.lnk p ∉ l) (hr : Part.relay ∉ l) (hd : Part.delivered ∉ l) (hm : Part.messages ∉ l) :
    t.fabric = s.fabric := by
  have ports : t.fabric.ports = s.fabric.ports := Vector.ext fun p hp' => h (.port ⟨p, hp'⟩) (hp _)
  have optics : t.fabric.optics = s.fabric.optics := Vector.ext fun p hp' => h (.optic ⟨p, hp'⟩) (ho _)
  have links : t.fabric.links = s.fabric.links := Vector.ext fun p hp' => h (.lnk ⟨p, hp'⟩) (hk _)
  have relay : t.fabric.relay = s.fabric.relay := h .relay hr
  obtain ⟨delivered, got⟩ := h .delivered hd
  obtain ⟨inbound, sent⟩ := h .messages hm
  calc t.fabric
    _ = ⟨t.fabric.ports, t.fabric.optics, t.fabric.links, t.fabric.relay, t.fabric.delivered, t.fabric.got,
          t.fabric.inbound, t.fabric.sentMsgs⟩ := rfl
    _ = s.fabric := by rw [ports, optics, links, relay, delivered, got, inbound, sent]

/-- A unit has become FAILING and its group has lost a unit, and neither the memory nor what uses it has changed. -/
def FailingIn (s t : State) (f : FailingUnit) : Prop :=
  unitServes t f.unit = false ∧ unitGroup t f.unit = (if unitGroup s f.unit = 0 then 1 else 3)
  ∧ t.tiers.failing = [f]
  ∧ isRetired t (unitKind f.unit) (unitIndex f.unit).toNat = isRetired s (unitKind f.unit) (unitIndex f.unit).toNat
  ∧ t.mem = s.mem ∧ t.engines = s.engines ∧ t.cores = s.cores ∧ t.fabric = s.fabric ∧ t.hosts = s.hosts
  ∧ ∀ i, (t.stall i).customs = (s.stall i).customs ∧ (t.stall i).ledger = (s.stall i).ledger
      ∧ (t.stall i).settle = (s.stall i).settle

/-- What came before the fault, a report or the repeat read, leaves the rest as it was too. -/
theorem failingIn_of_fails {w : State} {f : FailingUnit} (hw : Unchanged s w (.time :: failParts))
    (group : groupStates w = groupStates s) (retired : w.log.retired = s.log.retired) (h : Fails w t f) : FailingIn s t f := by
  have frame : Unchanged s t (.time :: failParts) := Unchanged.trans hw (Unchanged.mono h.frame fun _ => List.mem_cons_of_mem _)
  refine ⟨h.serves, ?_, h.failing, ?_, frame .mem (by simp [failParts]), Unchanged.engines_eq frame (by simp [failParts]),
    Unchanged.cores_eq frame (by simp [failParts]),
    Unchanged.fabric_eq frame (by simp [failParts]) (by simp [failParts]) (by simp [failParts]) (by simp [failParts])
      (by simp [failParts]) (by simp [failParts]),
    Unchanged.hosts_eq frame (by simp [failParts]), fun i => ⟨frame (.stall i .customs) (by simp [failParts]),
      frame (.stall i .ledger) (by simp [failParts]), frame (.stall i .settle) (by simp [failParts])⟩⟩
  · rw [h.group, unitGroup_congr group]
  · rw [isRetired, isRetired, h.retired, retired]

/-! ### CE_RATE (R285) -/

theorem exec_ceRate_within (h : (recentSymbols s u).2 = 0 ∨ (recentSymbols s u).1 ≤ (recentSymbols s u).2) :
    exec (.ceRate u) s = .next s := by
  change execCeRate u s = _
  obtain off | within := h
  · simp [execCeRate, off]
  · simp [execCeRate, within]

theorem exec_ceRate_over (serves : unitServes s u = true) (on : (recentSymbols s u).2 ≠ 0)
    (above : (recentSymbols s u).2 < (recentSymbols s u).1) : exec (.ceRate u) s
      = .next (((s.unitErr u 0 0 0x01).record (unitRec u 0x0901 clsInfo)).retireUnit u 0 0 0x0901) := by
  change execCeRate u s = _
  simp [execCeRate, on, above, serves]

theorem runs_ceRate_over (serves : unitServes s u = true) (on : (recentSymbols s u).2 ≠ 0)
    (above : (recentSymbols s u).2 < (recentSymbols s u).1) (empty : s.tiers.failing = []) :
    Runs (.ceRate u) s fun t => FailingIn s t ⟨u, 0, 0, 0x0901⟩ ∧ t.time = s.time := by
  let w := (s.unitErr u 0 0 0x01).record (unitRec u 0x0901 clsInfo)
  have frame : Unchanged s w failParts :=
    unchanged_record _ (by simp [failParts]) (by simp [failParts])
      (unchanged_unitErr u 0 0 _ (unitPart_failParts u) (unchanged_refl s _))
  have states : unitStates w = unitStates s := (unitStates_record _ _).trans (unitStates_unitErr s u 0 0 _)
  have groups : groupStates w = groupStates s :=
    (groupStates_congr_tiers (record_tiers _ _)).trans (groupStates_unitErr s u 0 0 _)
  have retired : w.log.retired = s.log.retired := by rw [record_retired, unitErr_log]
  have fails : Fails w (w.retireUnit u 0 0 0x0901) ⟨u, 0, 0, 0x0901⟩ :=
    fails_retireUnit ((unitServes_congr states u).trans serves) ((failing_of_unitStates states).trans empty)
  refine runs_of_exec (exec_ceRate_over serves on above)
    ⟨failingIn_of_fails (Unchanged.mono frame fun _ => List.mem_cons_of_mem _) groups retired fails, ?_⟩
  exact (fails.frame .time (by simp [failParts])).trans (frame .time (by simp [failParts]))

/-! ### A repeat read that is uncorrectable (R285, R286) -/

/-- Raw bits have been returned, where no parity corrects the location. -/
theorem rawReturned_spec (s : State) (u : MemUnit) (bay : BitVec 10) (row : BitVec 18) :
    let w := s.rawReturned u bay row
    unitStates w = unitStates s ∧ groupStates w = groupStates s ∧ w.log.retired = s.log.retired
    ∧ Unchanged s w failParts
    ∧ (unitGroup s u ≠ 3 → ∃ b, w.log.ring = (b :: s.log.ring).take 1024 ∧ fld b 32 16 = 0x0908) := by
  intro w
  by_cases lost : unitGroup s u = 3
  · have kept : w = s := if_pos lost
    rw [kept]
    exact ⟨rfl, rfl, rfl, unchanged_refl s _, fun h => absurd lost h⟩
  · have told : w = (s.unitErr u bay row 0x08).record (unitRec u 0x0908 clsInfo) := if_neg lost
    rw [told]
    refine ⟨(unitStates_record _ _).trans (unitStates_unitErr s u bay row _),
      (groupStates_congr_tiers (record_tiers _ _)).trans (groupStates_unitErr s u bay row _),
      by rw [record_retired, unitErr_log],
      unchanged_record _ (by simp [failParts]) (by simp [failParts])
        (unchanged_unitErr u bay row _ (unitPart_failParts u) (unchanged_refl s _)), fun _ => ?_⟩
    rw [record_log, unitErr_log]
    exact ⟨_, rfl, recBits_reason _ _⟩

/-- The newest record of a log stands in it after one more. -/
theorem Fails.mem_ring {w : State} {f : FailingUnit} {b : BitVec 256} {r : List (BitVec 256)} (h : Fails w t f)
    (hw : w.log.ring = (b :: r).take 1024) : b ∈ t.log.ring := by
  obtain same | ⟨b', one⟩ := h.ring
  · simp [same, hw]
  · simp [one, hw]

/-- The repeat read itself leaves the units' states. -/
theorem unitServes_secondRead {v : MemUnit} : unitServes (s.secondRead u bay row) v = unitServes s v := by
  cases v <;> rfl

theorem runs_memRepeatRead_wrong {e : SymbolErrors} (serves : unitServes s u = true)
    (scheduled : (u, bay, row) ∈ s.tiers.repeatReads) (bad : classify u e = .uncorrectable) (empty : s.tiers.failing = []) :
    Runs (.memRepeatRead u bay row e) s fun t =>
      FailingIn s t ⟨u, bay, row, 0x0903⟩ ∧ t.time = maxU s.time (s.time + 200)
      ∧ t.tiers.repeatReads = s.tiers.repeatReads.erase (u, bay, row)
      ∧ (rawRow s u bay = true → unitGroup s u ≠ 3 → ∃ b ∈ t.log.ring, fld b 32 16 = 0x0908) := by
  let r := s.secondRead u bay row
  let w := if rawRow s u bay then r.rawReturned u bay row else r
  obtain ⟨rawStates, rawGroups, rawRetired, rawFrame, rawRing⟩ := rawReturned_spec r u bay row
  have second : Unchanged s r (.time :: failParts) := unchanged_secondRead u bay row (by simp) (by simp [failParts])
  have states : unitStates w = unitStates r := by
    unfold w
    split
    · exact rawStates
    · rfl
  have groups : groupStates w = groupStates s := by
    unfold w
    split
    · exact rawGroups
    · rfl
  have retired : w.log.retired = s.log.retired := by
    unfold w
    split
    · exact rawRetired
    · rfl
  have frame : Unchanged r w failParts := by
    unfold w
    split
    · exact rawFrame
    · exact unchanged_refl r _
  have fails : Fails w (w.retireUnit u bay row 0x0903) ⟨u, bay, row, 0x0903⟩ :=
    fails_retireUnit ((unitServes_congr states u).trans (unitServes_secondRead.trans serves))
      ((failing_of_unitStates states).trans empty)
  have whole : Unchanged s w (.time :: failParts) :=
    Unchanged.trans second (Unchanged.mono frame fun _ => List.mem_cons_of_mem _)
  refine runs_of_exec (exec_memRepeatRead_wrong scheduled bad) ⟨failingIn_of_fails whole groups retired fails, ?_, ?_, ?_⟩
  · exact (fails.frame .time (by simp [failParts])).trans (frame .time (by simp [failParts]))
  · exact fails.repeatReads.trans (repeatReads_of_unitStates states)
  · intro raw alive
    obtain ⟨b, newest, reason⟩ := rawRing alive
    have returned : w.log.ring = (b :: r.log.ring).take 1024 := by
      rw [← newest]
      simp only [w, raw, if_true]
    exact ⟨b, fails.mem_ring returned, reason⟩

/-! ### The last step of a retirement (R290, R291, R293, R294) -/

theorem unchanged_plainLost (u : MemUnit) (hu : unitPart u ∈ l) (hm : Part.log ∈ l) (ho : Part.out ∈ l) (h : Unchanged s t l) :
    Unchanged s (t.plainLost u) l :=
  unchanged_forEach _ _ (fun _ _ hw => unchanged_forEach _ _ (fun _ _ hx =>
    unchanged_record _ hm ho (unchanged_unitErr u _ _ _ hu hx)) hw) h

theorem plainLost_keeps {β : Type} (v : State → β) (error : ∀ w u bay, v (w.unitErr u bay 0 0x06) = v w)
    (record : ∀ w r, v (w.record r) = v w) (s : State) (u : MemUnit) : v (s.plainLost u) = v s :=
  forEach_keeps _ _ v (fun w _ => forEach_keeps _ _ v (fun x _ => (record _ _).trans (error x _ _)) w) s

/-- What the repeated fit proofs of a tier's stalls may change (R293). -/
def refitsParts : List Part := allStalls.flatMap refitParts

theorem unchanged_refitTier (tier : BitVec 3) (hl : ∀ p ∈ refitsParts, p ∈ l) (h : Unchanged s t l) :
    Unchanged s (t.refitTier tier) l :=
  unchanged_forEach _ _ (fun _ i hw => unchanged_refit (fun q hq =>
    hl q (List.mem_flatMap.mpr ⟨i, mem_allStalls i, hq⟩)) hw) h

/-- A unit is RETIRED and listed, and the PLAIN data of a channel is lost. -/
def State.listRetired (s : State) (f : FailingUnit) : State :=
  let s1 := ((s.setUnit f.unit 2).unitErr f.unit f.bay f.row 0x03).retire (unitKind f.unit) (unitIndex f.unit) f.reason
  match f.unit with
  | .serai _ => s1.plainLost f.unit
  | .near _ => s1

theorem retireNow_eq (s : State) (f : FailingUnit) : s.retireNow f =
    if unitGroup s f.unit = 1 then
      (((s.listRetired f).recordPause (unitRec f.unit 0x0903 clsRetired)).startRebuild f.unit).refitTier (unitTier f.unit)
    else s.listRetired f := by
  obtain ⟨u, bay, row, reason⟩ := f
  cases u <;> rfl

theorem unchanged_listRetired (f : FailingUnit) (hu : unitPart f.unit ∈ l) (hm : Part.log ∈ l) (ho : Part.out ∈ l)
    (h : Unchanged s t l) : Unchanged s (t.listRetired f) l := by
  have listed := unchanged_retire (unitKind f.unit) (unitIndex f.unit) f.reason false hm
    (unchanged_unitErr f.unit f.bay f.row 0x03 hu (unchanged_setUnit 2 hu h))
  unfold State.listRetired
  simp only []
  split
  · exact unchanged_plainLost _ hu hm ho listed
  · exact listed

theorem retire_tiers (s : State) (kind : BitVec 8) (index : BitVec 16) (reason : Reason) :
    (s.retire kind index reason).tiers = s.tiers := by
  unfold State.retire
  split <;> rfl

theorem isRetired_retire (s : State) (kind : BitVec 8) (index : BitVec 16) (reason : Reason) :
    isRetired (s.retire kind index reason) kind index.toNat = true := by
  unfold State.retire
  split
  · next known =>
    obtain ⟨e, he, same⟩ := List.any_eq_true.mp known
    simp only [Bool.and_eq_true, beq_iff_eq] at same
    exact List.any_eq_true.mpr ⟨e, he, by simp [same]⟩
  · simp [isRetired]

theorem isRetired_congr (h : t.log.retired = s.log.retired) (kind : BitVec 8) (index : Nat) :
    isRetired t kind index = isRetired s kind index := by
  rw [isRetired, h, isRetired]

theorem unitStates_plainLost (s : State) (u : MemUnit) : unitStates (s.plainLost u) = unitStates s :=
  plainLost_keeps unitStates (fun w u bay => unitStates_unitErr w u bay 0 0x06) unitStates_record s u

theorem plainLost_retired (s : State) (u : MemUnit) : (s.plainLost u).log.retired = s.log.retired :=
  plainLost_keeps (fun w => w.log.retired) (fun w u bay => congrArg FaultLog.retired (unitErr_log w u bay 0 0x06))
    record_retired s u

/-- A retired unit serves no more, and stands in the list. -/
theorem listRetired_spec (s : State) (f : FailingUnit) :
    unitServes (s.listRetired f) f.unit = false ∧ (s.listRetired f).tiers.failing = s.tiers.failing
      ∧ isRetired (s.listRetired f) (unitKind f.unit) (unitIndex f.unit).toNat = true := by
  have listed (w : State) : unitStates (w.retire (unitKind f.unit) (unitIndex f.unit) f.reason) = unitStates w :=
    unitStates_congr_tiers (retire_tiers w _ _ _)
  have states : unitStates (s.listRetired f) = unitStates (s.setUnit f.unit 2) := by
    unfold State.listRetired
    simp only []
    split
    · rw [unitStates_plainLost, listed, unitStates_unitErr]
    · rw [listed, unitStates_unitErr]
  have failing : (s.setUnit f.unit 2).tiers.failing = s.tiers.failing := by
    cases f.unit <;> rfl
  refine ⟨(unitServes_congr states _).trans (unitServes_setUnit_retired s f.unit),
    (failing_of_unitStates states).trans failing, ?_⟩
  unfold State.listRetired
  simp only []
  split
  · rw [isRetired_congr (plainLost_retired _ _)]
    exact isRetired_retire _ _ _ _
  · exact isRetired_retire _ _ _ _

theorem unitStates_startRebuild (s : State) (u : MemUnit) : unitStates (s.startRebuild u) = unitStates s :=
  unitStates_setRebuild s u _

theorem startRebuild_log (s : State) (u : MemUnit) : (s.startRebuild u).log = s.log := by
  cases u <;> rfl

/-- The group's rebuild runs, for the unit that was retired. -/
theorem rebuildOf_startRebuild (s : State) (u : MemUnit) :
    (rebuildOf (s.startRebuild u).tiers u).active = true ∧ (rebuildOf (s.startRebuild u).tiers u).member = some u := by
  have begun : rebuildOf (s.startRebuild u).tiers u = _ := rebuildOf_setRebuild s u _
  rw [begun]
  cases u <;> exact ⟨rfl, rfl⟩

/-- What the last step of a retirement may change. -/
def retireParts (u : MemUnit) : List Part := [.log, .out, .free, .groups, unitPart u] ++ refitsParts

/-- A unit is retired: it serves no more and is listed, and its group's rebuild begins where the group is DEGRADED. -/
structure Retires (s t : State) (u : MemUnit) : Prop where
  serves : unitServes t u = false
  failing : t.tiers.failing = s.tiers.failing
  listed : isRetired t (unitKind u) (unitIndex u).toNat = true
  rebuilds : unitGroup s u = 1 → (rebuildOf t.tiers u).active = true ∧ (rebuildOf t.tiers u).member = some u
  rests : unitGroup s u ≠ 1 → t.tiers.nearRebuilds = s.tiers.nearRebuilds ∧ t.tiers.seraiRebuild = s.tiers.seraiRebuild
  frame : Unchanged s t (retireParts u)

theorem not_mem_refitsParts {p : Part} (h : ∀ i, p ∉ refitParts i) : p ∉ refitsParts := by
  simpa [refitsParts] using fun i _ => h i

theorem retires_retireNow (s : State) (f : FailingUnit) : Retires s (s.retireNow f) f.unit := by
  obtain ⟨serves, failing, listed⟩ := listRetired_spec s f
  have frame {l : List Part} (hu : unitPart f.unit ∈ l) (hm : Part.log ∈ l) (ho : Part.out ∈ l) :
      Unchanged s (s.listRetired f) l := unchanged_listRetired f hu hm ho (unchanged_refl s l)
  rw [retireNow_eq]
  split
  · next degraded =>
    let w := (s.listRetired f).recordPause (unitRec f.unit 0x0903 clsRetired)
    have refits : Unchanged (w.startRebuild f.unit) ((w.startRebuild f.unit).refitTier (unitTier f.unit)) refitsParts :=
      unchanged_refitTier _ (fun _ h => h) (unchanged_refl _ _)
    have tiers := Unchanged.tiers_eq refits (fun k => not_mem_refitsParts (by simp [refitParts]))
      (fun k => not_mem_refitsParts (by simp [refitParts])) (not_mem_refitsParts (by simp [refitParts]))
      (not_mem_refitsParts (by simp [refitParts]))
    have log := refits .log (not_mem_refitsParts (by simp [refitParts]))
    have states : unitStates ((w.startRebuild f.unit).refitTier (unitTier f.unit)) = unitStates (s.listRetired f) :=
      (unitStates_congr_tiers tiers).trans ((unitStates_startRebuild w _).trans (unitStates_congr_tiers (recordPause_tiers _ _)))
    have retired : ((w.startRebuild f.unit).refitTier (unitTier f.unit)).log.retired = (s.listRetired f).log.retired := by
      rw [log, startRebuild_log]
      exact record_retired _ _
    refine ⟨(unitServes_congr states _).trans serves, (failing_of_unitStates states).trans failing,
      (isRetired_congr retired _ _).trans listed, fun _ => ?_, fun other => absurd degraded other, ?_⟩
    · rw [tiers]
      exact rebuildOf_startRebuild w f.unit
    · refine unchanged_refitTier _ (by simp +contextual [retireParts]) (unchanged_setRebuild _ _ (by simp [retireParts]) ?_)
      exact unchanged_recordPause _ (by simp [retireParts]) (by simp [retireParts]) (by simp [retireParts])
        (frame (by simp [retireParts]) (by simp [retireParts]) (by simp [retireParts]))
  · next other =>
    have groups : Part.groups ∉ [.log, .out, unitPart f.unit] := by
      cases f.unit <;> simp [unitPart]
    obtain ⟨-, near, -, -, serai, -⟩ := frame (l := [.log, .out, unitPart f.unit]) (by simp) (by simp) (by simp) .groups groups
    exact ⟨serves, failing, listed, fun degraded => absurd degraded other, fun _ => ⟨near, serai⟩,
      frame (by simp [retireParts]) (by simp [retireParts]) (by simp [retireParts])⟩

/-! ### The step on an empty queue (R39, R443, R444) -/

theorem finishResets_none (h : ∀ i, (s.stall i).page.state ≠ 1) : s.finishResets = s := by
  have idle : allStalls.filter (fun i => (s.stall i).page.state == 1) = [] := by
    rw [List.filter_eq_nil_iff]
    exact fun i _ resetting => h i (beq_iff_eq.mp resetting)
  rw [State.finishResets, idle]
  split <;> rfl

/-- The power state's change touches the power and the cores alone. -/
theorem settlePower_keeps (s : State) : s.settlePower.tiers = s.tiers ∧ s.settlePower.log = s.log ∧ s.settlePower.mem = s.mem := by
  unfold State.settlePower
  simp only []
  split
  · exact ⟨rfl, rfl, rfl⟩
  · split <;> exact ⟨rfl, rfl, rfl⟩

theorem settlePower_standby (h : s.power.state = 4) : s.settlePower = s := by
  simp [State.settlePower, h]

/-- STANDBY is entered from ACTIVE or IDLE alone. -/
theorem enterStandby_cases (s : State) :
    s.enterStandby = s ∨ (s.power.state = 2 ∨ s.power.state = 3) ∧ s.enterStandby.power.state = 4 := by
  unfold State.enterStandby
  split
  · exact .inl rfl
  · next due =>
    have cond : standbyDue s = true := by
      by_contra h
      exact due (by simp [h])
    simp only [standbyDue, Bool.and_eq_true, Bool.or_eq_true, beq_iff_eq] at cond
    obtain ⟨⟨⟨states, -⟩, -⟩, -⟩ := cond
    exact .inr ⟨states, rfl⟩

/-- Where a step's end does not enter STANDBY, it leaves the tiers, the log and the memory. -/
theorem powerSteps_keep (s : State) (h : s.settlePower.enterStandby.power.state = 4 → s.power.state = 4) :
    let t := s.settlePower.enterStandby
    t.tiers = s.tiers ∧ t.log = s.log ∧ t.mem = s.mem := by
  obtain stays | ⟨awake, asleep⟩ := enterStandby_cases s.settlePower
  · rw [stays]
    exact settlePower_keeps s
  · rw [settlePower_standby (h asleep), h asleep] at awake
    simp at awake

theorem step_retires {f : FailingUnit} (one : s.tiers.failing = [f]) (queue : s.pending = [])
    (quiet : ∀ i, (s.stall i).page.state ≠ 1) :
    ∃ t, step s = .next t ∧ ((t.power.state = 4 → s.power.state = 4) →
      unitServes t f.unit = false ∧ t.tiers.failing = [] ∧ isRetired t (unitKind f.unit) (unitIndex f.unit).toNat = true
      ∧ t.mem = s.mem
      ∧ (unitGroup s f.unit = 1 → (rebuildOf t.tiers f.unit).active = true ∧ (rebuildOf t.tiers f.unit).member = some f.unit)
      ∧ (unitGroup s f.unit ≠ 1 → t.tiers.nearRebuilds = s.tiers.nearRebuilds ∧ t.tiers.seraiRebuild = s.tiers.seraiRebuild)) := by
  let later : State := { s with time := s.time + 1 }
  let begun : State := { later with tiers := { later.tiers with failing := [] } }
  have finished : later.finishResets.finishRetirements = begun.retireNow f := by
    rw [finishResets_none (s := later) quiet, State.finishRetirements, one]
    rfl
  have idle : s.idle = (begun.retireNow f).settlePower.enterStandby := by
    rw [← finished]
    rfl
  have retires := retires_retireNow begun f
  have group : unitGroup begun f.unit = unitGroup s f.unit := by
    cases f.unit <;> rfl
  have frame {p : Part} (hp : p ∉ [.log, .out, .free, .groups, unitPart f.unit]) (hr : ∀ i, p ∉ refitParts i) :
      p ∉ retireParts f.unit := fun h => (List.mem_append.mp h).elim hp (not_mem_refitsParts hr)
  have power : (begun.retireNow f).power = s.power :=
    retires.frame .power (frame (by cases f.unit <;> simp [unitPart]) (by simp [refitParts]))
  have mem : (begun.retireNow f).mem = s.mem :=
    retires.frame .mem (frame (by cases f.unit <;> simp [unitPart]) (by simp [refitParts]))
  refine ⟨s.idle, by simp [step, queue], fun awake => ?_⟩
  rw [idle] at awake ⊢
  obtain ⟨tiers, log, sameMem⟩ := powerSteps_keep (begun.retireNow f) (by rwa [power])
  rw [tiers, sameMem, unitServes_congr (unitStates_congr_tiers tiers), isRetired_congr (congrArg FaultLog.retired log), ← group]
  exact ⟨retires.serves, retires.failing, retires.listed, mem, retires.rebuilds, retires.rests⟩

/-- Settles O49: what a unit's failure does is read off `Fails`, and the last step of its retirement off `Retires`. -/
theorem failingUnitsAreRetired : Obligations.FailingUnitsAreRetired := by
  intro s u
  refine ⟨fun serves => ⟨fun on above empty => runs_ceRate_over serves on above empty, exec_ceRate_within,
    fun bay row e scheduled bad empty => runs_memRepeatRead_wrong serves scheduled bad empty⟩, ?_⟩
  rintro f rfl one queue quiet
  exact step_retires one queue quiet

end Sys2Proof.Machine
end

section
/-! PROOFS. Rebuilds: what a row's reconstruction writes, and how the pass over a group's rows goes on and ends (R291, R302,
R303). -/

namespace Sys2Proof.Machine

open Sys2Proof.Safety

variable {s t : State} {l : List Part} {u par : MemUnit}

/-! ### The bytes of a row (R291) -/

/-- The reconstruction of bytes of a unit, by their numbers from an address, into another unit of its group. -/
def rebuiltBytes (u par : MemUnit) (a : Nat) (ks : List Nat) (m : List Host.Cell) : List Host.Cell :=
  ks.foldl (fun m k => memPut (unitKey par (a + k)) (reconstruct m u (a + k)) m) m

/-- A reconstruction reads one address of the group's units alone. -/
theorem reconstruct_memPut_other {m : List Host.Cell} (h : memWf m = true) (par u : MemUnit) {a b : Nat} (v : Byte)
    (hab : b ≠ a) : reconstruct (memPut (unitKey par a) v m) u b = reconstruct m u b :=
  xorBytes_same _ _ _ fun w _ => memGet_memPut_other _ _ _ _ h fun same => hab ((unitKey_inj w par b a).1 same).2

theorem memGet_rebuiltBytes_other {ks : List Nat} {a key : Nat} {m : List Host.Cell} (h : memWf m = true)
    (away : ∀ k ∈ ks, key ≠ unitKey par (a + k)) : memGet key (rebuiltBytes u par a ks m) = memGet key m := by
  induction ks generalizing m with
  | nil => rfl
  | cons k ks ih =>
    obtain ⟨first, rest⟩ := List.forall_mem_cons.mp away
    exact (ih (memPut_wf _ _ m h) rest).trans (memGet_memPut_other _ _ _ m h first)

/-- Every byte is reconstructed from the memory as it was: no other byte written before it is read for it. -/
theorem memGet_rebuiltBytes {ks : List Nat} {a : Nat} {m : List Host.Cell} (h : memWf m = true) (once : ks.Nodup) :
    ∀ k ∈ ks, memGet (unitKey par (a + k)) (rebuiltBytes u par a ks m) = reconstruct m u (a + k) := by
  induction ks generalizing m with
  | nil => nofun
  | cons k ks ih =>
    obtain ⟨new, once⟩ := List.nodup_cons.mp once
    let m1 := memPut (unitKey par (a + k)) (reconstruct m u (a + k)) m
    have wf : memWf m1 = true := memPut_wf _ _ m h
    intro j hj
    obtain rfl | hj := List.mem_cons.mp hj
    · have away : ∀ i ∈ ks, unitKey par (a + j) ≠ unitKey par (a + i) := fun i hi same => by
        have : j = i := Nat.add_left_cancel ((unitKey_inj _ _ _ _).1 same).2
        exact new (this ▸ hi)
      exact (memGet_rebuiltBytes_other wf away).trans (memGet_memPut_self _ _ m h)
    · have other : a + j ≠ a + k := fun same => new (Nat.add_left_cancel same ▸ hj)
      exact (ih wf once j hj).trans (reconstruct_memPut_other h par u _ other)

/-- The memory once a unit's part of a row is reconstructed into the row's parity unit, where that is another. -/
def rebuiltRow (m : List Host.Cell) (u : MemUnit) (bay row : Nat) : List Host.Cell :=
  let a := rowAddr u bay row
  if parityUnit u a = u then m else rebuiltBytes u (parityUnit u a) a (List.range 256) m

theorem rebuildUnit_eq (s : State) (u : MemUnit) (bay row : Nat) :
    s.rebuildUnit u bay row = { s with mem := rebuiltRow s.mem u bay row } := by
  unfold State.rebuildUnit rebuiltRow
  simp only []
  split <;> rfl

/-- A row has moved to its parity slot, and nothing else in memory has changed. -/
def Moved (s t : State) (u : MemUnit) (bay row : Nat) : Prop :=
  let a := rowAddr u bay row
  let par := parityUnit u a
  (par ≠ u → ∀ k < 256, memGet (unitKey par (a + k)) t.mem = reconstruct s.mem u (a + k))
  ∧ ∀ key, (∀ k < 256, par ≠ u → key ≠ unitKey par (a + k)) → memGet key t.mem = memGet key s.mem

theorem moved_of_mem {bay row : Nat} (h : memWf s.mem = true) (ht : t.mem = rebuiltRow s.mem u bay row) :
    Moved s t u bay row := by
  unfold Moved
  extract_lets a par
  by_cases own : par = u
  · have same : t.mem = s.mem := ht.trans (if_pos own)
    exact ⟨fun other => absurd own other, fun key _ => by rw [same]⟩
  · have moved : t.mem = rebuiltBytes u par a (List.range 256) s.mem := ht.trans (if_neg own)
    rw [moved]
    exact ⟨fun _ k hk => memGet_rebuiltBytes h List.nodup_range k (List.mem_range.mpr hk),
      fun key away => memGet_rebuiltBytes_other h fun k hk => away k (List.mem_range.mp hk) own⟩

/-! ### The end of a rebuild (R291, R303) -/

theorem unchanged_rebuilt (u : MemUnit) (bay : BitVec 10) (row : BitVec 18) (hg : Part.groups ∈ l) (hu : unitPart u ∈ l)
    (hm : Part.log ∈ l) (ho : Part.out ∈ l) (h : Unchanged s t l) : Unchanged s (t.rebuilt u bay row) l :=
  unchanged_record _ hm ho (unchanged_unitErr u bay row _ hu (unchanged_setGroup u 2 hg (unchanged_setRebuild u _ hg h)))

theorem recorded_rebuilt (u : MemUnit) (bay : BitVec 10) (row : BitVec 18) (h : t.log = s.log) :
    Recorded s (t.rebuilt u bay row) 0x0904 := by
  have log : (((t.setRebuild u { member := some u, whole := true }).setGroup u 2).unitErr u bay row 0x04).log = s.log := by
    rw [unitErr_log, ← h]
    cases u <;> rfl
  exact recorded_record _ (by rw [log]) (by rw [log])

/-- The groups once a rebuild has ended: its record and the unit's error register leave them. -/
theorem rebuilt_groups (s : State) (u : MemUnit) (bay : BitVec 10) (row : BitVec 18) :
    let t := s.rebuilt u bay row
    let w := (s.setRebuild u { member := some u, whole := true }).setGroup u 2
    t.tiers.nearRebuilds = w.tiers.nearRebuilds ∧ t.tiers.nearGroups = w.tiers.nearGroups ∧ t.tiers.nearTurn = w.tiers.nearTurn
    ∧ t.tiers.seraiRebuild = w.tiers.seraiRebuild ∧ t.tiers.seraiGroup = w.tiers.seraiGroup := by
  intro t w
  have tiers : t.tiers = (w.unitErr u bay row 0x04).tiers := record_tiers _ _
  rw [tiers]
  cases u <;> exact ⟨rfl, rfl, rfl, rfl, rfl⟩

theorem rebuilt_mem (s : State) (u : MemUnit) (bay : BitVec 10) (row : BitVec 18) : (s.rebuilt u bay row).mem = s.mem :=
  unchanged_rebuilt (l := [.groups, unitPart u, .log, .out]) u bay row (by simp) (by simp) (by simp) (by simp)
    (unchanged_refl s _) .mem (by cases u <;> simp [unitPart])

/-! ### The near groups, in turn (R291, R302) -/

section near
variable {j : Fin 16} {pc : Fin 256}

theorem exec_rebuildRow_near_none (h : nearTurnOf s = none) : exec (.rebuildRow false) s = .next s := by
  change execRebuildRow false s = _
  simp [execRebuildRow, h]

/-- A near group's row has moved, which leaves a memory, and the next turn is the next group's. -/
def State.nearRow (s : State) (m : List Host.Cell) (j : Fin 16) : State :=
  { s with mem := m, tiers := { s.tiers with nearTurn := j + 1 } }

theorem unchanged_nearRow (m : List Host.Cell) (j : Fin 16) : Unchanged s (s.nearRow m j) [.mem, .groups] := by
  intro p hp
  cases p with
  | mem => exact absurd (by simp) hp
  | groups => exact absurd (by simp) hp
  | _ => exact unchanged_refl s [.mem, .groups] _ hp

theorem exec_rebuildRow_near (turn : nearTurnOf s = some j) (member : (s.tiers.nearRebuilds.get j).member = some (.near pc)) :
    let r := s.tiers.nearRebuilds.get j
    let w := s.nearRow (rebuiltRow s.mem (.near pc) r.bay.toNat r.row.toNat) j
    exec (.rebuildRow false) s = .next (
      if r.row.toNat + 16 < 262144 then w.setRebuild (.near pc) { r with row := r.row + 16 }
      else if r.bay.toNat < 639 then w.setRebuild (.near pc) { r with bay := r.bay + 1, row := BitVec.ofNat 18 j.val }
      else w.rebuilt (.near pc) r.bay r.row) := by
  intro r w
  change execRebuildRow false s = _
  simp only [execRebuildRow, turn, Bool.false_eq_true, if_false, State.rebuildNear]
  split
  · next missing => exact absurd (missing.symm.trans member) (by simp)
  · next u known =>
    obtain rfl := Option.some.inj (known.symm.trans member)
    simp only [rebuildUnit_eq]
    rfl

theorem setRebuild_near_get (s : State) (r : Rebuild) (hj : groupOf pc = j) (g : Fin 16) :
    (s.setRebuild (.near pc) r).tiers.nearRebuilds.get g = if g = j then r else s.tiers.nearRebuilds.get g := by
  subst hj
  simp only [State.setRebuild, Vector.get_eq_getElem, Vector.getElem_set, Fin.ext_iff, eq_comm]

theorem setGroup_near_get (s : State) (v : BitVec 2) (hj : groupOf pc = j) (g : Fin 16) :
    (s.setGroup (.near pc) v).tiers.nearGroups.get g = if g = j then v else s.tiers.nearGroups.get g := by
  subst hj
  simp only [State.setGroup, Vector.get_eq_getElem, Vector.getElem_set, Fin.ext_iff, eq_comm]

/-- The rebuild of a near group goes on at another row: no other group changes. -/
theorem nearRow_goes_on (m : List Host.Cell) (r' : Rebuild) (hj : groupOf pc = j) :
    let t := (s.nearRow m j).setRebuild (.near pc) r'
    t.tiers.nearTurn = j + 1
    ∧ (∀ g, g ≠ j → t.tiers.nearRebuilds.get g = s.tiers.nearRebuilds.get g ∧ t.tiers.nearGroups.get g = s.tiers.nearGroups.get g)
    ∧ t.tiers.nearRebuilds.get j = r' ∧ t.tiers.nearGroups = s.tiers.nearGroups ∧ Unchanged s t [.mem, .groups] := by
  intro t
  have get := setRebuild_near_get (s.nearRow m j) r' hj
  exact ⟨rfl, fun g hg => ⟨(get g).trans (if_neg hg), rfl⟩, (get j).trans (if_pos rfl), rfl,
    unchanged_setRebuild _ _ (by simp) (unchanged_nearRow m j)⟩

/-- The rebuild of a near group ends: the group is UNPROTECTED. -/
theorem nearRow_ends (m : List Host.Cell) (bay : BitVec 10) (row : BitVec 18) (hj : groupOf pc = j) :
    let t := (s.nearRow m j).rebuilt (.near pc) bay row
    t.tiers.nearTurn = j + 1
    ∧ (∀ g, g ≠ j → t.tiers.nearRebuilds.get g = s.tiers.nearRebuilds.get g ∧ t.tiers.nearGroups.get g = s.tiers.nearGroups.get g)
    ∧ t.tiers.nearRebuilds.get j = { member := some (.near pc), whole := true } ∧ t.tiers.nearGroups.get j = 2
    ∧ Recorded s t 0x0904 ∧ Unchanged s t [.mem, .groups, .stack (stackOf pc), .out, .log] := by
  intro t
  obtain ⟨rebuilds, groups, turn, -, -⟩ := rebuilt_groups (s.nearRow m j) (.near pc) bay row
  have getRebuild := setRebuild_near_get (s.nearRow m j) { member := some (.near pc), whole := true } hj
  have getGroup := setGroup_near_get ((s.nearRow m j).setRebuild (.near pc) { member := some (.near pc), whole := true }) 2 hj
  have rebuild (g : Fin 16) := (congrArg (·.get g) rebuilds).trans (getRebuild g)
  have group (g : Fin 16) := (congrArg (·.get g) groups).trans (getGroup g)
  refine ⟨turn, fun g hg => ⟨(rebuild g).trans (if_neg hg), (group g).trans (if_neg hg)⟩, (rebuild j).trans (if_pos rfl),
    (group j).trans (if_pos rfl), recorded_rebuilt _ bay row rfl, ?_⟩
  exact unchanged_rebuilt _ bay row (by simp) (by simp [unitPart]) (by simp) (by simp)
    (Unchanged.mono (unchanged_nearRow m j) (by simp +contextual))

theorem runs_rebuildRow_near (wf : memWf s.mem = true) (turn : nearTurnOf s = some j)
    (member : (s.tiers.nearRebuilds.get j).member = some (.near pc)) (hj : groupOf pc = j) :
    let r := s.tiers.nearRebuilds.get j
    Runs (.rebuildRow false) s fun t =>
      Moved s t (.near pc) r.bay.toNat r.row.toNat ∧ t.tiers.nearTurn = j + 1
      ∧ (∀ g, g ≠ j → t.tiers.nearRebuilds.get g = s.tiers.nearRebuilds.get g
          ∧ t.tiers.nearGroups.get g = s.tiers.nearGroups.get g)
      ∧ (r.row.toNat + 16 < 262144 → t.tiers.nearRebuilds.get j = { r with row := r.row + 16 }
          ∧ t.tiers.nearGroups = s.tiers.nearGroups ∧ Unchanged s t [.mem, .groups])
      ∧ (262144 ≤ r.row.toNat + 16 → r.bay.toNat < 639 →
          t.tiers.nearRebuilds.get j = { r with bay := r.bay + 1, row := BitVec.ofNat 18 j.val }
          ∧ t.tiers.nearGroups = s.tiers.nearGroups ∧ Unchanged s t [.mem, .groups])
      ∧ (262144 ≤ r.row.toNat + 16 → 639 ≤ r.bay.toNat →
          t.tiers.nearRebuilds.get j = { member := some (.near pc), whole := true } ∧ t.tiers.nearGroups.get j = 2
          ∧ Recorded s t 0x0904 ∧ Unchanged s t [.mem, .groups, .stack (stackOf pc), .out, .log]) := by
  intro r
  let m := rebuiltRow s.mem (.near pc) r.bay.toNat r.row.toNat
  refine runs_of_exec (exec_rebuildRow_near turn member) ?_
  split
  · next inBay =>
    obtain ⟨next, others, rebuild, groups, frame⟩ := nearRow_goes_on (s := s) m { r with row := r.row + 16 } hj
    exact ⟨moved_of_mem wf rfl, next, others, fun _ => ⟨rebuild, groups, frame⟩, fun last => absurd last (Nat.not_le.mpr inBay),
      fun last => absurd last (Nat.not_le.mpr inBay)⟩
  · next lastRow =>
    split
    · next inUnit =>
      obtain ⟨next, others, rebuild, groups, frame⟩ :=
        nearRow_goes_on (s := s) m { r with bay := r.bay + 1, row := BitVec.ofNat 18 j.val } hj
      exact ⟨moved_of_mem wf rfl, next, others, fun inBay => absurd inBay lastRow, fun _ _ => ⟨rebuild, groups, frame⟩,
        fun _ last => absurd last (Nat.not_le.mpr inUnit)⟩
    · next lastBay =>
      obtain ⟨next, others, ended⟩ := nearRow_ends (s := s) m r.bay r.row hj
      exact ⟨moved_of_mem wf (rebuilt_mem _ _ _ _), next, others, fun inBay => absurd inBay lastRow,
        fun _ inUnit => absurd inUnit lastBay, fun _ _ => ended⟩

end near

/-! ### The Serai (R291) -/

section serai
variable {ch : Fin 24}

theorem exec_rebuildRow_serai_none (h : s.tiers.seraiRebuild.active = false) : exec (.rebuildRow true) s = .next s := by
  change execRebuildRow true s = _
  simp [execRebuildRow, h]

/-- A row of the Serai has moved, which leaves a memory. -/
def State.seraiRow (s : State) (m : List Host.Cell) : State := { s with mem := m }

theorem unchanged_seraiRow (m : List Host.Cell) (hm : Part.mem ∈ l) : Unchanged s (s.seraiRow m) l :=
  unchanged_set_mem m hm (unchanged_refl s l)

theorem rebuildSerai_guarded (member : s.tiers.seraiRebuild.member = some (.serai ch))
    (here : bayGuarded s s.tiers.seraiRebuild.bay.toNat = true) :
    let r := s.tiers.seraiRebuild
    let w := s.seraiRow (rebuiltRow s.mem (.serai ch) r.bay.toNat r.row.toNat)
    s.rebuildSerai =
      if r.row.toNat < 262143 then w.setRebuild (.serai ch) { r with row := r.row + 1 }
      else ((guardedBays s).find? fun b => decide (r.bay.toNat < b)).elim (w.rebuilt (.serai ch) r.bay r.row)
        fun b => w.setRebuild (.serai ch) { r with bay := BitVec.ofNat 10 b, row := 0 } := by
  intro r w
  unfold State.rebuildSerai
  simp only []
  split
  · next missing => exact absurd (missing.symm.trans member) (by simp)
  · next u known =>
    obtain rfl := Option.some.inj (known.symm.trans member)
    simp only [rebuildUnit_eq, here, and_true, if_true]
    refine if_congr Iff.rfl rfl ?_
    cases (guardedBays s).find? fun b => decide (s.tiers.seraiRebuild.bay.toNat < b) with
    | none => rfl
    | some b => rfl

theorem exec_rebuildRow_serai (active : s.tiers.seraiRebuild.active = true) :
    exec (.rebuildRow true) s = .next s.rebuildSerai :=
  congrArg Host.Outcome.next (if_pos active)

/-- The rebuild of the Serai goes on at another row. -/
theorem seraiRow_goes_on (s : State) (m : List Host.Cell) (ch : Fin 24) (r' : Rebuild) :
    let t := (s.seraiRow m).setRebuild (.serai ch) r'
    t.tiers.seraiRebuild = r' ∧ t.tiers.seraiGroup = s.tiers.seraiGroup ∧ Unchanged s t [.mem, .groups] :=
  ⟨rfl, rfl, unchanged_setRebuild _ _ (by simp) (unchanged_seraiRow m (by simp))⟩

/-- The rebuild of the Serai ends: its group is UNPROTECTED. -/
theorem seraiRow_ends (s : State) (m : List Host.Cell) (ch : Fin 24) (bay : BitVec 10) (row : BitVec 18) :
    let t := (s.seraiRow m).rebuilt (.serai ch) bay row
    t.tiers.seraiRebuild = { member := some (.serai ch), whole := true } ∧ t.tiers.seraiGroup = 2
    ∧ Recorded s t 0x0904 ∧ Unchanged s t [.mem, .groups, .channel ch, .out, .log] := by
  obtain ⟨-, -, -, rebuild, group⟩ := rebuilt_groups (s.seraiRow m) (.serai ch) bay row
  refine ⟨rebuild, group, recorded_rebuilt _ bay row rfl, ?_⟩
  exact unchanged_rebuilt _ bay row (by simp) (by simp [unitPart]) (by simp) (by simp)
    (unchanged_seraiRow m (by simp))

theorem runs_rebuildRow_serai (wf : memWf s.mem = true) (active : s.tiers.seraiRebuild.active = true)
    (member : s.tiers.seraiRebuild.member = some (.serai ch)) (here : bayGuarded s s.tiers.seraiRebuild.bay.toNat = true) :
    let r := s.tiers.seraiRebuild
    Runs (.rebuildRow true) s fun t =>
      Moved s t (.serai ch) r.bay.toNat r.row.toNat
      ∧ (r.row.toNat < 262143 → t.tiers.seraiRebuild = { r with row := r.row + 1 } ∧ t.tiers.seraiGroup = s.tiers.seraiGroup
          ∧ Unchanged s t [.mem, .groups])
      ∧ (r.row.toNat = 262143 → ∀ b, (guardedBays s).find? (fun b => decide (r.bay.toNat < b)) = some b →
          t.tiers.seraiRebuild = { r with bay := BitVec.ofNat 10 b, row := 0 } ∧ Unchanged s t [.mem, .groups])
      ∧ (r.row.toNat = 262143 → (∀ b ∈ guardedBays s, b ≤ r.bay.toNat) →
          t.tiers.seraiRebuild = { member := some (.serai ch), whole := true } ∧ t.tiers.seraiGroup = 2
          ∧ Recorded s t 0x0904 ∧ Unchanged s t [.mem, .groups, .channel ch, .out, .log]) := by
  intro r
  let m := rebuiltRow s.mem (.serai ch) r.bay.toNat r.row.toNat
  refine runs_of_exec (exec_rebuildRow_serai active) ?_
  rw [rebuildSerai_guarded member here]
  split
  · next inBay =>
    exact ⟨moved_of_mem wf rfl, fun _ => seraiRow_goes_on s m ch _, fun last => absurd last (Nat.ne_of_lt inBay),
      fun last => absurd last (Nat.ne_of_lt inBay)⟩
  · next lastRow =>
    cases next : (guardedBays s).find? fun b => decide (r.bay.toNat < b) with
    | some b =>
      refine ⟨moved_of_mem wf rfl, fun inBay => absurd inBay lastRow, fun _ b' found => ?_, fun _ last => ?_⟩
      · obtain rfl : b = b' := Option.some.inj found
        obtain ⟨rebuild, -, frame⟩ := seraiRow_goes_on s m ch { r with bay := BitVec.ofNat 10 b, row := 0 }
        exact ⟨rebuild, frame⟩
      · have more : r.bay.toNat < b := by simpa using List.find?_some next
        exact absurd (last b (List.mem_of_find?_eq_some next)) (by omega)
    | none =>
      exact ⟨moved_of_mem wf (rebuilt_mem _ _ _ _), fun inBay => absurd inBay lastRow, fun _ b found => absurd found (by simp), fun _ _ => seraiRow_ends s m ch r.bay r.row⟩

end serai

end Sys2Proof.Machine
end

section
/-! PROOFS. Writes held at a Serai channel, repeated fit proofs, and the statement about rebuilds (R56, R293, R301). -/

namespace Sys2Proof.Machine

open Sys2Proof.Safety

variable {s t : State} {l : List Part}

/-! ### Held writes that are committed (R301) -/

theorem commitHeld_cons (s : State) (e : Place × Byte) (w : List (Place × Byte)) :
    s.commitHeld (e :: w) = (s.storePlace e.1 e.2).commitHeld w := rfl

theorem unchanged_commitHeld (w : List (Place × Byte)) (hm : Part.mem ∈ l) (h : Unchanged s t l) :
    Unchanged s (t.commitHeld w) l :=
  unchanged_forEach _ _ (fun _ e hu => unchanged_storePlace e.1 e.2 false hm hu) h

theorem commitHeld_tiers (s : State) (w : List (Place × Byte)) : (s.commitHeld w).tiers = s.tiers :=
  forEach_keeps w (fun s e => s.storePlace e.1 e.2) State.tiers (fun _ _ => rfl) s

theorem readPlace_commitHeld_other (wf : memWf s.mem = true) (w : List (Place × Byte)) {q : Place}
    (apart : ∀ e ∈ w, Apart e.1 q) : (s.commitHeld w).readPlace q = s.readPlace q := by
  induction w generalizing s with
  | nil => rfl
  | cons e w ih =>
    obtain ⟨first, rest⟩ := List.forall_mem_cons.mp apart
    rw [commitHeld_cons, ih (storePlace_wf s e.1 e.2 false wf) rest]
    exact readPlace_storePlace_other s e.1 q e.2 false wf first

/-- The writes that wait at a channel are no part of what a read returns. -/
theorem readPlace_modWaiting (s : State) (ch : Fin 24) (w : List (Place × Byte)) (q : Place) :
    (s.modChannel ch fun c => { c with waiting := w }).readPlace q = s.readPlace q :=
  readPlace_congr _ _ _ (fun _ => rfl) fun d _ =>
    writes_held s ch (fun c => { c with waiting := w }) q d (fun _ => rfl) fun _ => rfl

/-- Whether a cell keeps its bytes depends on the units in service, the groups and their rebuilds alone. -/
theorem keepsByte_congr {a b : Tiers} (serve : ∀ u, serves b u = serves a u) (groups : ∀ u, groupState b u = groupState a u)
    (rebuilds : ∀ u, rebuildOf b u = rebuildOf a u) (c : Cell) : keepsByte b c = keepsByte a c := by
  simp only [keepsByte, inSlot, parityKept, othersServe, rowMoved, groups, rebuilds, funext serve]

/-- A stored byte is read back where its place is plain once the writes that waited are gone. -/
theorem readPlace_storePlace_self {p : Place} (wf : memWf s.mem = true) (v : Byte) (ch : Fin 24)
    (plain : Plain (s.modChannel ch fun c => { c with waiting := [] }) p) : (s.storePlace p v).readPlace p = v := by
  unfold State.readPlace State.storePlace
  cases hc : cellOf p with
  | none => exact memGet_memPut_self _ _ _ wf
  | some c =>
    obtain ⟨keeps, raw, channels⟩ := plain c hc
    obtain ⟨-, sameRaw, sameHeld⟩ := writes_held s ch (fun c => { c with waiting := [] }) p c (fun _ => rfl) fun _ => rfl
    have states : unitStates (s.modChannel ch fun c => { c with waiting := [] }) = unitStates s :=
      unitStates_modChannel s ch fun _ => rfl
    have kept : keepsByte s.tiers c = true :=
      (keepsByte_congr (unitServes_congr states) (fun u => by cases u <;> rfl) (fun u => by cases u <;> rfl) c).symm.trans keeps
    have unheld (u : MemUnit) (hu : u = c.unit ∨ u = parityUnit c.unit c.addr) : heldAt s.tiers u (placeKey p) = none := by
      rw [← sameHeld]
      cases u with
      | near pc => rfl
      | serai k =>
        obtain ⟨-, empty, -⟩ := channels k hu
        simp only [heldAt, empty]
        rfl
    simp only [unheld _ (.inl rfl), unheld _ (.inr rfl), Option.or_none, ← sameRaw, raw, Bool.false_eq_true, if_false]
    exact cellByte_store_self _ _ _ _ _ wf (cellOf_striped p c hc) kept

section held
variable {ch : Fin 24}

theorem exec_seraiHoldRoom_held (nonempty : s.tiers.serai[ch].waiting ≠ []) (hold : s.tiers.serai[ch].braceHold = true) :
    exec (.seraiHoldRoom ch) s = .next (s.modChannel ch fun c => { c with
      buffer := c.buffer ++ c.waiting.take (braceBufferBytes - s.tiers.serai[ch].buffer.length)
      waiting := c.waiting.drop (braceBufferBytes - s.tiers.serai[ch].buffer.length)
      held := BitVec.ofNat 32 (c.buffer ++ c.waiting.take (braceBufferBytes - s.tiers.serai[ch].buffer.length)).length }) := by
  change execSeraiHoldRoom ch s = _
  have waits : (s.tiers.serai.get ch).waiting.isEmpty = false := by
    simpa [Vector.get_eq_getElem] using nonempty
  have holds : (s.tiers.serai.get ch).braceHold = true := hold
  simp only [execSeraiHoldRoom, waits, holds, Bool.false_eq_true, if_false, if_true]
  rfl

theorem exec_seraiHoldRoom_free (nonempty : s.tiers.serai[ch].waiting ≠ []) (free : s.tiers.serai[ch].braceHold = false) :
    exec (.seraiHoldRoom ch) s
      = .next ((s.commitHeld s.tiers.serai[ch].waiting).modChannel ch fun c => { c with waiting := [] }) := by
  change execSeraiHoldRoom ch s = _
  have waits : (s.tiers.serai.get ch).waiting.isEmpty = false := by
    simpa [Vector.get_eq_getElem] using nonempty
  have frees : (s.tiers.serai.get ch).braceHold = false := free
  simp only [execSeraiHoldRoom, waits, frees, Bool.false_eq_true, if_false]
  rfl

/-- Writes enter the buffer in the order in which they wait, as far as it has room. -/
theorem runs_seraiHoldRoom_held (nonempty : s.tiers.serai[ch].waiting ≠ []) (hold : s.tiers.serai[ch].braceHold = true) :
    let x := s.tiers.serai[ch]
    Runs (.seraiHoldRoom ch) s fun t =>
      t.tiers.serai[ch].buffer ++ t.tiers.serai[ch].waiting = x.buffer ++ x.waiting
      ∧ (x.buffer.length ≤ braceBufferBytes →
          t.tiers.serai[ch].buffer.length = min braceBufferBytes (x.buffer.length + x.waiting.length))
      ∧ t.tiers.serai[ch].braceHold = true ∧ Unchanged s t [.channel ch] := by
  intro x
  refine runs_of_exec (exec_seraiHoldRoom_held nonempty hold) ?_
  rw [modChannel_self]
  refine ⟨?_, fun fits => ?_, hold, unchanged_modChannel _ (by simp) (unchanged_refl s _)⟩
  · rw [List.append_assoc, List.take_append_drop]
  · rw [List.length_append, List.length_take]
    generalize braceBufferBytes = size at fits ⊢
    change x.buffer.length + min (size - x.buffer.length) x.waiting.length = _
    omega

theorem runs_seraiHoldRoom_free (wf : memWf s.mem = true) (nonempty : s.tiers.serai[ch].waiting ≠ [])
    (free : s.tiers.serai[ch].braceHold = false) :
    let x := s.tiers.serai[ch]
    Runs (.seraiHoldRoom ch) s fun t =>
      t.tiers.serai[ch] = { x with waiting := [] }
      ∧ (∀ p v, x.waiting = [(p, v)] → Plain t p → t.readPlace p = v)
      ∧ (∀ q, (∀ e ∈ x.waiting, Apart e.1 q) → t.readPlace q = s.readPlace q)
      ∧ Unchanged s t [.mem, .channel ch] := by
  intro x
  refine runs_of_exec (exec_seraiHoldRoom_free nonempty free) ⟨?_, fun p v one plain => ?_, fun q apart => ?_,
    unchanged_modChannel _ (by simp) (unchanged_commitHeld _ (by simp) (unchanged_refl s _))⟩
  · rw [modChannel_self, commitHeld_tiers]
  · have one : s.tiers.serai[ch].waiting = [(p, v)] := one
    rw [one] at plain ⊢
    rw [readPlace_modWaiting]
    exact readPlace_storePlace_self wf v ch plain
  · rw [readPlace_modWaiting]
    exact readPlace_commitHeld_other wf _ apart

end held

/-! ### Repeated fit proofs (R56, R293) -/

theorem bit_clearBit_self {w : Nat} (x : BitVec w) (k : Nat) : bit (clearBit x k) k = false := by
  by_cases hk : k < w
  · simp [bit, clearBit, hk]
  · simp [bit, BitVec.getLsbD_of_ge _ k (Nat.le_of_not_lt hk)]

section refits
variable {i : Stall} {c : Charter}

theorem nofit_charter (s : State) (i : Stall) : ((s.nofit i).stall i).charter = (s.stall i).charter := by
  have frame : Unchanged s (s.nofit i) [.out, .stall i .seq] := by
    unfold State.nofit
    split
    · exact unchanged_causeNext _ _ (by simp) (unchanged_refl s _)
    · exact unchanged_causeNext _ _ (by simp) (unchanged_refl s _)
    · exact unchanged_cause _ _ (by simp) (by simp) (unchanged_refl s _)
  exact frame (.stall i .charter) (by simp)

theorem refitActive_charter (s : State) (i : Stall) (c : Charter) :
    ((s.refitActive i c).stall i).charter = (s.stall i).charter := by
  unfold State.refitActive
  split
  · simp [nofit_charter, State.reportFit]
  · split
    · exact nofit_charter s i
    · simp [State.fitHeld]

theorem refit_active (active : (s.stall i).charter.active = some c) (alone : (s.stall i).charter.pending = none) :
    s.refit i = s.refitActive i c := by
  have pending : ((s.refitActive i c).stall i).charter.pending = none := by rw [refitActive_charter, alone]
  simp only [State.refit, active, pending]

theorem runs_refit_fits (active : (s.stall i).charter.active = some c) (alone : (s.stall i).charter.pending = none)
    (fits : fitProof s i c = none) (kept : usesLost s i c = false) (within : overBandwidth s i c = false) :
    Runs (.refit i) s fun t =>
      bit (t.stall i).seq.nextCauses 11 = false ∧ (t.stall i).seq.causes = (s.stall i).seq.causes
      ∧ (t.stall i).march.state = (s.stall i).march.state ∧ Unchanged s t [.stall i .march, .stall i .seq] := by
  have held : s.refit i = (s.fitHeld i).modSeq i fun q => { q with nextCauses := clearBit q.nextCauses 11 } := by
    rw [refit_active active alone]
    simp [State.refitActive, fits, kept, within]
  refine runs_of_exec (t := s.refit i) rfl ?_
  rw [held]
  refine ⟨?_, by simp [State.fitHeld], by simp [State.fitHeld],
    unchanged_modSeq _ (by simp) (unchanged_modMarch _ (by simp) (unchanged_refl s _))⟩
  rw [State.modSeq_seq]
  exact bit_clearBit_self _ 11

/-- A charter that no longer fits halts its march, at once in LEGS and as it begins from READY. -/
theorem nofit_halts (s : State) (i : Stall) :
    ((s.stall i).march.state = .ready → bit ((s.nofit i).stall i).seq.nextCauses 11 = true)
    ∧ ((s.stall i).march.state = .legs → bit ((s.nofit i).stall i).seq.causes 11 = true ∧ ((s.nofit i).stall i).seq.stopped = true) := by
  refine ⟨fun ready => ?_, fun legs => ?_⟩
  · have next : s.nofit i = s.causeNext i vNofit 0x0203 := by simp [State.nofit, ready]
    rw [next, State.causeNext, State.modSeq_seq]
    exact bit_setBit_self _ (by decide)
  · have now : s.nofit i = s.causeNow i vNofit 0x0203 := by simp [State.nofit, State.cause, legs]
    obtain ⟨seq, -⟩ := causeNow_halts s i vNofit 0x0203 legs rfl
    rw [now, seq]
    exact ⟨bit_setBit_self _ (by decide), rfl⟩

theorem runs_refit_halts (active : (s.stall i).charter.active = some c) (alone : (s.stall i).charter.pending = none)
    (lost : fitProof s i c ≠ none ∨ usesLost s i c = true ∨ overBandwidth s i c = true) :
    Runs (.refit i) s fun t =>
      ((s.stall i).march.state = .ready → bit (t.stall i).seq.nextCauses 11 = true)
      ∧ ((s.stall i).march.state = .legs → bit (t.stall i).seq.causes 11 = true ∧ (t.stall i).seq.stopped = true)
      ∧ t.mem = s.mem ∧ t.tiers = s.tiers := by
  have frame : Unchanged s (s.refit i) (refitParts i) := unchanged_refit (fun _ h => h) (unchanged_refl s _)
  have halted : ∃ w : State, s.refit i = w.nofit i ∧ (w.stall i).march.state = (s.stall i).march.state := by
    rw [refit_active active alone]
    unfold State.refitActive
    split
    · exact ⟨_, rfl, by simp [State.reportFit]⟩
    · next fits =>
      have gone : (usesLost s i c || overBandwidth s i c) = true := by
        simpa [fits] using lost
      exact ⟨s, if_pos gone, rfl⟩
  obtain ⟨w, same, state⟩ := halted
  obtain ⟨ready, legs⟩ := nofit_halts w i
  refine runs_of_exec (t := s.refit i) rfl ⟨fun h => ?_, fun h => ?_, frame .mem (by simp [refitParts]),
    Unchanged.tiers_eq frame (by simp [refitParts]) (by simp [refitParts]) (by simp [refitParts]) (by simp [refitParts])⟩
  · rw [same]
    exact ready (state.trans h)
  · rw [same]
    exact legs (state.trans h)

end refits

/-- Settles O50: the rows of a rebuild by its cursor, the held writes by the channel's brace, the fit proof by its verdict. -/
theorem rebuildsRunToTheEnd : Obligations.RebuildsRunToTheEnd := by
  intro s ⟨wf, _⟩
  refine ⟨exec_rebuildRow_near_none, exec_rebuildRow_serai_none, fun j pc turn member hj => runs_rebuildRow_near wf turn member hj,
    fun ch active member here => runs_rebuildRow_serai wf active member here,
    fun ch => ⟨runs_seraiHoldRoom_held, runs_seraiHoldRoom_free wf⟩, fun i c active alone => ⟨runs_refit_fits active alone,
      fun lost _ => runs_refit_halts active alone lost⟩⟩

end Sys2Proof.Machine
end

section
/-! PROOFS. The registers of the state after reset (R422). -/

namespace Sys2Proof.Machine

open Sys2Proof.Safety

/-! ### The units of the state after reset -/

@[simp] theorem reset_stall (i : Stall) : State.reset.stall i = {} := by simp [State.stall, State.reset]

@[simp] theorem reset_core (k : CoreId) : State.reset.core k = {} := by simp [State.core, State.reset]

@[simp] theorem reset_engine (e : EngineId) : State.reset.engine e = {} := by simp [State.engine, State.reset]

@[simp] theorem reset_host (l : LinkId) : State.reset.host l = {} := by simp [State.host, State.reset]

@[simp] theorem reset_port (p : PortId) : State.reset.port p = {} := by simp [State.port, State.reset]

@[simp] theorem reset_lnk (p : PortId) : State.reset.lnk p = {} := by simp [State.lnk, State.reset]

@[simp] theorem reset_post (i : Stall) (secure : Bool) (n : Fin 24) : State.reset.post i secure n = {} := by
  cases secure
  · simp [State.post]
  · simp only [State.post, if_true, reset_stall, Vector.getD, Vector.toArray_replicate, Array.getD_eq_getD_getElem?,
      Array.getElem?_replicate]
    split <;> rfl

/-! ### Counters -/

theorem coreValue_reset {r : Requester} {k : CoreId} {o : Nat} {p : Part} (h : rcHome r (.core k o) = some p) :
    coreValue State.reset k o = 0 := by
  simp only [rcHome, Option.ite_none_right_eq_some] at h
  obtain ⟨rfl | rfl | rfl | rfl | rfl | rfl | rfl | rfl | rfl | rfl
    | rfl | rfl | rfl | rfl | rfl | rfl | rfl | rfl | rfl | rfl
    | rfl | rfl | rfl | rfl | rfl | rfl | rfl, -⟩ := h <;>
    simp [coreValue, daValue, gmeValue]

/-- Every counter that a read clears is zero after reset, in the block that holds it. -/
theorem regValue_reset_counter {r : Requester} {g : Reg} {p : Part} (hp : rcHome r g = some p) :
    regValue State.reset r g = 0 := by
  have home := hp
  cases g <;> simp only [rcHome, Option.ite_none_right_eq_some, Option.some.injEq, reduceCtorEq] at hp
  case march i o =>
    obtain ⟨rfl | rfl, -⟩ := hp <;> simp [regValue, marchValue]
  case charter i o =>
    obtain ⟨rfl | rfl | rfl, -⟩ := hp <;> simp [regValue, charterValue]
  case ledger i o =>
    obtain ⟨rfl | rfl | rfl | rfl | rfl | rfl, -⟩ := hp <;> simp [regValue, ledgerValue]
  case settle i o =>
    obtain ⟨rfl | rfl, -⟩ := hp <;> simp [regValue, settleValue]
  case tally i o =>
    obtain ⟨rfl | rfl | rfl | rfl | group, -⟩ := hp
    case inr.inr.inr.inr => simp [regValue, tallyValue_group _ i group]
    all_goals simp [regValue, tallyValue]
  case copy e o =>
    obtain ⟨rfl | rfl | rfl, -⟩ := hp <;> simp [regValue, copyValue]
  case core k o => exact coreValue_reset home
  case route q o =>
    split at hp
    · next ho => obtain rfl | rfl := ho <;> simp [regValue, routeValue]
    · obtain ⟨rfl, -⟩ := Option.ite_none_right_eq_some.mp hp
      simp [regValue, routeValue]
  case stall i o =>
    obtain ⟨rfl | rfl | rfl | rfl, -⟩ := hp <;> simp [regValue, stallValue]
  case link o =>
    cases r with
    | link l =>
      obtain ⟨ho, -⟩ := Option.ite_none_right_eq_some.mp hp
      obtain rfl | rfl := ho <;> simp [regValue, linkValue]
    | _ => cases hp
  case post i secure n o =>
    obtain ⟨rfl, -⟩ := hp
    simp [regValue, postValue]
  case customs i o =>
    obtain ⟨rfl, -⟩ := hp
    simp [regValue, customsValue]

/-- Settles O5: the counters are zero, and each other register named is the default of its unit. -/
theorem resetValues : Obligations.ResetValues := by
  refine ⟨fun r g p => regValue_reset_counter, fun i => ?_, fun k => by simp, fun k => by simp [State.reset],
    fun k => by simp [State.reset], fun p => ?_, rfl, by decide, rfl, rfl⟩
  · have control : regValue State.reset .tollgate (.tally i 0x00) = 0x00002006 := by
      simp only [regValue, tallyValue, reset_stall]
      decide
    simp [control]
  · have neighbour : regValue State.reset .tollgate (.route p 0x18) = 0x7FFC0000 := by
      simp only [regValue, routeValue, reset_port]
      decide
    simp [neighbour]

end Sys2Proof.Machine
end

section
/-! PROOFS. The relay at the lead (R321 to R323, R339): a GO, its response and its timeout, and the queue of events. -/

namespace Sys2Proof.Machine

open Sys2Proof.Safety

@[simp] theorem modRelay_relay (s : State) (f : Relay → Relay) : (s.modRelay f).fabric.relay = f s.fabric.relay := rfl

/-! ### A write of RTE_RELAY_CTRL -/

/-- The fields that a write of RTE_RELAY_CTRL sets, whatever it starts (Table 11-10). -/
def relayFields (v : Word) (y : Relay) : Relay :=
  { y with vector := fld v 26 6, len := fld v 17 9, member := fld v 9 7, op := fld v 0 2 }

/-- Can the member that a GO names be reached from the lead? -/
def relayReaches (s : State) (v : Word) (i : Stall) (c : Charter) : Bool :=
  c.members.contains (fld v 9 7) && (exitPort s c (s.stall i) (fld v 9 7) c.caravanIx none).isSome

/-- The lead with a request issued. -/
def State.relayIssue (s : State) (v : Word) (i : Stall) (op : RelayOp) : State :=
  ((s.modRelay (relayFields v)).modRelay fun y => { y with
    busy := true, statusMember := fld v 9 7, issuedAt := s.time, stall := some i }).send (.relayRequest (fld v 9 7) op)

/-- The lead with a request that ended UNREACHABLE. -/
def State.relayUnreachable (s : State) (v : Word) (i : Stall) : State :=
  ((s.modRelay (relayFields v)).modRelay fun y => { y with statusMember := fld v 9 7, result := 3 }).record
    { reason := 0x080D, stall := some i, kind := 13, unit := (fld v 9 7 : Member).setWidth 16 }

section go
variable {s : State} {r : Requester} {v : Word} {c : Charter} {i : Stall} {op : RelayOp}

theorem writeRelayCtrl_go (lead : relayStall s = some (i, c)) (go : bit v 2 = true) (free : s.fabric.relay.busy = false)
    (named : relayOpOf s.fabric.relay (fld v 0 2) (fld v 17 9) = some op) :
    writeRelayCtrl v s = if relayReaches s v i c then s.relayIssue v i op else s.relayUnreachable v i := by
  simp only [writeRelayCtrl, lead, go, free, named]
  rfl

/-- A GO that issues a request leaves all but the relay and what is sent. -/
theorem relayIssue_spec (s : State) (v : Word) (i : Stall) (op : RelayOp) :
    (s.relayIssue v i op).out = s.out ++ [.relayRequest (fld v 9 7) op] ∧ (s.relayIssue v i op).fabric.relay.busy = true
    ∧ (s.relayIssue v i op).fabric.relay.statusMember = fld v 9 7 ∧ (s.relayIssue v i op).fabric.relay.issuedAt = s.time
    ∧ (s.relayIssue v i op).fabric.relay.result = s.fabric.relay.result ∧ Unchanged s (s.relayIssue v i op) [.out, .relay] :=
  ⟨rfl, rfl, rfl, rfl, rfl, unchanged_send _ (by simp)
    (unchanged_modRelay _ (by simp) (unchanged_modRelay _ (by simp) (unchanged_refl s _)))⟩

theorem relayUnreachable_spec (s : State) (v : Word) (i : Stall) :
    (s.relayUnreachable v i).fabric.relay.busy = s.fabric.relay.busy ∧ (s.relayUnreachable v i).fabric.relay.result = 3
    ∧ (s.relayUnreachable v i).fabric.relay.statusMember = fld v 9 7 ∧ Recorded s (s.relayUnreachable v i) 0x080D
    ∧ Unchanged s (s.relayUnreachable v i) [.log, .out, .relay] := by
  refine ⟨?_, ?_, ?_, recorded_record _ rfl rfl, unchanged_record _ (by simp) (by simp)
    (unchanged_modRelay _ (by simp) (unchanged_modRelay _ (by simp) (unchanged_refl s _)))⟩ <;>
    simp [State.relayUnreachable, relayFields]

theorem relayOpOf_read (y : Relay) (len : BitVec 9) : relayOpOf y 0 len = some (.read32 (y.target.setWidth 24)) := by
  simp [relayOpOf]

theorem relayOpOf_write (y : Relay) (len : BitVec 9) :
    relayOpOf y 1 len = some (.write32 (y.target.setWidth 24) y.data) := by
  simp [relayOpOf]

theorem relayOpOf_post (y : Relay) (len : BitVec 9) :
    relayOpOf y 2 len = some (.post (y.target.setWidth 24) len (y.buf.toList.take len.toNat)) := by
  simp [relayOpOf]

/-- OP names a request unless it is reserved. -/
theorem relayOpOf_isSome (y : Relay) {o : BitVec 2} (len : BitVec 9) (h : o ≠ 3) : ∃ op, relayOpOf y o len = some op := by
  unfold relayOpOf
  split
  · exact ⟨_, rfl⟩
  · split
    · exact ⟨_, rfl⟩
    · split
      · exact ⟨_, rfl⟩
      · exact absurd (by bv_omega) h

end go

/-! ### Responses and events -/

section answers
variable {s : State}

theorem runs_relayResponse (result : BitVec 3) (data : Word) (busy : s.fabric.relay.busy = true) :
    Runs (.relayResponse result data) s fun t =>
      t.fabric.relay = { s.fabric.relay with
        busy := false, result := result
        data := if s.fabric.relay.op = 0 ∧ result = 0 then data else s.fabric.relay.data }
      ∧ Unchanged s t [.relay] := by
  refine runs_of_exec (t := s.modRelay _) (if_pos busy) ⟨rfl, unchanged_modRelay _ (by simp) (unchanged_refl s _)⟩

theorem runs_relayTimeout (busy : s.fabric.relay.busy = true) : Runs .relayTimeout s fun t =>
    t.time = maxU s.time (s.fabric.relay.issuedAt + 100000)
    ∧ t.fabric.relay = { s.fabric.relay with busy := false, result := 2 }
    ∧ Recorded s t 0x080C ∧ Unchanged s t [.time, .log, .out, .relay] := by
  refine runs_of_exec (t := State.record _ _) (if_pos busy) ⟨?_, ?_, recorded_record _ rfl rfl,
    unchanged_record _ (by simp) (by simp) (unchanged_modRelay _ (by simp)
      (unchanged_atTime _ (by simp) (unchanged_refl s _)))⟩
  · simp only [record_time, State.modRelay, State.atTime_time]
  · rw [record_fabric]
    rfl

theorem exec_relayEvent {i : Stall} {c : Charter} (m : Member) (vec : BitVec 6) (lead : relayStall s = some (i, c)) :
    exec (.relayEvent i m vec) s = .next (if 64 ≤ s.fabric.relay.events.length
      then s.modRelay fun y => { y with lost := satAdd y.lost 1 }
      else (s.modRelay fun y => { y with events := y.events ++ [(m, vec)] }).raise i s.fabric.relay.vector) := by
  change execRelayEvent i m vec s = _
  simp only [execRelayEvent, lead, ne_eq, not_true, if_false]
  split <;> rfl

/-- An event that a queue with room takes raises the lead's vector. -/
theorem runs_relayEvent_room {i : Stall} {c : Charter} (m : Member) (vec : BitVec 6) (lead : relayStall s = some (i, c))
    (room : s.fabric.relay.events.length < 64) : Runs (.relayEvent i m vec) s fun t =>
      t.fabric.relay = { s.fabric.relay with events := s.fabric.relay.events ++ [(m, vec)] } ∧ Unchanged s t [.out, .relay]
      ∧ ∀ l k, (s.stall i).page.comp.owner = some (some k) → ownerLink (s.stall i).page = some l →
          t.out = s.out ++ [.msix l (64 * stallRank s l i + s.fabric.relay.vector.toNat)] := by
  refine runs_of_exec ((exec_relayEvent m vec lead).trans (by rw [if_neg (by omega)])) ⟨?_, ?_, fun l k owned link => ?_⟩
  · obtain ⟨os, raised, -⟩ := raise_eq (s.modRelay fun y => { y with events := y.events ++ [(m, vec)] }) i s.fabric.relay.vector
    rw [raised]
    rfl
  · exact unchanged_raise i _ (by simp) (unchanged_modRelay _ (by simp) (unchanged_refl s _))
  · have owned' : ((s.modRelay fun y => { y with events := y.events ++ [(m, vec)] }).stall i).page.comp.owner = some (some k) := owned
    have link' : ownerLink ((s.modRelay fun y => { y with events := y.events ++ [(m, vec)] }).stall i).page = some l := link
    simp only [State.raise, owned', link']
    rfl

theorem runs_relayEvent_full {i : Stall} {c : Charter} (m : Member) (vec : BitVec 6) (lead : relayStall s = some (i, c))
    (full : 64 ≤ s.fabric.relay.events.length) : Runs (.relayEvent i m vec) s fun t =>
      t.fabric.relay = { s.fabric.relay with lost := satAdd s.fabric.relay.lost 1 } ∧ Unchanged s t [.relay] :=
  runs_of_exec ((exec_relayEvent m vec lead).trans (by rw [if_pos full]))
    ⟨rfl, unchanged_modRelay _ (by simp) (unchanged_refl s _)⟩

theorem getLsbD_put {n : Nat} (v : BitVec n) (lo k : Nat) :
    (put v lo).getLsbD k = (decide (k < 32) && decide (lo ≤ k) && v.getLsbD (k - lo)) := by
  have inside : k < 32 → k - lo < 32 := fun h => by omega
  rw [put, BitVec.getLsbD_shiftLeft, BitVec.getLsbD_setWidth]
  by_cases h : k < 32 <;> by_cases h' : lo ≤ k <;> simp [h, h', inside, Nat.not_lt.mpr, Nat.lt_of_not_le]

/-- The three fields of an event word (Table 11-10). -/
theorem relayEvent_fields (m : Member) (vec : BitVec 6) :
    let w : Word := putB true 31 ||| put m 7 ||| put vec 0
    bit w 31 = true ∧ fld w 7 7 = m ∧ fld w 0 6 = vec := by
  have valid (k : Nat) : (putB true 31).getLsbD k = decide (k = 31) := by
    rw [show putB true 31 = BitVec.twoPow 32 31 from rfl, BitVec.getLsbD_twoPow]
    by_cases h : k = 31 <;> simp [h, eq_comm]
  refine ⟨?_, ?_, ?_⟩
  · simp [bit, valid]
  · refine BitVec.eq_of_getLsbD_eq fun k hk => ?_
    have above : vec.getLsbD (7 + k) = false := BitVec.getLsbD_of_ge _ _ (by omega)
    have below : 7 + k ≠ 31 ∧ 7 + k < 32 := by omega
    rw [fld, BitVec.getLsbD_extractLsb', BitVec.getLsbD_or, BitVec.getLsbD_or, valid, getLsbD_put, getLsbD_put]
    simp [above, below, hk]
  · refine BitVec.eq_of_getLsbD_eq fun k hk => ?_
    have below : k ≠ 31 ∧ k < 32 ∧ ¬7 ≤ k := by omega
    rw [fld, BitVec.getLsbD_extractLsb', BitVec.getLsbD_or, BitVec.getLsbD_or, valid, getLsbD_put, getLsbD_put]
    simp [below, hk]

theorem runs_relayEventRead {r : Requester} (may : mayRead s r (.route 0 0x8010) = true) :
    (∀ m vec rest, s.fabric.relay.events = (m, vec) :: rest → Runs (.relayEventRead r) s fun t =>
      bit t.data 31 = true ∧ fld t.data 7 7 = m ∧ fld t.data 0 6 = vec
      ∧ t.fabric.relay = { s.fabric.relay with events := rest } ∧ Unchanged s t [.data, .relay])
    ∧ (s.fabric.relay.events = [] → Runs (.relayEventRead r) s fun t => t.data = 0 ∧ Unchanged s t [.data]) := by
  have read : exec (.relayEventRead r) s = .next { (takeRelayEvent s).2 with data := (takeRelayEvent s).1 } := if_pos may
  refine ⟨fun m vec rest queue => ?_, fun queue => ?_⟩
  · have taken : takeRelayEvent s = (putB true 31 ||| put m 7 ||| put vec 0, s.modRelay fun y => { y with events := rest }) := by
      simp only [takeRelayEvent, queue]
    rw [taken] at read
    obtain ⟨valid, member, vector⟩ := relayEvent_fields m vec
    exact runs_of_exec read ⟨valid, member, vector, rfl,
      unchanged_set_data _ (by simp) (unchanged_modRelay _ (by simp) (unchanged_refl s _))⟩
  · have taken : takeRelayEvent s = (0, s) := by
      simp only [takeRelayEvent, queue]
    rw [taken] at read
    exact runs_of_exec read ⟨rfl, unchanged_set_data _ (by simp) (unchanged_refl s _)⟩

end answers

end Sys2Proof.Machine
end

section
/-! PROOFS. The relay at its target (R322, R383, R384, R443), and the statement about relayed accesses. -/

namespace Sys2Proof.Machine

open Sys2Proof.Safety

/-! ### The arriving request wakes the module (R443) -/

section target
variable {s : State} {i : Stall} {m : Member} {w : BitVec 24}

theorem rouse_eq (s : State) : s.rouse = { s with power := s.rouse.power } := by
  unfold State.rouse
  split <;> rfl

theorem rouse_power_of_idle (idle : s.power.state = 3) : s.rouse.power.state = 2 := by
  simp [State.rouse, idle]

theorem writeAccess_rouse (s : State) (r : Requester) (g : Reg) : writeAccess s.rouse r g = writeAccess s r g := by
  rw [rouse_eq]
  rfl

theorem mayRead_rouse (s : State) (r : Requester) (g : Reg) : mayRead s.rouse r g = mayRead s r g := by
  rw [rouse_eq]
  rfl

theorem rouse_post (s : State) (i : Stall) (secure : Bool) (n : Fin 24) : s.rouse.post i secure n = s.post i secure n := by
  simp only [State.post, rouse_stall]

theorem send_post (s : State) (o : Out) (i : Stall) (secure : Bool) (n : Fin 24) :
    (s.send o).post i secure n = s.post i secure n := rfl

theorem unchanged_rouse_power (s : State) {l : List Part} (hl : Part.power ∈ l) : Unchanged s s.rouse l :=
  unchanged_rouse (fun _ => hl) (unchanged_refl s l)

/-! ### A relayed access of MRC_REPEAT_LIMIT, as an on-module requester's -/

theorem allowed_relay_march (o : Nat) (own : relayOwns s i = true) : writeAccess s (.relay i) (.march i o) = .allow := by
  simp [writeAccess, isTw, ownerStall, own]

theorem mayRead_relay_march (o : Nat) (own : relayOwns s i = true) : mayRead s (.relay i) (.march i o) = true := by
  simp [mayRead, ownerStall, own]

theorem marchOff_sub (i : Stall) : marchOff i 0x2C - 4#26 = marchOff i 0x28 := by
  revert i
  decide

theorem readReg_repeatLimit (own : relayOwns s i = true) :
    readReg s (.relay i) (marchOff i 0x2C) 0 = ((s.stall i).march.repeatLimit.setWidth 32, s) := by
  simp [readReg, marchOff_sub, mayRead_relay_march, own, lowHalf, regValue, marchValue, setCounter, put]

theorem runs_relayRead (at_ : wordOff w = marchOff i 0x2C) (own : relayOwns s i = true) :
    Runs (.relayRequest i m (.read32 w)) s fun t =>
      t.out = s.out ++ [.relayResponse i m 0 ((s.stall i).march.repeatLimit.setWidth 32)]
      ∧ (s.power.state = 3 → t.power.state = 2) ∧ Unchanged s t [.out, .power] := by
  have own' : relayOwns s.rouse i = true := by rw [relayOwns, rouse_stall]; exact own
  refine runs_of_exec (t := s.rouse.send (.relayResponse i m 0 ((s.stall i).march.repeatLimit.setWidth 32))) ?_
    ⟨by simp [State.send], rouse_power_of_idle, unchanged_send _ (by simp) (unchanged_rouse_power s (by simp))⟩
  change relayServe i m (.read32 w) s.rouse = _
  simp only [relayServe, at_, readReg_repeatLimit own', rouse_stall]
  simp [meetsDebug]

theorem relayRejected_march (own : wordOff w = marchOff i 0x2C) : relayRejected s i (wordOff w) = false := by
  simp [relayRejected, own]

theorem runs_relayWrite (v : Word) (at_ : wordOff w = marchOff i 0x2C) (own : relayOwns s i = true) :
    Runs (.relayRequest i m (.write32 w v)) s fun t =>
      (t.stall i).march.repeatLimit = fld v 0 8 ∧ t.out = s.out ++ [.relayResponse i m 0 0]
      ∧ (s.power.state = 3 → t.power.state = 2) ∧ Unchanged s t [.out, .power, .stall i .march] := by
  have own' : relayOwns s.rouse i = true := by rw [relayOwns, rouse_stall]; exact own
  refine runs_of_exec (t := (s.rouse.modMarch i fun x => { x with repeatLimit := fld v 0 8 }).send (.relayResponse i m 0 0)) ?_
    ⟨by simp, by simp [State.send], rouse_power_of_idle,
      unchanged_send _ (by simp) (unchanged_modMarch _ (by simp) (unchanged_rouse_power s (by simp)))⟩
  have allowed : Allowed s.rouse (.relay i) (marchOff i 0x2C) := by
    rw [Allowed, regOf_marchOff i 0x2C (by decide)]
    exact allowed_relay_march 0x2C own'
  have taken : s.rouse.hostWrite (.relay i) (wordOff w) v = s.rouse.modMarch i fun x => { x with repeatLimit := fld v 0 8 } := by
    rw [at_, hostWrite_allowed v allowed]
    simp [writeReg, testBusy, writableLow, writableHigh, writeAlone, writeMarchReg]
  change relayServe i m (.write32 w v) s.rouse = _
  simp only [relayServe, taken, relayRejected_march at_]
  simp [at_, meetsDebug]

/-! ### A relayed post -/

/-- A post that takes relayed messages: the relay may write it, and it is inbound on a page that is not resetting. -/
structure TakesRelayed (s : State) (i : Stall) (off : BitVec 26) (n : Fin 24) (o : Nat) : Prop where
  named : regOf off = .post i false n o
  allowed : writeAccess s (.relay i) (regOf off) = .allow
  inbound : outbound false n.val = false
  inside : o ≤ 0x100
  running : (s.stall i).page.state ≠ 1#4

theorem TakesRelayed.rejected_eq {off : BitVec 26} {n : Fin 24} {o : Nat} (h : TakesRelayed s i off n o) :
    relayRejected s.rouse i off = ((s.post i false n).full || claimedByOther (s.post i false n) (.relay i)) := by
  have allowed := h.allowed
  rw [h.named] at allowed
  simp [relayRejected, h.named, writeAccess_rouse, allowed, postExists, h.inbound, h.inside, h.running, rouse_post]

theorem TakesRelayed.relayPostTo_eq {off : BitVec 26} {n : Fin 24} {o : Nat} (h : TakesRelayed s i off n o)
    (len : BitVec 9) (buf : List Byte) : relayPostTo i off len buf s.rouse =
      if (s.post i false n).full || claimedByOther (s.post i false n) (.relay i) then s.rouse.send (.busError (.relay i))
      else s.rouse.modPost i false n fun p =>
        sendPost { p with buf := fillBuf (Vector.replicate 256 0) buf } (.relay i) (put len 0) (noReceiver false n) := by
  have allowed := h.allowed
  rw [h.named] at allowed
  simp [relayPostTo, h.named, writeAccess_rouse, allowed, postExists, h.inbound, h.running, rouse_post, State.rejectPost]

theorem TakesRelayed.exec_relayPost {n : Fin 24} {o : Nat} (h : TakesRelayed s i (wordOff w) n o) (len : BitVec 9)
    (buf : List Byte) : exec (.relayRequest i m (.post w len buf)) s = .next
      ((relayPostTo i (wordOff w) len buf s.rouse).send (.relayResponse i m
        (if (s.post i false n).full || claimedByOther (s.post i false n) (.relay i) then 1 else 0) 0)) := by
  change relayServe i m (.post w len buf) s.rouse = _
  simp only [relayServe, h.rejected_eq]

theorem TakesRelayed.runs_taken {n : Fin 24} {o : Nat} (h : TakesRelayed s i (wordOff w) n o) (len : BitVec 9)
    (buf : List Byte) (room : (s.post i false n).full = false) (free : claimedByOther (s.post i false n) (.relay i) = false) :
    Runs (.relayRequest i m (.post w len buf)) s fun t =>
      (t.post i false n).full = true ∧ t.out = s.out ++ [.relayResponse i m 0 0]
      ∧ Unchanged s t [.out, .power, .stall i .posts] := by
  have exec_eq := h.exec_relayPost (m := m) len buf
  rw [h.relayPostTo_eq] at exec_eq
  simp only [room, free, Bool.or_self, Bool.false_eq_true, if_false] at exec_eq
  refine runs_of_exec exec_eq ⟨?_, ?_, unchanged_send _ (by simp)
    (unchanged_modPost _ (by simp) (unchanged_rouse_power s (by simp)))⟩
  · rw [send_post, post_modPost_self _ i false n _ (by simp)]
    rfl
  · exact congrArg (· ++ [Out.relayResponse i m 0 0]) (rouse_out s)

theorem TakesRelayed.runs_rejected {n : Fin 24} {o : Nat} (h : TakesRelayed s i (wordOff w) n o) (len : BitVec 9)
    (buf : List Byte) (taken : (s.post i false n).full = true ∨ claimedByOther (s.post i false n) (.relay i) = true) :
    Runs (.relayRequest i m (.post w len buf)) s fun t =>
      t.out = s.out ++ [.busError (.relay i), .relayResponse i m 1 0] ∧ Unchanged s t [.out, .power] := by
  have exec_eq := h.exec_relayPost (m := m) len buf
  have rejected : ((s.post i false n).full || claimedByOther (s.post i false n) (.relay i)) = true := by simpa using taken
  rw [h.relayPostTo_eq] at exec_eq
  simp only [rejected, if_true] at exec_eq
  exact runs_of_exec exec_eq ⟨by simp [State.send], unchanged_send _ (by simp)
    (unchanged_send _ (by simp) (unchanged_rouse_power s (by simp)))⟩

end target

/-- Settles O56: at the lead by the GO and what ends it, at the target by the access that it makes as a requester there. -/
theorem relayedAccessesReachTheirMember : Obligations.RelayedAccessesReachTheirMember := by
  intro s y asked reachable issued
  have reaches (v : Word) (c : Charter) (i : Stall) : relayReaches s v i c = true ↔ reachable v c i := by
    simp [relayReaches, reachable, Option.isSome_iff_ne_none]
  have written {r : Requester} {v : Word} {c : Charter} {i : Stall} (h : asked r v c i) {op : RelayOp}
      (named : relayOpOf s.fabric.relay (fld v 0 2) (fld v 17 9) = some op) :
      s.guardWrite r (routeOff 0 0x8000) (writeRelayCtrl v)
        = if relayReaches s v i c then s.relayIssue v i op else s.relayUnreachable v i := by
    obtain ⟨allowed, lead, go, free⟩ := h
    rw [guardWrite_allowed _ allowed, writeRelayCtrl_go lead go free named]
  have issues {r : Requester} {v : Word} {c : Charter} {i : Stall} (h : asked r v c i) (far : reachable v c i) {op : RelayOp}
      (named : relayOpOf s.fabric.relay (fld v 0 2) (fld v 17 9) = some op) {cmd : Instr}
      (ctrl : exec cmd s = .next (s.guardWrite r (routeOff 0 0x8000) (writeRelayCtrl v))) : Runs cmd s (issued v op) := by
    rw [written h named, if_pos ((reaches v c i).mpr far)] at ctrl
    exact runs_of_exec ctrl (relayIssue_spec s v i op)
  refine ⟨fun r v c i h far => ⟨fun op => ?_, fun op => ?_, fun op => ?_⟩, fun r v c i h far known => ?_,
    runs_relayResponse, runs_relayTimeout,
    fun i c m vec lead => ⟨runs_relayEvent_room m vec lead, runs_relayEvent_full m vec lead⟩,
    fun r => runs_relayEventRead, fun i m w => ⟨runs_relayRead, runs_relayWrite, ?_⟩⟩
  · exact issues h far (op ▸ relayOpOf_read y _) rfl
  · exact issues h far (op ▸ relayOpOf_write y _) rfl
  · exact issues h far (op ▸ relayOpOf_post y _) rfl
  · obtain ⟨op, named⟩ := relayOpOf_isSome s.fabric.relay (fld v 17 9) known
    obtain ⟨-, -, -, free⟩ := id h
    obtain ⟨busy, result, member, recorded, frame⟩ := relayUnreachable_spec s v i
    have exec_eq : exec (.relayRead32 r v) s = .next (s.relayUnreachable v i) := by
      change Host.Outcome.next (s.guardWrite r (routeOff 0 0x8000) (writeRelayCtrl v)) = _
      rw [written h named, if_neg (fun reach => far ((reaches v c i).mp reach))]
    exact runs_of_exec exec_eq ⟨busy.trans free, result, member, recorded, frame⟩
  · intro n o len buf named allowed inbound inside q running
    have takes : TakesRelayed s i (wordOff w) n o := ⟨named, allowed, inbound, inside, running⟩
    exact ⟨takes.runs_taken len buf, takes.runs_rejected len buf⟩

end Sys2Proof.Machine
end

section
/-! PROOFS. The lanes of a route port (R324 to R326): retirement at the announced flit, and recalibration. -/

namespace Sys2Proof.Machine

open Sys2Proof.Safety

variable {s t : State} {l : List Part} {p : PortId}

/-! ### Lanes in service (R324, R325) -/

section lanes
variable (v : Vector (BitVec 2) 18) (k : Fin 18)

theorem lanesFix_get : (lanesFix v).get k = if v.get k == 2 || v.get k == 3 then v.get k
    else if (((List.range 18).filter fun j => v.getD j 0 != 2 && v.getD j 0 != 3).take 16).contains k.val then 0 else 1 :=
  Vector.getElem_ofFn k.isLt

/-- A retired lane and one in recalibration keep their state; the others carry traffic or are spare. -/
theorem lanesFix_cases : (v.get k = 2 ∨ v.get k = 3) ∧ (lanesFix v).get k = v.get k
    ∨ (v.get k ≠ 2 ∧ v.get k ≠ 3) ∧ ((lanesFix v).get k = 0 ∨ (lanesFix v).get k = 1) := by
  rw [lanesFix_get]
  split
  · next out => exact .inl ⟨by simpa only [Bool.or_eq_true, beq_iff_eq] using out, rfl⟩
  · next served =>
    refine .inr ⟨by simpa only [Bool.or_eq_true, beq_iff_eq, not_or] using served, ?_⟩
    split
    · exact .inl rfl
    · exact .inr rfl

theorem lanesFix_eq_two_iff : (lanesFix v).get k = 2 ↔ v.get k = 2 := by
  obtain ⟨-, same⟩ | ⟨⟨served, -⟩, zero | one⟩ := lanesFix_cases v k
  · rw [same]
  · exact iff_of_false (by rw [zero]; decide) served
  · exact iff_of_false (by rw [one]; decide) served

theorem lanesFix_recalibrating (h : v.get k = 3) : (lanesFix v).get k = 3 := by
  simp [lanesFix, h]

theorem lanesFix_served (h : v.get k = 0) : (lanesFix v).get k = 0 ∨ (lanesFix v).get k = 1 := by
  obtain ⟨out, -⟩ | ⟨-, served⟩ := lanesFix_cases v k
  · simp [h] at out
  · exact served

theorem lanes_get_set (j : Fin 18) (x : BitVec 2) : (v.set j x).get k = if j = k then x else v.get k := by
  by_cases h : j = k
  · rw [if_pos h]
    exact vector_get_set_eq v x j.isLt (congrArg Fin.val h)
  · rw [if_neg h]
    exact vector_get_set_ne v x j.isLt fun e => h (Fin.ext e)

/-- Switches retire the lanes that they name, in whatever order. -/
theorem switchedLanes_eq_two_iff (switches : List (BitVec 12 × Fin 18)) :
    (switchedLanes v switches).get k = 2 ↔ v.get k = 2 ∨ ∃ e ∈ switches, e.2 = k := by
  unfold switchedLanes
  induction switches generalizing v with
  | nil => simp
  | cons e es ih =>
    rw [List.foldl_cons, ih, lanesFix_eq_two_iff, lanes_get_set]
    by_cases h : e.2 = k <;> simp [h]

theorem workingLanes_eq_card : workingLanes v = (Finset.univ.filter fun k => v.get k ≠ 2).card := by
  have listed : v.toList = (List.finRange 18).map v.get := by
    apply List.ext_getElem
    · simp
    · intro n _ _
      simp [Vector.get]
  rw [workingLanes, listed, List.filter_map, List.length_map, Finset.card_def, Finset.filter_val, Fin.univ_def,
    Multiset.filter_coe, Multiset.coe_card]
  congr 1
  refine List.filter_congr fun k _ => ?_
  simp only [Function.comp_apply, bne, ne_eq, decide_not]
  rfl

/-- One more retired lane is at most one less that works. -/
theorem workingLanes_le_succ {v w : Vector (BitVec 2) 18} {k : Fin 18} (h : ∀ j, w.get j = 2 ↔ v.get j = 2 ∨ k = j) :
    workingLanes v ≤ workingLanes w + 1 := by
  rw [workingLanes_eq_card, workingLanes_eq_card]
  refine (Finset.card_le_card fun j hj => ?_).trans (Finset.card_insert_le k _)
  simp only [Finset.mem_filter, Finset.mem_univ, true_and, Finset.mem_insert, ne_eq, h] at hj ⊢
  tauto

end lanes

/-! ### The fit proofs of a port (R318, R325) -/

theorem unchanged_refitPort_of_stalls (was : State) (p : PortId) (hl : ∀ i, ∀ q ∈ refitParts i, q ∈ l) (h : Unchanged s t l) :
    Unchanged s (t.refitPort was p) l := by
  unfold State.refitPort
  split
  · exact h
  · split
    · exact unchanged_refit (hl _) h
    · exact h

theorem refitPort_of_capacity {was : State} (h : portCapacity t p = portCapacity was p) : t.refitPort was p = t :=
  if_pos (.inr h)

/-- The repeated proofs of a port leave ports, links and the log. -/
theorem refitPort_frame (t was : State) (p : PortId) : Unchanged t (t.refitPort was p) (allStalls.flatMap refitParts) :=
  unchanged_refitPort_of_stalls was p (fun i _ hq => List.mem_flatMap.mpr ⟨i, mem_allStalls i, hq⟩) (unchanged_refl t _)

theorem refitPort_port (t was : State) (p q : PortId) : (t.refitPort was p).port q = t.port q :=
  refitPort_frame t was p (.port q) (by simp [refitParts])

theorem refitPort_lnk (t was : State) (p q : PortId) : (t.refitPort was p).lnk q = t.lnk q :=
  refitPort_frame t was p (.lnk q) (by simp [refitParts])

theorem refitPort_log (t was : State) (p : PortId) : (t.refitPort was p).log = t.log :=
  refitPort_frame t was p .log (by simp [refitParts])

/-! ### A retired lane at the transmitting end (R324) -/

/-- A transmit lane listed as retired, with its event and its record. -/
def State.listLane (s : State) (p : PortId) (lane : Fin 18) : State :=
  ((s.retire 4 (BitVec.ofNat 16 (64 * p.val + lane.val)) 0x0801).portEvent p 0x0801 false lane.val).recordPause
    { reason := 0x0801, cls := clsRetired, stall := portStall s p, kind := 4, unit := BitVec.ofNat 16 (64 * p.val + lane.val) }

/-- The switch announced, and made where the port has reached its flit. -/
def State.leaveLane (s : State) (p : PortId) (lane : Fin 18) (seq : BitVec 12) : State :=
  ((s.listLane p lane).modLnk p fun l => { l with switches := l.switches ++ [(seq, lane)] }).checkSwitch p

section retire
variable (s) (p) (lane : Fin 18) (seq : BitVec 12)

theorem unchanged_listLane : Unchanged s (s.listLane p lane) [.free, .log, .out, .port p] :=
  unchanged_recordPause _ (by simp) (by simp) (by simp)
    (unchanged_modPort _ (by simp) (unchanged_retire _ _ _ _ (by simp) (unchanged_refl s _)))

theorem listLane_port : (s.listLane p lane).port p = { s.port p with
    lastReason := 0x0801, lastDir := false, lastLane := BitVec.ofNat 5 lane.val } := by
  let noted := (s.retire 4 (BitVec.ofNat 16 (64 * p.val + lane.val)) 0x0801).portEvent p 0x0801 false lane.val
  have recorded : (s.listLane p lane).port p = noted.port p :=
    unchanged_recordPause (l := [.free, .log, .out]) _ (by simp) (by simp) (by simp) (unchanged_refl noted _) (.port p) (by simp)
  have listed : (s.retire 4 (BitVec.ofNat 16 (64 * p.val + lane.val)) 0x0801).port p = s.port p :=
    unchanged_retire (l := [.log]) _ _ _ _ (by simp) (unchanged_refl s _) (.port p) (by simp)
  simp only [recorded, noted, State.portEvent, State.modPort_port_self, listed]

theorem listLane_lnk (q : PortId) : (s.listLane p lane).lnk q = s.lnk q := unchanged_listLane s p lane (.lnk q) (by simp)

theorem listed_listLane : Listed (s.listLane p lane) 4 (64 * p.val + lane.val) := by
  have listed : Listed (s.retire 4 (BitVec.ofNat 16 (64 * p.val + lane.val)) 0x0801) 4 (64 * p.val + lane.val) :=
    listed_retire s 4 0x0801 (by omega)
  exact Listed.recordPause (s := (s.retire 4 _ 0x0801).portEvent p 0x0801 false lane.val) listed _

theorem recorded_listLane : Recorded s (s.listLane p lane) 0x0801 :=
  recorded_recordPause _ (retire_newest s _ _ _) (retire_ring s _ _ _)

theorem leaveLane_lnk : (s.leaveLane p lane seq).lnk p = { s.lnk p with
    switches := ((s.lnk p).switches ++ [(seq, lane)]).filter fun e => !(e.1 == (s.lnk p).txSeq) } := by
  simp [State.leaveLane, State.checkSwitch, State.switchLanes, listLane_lnk]

theorem leaveLane_port : (s.leaveLane p lane seq).port p = { s.port p with
    lastReason := 0x0801, lastDir := false, lastLane := BitVec.ofNat 5 lane.val
    txLanes := switchedLanes (s.port p).txLanes
      (((s.lnk p).switches ++ [(seq, lane)]).filter fun e => e.1 == (s.lnk p).txSeq) } := by
  simp [State.leaveLane, State.checkSwitch, State.switchLanes, listLane_lnk, listLane_port]

theorem unchanged_leaveLane : Unchanged s (s.leaveLane p lane seq) [.free, .log, .out, .port p, .lnk p] :=
  unchanged_checkSwitch (by simp) (by simp)
    (unchanged_modLnk _ (by simp) (Unchanged.mono (unchanged_listLane s p lane) (by simp)))

/-- Once every announced switch is made, the announced lane is retired beside those before it. -/
theorem leaveLane_soon (k : Fin 18) :
    (txLanesSoon (s.leaveLane p lane seq) p).get k = 2 ↔ (txLanesSoon s p).get k = 2 ∨ lane = k := by
  simp only [txLanesSoon, leaveLane_lnk, leaveLane_port, switchedLanes_eq_two_iff, List.mem_filter, List.mem_append,
    List.mem_singleton, Bool.not_eq_true']
  constructor
  · rintro ((h | ⟨e, ⟨he | rfl, -⟩, rfl⟩) | ⟨e, ⟨he | rfl, -⟩, rfl⟩)
    · exact .inl (.inl h)
    · exact .inl (.inr ⟨e, he, rfl⟩)
    · exact .inr rfl
    · exact .inl (.inr ⟨e, he, rfl⟩)
    · exact .inr rfl
  · have either (e : BitVec 12 × Fin 18) (he : e ∈ (s.lnk p).switches ∨ e = (seq, lane)) :
        ((s.port p).txLanes.get e.2 = 2 ∨ ∃ e', ((e' ∈ (s.lnk p).switches ∨ e' = (seq, lane)) ∧ (e'.1 == (s.lnk p).txSeq) = true)
          ∧ e'.2 = e.2) ∨ ∃ e', ((e' ∈ (s.lnk p).switches ∨ e' = (seq, lane)) ∧ (e'.1 == (s.lnk p).txSeq) = false) ∧ e'.2 = e.2 := by
      cases now : e.1 == (s.lnk p).txSeq
      · exact .inr ⟨e, ⟨he, now⟩, rfl⟩
      · exact .inl (.inr ⟨e, ⟨he, now⟩, rfl⟩)
    rintro ((h | ⟨e, he, rfl⟩) | rfl)
    · exact .inl (.inl h)
    · exact either e (.inl he)
    · exact either (seq, lane) (.inr rfl)

end retire

section retireMessage
variable {lane : Fin 18} {seq : BitVec 12}

theorem exec_retireMessage_retired (h : (txLanesSoon s p).get lane = 2) : exec (.retireMessage p lane seq) s = .next s := by
  change execRetireMessage p lane seq s = _
  simp [execRetireMessage, h]

/-- With a lane to lose the port stays up. -/
theorem exec_retireMessage (fresh : (txLanesSoon s p).get lane ≠ 2) (idle : (s.lnk p).recalOf false = none)
    (many : 13 ≤ workingLanes (txLanesSoon s p)) :
    exec (.retireMessage p lane seq) s = .next ((s.leaveLane p lane seq).refitPort s p) := by
  have enough : ¬workingLanes (txLanesSoon (s.leaveLane p lane seq) p) < 12 := by
    have := workingLanes_le_succ (leaveLane_soon s p lane seq)
    omega
  change execRetireMessage p lane seq s = _
  have fresh' : ((txLanesSoon s p).get lane == 2) = false := by simpa using fresh
  simp only [execRetireMessage, fresh', idle, Bool.false_eq_true, if_false]
  exact congrArg (fun u : State => Host.Outcome.next (u.refitPort s p)) (if_neg enough)

theorem runs_retireMessage (fresh : (txLanesSoon s p).get lane ≠ 2) (idle : (s.lnk p).recalOf false = none)
    (many : 13 ≤ workingLanes (txLanesSoon s p)) : Runs (.retireMessage p lane seq) s fun t =>
      ((s.lnk p).txSeq = seq → (t.port p).txLanes.get lane = 2 ∧ (seq, lane) ∉ (t.lnk p).switches)
      ∧ ((s.lnk p).txSeq ≠ seq → (∀ e ∈ (s.lnk p).switches, e.1 ≠ (s.lnk p).txSeq) →
          (t.port p).txLanes = (s.port p).txLanes ∧ (t.lnk p).switches = (s.lnk p).switches ++ [(seq, lane)])
      ∧ (txLanesSoon t p).get lane = 2
      ∧ (∃ e ∈ t.log.retired, e.kind = 4 ∧ e.index.toNat = 64 * p.val + lane.val) ∧ Recorded s t 0x0801
      ∧ (t.port p).state = (s.port p).state
      ∧ (portCapacity t p = portCapacity s p → Unchanged s t [.free, .log, .out, .port p, .lnk p])
      ∧ Unchanged s t ([.free, .log, .out, .port p, .lnk p]
          ++ allStalls.flatMap fun j => ([.march, .seq, .charter] : List StallPart).map (Part.stall j)) := by
  refine runs_of_exec (exec_retireMessage fresh idle many) ?_
  have log : ((s.leaveLane p lane seq).refitPort s p).log = (s.listLane p lane).log := refitPort_log _ s p
  have soon : txLanesSoon ((s.leaveLane p lane seq).refitPort s p) p = txLanesSoon (s.leaveLane p lane seq) p := by
    rw [txLanesSoon, refitPort_port, refitPort_lnk]
    rfl
  have capacity : portCapacity ((s.leaveLane p lane seq).refitPort s p) p = portCapacity (s.leaveLane p lane seq) p := by
    simp only [portCapacity, soon, refitPort_port]
  refine ⟨fun now => ?_, fun later apart => ?_, ?_, ?_, Recorded.of_log_eq (recorded_listLane s p lane) log, ?_, fun same => ?_, ?_⟩
  · rw [refitPort_port, refitPort_lnk, leaveLane_port, leaveLane_lnk]
    exact ⟨(switchedLanes_eq_two_iff _ lane _).mpr (.inr ⟨(seq, lane), by simp [now], rfl⟩), by simp [now]⟩
  · rw [refitPort_port, refitPort_lnk, leaveLane_port, leaveLane_lnk]
    have none_now : ((s.lnk p).switches ++ [(seq, lane)]).filter (fun e => e.1 == (s.lnk p).txSeq) = [] := by
      refine List.filter_eq_nil_iff.mpr fun e he => ?_
      obtain he | he := List.mem_append.mp he
      · simpa using apart e he
      · rw [List.mem_singleton.mp he]
        simpa using fun now => later (Eq.symm now)
    have all_later : ((s.lnk p).switches ++ [(seq, lane)]).filter (fun e => !(e.1 == (s.lnk p).txSeq))
        = (s.lnk p).switches ++ [(seq, lane)] := by
      rw [List.filter_eq_self]
      intro e he
      have := List.filter_eq_nil_iff.mp none_now e he
      simpa using this
    rw [none_now, all_later]
    exact ⟨rfl, rfl⟩
  · rw [soon]
    exact (leaveLane_soon s p lane seq lane).mpr (.inr rfl)
  · rw [log]
    exact listed_listLane s p lane
  · rw [refitPort_port, leaveLane_port]
  · rw [refitPort_of_capacity (capacity.symm.trans same)]
    exact unchanged_leaveLane s p lane seq
  · refine unchanged_refitPort_of_stalls s p (fun i q hq => ?_) (Unchanged.mono (unchanged_leaveLane s p lane seq)
      fun q hq => List.mem_append_left _ hq)
    simp only [refitParts, List.mem_cons, List.not_mem_nil, or_false] at hq
    obtain rfl | rfl | rfl | rfl := hq <;> simp [mem_allStalls]

end retireMessage

/-! ### Recalibration (R326) -/

/-- The lanes of a direction. -/
def Port.lanes (x : Port) (rx : Bool) : Vector (BitVec 2) 18 := if rx then x.rxLanes else x.txLanes

/-- The lanes of a direction replaced. -/
def Port.setLanes (x : Port) (rx : Bool) (v : Vector (BitVec 2) 18) : Port :=
  if rx then { x with rxLanes := v } else { x with txLanes := v }

section recalibration
variable (x : Port) (l : LinkLayer) (rx : Bool) (v : Vector (BitVec 2) 18) (o : Option (Fin 18))

@[simp] theorem setLanes_lanes : (x.setLanes rx v).lanes rx = v := by cases rx <;> rfl
@[simp] theorem setLanes_lanes_other : (x.setLanes rx v).lanes (!rx) = x.lanes (!rx) := by cases rx <;> rfl
@[simp] theorem setLanes_auto : (x.setLanes rx v).auto = x.auto := by cases rx <;> rfl

@[simp] theorem setRecal_recalOf : (l.setRecal rx o).recalOf rx = o := by
  cases rx <;> exact vector_get_set_eq _ _ (by decide) rfl

@[simp] theorem setRecal_recalOf_other : (l.setRecal rx o).recalOf (!rx) = l.recalOf (!rx) := by
  cases rx <;> exact vector_get_set_ne _ _ (by decide) (by decide)

@[simp] theorem setRecal_recalNext : (l.setRecal rx o).recalNext = l.recalNext := by cases rx <;> rfl

end recalibration

section recal
variable {rx : Bool} {lane : Fin 18}

theorem recalibrate_eq (s : State) (p : PortId) (rx : Bool) (lane : Fin 18) : s.recalibrate p rx lane =
    if ((s.lnk p).recalOf rx).isSome || ((s.port p).lanes rx).get lane == 2 then s
    else if !((s.port p).lanes rx).toList.contains 1 then s.modPort p fun x => { x with recalSkipped := satAdd x.recalSkipped 1 }
    else (s.modPort p fun x => x.setLanes rx (lanesFix (((s.port p).lanes rx).set lane 3))).modLnk p
      fun l => l.setRecal rx (some lane) := rfl

/-- A lane is taken out where a spare carries its traffic. -/
theorem recalibrate_spare (idle : (s.lnk p).recalOf rx = none) (works : ((s.port p).lanes rx).get lane ≠ 2)
    (spare : 1 ∈ ((s.port p).lanes rx).toList) : s.recalibrate p rx lane =
      (s.modPort p fun x => x.setLanes rx (lanesFix (((s.port p).lanes rx).set lane 3))).modLnk p
        fun l => l.setRecal rx (some lane) := by
  rw [recalibrate_eq, if_neg (by simpa only [idle, Option.isSome_none, Bool.false_or, beq_iff_eq] using works),
    if_neg (by simpa only [Bool.not_eq_true', List.contains_eq_mem, decide_eq_false_iff_not, not_not] using spare)]

theorem recalibrate_skipped (idle : (s.lnk p).recalOf rx = none) (works : ((s.port p).lanes rx).get lane ≠ 2)
    (full : 1 ∉ ((s.port p).lanes rx).toList) : s.recalibrate p rx lane =
      s.modPort p fun x => { x with recalSkipped := satAdd x.recalSkipped 1 } := by
  rw [recalibrate_eq, if_neg (by simpa only [idle, Option.isSome_none, Bool.false_or, beq_iff_eq] using works),
    if_pos (by simpa only [Bool.not_eq_true', List.contains_eq_mem, decide_eq_false_iff_not] using full)]

theorem lanesFix_set_recalibrating (v : Vector (BitVec 2) 18) (lane : Fin 18) : (lanesFix (v.set lane 3)).get lane = 3 :=
  lanesFix_recalibrating _ lane (by rw [lanes_get_set, if_pos rfl])

section go
variable {r : Requester} {v : Word} (h : fldN v 0 5 < 18) (allowed : Allowed s r (routeOff p 4)) (go : bit v 7 = true)
include allowed go

/-- A write of RTE_CTRL sets its fields and starts the lane that it names (Table 11-6). -/
theorem exec_recalGo : exec (.recalGo r p v) s = .next ((s.modPort p fun x => { x with
    auto := bit v 8, recalDir := bit v 6, recalLane := fld v 0 5 }).recalibrate p (bit v 6) ⟨fldN v 0 5, h⟩) := by
  change Host.Outcome.next (s.guardWrite r (routeOff p 4) (writeRteCtrl p v)) = _
  rw [guardWrite_allowed _ allowed]
  simp [writeRteCtrl, go, h]

theorem runs_recalGo (idle : (s.lnk p).recalOf (bit v 6) = none)
    (works : ((s.port p).lanes (bit v 6)).get ⟨fldN v 0 5, h⟩ ≠ 2) :
    (1 ∈ ((s.port p).lanes (bit v 6)).toList → Runs (.recalGo r p v) s fun t =>
      ((t.port p).lanes (bit v 6)).get ⟨fldN v 0 5, h⟩ = 3 ∧ t.lnk p = (s.lnk p).setRecal (bit v 6) (some ⟨fldN v 0 5, h⟩)
      ∧ (t.port p).lanes (!bit v 6) = (s.port p).lanes (!bit v 6)
      ∧ (t.port p).auto = bit v 8 ∧ Unchanged s t [.port p, .lnk p])
    ∧ (1 ∉ ((s.port p).lanes (bit v 6)).toList → Runs (.recalGo r p v) s fun t =>
      (t.port p).recalSkipped = satAdd (s.port p).recalSkipped 1 ∧ (t.port p).rxLanes = (s.port p).rxLanes
      ∧ (t.port p).txLanes = (s.port p).txLanes ∧ Unchanged s t [.port p]) := by
  let written := s.modPort p fun x => { x with auto := bit v 8, recalDir := bit v 6, recalLane := fld v 0 5 }
  have same (rx : Bool) : (written.port p).lanes rx = (s.port p).lanes rx := by
    rw [State.modPort_port_self]
    rfl
  have auto : (written.port p).auto = bit v 8 := by rw [State.modPort_port_self]
  refine ⟨fun spare => ?_, fun full => ?_⟩
  · have taken := recalibrate_spare (s := written) idle (by rwa [same]) (by rwa [same])
    refine runs_of_exec ((exec_recalGo h allowed go).trans (congrArg _ taken)) ⟨?_, ?_, ?_, ?_,
      unchanged_modLnk _ (by simp) (unchanged_modPort _ (by simp) (unchanged_modPort _ (by simp) (unchanged_refl s _)))⟩
    · rw [State.modLnk_port, State.modPort_port_self, setLanes_lanes, lanesFix_set_recalibrating]
    · rw [State.modLnk_lnk_self]
      rfl
    · rw [State.modLnk_port, State.modPort_port_self, setLanes_lanes_other, same]
    · rw [State.modLnk_port, State.modPort_port_self, setLanes_auto, auto]
  · have skipped := recalibrate_skipped (s := written) idle (by rwa [same]) (by rwa [same])
    refine runs_of_exec ((exec_recalGo h allowed go).trans (congrArg _ skipped)) ⟨?_, ?_, ?_,
      unchanged_modPort _ (by simp) (unchanged_modPort _ (by simp) (unchanged_refl s _))⟩ <;>
      simp [written]

end go

theorem exec_recalAuto (auto : (s.port p).auto = true) : exec (.recalAuto p) s = .next
    ((s.modLnk p fun l => { l with recalNext := (s.lnk p).recalNext + 1 }).recalibrate p (decide (18 ≤ (s.lnk p).recalNext.val))
      ⟨(s.lnk p).recalNext.val % 18, Nat.mod_lt _ (by decide)⟩) := if_pos auto

/-- The next lane in turn is recalibrated, or skipped for want of a spare (R326). -/
theorem runs_recalAuto (auto : (s.port p).auto = true) (hl : lane = ⟨(s.lnk p).recalNext.val % 18, Nat.mod_lt _ (by decide)⟩)
    (hr : rx = decide (18 ≤ (s.lnk p).recalNext.val)) (idle : (s.lnk p).recalOf rx = none)
    (works : ((s.port p).lanes rx).get lane ≠ 2) :
    (1 ∈ ((s.port p).lanes rx).toList → Runs (.recalAuto p) s fun t =>
      (t.lnk p).recalNext = (s.lnk p).recalNext + 1 ∧ ((t.port p).lanes rx).get lane = 3 ∧ (t.lnk p).recalOf rx = some lane
      ∧ (t.lnk p).recalOf (!rx) = (s.lnk p).recalOf (!rx) ∧ (t.port p).lanes (!rx) = (s.port p).lanes (!rx)
      ∧ Unchanged s t [.port p, .lnk p])
    ∧ (1 ∉ ((s.port p).lanes rx).toList → Runs (.recalAuto p) s fun t =>
      (t.lnk p).recalNext = (s.lnk p).recalNext + 1
      ∧ t.port p = { s.port p with recalSkipped := satAdd (s.port p).recalSkipped 1 } ∧ Unchanged s t [.port p, .lnk p]) := by
  let turned := s.modLnk p fun l => { l with recalNext := (s.lnk p).recalNext + 1 }
  have link : turned.lnk p = { s.lnk p with recalNext := (s.lnk p).recalNext + 1 } := State.modLnk_lnk_self _ _ _
  have idle' : (turned.lnk p).recalOf rx = none := by
    rw [link]
    exact idle
  have ran := exec_recalAuto auto
  rw [← hl, ← hr] at ran
  refine ⟨fun spare => ?_, fun full => ?_⟩
  · refine runs_of_exec (ran.trans (congrArg _ (recalibrate_spare (s := turned) idle' works spare))) ⟨?_, ?_, ?_, ?_, ?_,
      unchanged_modLnk _ (by simp) (unchanged_modPort _ (by simp) (unchanged_modLnk _ (by simp) (unchanged_refl s _)))⟩
    · rw [State.modLnk_lnk_self, setRecal_recalNext, State.modPort_lnk, link]
    · rw [State.modLnk_port, State.modPort_port_self, setLanes_lanes, lanesFix_set_recalibrating]
    · rw [State.modLnk_lnk_self, setRecal_recalOf]
    · rw [State.modLnk_lnk_self, setRecal_recalOf_other, State.modPort_lnk, link]
      rfl
    · rw [State.modLnk_port, State.modPort_port_self, setLanes_lanes_other]
      rfl
  · refine runs_of_exec (ran.trans (congrArg _ (recalibrate_skipped (s := turned) idle' works full))) ⟨?_, ?_,
      unchanged_modPort _ (by simp) (unchanged_modLnk _ (by simp) (unchanged_refl s _))⟩
    · rw [State.modPort_lnk, link]
    · rw [State.modPort_port_self]
      rfl

theorem exec_recalComplete (busy : (s.lnk p).recalOf rx = some lane) : exec (.recalComplete ⟨p, rx⟩) s = .next
    ((s.modPort p fun x => x.setLanes rx (lanesFix (((s.port p).lanes rx).set lane 0))).modLnk p fun l => l.setRecal rx none) := by
  change execRecalComplete ⟨p, rx⟩ s = _
  simp only [execRecalComplete, busy]
  rfl

theorem runs_recalComplete (busy : (s.lnk p).recalOf rx = some lane) : Runs (.recalComplete ⟨p, rx⟩) s fun t =>
    t.lnk p = (s.lnk p).setRecal rx none
    ∧ (((t.port p).lanes rx).get lane = 0 ∨ ((t.port p).lanes rx).get lane = 1)
    ∧ (∀ k, ((s.port p).lanes rx).get k = 2 → k ≠ lane → ((t.port p).lanes rx).get k = 2)
    ∧ (t.port p).lanes (!rx) = (s.port p).lanes (!rx) ∧ Unchanged s t [.port p, .lnk p] := by
  refine runs_of_exec (exec_recalComplete busy) ⟨?_, ?_, fun k retired other => ?_, ?_,
    unchanged_modLnk _ (by simp) (unchanged_modPort _ (by simp) (unchanged_refl s _))⟩
  · rw [State.modLnk_lnk_self, State.modPort_lnk]
  · rw [State.modLnk_port, State.modPort_port_self, setLanes_lanes]
    exact lanesFix_served _ _ (by rw [lanes_get_set, if_pos rfl])
  · rw [State.modLnk_port, State.modPort_port_self, setLanes_lanes, lanesFix_eq_two_iff, lanes_get_set, if_neg other.symm, retired]
  · rw [State.modLnk_port, State.modPort_port_self, setLanes_lanes_other]

end recal

/-! ### Bandit mode (R333) -/

theorem exec_rteBanditWrite {r : Requester} (v : Word) (allowed : Allowed s r (routeOff p 0x50)) :
    exec (.rteBanditWrite r p v) s = .next (writeBandit p v s) :=
  congrArg _ (guardWrite_allowed _ allowed)

/-- TEST privilege of the stall that owns the port. -/
theorem runs_rteBanditWrite {r : Requester} (v : Word) (allowed : Allowed s r (routeOff p 0x50)) :
    let test := match portStall s p with | some i => (s.stall i).page.comp.test | none => false
    (test = true → Runs (.rteBanditWrite r p v) s fun t =>
      t.lnk p = { s.lnk p with
        banditDelay := fld v 24 8, banditMask := fld v 16 5, banditAction := fld v 1 2
        banditEn := bit v 0, offered := if bit v 0 then 0 else (s.lnk p).offered }
      ∧ Unchanged s t [.lnk p])
    ∧ (test = false → Runs (.rteBanditWrite r p v) s fun t =>
      t.port p = { s.port p with banditDenied := true } ∧ Unchanged s t [.port p]) := by
  intro test
  refine ⟨fun may => ?_, fun mayNot => ?_⟩
  · refine runs_of_exec ((exec_rteBanditWrite v allowed).trans (congrArg _ (if_pos may))) ⟨?_,
      unchanged_modLnk _ (by simp) (unchanged_refl s _)⟩
    rw [State.modLnk_lnk_self]
  · refine runs_of_exec ((exec_rteBanditWrite v allowed).trans (congrArg _ (if_neg (Bool.eq_false_iff.mp mayNot)))) ⟨?_,
      unchanged_modPort _ (by simp) (unchanged_refl s _)⟩
    rw [State.modPort_port_self]

end Sys2Proof.Machine
end

section
/-! PROOFS. Neighbours and ports that return (R312, R319, R320, R327), and the statement about lanes and neighbours. -/

namespace Sys2Proof.Machine

open Sys2Proof.Safety

section neighbours
variable {s : State} {p : PortId} (m : IdentMessage)

/-- The far end shown in RTE_NEIGHBOUR. -/
def State.showNeighbour (s : State) (p : PortId) (m : IdentMessage) : State := s.modPort p fun x => { x with neighbour := some m }

theorem showNeighbour_port : (s.showNeighbour p m).port p = { s.port p with neighbour := some m } :=
  State.modPort_port_self _ _ _

theorem unchanged_showNeighbour {t : State} {l : List Part} (hp : Part.port p ∈ l) (h : Unchanged s t l) :
    Unchanged s (t.showNeighbour p m) l := unchanged_modPort _ hp h

theorem exec_identMessage_dark (h : (s.port p).state = 0 ∨ (s.port p).state = 1) : exec (.identMessage p m) s = .next s :=
  if_pos h

section trained
variable (trained : ¬((s.port p).state = 0 ∨ (s.port p).state = 1))
include trained

theorem exec_identMessage_long (long : delayLimit s p < (s.port p).delay.toNat) : exec (.identMessage p m) s = .next
    (((s.showNeighbour p m).portEvent p 0x0805 true 0x1F).record (portRec s p 0x0805 clsInfo)) :=
  (if_neg trained).trans (if_pos long)

theorem exec_identMessage_short (short : (s.port p).delay.toNat ≤ delayLimit s p) : exec (.identMessage p m) s =
    if wrongNeighbour s p m then .next ((((s.showNeighbour p m).portDown p 0x0804).showNeighbour p m).refitPort s p)
    else if (s.port p).state = 2 then
      .next (((s.showNeighbour p m).modPort p fun x => { x with state := 3 }).modLnk p freshLink)
    else if (s.port p).state = 4 then .next ((s.showNeighbour p m).modLnk p freshLink)
    else .next (s.showNeighbour p m) :=
  (if_neg trained).trans (if_neg (Nat.not_lt.mpr short))

end trained

theorem runs_identMessage_trains (training : (s.port p).state = 2) (short : (s.port p).delay.toNat ≤ delayLimit s p)
    (right : wrongNeighbour s p m = false) : Runs (.identMessage p m) s fun t =>
      t.port p = { s.port p with neighbour := some m, state := 3 } ∧ (t.lnk p).txSeq = 0 ∧ (t.lnk p).rxSeq = 0
      ∧ (t.lnk p).window = [] ∧ (∀ j : Fin 5, (t.lnk p).credits.get j = classBuffers j.val)
      ∧ Unchanged s t [.port p, .lnk p] := by
  have ran := exec_identMessage_short m (by simp [training]) short
  rw [right, if_neg (by decide), if_pos training] at ran
  refine runs_of_exec ran ⟨?_, ?_, ?_, ?_, fun j => ?_,
    unchanged_modLnk _ (by simp) (unchanged_modPort _ (by simp) (unchanged_showNeighbour m (by simp) (unchanged_refl s _)))⟩
  · rw [State.modLnk_port, State.modPort_port_self, showNeighbour_port]
  · rw [State.modLnk_lnk_self]
    rfl
  · rw [State.modLnk_lnk_self]
    rfl
  · rw [State.modLnk_lnk_self]
    rfl
  · rw [State.modLnk_lnk_self]
    exact Vector.getElem_ofFn j.isLt

theorem runs_identMessage_down (down : (s.port p).state = 4) (short : (s.port p).delay.toNat ≤ delayLimit s p)
    (right : wrongNeighbour s p m = false) : Runs (.identMessage p m) s fun t =>
      t.port p = { s.port p with neighbour := some m } ∧ (t.lnk p).window = [] ∧ Unchanged s t [.port p, .lnk p] := by
  have ran := exec_identMessage_short m (by simp [down]) short
  rw [right, if_neg (by decide), if_neg (by simp [down]), if_pos down] at ran
  refine runs_of_exec ran ⟨?_, ?_, unchanged_modLnk _ (by simp) (unchanged_showNeighbour m (by simp) (unchanged_refl s _))⟩
  · rw [State.modLnk_port, showNeighbour_port]
  · rw [State.modLnk_lnk_self]
    rfl

/-- A link that measures too long is not brought up (R312). -/
theorem runs_identMessage_long (trained : (s.port p).state = 2 ∨ (s.port p).state = 3 ∨ (s.port p).state = 4)
    (long : delayLimit s p < (s.port p).delay.toNat) : Runs (.identMessage p m) s fun t =>
      (t.port p).state = (s.port p).state ∧ (t.port p).neighbour = some m ∧ Recorded s t 0x0805
      ∧ Unchanged s t [.log, .out, .port p] := by
  have lit : ¬((s.port p).state = 0 ∨ (s.port p).state = 1) := by
    obtain h | h | h := trained <;> simp [h]
  let noted := (s.showNeighbour p m).portEvent p 0x0805 true 0x1F
  have port : (noted.record (portRec s p 0x0805 clsInfo)).port p = noted.port p :=
    unchanged_record (l := [.log, .out]) _ (by simp) (by simp) (unchanged_refl noted _) (.port p) (by simp)
  have shown : noted.port p = { s.port p with
      neighbour := some m, lastReason := 0x0805, lastDir := true, lastLane := BitVec.ofNat 5 0x1F } := by
    simp only [noted, State.portEvent, State.modPort_port_self, showNeighbour_port]
  refine runs_of_exec (exec_identMessage_long m lit long) ⟨?_, ?_, recorded_record _ rfl rfl,
    unchanged_record _ (by simp) (by simp) (unchanged_modPort _ (by simp)
      (unchanged_showNeighbour m (by simp) (unchanged_refl s _)))⟩
  · rw [port, shown]
  · rw [port, shown]

/-- A wrong neighbour takes the port down (R320). -/
theorem runs_identMessage_wrong (trained : (s.port p).state = 2 ∨ (s.port p).state = 3)
    (short : (s.port p).delay.toNat ≤ delayLimit s p) (wrong : wrongNeighbour s p m = true) :
    Runs (.identMessage p m) s fun t =>
      (t.port p).state = 4 ∧ (t.port p).neighbour = some m ∧ t.mem = s.mem ∧ t.engines = s.engines := by
  have lit : ¬((s.port p).state = 0 ∨ (s.port p).state = 1) := by
    obtain h | h := trained <;> simp [h]
  have ran := exec_identMessage_short m lit short
  rw [if_pos wrong] at ran
  have down : DownFrom (s.showNeighbour p m) p (((s.showNeighbour p m).portDown p 0x0804).showNeighbour p m) :=
    (downFrom_portDown _ p 0x0804).modPort _ (fun _ => rfl) fun _ => rfl
  have shown : ((((s.showNeighbour p m).portDown p 0x0804).showNeighbour p m).port p).neighbour = some m := by
    rw [showNeighbour_port]
  obtain ⟨mem, engines, -⟩ := units_of_unchanged_downParts ((down.refitPort s).unchanged
    (unchanged_showNeighbour m (by simp [downParts]) (unchanged_refl s _)))
  exact runs_of_exec ran ⟨(down.refitPort s).state_eq, by rw [refitPort_port, shown], mem, engines⟩

/-- A port that is down returns at the next origin, its light and its far end as the wiring has them (R327). -/
theorem runs_portReturn (down : (s.port p).state = 4) (light : (s.optic p).lightIn = true)
    (tx : 12 ≤ workingLanes (s.port p).txLanes) (rx : 12 ≤ workingLanes (s.port p).rxLanes)
    (short : (s.port p).delay.toNat ≤ delayLimit s p)
    (far : ∃ m, (s.port p).neighbour = some m ∧ wrongNeighbour s p m = false) : Runs (.portReturn p) s fun t =>
      t.lnk p = { s.lnk p with returning := true } ∧ Unchanged s t [.lnk p] := by
  obtain ⟨m, neighbour, right⟩ := far
  have returns : execPortReturn p s = .next (s.modLnk p fun l => { l with returning := true }) := by
    simp only [execPortReturn, down, light, tx, rx, short, neighbour, right]
    rfl
  exact runs_of_exec returns ⟨State.modLnk_lnk_self _ _ _, unchanged_modLnk _ (by simp) (unchanged_refl s _)⟩

end neighbours

/-- Settles O54: a retired lane by the switches that name it, a recalibrated one by the spare, a neighbour by its checks. -/
theorem lanesRetireAndRecalibrate : Obligations.LanesRetireAndRecalibrate := by
  intro s p
  exact ⟨fun lane seq fresh idle many => runs_retireMessage fresh idle many, fun lane seq => exec_retireMessage_retired,
    fun r v h allowed go idle works => runs_recalGo h allowed go idle works,
    fun auto idle works => runs_recalAuto auto rfl rfl idle works,
    fun lane rx busy => runs_recalComplete busy,
    fun r v allowed => runs_rteBanditWrite v allowed,
    fun m => ⟨exec_identMessage_dark m, runs_identMessage_trains m, runs_identMessage_down m, runs_identMessage_long m,
      runs_identMessage_wrong m⟩, runs_portReturn⟩

end Sys2Proof.Machine
end

section
/-! PROOFS. A transfer whose bytes arrive in a Serai bay that is mapped PLAIN and GUARDED at once (R280, R289, R310). -/

namespace Sys2Proof.Machine

open Sys2Proof.Safety

/-! ### A receive entry that lies in both mappings -/

/-- Five bytes that member 1 sends as message 7 go to address 0 (Table 12-8). -/
def straddling : RouteRec := { raw := 0#96 ++ 0#48 ++ 0#16 ++ 5#32 ++ 0#16 ++ 7#16 ++ 0#25 ++ 1#7, sched := { leg := 0 } }

def straddlingCharter : Charter := { recvs := [straddling] }

/-- Stall 0 owns port 0, which is up. The entry's first four bytes lie in the PLAIN mapping of an empty bay, the last one in
the GUARDED one. -/
def transferBay : State :=
  ((bayTwice 4 straddlingCharter []).modPage 0 fun p => { p with comp := { p.comp with ports := 1 } }).modPort 0 fun x => { x with
    state := 3 }

theorem transferBay_sane : Sane transferBay := bayTwice_sane (n := 4) (c := straddlingCharter) (m := []) rfl

/-- The flit of that message: its bytes are 0, 0, 0, 0 and 1. -/
def straddlingFlit : Flit :=
  let h := flitHeader 0 true 5 0 0 1 0 7 0
  let payload := [0, 0, 0, 0, 1] ++ List.replicate 251 0
  { header := h, payload := payload, crc := flitCrc h payload }

/-- The flit is in order, and for this member. -/
theorem straddlingFlit_taken : flClass straddlingFlit.header = 0 ∧ portUp transferBay 0 = true
    ∧ flSeq straddlingFlit.header = (transferBay.lnk 0).rxSeq ∧ flNak straddlingFlit.header = false
    ∧ portCharter transferBay 0 = some (0, straddlingCharter)
    ∧ flDst straddlingFlit.header = (transferBay.stall 0).march.member
    ∧ flDstCaravan straddlingFlit.header = straddlingCharter.caravanIx := by decide +kernel

/-- It has not been delivered before, and the entry is its own. -/
theorem straddlingFlit_entry :
    (transferBay.fabric.delivered.any fun e => e.1 == 0 && e.2 == flitIdentity straddlingFlit.header) = false
    ∧ flLen straddlingFlit.header ≠ 0 ∧ rtMember straddling.raw = flSrc straddlingFlit.header
    ∧ rtCaravan straddling.raw = flSrcCaravan straddlingFlit.header ∧ rtMsg straddling.raw = flMsg straddlingFlit.header := by
  decide +kernel

/-- Where its bytes go, and which they are. -/
theorem straddlingFlit_bytes : rtAddr straddling.raw + 256 * flIndex straddlingFlit.header = 0
    ∧ straddlingFlit.payload.take (min (flLen straddlingFlit.header) (rtBytes straddling.raw - 256 * flIndex straddlingFlit.header))
      = [0, 0, 0, 0, 1] := by decide +kernel

theorem transferBay_plain : PlainAt transferBay 0 fun a => 0 ≤ a ∧ a < 0 + [0, 0, 0, 0, (1 : Byte)].length :=
  plainAt_bayTwice (n := 4) (c := straddlingCharter) (m := []) (by decide) fun a ha => by
    obtain ⟨-, high⟩ := ha
    simp only [List.length_cons, List.length_nil] at high
    omega

/-- The flit passes every check, so it is accepted. -/
theorem straddlingFlit_received :
    exec (.flitReceive 0 straddlingFlit []) transferBay = .next ((transferBay.acceptFlit 0 straddlingFlit).refitPort transferBay 0) := by
  obtain ⟨cls, up, inOrder, -⟩ := straddlingFlit_taken
  have intact : straddlingFlit.crc = flitCrc straddlingFlit.header straddlingFlit.payload := rfl
  change execFlitReceive 0 straddlingFlit [] transferBay = _
  simp [execFlitReceive, intact, cls, up, inOrder]

/-- What the model evaluates to: the last byte sets the parity byte of its row (R289), where the first one was written. -/
theorem straddlingFlit_overwrites : ((transferBay.acceptFlit 0 straddlingFlit).refitPort transferBay 0).readNat 0 0 1 = 1 := by
  decide +kernel

theorem hostVisible_transferBay (a : Nat) : hostVisible transferBay 0 a = false :=
  hostVisible_bayTwice (n := 4) (c := straddlingCharter) (m := []) a

/-- Refutes O52: nothing keeps a transfer out of a bay that is mapped PLAIN and GUARDED at once. There the parity of a later
byte of the flit (R289) overwrites an earlier one. -/
theorem not_flitsAreNumberedAndResent : ¬Obligations.FlitsAreNumberedAndResent := by
  intro h
  obtain ⟨cls, up, inOrder, nak, charter, own, caravan⟩ := straddlingFlit_taken
  obtain ⟨new, nonempty, member, from_, message⟩ := straddlingFlit_entry
  obtain ⟨start, bytes⟩ := straddlingFlit_bytes
  obtain ⟨-, -, taken, -⟩ := h transferBay 0
  obtain ⟨mine, -⟩ := taken straddlingFlit 0 straddlingCharter rfl (by omega) up inOrder nak charter
  obtain ⟨t, ran, -, -, -, stores, -⟩ := mine ⟨.inl own, caravan⟩
  have arrives := stores 0 straddling new nonempty cls rfl member from_ message (fun j _ before => absurd before (Nat.not_lt_zero j))
  simp only [start, bytes] at arrives
  obtain ⟨readBack, -⟩ := arrives
  have first : t.readNat 0 0 1 = 0 := readBack transferBay_plain 0 (by decide) (hostVisible_transferBay _)
  have accepted : (transferBay.acceptFlit 0 straddlingFlit).refitPort transferBay 0 = t :=
    Host.Outcome.next.inj (straddlingFlit_received.symm.trans ran)
  rw [← accepted, straddlingFlit_overwrites] at first
  exact absurd first (by decide)

end Sys2Proof.Machine
end

section
/-! PROOFS. The invariant: the state after reset has it, every step keeps it (R468, R323). -/

namespace Sys2Proof.Machine

open Sys2Proof.Safety

/-- Settles O1: `step` is defined by what stands at the front. -/
theorem stepServesFront : Obligations.StepServesFront := by
  intro c rest s
  rfl

/-- Settles O3: no byte is written, no record made and no event queued. -/
theorem resetIsSane : Obligations.ResetIsSane := by
  refine ⟨⟨rfl, ?_, ?_⟩, rfl⟩ <;> exact Nat.zero_le _

/-- A command that completes keeps the invariant: its meaning does. -/
theorem saneOut_exec (c : Instr) {s : State} (hs : Sane s) : SaneOut (exec c s) := by
  cases c <;> (simp only [exec]; simp [hs])

/-- Settles O4: a command keeps the invariant by its own lemma, an idle step by `sane_idle`. -/
theorem stepKeepsSane : Obligations.StepKeepsSane := by
  intro s t hs ran
  unfold step at ran
  split at ran
  · obtain rfl : s.idle = t := Host.Outcome.next.inj ran
    exact sane_idle s hs
  · next c rest _ =>
    have kept := saneOut_exec c (s := { s with pending := rest }) hs
    rwa [ran] at kept

end Sys2Proof.Machine
end

section
/-! PROOFS. Posts and claims (R375, R376, R382 to R385). -/

namespace Sys2Proof.Machine

open Sys2Proof.Safety

/-! ### The bytes of a post -/

section post
variable {s t : State} {i : Stall} {secure : Bool} {n : Fin 24}

theorem lt_of_postExists (h : postExists secure n = true) : secure = true → n.val < 8 := by
  rintro rfl
  simpa [postExists] using h

/-- An update of a post leaves the other posts of its page as they were. -/
theorem post_modPost_other (f : Post → Post) {m : Fin 24} (h : m ≠ n) :
    (s.modPost i secure n f).post i secure m = s.post i secure m := by
  have apart : n.val ≠ m.val := fun e => h (Fin.ext e.symm)
  cases secure with
  | false => simp [State.modPost, State.post, Vector.getElem_set_ne, apart]
  | true =>
    by_cases hn : n.val < 8
    · simp [State.modPost, State.post, hn, Vector.getD, apart]
    · simp [State.modPost, State.post, hn]

theorem modPost_host (f : Post → Post) (l : LinkId) : (s.modPost i secure n f).host l = s.host l := rfl

theorem modHost_post (f : HostLink → HostLink) (l : LinkId) : (s.modHost l f).post i secure n = s.post i secure n := rfl

/-- What an update of one post leaves as it was. -/
theorem modPost_frame (f : Post → Post) :
    (∀ m, m ≠ n → (s.modPost i secure n f).post i secure m = s.post i secure m)
      ∧ Unchanged s (s.modPost i secure n f) [postsOf i secure] :=
  ⟨fun _ h => post_modPost_other f h, unchanged_modPost f (by simp [postsOf]) (unchanged_refl s _)⟩

end post

/-! ### Claims (R375) -/

section claim
variable {s : State} {l : LinkId} {i : Stall}

/-- Where ownership passes, the alternate is the owner (R376). -/
theorem ownerLink_passed {p : StallPage} (alt : altLink p = some l) (armed : Bool) :
    ownerLink { p with swapped := !p.swapped, armed := armed } = some l := by
  unfold altLink at alt
  unfold ownerLink
  split at alt
  · next k owned =>
    simp only [owned]
    cases h : p.swapped <;> simpa [h] using alt
  · cases alt

theorem passOwnership_page : ((s.passOwnership i).stall i).page =
    { (s.stall i).page with swapped := !(s.stall i).page.swapped, armed := false } := by
  rw [State.passOwnership, record_stall, State.modPage_page]

theorem unchanged_passOwnership {t : State} {l : List Part} (hp : Part.stall i .page ∈ l) (hm : Part.log ∈ l)
    (ho : Part.out ∈ l) (h : Unchanged s t l) : Unchanged s (t.passOwnership i) l :=
  unchanged_record _ hm ho (unchanged_modPage _ hp h)

/-- An acknowledgement empties the post and carries its tag, its code and the length of its reply (R383). -/
theorem ackPost_self {secure : Bool} {n : Fin 24} (h : secure = true → n.val < 8) (code : Reason) (reply : List Byte) :
    (s.ackPost i secure n code reply).post i secure n = { s.post i secure n with
      buf := fillBuf (s.post i secure n).buf reply, replyLen := BitVec.ofNat 9 (min reply.length 256), full := false
      ackDone := true, ackTag := (s.post i secure n).tag, ackCode := code, sender := none
      acked := (s.post i secure n).acked + 1 } :=
  post_modPost_self s i secure n _ h

/-- Has the owner's heartbeat been silent for longer than the timeout, in an armed stall whose alternate asks (R375)? -/
def MayClaim (s : State) (l : LinkId) (i : Stall) : Prop :=
  let p := (s.stall i).page
  altLink p = some l ∧ p.armed = true ∧ p.hbTimeout ≠ 0 ∧ p.hbLast.toNat + 1000000 * p.hbTimeout.toNat < s.time.toNat

theorem exec_claim_passed (message : hasMessage s i true 2 0x02 = true) (sender : (s.post i true 2).sender = some l)
    (may : MayClaim s l i) : exec (.claim l i) s = .next ((s.passOwnership i).ackPost i true 2 0 []) := by
  obtain ⟨alt, armed, timed, late⟩ := may
  change execClaim l i s = _
  simp only [execClaim, message, sender]
  rw [if_neg (by simp), if_pos ⟨alt, armed, by simpa using ⟨timed, late⟩⟩]

theorem exec_claim_refused (message : hasMessage s i true 2 0x02 = true) (sender : (s.post i true 2).sender = some l)
    (may : ¬MayClaim s l i) : exec (.claim l i) s = .next (s.ackPost i true 2 0x0C06 []) := by
  change execClaim l i s = _
  unfold MayClaim at may
  simp only [execClaim, message, sender]
  simp only [Bool.not_true, bne_self_eq_false, Bool.or_self, Bool.false_eq_true, if_false, Bool.and_eq_true, bne_iff_ne, ne_eq,
    decide_eq_true_eq]
  exact if_neg may

/-- Settles O13: a claim that may be made passes the ownership, any other one is acknowledged with CLAIM_REFUSED. -/
theorem claimNeedsSilence : Obligations.ClaimNeedsSilence := by
  intro s l i message sender p
  have secure : true = true → (2 : Fin 24).val < 8 := fun _ => by decide
  refine ⟨fun may => runs_of_exec (exec_claim_passed message sender may) ?_,
    fun may => runs_of_exec (exec_claim_refused message sender may) ?_⟩
  · have page : (((s.passOwnership i).ackPost i true 2 0 []).stall i).page = ((s.passOwnership i).stall i).page :=
      unchanged_ackPost (l := [.stall i .secure]) 2 0 [] (by simp [postsOf]) (unchanged_refl _ _) (.stall i .page) (by simp)
    rw [page, passOwnership_page, ackPost_self secure]
    exact ⟨ownerLink_passed may.1 false, rfl, rfl, rfl, rfl,
      unchanged_ackPost 2 0 [] (by simp [postsOf]) (unchanged_passOwnership (by simp) (by simp) (by simp) (unchanged_refl s _))⟩
  · rw [ackPost_self secure]
    exact ⟨rfl, rfl, unchanged_ackPost 2 _ [] (by simp [postsOf]) (unchanged_refl s _)⟩

end claim

/-! ### Words of a buffer (Table 13-15) -/

section words

theorem fld_toNat {w : Nat} (x : BitVec w) (lo n : Nat) : (fld x lo n).toNat = x.toNat / 2 ^ lo % 2 ^ n := by
  simp [fld, Nat.shiftRight_eq_div_pow]

/-- Four bytes of a buffer, from a position up. -/
theorem slice_toList_four (buf : Vector Byte 256) {o : Nat} (h : o + 4 ≤ 256) :
    slice buf.toList o 4 = [buf[o], buf[o + 1], buf[o + 2], buf[o + 3]] := by
  apply List.ext_getElem
  · simp [slice]
    omega
  · intro k hk hk'
    have : k < 4 := hk'
    interval_cases k <;> simp [slice]

theorem getElem_foldl_set (buf : Vector Byte 256) (o : Nat) (g : Nat → Byte) (n : Nat) {k : Nat} (hk : k < 256) :
    ((List.range n).foldl (fun b j => b.set! (o + j) (g j)) buf)[k] = if o ≤ k ∧ k < o + n then g (k - o) else buf[k] := by
  induction n with
  | zero => rw [if_neg (by omega)]; rfl
  | succ n ih =>
    rw [List.range_succ, List.foldl_append, List.foldl_cons, List.foldl_nil, Vector.set!_eq_setIfInBounds,
      Vector.getElem_setIfInBounds]
    by_cases last : o + n = k
    · rw [if_pos last, if_pos (by omega), ← last, Nat.add_sub_cancel_left]
    · rw [if_neg last, ih]
      congr 1
      exact propext (by omega)

theorem getElem_putWord (buf : Vector Byte 256) (w : Nat) (v : Word) {k : Nat} (hk : k < 256) :
    (putWord buf w v)[k] = if 4 * w ≤ k ∧ k < 4 * w + 4 then fld v (8 * (k - 4 * w)) 8 else buf[k] :=
  getElem_foldl_set buf (4 * w) (fun j => fld v (8 * j) 8) 4 hk

/-- Four bytes of a word spell the word. -/
theorem packBytes_fld (v : Word) : packBytes [fld v 0 8, fld v 8 8, fld v 16 8, fld v 24 8] = v := by
  have small := v.isLt
  apply BitVec.eq_of_toNat_eq
  simp only [packBytes, ofBytes, ofLe, BitVec.toNat_ofNat, fld_toNat]
  omega

/-- A written word is read back, and the other words stay. -/
theorem packBytes_putWord (buf : Vector Byte 256) (w w' : Fin 64) (v : Word) :
    packBytes (slice (putWord buf w.val v).toList (4 * w'.val) 4)
      = if w' = w then v else packBytes (slice buf.toList (4 * w'.val) 4) := by
  have range : 4 * w'.val + 4 ≤ 256 := by omega
  rw [slice_toList_four _ range, slice_toList_four _ range]
  simp only [getElem_putWord]
  by_cases same : w' = w
  · subst same
    simp [packBytes_fld]
  · have apart : w'.val ≠ w.val := fun e => same (Fin.ext e)
    rw [if_neg same, if_neg (by omega), if_neg (by omega), if_neg (by omega), if_neg (by omega)]

end words

/-! ### Writes of posts (R383 to R385) -/

section writes
variable {s : State} {l : LinkId} {r : Requester} {i : Stall} {secure : Bool} {n : Fin 24}

/-- A word register of a post shows the four bytes of its buffer (Table 13-15). -/
theorem regValue_postWord (s : State) (r : Requester) (i : Stall) (secure : Bool) (n : Fin 24) (w : Fin 64) :
    regValue s r (.post i secure n (4 * w.val)) = packBytes (slice (s.post i secure n).buf.toList (4 * w.val) 4) := by
  have inBuf : 4 * w.val < 0x100 ∧ 4 * w.val % 4 = 0 := by omega
  change postValue s i secure n (4 * w.val) = _
  simp only [postValue, if_pos inBuf]

theorem storedLen_toNat (v : Word) : (storedLen v).toNat = min (fld v 0 9).toNat 256 := by
  unfold storedLen
  split
  · next long => exact (Nat.min_eq_right (Nat.le_of_lt long)).symm
  · next short => exact (Nat.min_eq_left (Nat.le_of_not_lt short)).symm

theorem bit_setBit_send (v : Word) : bit (setBit v 31) 31 = true := by simp [bit, setBit]

theorem storedLen_setBit_send (v : Word) : storedLen (setBit v 31) = storedLen v := by
  have low : fld (setBit v 31) 0 9 = fld v 0 9 := by
    ext k hk
    have : k < 9 := hk
    have off : (1#32 <<< 31).getLsbD k = false := by rw [BitVec.getLsbD_shiftLeft]; simp; omega
    simp only [fld, setBit, BitVec.getElem_extractLsb', Nat.zero_add, BitVec.getLsbD_or, off, Bool.or_false]
  rw [storedLen, storedLen, low]

theorem claimFor_link (p : Post) (l : LinkId) : claimFor p (.link l) = { p with claim := some l } := rfl

/-- The requester's write meets a composed stall's inbound post that is free for it. -/
theorem writePost_free (ex : postExists secure n = true) (ready : (s.stall i).page.state ≠ 1)
    (inbound : outbound secure n.val = false) (free : (s.post i secure n).full = false)
    (own : claimedByOther (s.post i secure n) r = false) (word : Fin 65) (v : Word) :
    writePost r i secure n word v s
      = if word.val < 64 then s.modPost i secure n fun p => { claimFor p r with buf := putWord p.buf word.val v }
        else if bit v 31 then s.modPost i secure n fun p => sendPost p r v (noReceiver secure n)
        else s.modPost i secure n fun p => { claimFor p r with len := storedLen v } := by
  have composed : ((s.stall i).page.state == 1) = false := beq_eq_false_iff_ne.mpr ready
  simp only [writePost, ex, composed, inbound, free, own, Bool.not_true, Bool.or_self, Bool.false_eq_true, if_false]

theorem writePost_full (ex : postExists secure n = true) (ready : (s.stall i).page.state ≠ 1)
    (inbound : outbound secure n.val = false) (full : (s.post i secure n).full = true) (word : Fin 65) (v : Word) :
    writePost r i secure n word v s = s.rejectPost r i secure n := by
  have composed : ((s.stall i).page.state == 1) = false := beq_eq_false_iff_ne.mpr ready
  simp only [writePost, ex, composed, inbound, full, Bool.not_true, Bool.or_self, Bool.false_eq_true, if_false, Bool.true_or,
    if_true]

theorem writePost_take (ex : postExists secure n = true) (ready : (s.stall i).page.state ≠ 1)
    (away : outbound secure n.val = true) (full : (s.post i secure n).full = true) :
    writePost r i secure n 64 0x40000000 s = s.modPost i secure n fun p => { p with full := false, acked := p.acked + 1 } := by
  have take : bit (0x40000000 : Word) 30 = true := by decide
  have composed : ((s.stall i).page.state == 1) = false := beq_eq_false_iff_ne.mpr ready
  simp only [writePost, ex, composed, away, full, take, Bool.not_true, Bool.or_self, Bool.false_eq_true, if_false, if_true,
    Bool.and_true]
  exact if_pos rfl

/-- A word that a link writes to a free post is read back from it, and claims it (R383). -/
theorem runs_postWrite {word : Fin 64} {v : Word} (ex : postExists secure n = true) (inbound : outbound secure n.val = false)
    (allowed : Allowed s (.link l) (postOff i secure n (4 * word.val))) (ready : (s.stall i).page.state ≠ 1)
    (free : (s.post i secure n).full = false) (own : claimedByOther (s.post i secure n) (.link l) = false) :
    Runs (.postWrite (.link l) i secure n ⟨word.val, by omega⟩ v) s fun t =>
      (t.post i secure n).claim = some l ∧ regValue t .tollgate (.post i secure n (4 * word.val)) = v
      ∧ (∀ w : Fin 64, w ≠ word → regValue t .tollgate (.post i secure n (4 * w.val))
          = regValue s .tollgate (.post i secure n (4 * w.val)))
      ∧ (∀ m, m ≠ n → t.post i secure m = s.post i secure m) ∧ Unchanged s t [postsOf i secure] := by
  have offset : postWordOff ⟨word.val, by omega⟩ = 4 * word.val := if_pos word.isLt
  have words (w : Fin 64) := packBytes_putWord (s.post i secure n).buf word w v
  refine runs_of_exec (t := s.modPost i secure n fun p => { claimFor p (.link l) with buf := putWord p.buf word.val v })
    ?_ ⟨?_, ?_, fun w hw => ?_, modPost_frame _⟩
  · change execPostWrite (.link l) i secure n ⟨word.val, by omega⟩ v s = _
    rw [execPostWrite, offset, guardWrite_allowed _ allowed, writePost_free ex ready inbound free own, if_pos word.isLt]
  · rw [post_modPost_self s i secure n _ (lt_of_postExists ex)]
    rfl
  · rw [regValue_postWord, post_modPost_self s i secure n _ (lt_of_postExists ex), words, if_pos rfl]
  · rw [regValue_postWord, post_modPost_self s i secure n _ (lt_of_postExists ex), words, if_neg hw, regValue_postWord]

/-- What a SEND does to its post, with a receiver and without (R383). -/
theorem sendPost_link (p : Post) (l : LinkId) (v : Word) (lost : Bool) :
    let q := sendPost p (.link l) v lost
    q.len = storedLen v ∧ q.tag = p.tag + 1 ∧ q.claim = none
      ∧ (lost = false → q.full = true ∧ q.ackDone = false ∧ q.sender = some l)
      ∧ (lost = true → q.full = false ∧ q.ackDone = true ∧ q.ackCode = 0x0601) := by
  cases lost <;> simp [sendPost]

theorem execPostSend_allowed (v : Word) (allowed : Allowed s r (postOff i secure n 0x100)) :
    exec (.postSend r i secure n v) s = .next (writePost r i secure n 64 (setBit v 31) s) :=
  congrArg Host.Outcome.next (guardWrite_allowed _ allowed)

theorem runs_postSend {v : Word} (ex : postExists secure n = true) (inbound : outbound secure n.val = false)
    (allowed : Allowed s (.link l) (postOff i secure n 0x100)) (ready : (s.stall i).page.state ≠ 1)
    (free : (s.post i secure n).full = false) (own : claimedByOther (s.post i secure n) (.link l) = false) :
    Runs (.postSend (.link l) i secure n v) s fun t =>
      (t.post i secure n).len.toNat = min (fld v 0 9).toNat 256 ∧ (t.post i secure n).tag = (s.post i secure n).tag + 1
      ∧ (t.post i secure n).claim = none
      ∧ (noReceiver secure n.val = false →
          (t.post i secure n).full = true ∧ (t.post i secure n).ackDone = false ∧ (t.post i secure n).sender = some l)
      ∧ (noReceiver secure n.val = true →
          (t.post i secure n).full = false ∧ (t.post i secure n).ackDone = true ∧ (t.post i secure n).ackCode = 0x0601)
      ∧ (∀ m, m ≠ n → t.post i secure m = s.post i secure m) ∧ Unchanged s t [postsOf i secure] := by
  obtain ⟨len, tag, claim, received, lost⟩ := sendPost_link (s.post i secure n) l (setBit v 31) (noReceiver secure n.val)
  refine runs_of_exec (t := s.modPost i secure n fun p => sendPost p (.link l) (setBit v 31) (noReceiver secure n.val)) ?_ ?_
  · rw [execPostSend_allowed v allowed, writePost_free ex ready inbound free own, if_neg (by decide),
      if_pos (bit_setBit_send v)]
  · rw [post_modPost_self s i secure n _ (lt_of_postExists ex), len, storedLen_setBit_send, storedLen_toNat]
    exact ⟨rfl, tag, claim, received, lost, modPost_frame _⟩

/-- A link's write of a post that rejects it is counted at the post and at the link (R384). -/
def State.countRejected (s : State) (l : LinkId) (i : Stall) (secure : Bool) (n : Fin 24) : State :=
  (s.modPost i secure n fun p => { p with reject := satAdd p.reject 1 }).modHost l fun h => { h with
    ca := satAdd h.ca 1, advisory := true }

/-- Whether an ERR_COR follows is a free bit. -/
theorem rejectPost_link (s : State) (l : LinkId) (i : Stall) (secure : Bool) (n : Fin 24) :
    let counted := { s.countRejected l i secure n with free := s.free + 1 }
    s.rejectPost (.link l) i secure n = counted ∨ s.rejectPost (.link l) i secure n = counted.send (.errCor l) := by
  by_cases reported : bit (Config.freeWord s.free) 0 = true
  · exact .inr (if_pos reported)
  · exact .inl (if_neg reported)

theorem countRejected_post (ex : postExists secure n = true) : (s.countRejected l i secure n).post i secure n
    = { s.post i secure n with reject := satAdd (s.post i secure n).reject 1 } := by
  rw [State.countRejected, modHost_post, post_modPost_self s i secure n _ (lt_of_postExists ex)]

theorem countRejected_ca : ((s.countRejected l i secure n).host l).ca = satAdd (s.host l).ca 1 := by
  rw [State.countRejected, State.modHost_host_self, modPost_host]

theorem unchanged_countRejected : Unchanged s (s.countRejected l i secure n) [postsOf i secure, .host l, .free, .out] :=
  unchanged_modHost _ (by simp) (unchanged_modPost _ (by simp [postsOf]) (unchanged_refl s _))

/-- A link's SEND to a full post changes nothing else of it (R384). -/
theorem runs_postSend_rejected {v : Word} (ex : postExists secure n = true) (inbound : outbound secure n.val = false)
    (allowed : Allowed s (.link l) (postOff i secure n 0x100)) (ready : (s.stall i).page.state ≠ 1)
    (full : (s.post i secure n).full = true) :
    Runs (.postSend (.link l) i secure n v) s fun t =>
      t.post i secure n = { s.post i secure n with reject := satAdd (s.post i secure n).reject 1 }
      ∧ (t.host l).ca = satAdd (s.host l).ca 1 ∧ Unchanged s t [postsOf i secure, .host l, .free, .out] := by
  have frame := unchanged_set_free (s.free + 1) (by simp) (unchanged_countRejected (s := s) (l := l) (i := i) (secure := secure) (n := n))
  refine runs_of_exec (execPostSend_allowed v allowed) ?_
  rw [writePost_full ex ready inbound full]
  obtain same | sent := rejectPost_link s l i secure n
  · rw [same]
    exact ⟨countRejected_post (l := l) ex, countRejected_ca (i := i) (secure := secure) (n := n), frame⟩
  · rw [sent]
    exact ⟨countRejected_post (l := l) ex, countRejected_ca (i := i) (secure := secure) (n := n), unchanged_send _ (by simp) frame⟩

/-- The receiver's answer (R383). -/
theorem runs_postAck (ex : postExists secure n = true) (inbound : outbound secure n.val = false)
    (full : (s.post i secure n).full = true) (code : Reason) (reply : List Byte) :
    Runs (.postAck i secure n code reply) s fun t =>
      (t.post i secure n).full = false ∧ (t.post i secure n).ackDone = true
      ∧ (t.post i secure n).ackTag = (s.post i secure n).tag ∧ (t.post i secure n).ackCode = code
      ∧ (t.post i secure n).replyLen.toNat = min reply.length 256
      ∧ (∀ m, m ≠ n → t.post i secure m = s.post i secure m) ∧ Unchanged s t [postsOf i secure] := by
  have short : min reply.length 256 < 2 ^ 9 := by omega
  refine runs_of_exec (t := s.ackPost i secure n code reply) ?_ ?_
  · change execPostAck i secure n code reply s = _
    simp [execPostAck, ex, inbound, full]
  · rw [ackPost_self (lt_of_postExists ex)]
    exact ⟨rfl, rfl, rfl, rfl, by rw [BitVec.toNat_ofNat, Nat.mod_eq_of_lt short], modPost_frame _⟩

/-- TAKE empties an outbound post (R385). -/
theorem runs_postTake (ex : postExists secure n = true) (away : outbound secure n.val = true)
    (allowed : Allowed s r (postOff i secure n 0x100)) (ready : (s.stall i).page.state ≠ 1)
    (full : (s.post i secure n).full = true) :
    Runs (.postTake r i secure n) s fun t =>
      (t.post i secure n).full = false ∧ (t.post i secure n).buf = (s.post i secure n).buf
      ∧ (∀ m, m ≠ n → t.post i secure m = s.post i secure m) ∧ Unchanged s t [postsOf i secure] := by
  refine runs_write rfl allowed ?_
  rw [writePost_take ex ready away full, post_modPost_self s i secure n _ (lt_of_postExists ex)]
  exact ⟨rfl, rfl, modPost_frame _⟩

theorem get_fillBuf (buf : Vector Byte 256) (bs : List Byte) (k : Fin 256) (h : k.val < bs.length) :
    (fillBuf buf bs).get k = bs.getD k.val 0 := by
  simp [fillBuf, Vector.get_eq_getElem, h]

/-- A notice fills a free outbound post (R385). -/
theorem runs_postNotice (ex : postExists secure n = true) (away : outbound secure n.val = true)
    (free : (s.post i secure n).full = false) (msg : List Byte) :
    Runs (.postNotice i secure n msg) s fun t =>
      (t.post i secure n).full = true ∧ (t.post i secure n).tag = (s.post i secure n).tag + 1
      ∧ (t.post i secure n).len.toNat = min msg.length 256
      ∧ (∀ k : Fin 256, k.val < msg.length → (t.post i secure n).buf.get k = msg.getD k.val 0)
      ∧ (∀ m, m ≠ n → t.post i secure m = s.post i secure m) ∧ Unchanged s t [postsOf i secure] := by
  have short : min msg.length 256 < 2 ^ 9 := by omega
  refine runs_of_exec (t := s.modPost i secure n fun p => { p with
    buf := fillBuf p.buf msg, len := BitVec.ofNat 9 (min msg.length 256), tag := p.tag + 1, full := true, sent := p.sent + 1 })
    ?_ ?_
  · change execPostNotice i secure n msg s = _
    simp [execPostNotice, ex, away, free]
  · rw [post_modPost_self s i secure n _ (lt_of_postExists ex)]
    exact ⟨rfl, rfl, by rw [BitVec.toNat_ofNat, Nat.mod_eq_of_lt short], fun k hk => get_fillBuf _ msg k hk, modPost_frame _⟩

theorem runs_postNotice_full (ex : postExists secure n = true) (away : outbound secure n.val = true)
    (full : (s.post i secure n).full = true) (msg : List Byte) :
    Runs (.postNotice i secure n msg) s fun t =>
      t.post i secure n = s.post i secure n ∧ t.out = s.out ++ [.busError .tollgate] ∧ Unchanged s t [.out] := by
  refine runs_of_exec (t := s.send (.busError .tollgate)) ?_ ⟨rfl, rfl, unchanged_send _ (by simp) (unchanged_refl s _)⟩
  change execPostNotice i secure n msg s = _
  simp [execPostNotice, ex, away, full]

end writes

/-- Settles O15, one command at a time. -/
theorem postsCarryMessages : Obligations.PostsCarryMessages := by
  intro s i secure n ex p part
  refine ⟨fun inbound => ⟨?_, ?_, ?_, ?_⟩, fun away => ⟨?_, fun msg => ⟨?_, ?_⟩⟩⟩
  · exact fun l word v allowed ready free own => runs_postWrite ex inbound allowed ready free own
  · exact fun l v allowed ready free own => runs_postSend ex inbound allowed ready free own
  · exact fun l v allowed ready full => runs_postSend_rejected ex inbound allowed ready full
  · exact fun code reply full => runs_postAck ex inbound full code reply
  · exact fun r allowed ready full => runs_postTake ex away allowed ready full
  · exact fun free => runs_postNotice ex away free msg
  · exact fun full => runs_postNotice_full ex away full msg

end Sys2Proof.Machine
end

section
/-! PROOFS. Stall resets, and the control register of a stall (R372, R374, R375). -/

namespace Sys2Proof.Machine

open Sys2Proof.Safety

/-! ### Loops over stalls -/

section loops
variable {f : State → Stall → State}

/-- A loop whose steps touch their own stall alone leaves every other stall as it was. -/
theorem forEach_stall_other (own : ∀ u j k, k ≠ j → (f u j).stall k = u.stall k) {xs : List Stall} {i : Stall} (h : i ∉ xs)
    (s : State) : (forEach xs s f).stall i = s.stall i := by
  unfold forEach
  induction xs generalizing s with
  | nil => rfl
  | cons x xs ih =>
    rw [List.mem_cons, not_or] at h
    exact (ih h.2 (f s x)).trans (own s x i h.1)

/-- A loop whose steps touch their own stall alone leaves a listed stall as its one step does, from a state in which the
stall, and what no step changes, is as before the loop. -/
theorem forEach_stall_once {α : Type} (v : State → α) (kept : ∀ u j, v (f u j) = v u)
    (own : ∀ u j k, k ≠ j → (f u j).stall k = u.stall k) {xs : List Stall} (nodup : xs.Nodup) {i : Stall} (h : i ∈ xs) (s : State) :
    ∃ u, u.stall i = s.stall i ∧ v u = v s ∧ (forEach xs s f).stall i = (f u i).stall i := by
  unfold forEach
  induction xs generalizing s with
  | nil => exact absurd h List.not_mem_nil
  | cons x xs ih =>
    obtain ⟨fresh, nodup⟩ := List.nodup_cons.mp nodup
    by_cases here : i = x
    · subst here
      exact ⟨s, rfl, rfl, forEach_stall_other own fresh (f s i)⟩
    · obtain ⟨u, same, keeps, reached⟩ := ih nodup ((List.mem_cons.mp h).resolve_left here) (f s x)
      exact ⟨u, same.trans (own s x i here), keeps.trans (kept s x), reached⟩

theorem nodup_allStalls : allStalls.Nodup := List.nodup_finRange 8

end loops

/-! ### Stall resets (R372) -/

section reset
variable {s t : State} {l : List Part} {i : Stall}

/-- The units of the module that stalls own. -/
def unitsOfStalls : List Part := [.out, .relay, .delivered, .messages, .snoops] ++ everyCore ++ everyEngine ++ everyPort

@[simp] theorem engine_mem_everyEngine (e : EngineId) : Part.engine e ∈ everyEngine := List.mem_map_of_mem (List.mem_finRange e)

theorem unchanged_freshUnits (hl : ∀ p ∈ unitsOfStalls, p ∈ l) (h : Unchanged s t l) : Unchanged s (t.freshUnits i) l := by
  have out : Part.out ∈ l := hl _ (by simp [unitsOfStalls])
  have relay : Part.relay ∈ l := hl _ (by simp [unitsOfStalls])
  have port (p : PortId) : Part.port p ∈ l := hl _ (by simp [unitsOfStalls])
  have lnk (p : PortId) : Part.lnk p ∈ l := hl _ (by simp [unitsOfStalls])
  unfold State.freshUnits
  extract_lets s1 s2 s3 fabric s4
  have h1 : Unchanged s s1 l := unchanged_forEach _ _ (fun _ k hu => unchanged_modCore _ (hl _ (by simp [unitsOfStalls])) hu) h
  have h2 : Unchanged s s2 l := unchanged_forEach _ _ (fun _ e hu => unchanged_modEngine _ (hl _ (by simp [unitsOfStalls])) hu) h1
  have h3 : Unchanged s s3 l := unchanged_forEach _ _ (fun u p hu =>
    unchanged_modLnk _ (lnk p) (unchanged_modPort _ (port p)
      (unchanged_forEach _ _ (fun _ q hv => unchanged_leaveBuffer q out lnk hv) hu))) h2
  have h4 : Unchanged s s4 l := by
    unfold s4
    split
    · intro p hp
      have same := h3 p hp
      cases p with
      | relay => exact absurd relay hp
      | _ => exact same
    · exact h3
  intro p hp
  have same := h4 p hp
  cases p with
  | delivered => exact absurd (hl _ (by simp [unitsOfStalls])) hp
  | messages => exact absurd (hl _ (by simp [unitsOfStalls])) hp
  | snoops => exact absurd (hl _ (by simp [unitsOfStalls])) hp
  | _ => exact same

theorem stall_not_mem_unitsOfStalls (j : Stall) (k : StallPart) : Part.stall j k ∉ unitsOfStalls := by
  simp [unitsOfStalls, everyEngine]

theorem freshUnits_stall (s : State) (i j : Stall) : (s.freshUnits i).stall j = s.stall j :=
  Unchanged.stall_eq (unchanged_freshUnits (fun _ h => h) (unchanged_refl s _)) (stall_not_mem_unitsOfStalls j)

/-- What a reset of a stall changes: its registers and its units. -/
def resetParts (i : Stall) : List Part := wholeStall i ++ unitsOfStalls

theorem unchanged_modWholeStall (f : StallState → StallState) (hl : ∀ k, Part.stall i k ∈ l) (h : Unchanged s t l) :
    Unchanged s (t.modStall i f) l := by
  intro p hp
  have same := h p hp
  cases p with
  | stall j k =>
    have apart : j ≠ i := fun e => hp (e ▸ hl k)
    simpa only [sameAt, State.modStall_stall_other t i j f apart] using same
  | _ => exact same

theorem mem_wholeStall (i : Stall) (k : StallPart) : Part.stall i k ∈ wholeStall i := by
  cases k <;> simp [wholeStall]

theorem mem_resetParts (i : Stall) (k : StallPart) : Part.stall i k ∈ resetParts i :=
  List.mem_append_left _ (mem_wholeStall i k)

/-- A stall as its reset leaves it. -/
def resetting (t : StallState) (time : BitVec 64) : StallState :=
  freshStall { t with page := { t.page with state := 1, resetAt := some time } }

theorem beginStallReset_stall (owned : (s.stall i).page.comp.owner.isSome = true) :
    (s.beginStallReset i).stall i = resetting (s.stall i) s.time := by
  have present : (s.stall i).page.comp.owner.isNone = false := by rwa [← Option.not_isSome, Bool.not_eq_false']
  unfold State.beginStallReset
  rw [present, if_neg (by decide), State.modStall_stall_self, freshUnits_stall, State.modPage, State.modStall_stall_self]
  rfl

theorem unchanged_beginStallReset (hl : ∀ p ∈ resetParts i, p ∈ l) (h : Unchanged s t l) :
    Unchanged s (t.beginStallReset i) l := by
  have whole (k : StallPart) : Part.stall i k ∈ l := hl _ (mem_resetParts i k)
  unfold State.beginStallReset
  split
  · exact h
  · exact unchanged_modWholeStall _ whole
      (unchanged_freshUnits (fun p hp => hl p (List.mem_append_right _ hp)) (unchanged_modPage _ (whole .page) h))

theorem beginStallReset_other {j : Stall} (h : j ≠ i) : (s.beginStallReset i).stall j = s.stall j :=
  Unchanged.stall_eq (unchanged_beginStallReset (fun _ hp => hp) (unchanged_refl s _)) fun k => by
    simp [resetParts, stall_not_mem_unitsOfStalls, wholeStall, h]

theorem beginStallReset_rest (s : State) (i : Stall) :
    (s.beginStallReset i).mem = s.mem ∧ (s.beginStallReset i).starts = s.starts ∧ (s.beginStallReset i).time = s.time
      ∧ ∀ k, (s.beginStallReset i).host k = s.host k := by
  have frame : Unchanged s (s.beginStallReset i) (resetParts i) := unchanged_beginStallReset (fun _ hp => hp) (unchanged_refl s _)
  have away {p : Part} (h : ∀ k, p ≠ .stall i k) (hu : p ∉ unitsOfStalls) : p ∉ resetParts i := by
    rw [resetParts, List.mem_append, not_or]
    refine ⟨fun hm => ?_, hu⟩
    obtain ⟨k, -, e⟩ := List.mem_map.mp hm
    exact h k e.symm
  refine ⟨frame .mem (away nofun ?_), frame .starts (away nofun ?_), frame .time (away nofun ?_), fun k => frame (.host k) (away nofun ?_)⟩
  all_goals simp [unitsOfStalls, everyCore, everyEngine, everyPort]

/-- A stall that resets has no post that holds anything. -/
theorem post_of_resetting {u : StallState} {time : BitVec 64} (h : t.stall i = resetting u time) (secure : Bool) (n : Fin 24) :
    t.post i secure n = {} := by
  unfold State.post
  rw [h]
  cases secure with
  | false => simp [resetting, freshStall]
  | true =>
    have blank (k : Nat) : (Vector.replicate 8 ({} : Post)).getD k {} = {} := by
      by_cases hk : k < 8 <;> simp [Vector.getD, hk]
    exact blank n.val

end reset

/-! ### STALL_CTRL (Table 13-12) -/

section ctrl
variable {s : State} {r : Requester} {i : Stall} {v : Word}

theorem runs_stallReset (allowed : Allowed s r (stallOff i 4)) (owned : (s.stall i).page.comp.owner.isSome = true) :
    Runs (.stallReset r i) s fun t =>
      (t.stall i).page.state = 1 ∧ (t.stall i).page.resetAt = some s.time ∧ (t.stall i).page.resets = (s.stall i).page.resets
      ∧ (t.stall i).march = {} ∧ (t.stall i).settle = {} ∧ (t.stall i).tally = {} ∧ (t.stall i).lot = {}
      ∧ (∀ secure n, t.post i secure n = {})
      ∧ (t.stall i).customs.regions = (s.stall i).customs.regions
      ∧ (∀ j, j ≠ i → t.stall j = s.stall j) ∧ t.mem = s.mem ∧ t.starts.cause = 9 := by
  let noted := s.resetCause 9 (BitVec.ofNat 4 i.val) 0
  have done : resetStall i s = noted.beginStallReset i := by
    unfold resetStall
    rw [if_neg (by rw [← Option.not_isSome, owned]; decide)]
  obtain ⟨mem, starts, -, -⟩ := beginStallReset_rest noted i
  refine runs_write rfl allowed ?_
  have self : (resetStall i s).stall i = resetting (s.stall i) s.time := done ▸ beginStallReset_stall (s := noted) owned
  have posts := post_of_resetting self
  rw [self]
  exact ⟨rfl, rfl, rfl, rfl, rfl, rfl, rfl, posts, rfl, fun j hj => done ▸ beginStallReset_other (s := noted) hj, done ▸ mem,
    done ▸ congrArg Starts.cause starts⟩

theorem runs_heartbeat (allowed : Allowed s r (stallOff i 4)) : Runs (.heartbeat r i) s fun t =>
    (t.stall i).page = { (s.stall i).page with hbLast := s.time } ∧ Unchanged s t [.stall i .page] :=
  runs_write (f := beat i) rfl allowed ⟨State.modPage_page .., unchanged_modPage _ (by simp) (unchanged_refl s _)⟩

theorem runs_armStall (allowed : Allowed s r (stallOff i 4)) (noReset : bit v 0 = false) : Runs (.arm r i v) s fun t =>
    (t.stall i).page.armed = (bit v 1 && ((s.stall i).page.armed || (altLink (s.stall i).page).isSome))
    ∧ (t.stall i).page.hbTimeout = fld v 8 8
    ∧ (bit v 2 = true → (t.stall i).page.hbLast = s.time) ∧ Unchanged s t [.stall i .page] := by
  refine runs_write rfl allowed ?_
  rw [writeStallCtrl, noReset, if_neg (by decide), State.modPage_page]
  exact ⟨rfl, rfl, fun beats => by simp [beats], unchanged_modPage _ (by simp) (unchanged_refl s _)⟩

/-- Settles O12: a reset, a heartbeat and an arming, each an allowed write of STALL_CTRL. -/
theorem stallControl : Obligations.StallControl := by
  intro s r i v allowed
  exact ⟨runs_stallReset allowed, runs_heartbeat allowed, runs_armStall allowed⟩

end ctrl
end Sys2Proof.Machine
end

section
/-! PROOFS. Host links: training, configuration requests, link-down and hot reset (R364 to R368, R374, R429). -/

namespace Sys2Proof.Machine

open Sys2Proof.Safety

variable {s : State} {l : LinkId} {i : Stall}

/-! ### The stalls of a link -/

theorem nodup_ownedBy (s : State) (l : LinkId) : (ownedBy s l).Nodup := nodup_allStalls.filter _

theorem ownerLink_of_mem_ownedBy (h : i ∈ ownedBy s l) : ownerLink (s.stall i).page = some l :=
  beq_iff_eq.mp (List.mem_filter.mp h).2

theorem owned_of_ownerLink {p : StallPage} (h : ownerLink p = some l) : p.comp.owner.isSome = true := by
  unfold ownerLink at h
  split at h
  · next o => rw [o]; rfl
  · cases h

theorem resetLinkStalls_stall {xs : List Stall} (nodup : xs.Nodup)
    (owned : ∀ j ∈ xs, (s.stall j).page.comp.owner.isSome = true) (h : i ∈ xs) :
    (s.resetLinkStalls l xs).stall i = resetting (s.stall i) s.time := by
  unfold State.resetLinkStalls
  rw [if_neg (by rw [List.isEmpty_iff]; exact List.ne_nil_of_mem h)]
  obtain ⟨u, same, time, reached⟩ := forEach_stall_once State.time
    (fun u j => (beginStallReset_rest u j).2.2.1) (fun u j k hk => beginStallReset_other hk) nodup h
    (s.resetCause 4 (BitVec.ofNat 4 l.val) 0)
  rw [reached, beginStallReset_stall (by rw [same]; exact owned i h), same, time]
  rfl

theorem resetLinkStalls_other {xs : List Stall} (h : i ∉ xs) : (s.resetLinkStalls l xs).stall i = s.stall i := by
  unfold State.resetLinkStalls
  split
  · rfl
  · exact forEach_stall_other (fun u j k hk => beginStallReset_other hk) h _

theorem resetLinkStalls_rest (s : State) (l : LinkId) (xs : List Stall) :
    (s.resetLinkStalls l xs).mem = s.mem ∧ ∀ k, (s.resetLinkStalls l xs).host k = s.host k := by
  unfold State.resetLinkStalls
  split
  · exact ⟨rfl, fun _ => rfl⟩
  · exact ⟨forEach_keeps xs _ State.mem (fun u j => (beginStallReset_rest u j).1) _,
      fun k => forEach_keeps xs _ (State.host · k) (fun u j => (beginStallReset_rest u j).2.2.2 k) _⟩

/-! ### Ownership passes to the alternates -/

/-- Ownership of the listed stalls passes. -/
def passAll (s : State) (xs : List Stall) : State := forEach xs s fun s i => s.passOwnership i

theorem passOwnership_frame (s : State) (i : Stall) : Unchanged s (s.passOwnership i) [.stall i .page, .log, .out] :=
  unchanged_passOwnership (by simp) (by simp) (by simp) (unchanged_refl s _)

theorem passOwnership_other (u : State) (j k : Stall) (h : k ≠ j) : (u.passOwnership j).stall k = u.stall k :=
  Unchanged.stall_eq (passOwnership_frame u j) (by simp [h])

theorem passAll_other {xs : List Stall} (h : i ∉ xs) : (passAll s xs).stall i = s.stall i :=
  forEach_stall_other passOwnership_other h s

theorem passAll_stall {xs : List Stall} (nodup : xs.Nodup) (h : i ∈ xs) :
    ((passAll s xs).stall i).page = { (s.stall i).page with swapped := !(s.stall i).page.swapped, armed := false }
      ∧ ((passAll s xs).stall i).march = (s.stall i).march := by
  obtain ⟨u, same, -, reached⟩ := forEach_stall_once (fun _ => ()) (fun _ _ => rfl) passOwnership_other nodup h s
  unfold passAll
  rw [reached, passOwnership_page, same]
  exact ⟨rfl, ((passOwnership_frame u i) (.stall i .march) (by simp)).trans (congrArg StallState.march same)⟩

theorem passAll_rest (s : State) (xs : List Stall) :
    (passAll s xs).mem = s.mem ∧ ∀ k, (passAll s xs).host k = s.host k :=
  ⟨forEach_keeps xs _ State.mem (fun u j => passOwnership_frame u j .mem (by simp)) s,
    fun k => forEach_keeps xs _ (State.host · k) (fun u j => passOwnership_frame u j (.host k) (by simp)) s⟩

theorem ownerLink_passed_eq {p : StallPage} (armed : Bool) (owner : p.comp.owner = some (some l)) :
    ownerLink { p with swapped := !p.swapped, armed := armed } = altLink p := by
  unfold ownerLink altLink
  simp only [owner]
  cases p.swapped <;> rfl

theorem owner_of_ownerLink {p : StallPage} (h : ownerLink p = some l) : ∃ k, p.comp.owner = some (some k) := by
  unfold ownerLink at h
  split at h
  · next k o => exact ⟨k, o⟩
  · cases h

/-! ### The events of a link -/

theorem linkDown_eq (s : State) (l : LinkId) : s.linkDown l =
    (passAll (s.modHost l downHost) ((ownedBy s l).filter fun i => passes (s.modHost l downHost) i)).resetLinkStalls l
      ((ownedBy s l).filter fun i => !passes (s.modHost l downHost) i) := rfl

theorem runs_linkDown (up : inL0 s l = true) (awake : standbyDue s = false) : Runs (.cxlLinkDown l) s fun t =>
    inL0 t l = false ∧ (t.host l).keys = none ∧ (t.host l).secret = none ∧ (t.host l).ideIo = false
    ∧ (∀ i ∈ ownedBy s l, passes (s.modHost l downHost) i = false →
        (t.stall i).page.state = 1 ∧ (t.stall i).march = {} ∧ (t.stall i).settle = {})
    ∧ (∀ i ∈ ownedBy s l, passes (s.modHost l downHost) i = true →
        ownerLink (t.stall i).page = altLink (s.stall i).page ∧ (t.stall i).page.armed = false
        ∧ (t.stall i).march = (s.stall i).march)
    ∧ (∀ i, i ∉ ownedBy s l → t.stall i = s.stall i) ∧ t.mem = s.mem ∧ ∀ k, k ≠ l → t.host k = s.host k := by
  have run : exec (.cxlLinkDown l) s = .next (s.linkDown l) := by
    simp only [exec, execCxlLinkDown, up, awake, Bool.not_true, Bool.false_eq_true, if_false]
  refine runs_of_exec run ?_
  rw [linkDown_eq]
  generalize hs1 : s.modHost l downHost = s1
  have stalls (j : Stall) : s1.stall j = s.stall j := by rw [← hs1]; rfl
  generalize hp : ((ownedBy s l).filter fun i => passes s1 i) = passed
  generalize hr : ((ownedBy s l).filter fun i => !passes s1 i) = lost
  have mem_passed (j : Stall) : j ∈ passed ↔ j ∈ ownedBy s l ∧ passes s1 j = true := by rw [← hp, List.mem_filter]
  have mem_lost (j : Stall) : j ∈ lost ↔ j ∈ ownedBy s l ∧ passes s1 j = false := by
    rw [← hr, List.mem_filter, Bool.not_eq_true']
  have nodup_passed : passed.Nodup := hp ▸ (nodup_ownedBy s l).filter _
  have nodup_lost : lost.Nodup := hr ▸ (nodup_ownedBy s l).filter _
  have apart {j : Stall} (hj : j ∈ lost) : j ∉ passed := fun h => by
    have := ((mem_lost j).mp hj).2
    rw [((mem_passed j).mp h).2] at this
    cases this
  have before {j : Stall} (hj : j ∈ lost) : (passAll s1 passed).stall j = s.stall j :=
    (passAll_other (apart hj)).trans (stalls j)
  have owned (j : Stall) (hj : j ∈ lost) : ((passAll s1 passed).stall j).page.comp.owner.isSome = true := by
    rw [before hj]
    exact owned_of_ownerLink (ownerLink_of_mem_ownedBy ((mem_lost j).mp hj).1)
  obtain ⟨mem, hosts⟩ := resetLinkStalls_rest (passAll s1 passed) l lost
  obtain ⟨mem1, hosts1⟩ := passAll_rest s1 passed
  have host : ((passAll s1 passed).resetLinkStalls l lost).host l = downHost (s.host l) := by
    rw [hosts, hosts1, ← hs1, State.modHost_host_self]
  refine ⟨by rw [inL0, host]; rfl, by rw [host]; rfl, by rw [host]; rfl, by rw [host]; rfl, fun j hj down => ?_, fun j hj pass => ?_,
    fun j hj => ?_, mem.trans (mem1.trans (by rw [← hs1]; rfl)), fun k hk => ?_⟩
  · rw [resetLinkStalls_stall nodup_lost owned ((mem_lost j).mpr ⟨hj, down⟩)]
    exact ⟨rfl, rfl, rfl⟩
  · have chosen := (mem_passed j).mpr ⟨hj, pass⟩
    obtain ⟨page, march⟩ := passAll_stall (s := s1) nodup_passed chosen
    obtain ⟨k, owner⟩ := owner_of_ownerLink (ownerLink_of_mem_ownedBy hj)
    rw [resetLinkStalls_other fun h => apart h chosen, page, march, stalls]
    exact ⟨ownerLink_passed_eq false owner, rfl, rfl⟩
  · rw [resetLinkStalls_other fun h => hj ((mem_lost j).mp h).1, passAll_other fun h => hj ((mem_passed j).mp h).1, stalls]
  · rw [hosts, hosts1, ← hs1, State.modHost_host_other _ l k downHost hk]

theorem runs_hotReset (up : inL0 s l = true) : Runs (.cxlHotReset l) s fun t =>
    (∀ i ∈ ownedBy s l, (t.stall i).page.state = 1 ∧ (t.stall i).march = {} ∧ (t.stall i).settle = {})
    ∧ (∀ i, i ∉ ownedBy s l → t.stall i = s.stall i) ∧ t.mem = s.mem ∧ ∀ k, t.host k = s.host k := by
  have run : exec (.cxlHotReset l) s = .next (s.resetLinkStalls l (ownedBy s l)) := by
    simp only [exec, execCxlHotReset, up, Bool.not_true, Bool.false_eq_true, if_false]
  refine runs_of_exec run ⟨fun j hj => ?_, fun j hj => resetLinkStalls_other hj, resetLinkStalls_rest s l _⟩
  rw [resetLinkStalls_stall (nodup_ownedBy s l) (fun k hk => owned_of_ownerLink (ownerLink_of_mem_ownedBy hk)) hj]
  exact ⟨rfl, rfl, rfl⟩

theorem runs_configRequest (up : inL0 s l = true) : Runs (.configRequest l) s fun t =>
    Unchanged s t [.out]
    ∧ t.out = s.out ++ [if s.power.state = 2 ∨ s.power.state = 3 ∨ s.tollgate.stranded = true then .configDone l
        else .configRetry l] := by
  have run : exec (.configRequest l) s = .next (s.send
      (if s.power.state = 2 ∨ s.power.state = 3 ∨ s.tollgate.stranded = true then .configDone l else .configRetry l)) := by
    simp only [exec, execConfigRequest, up, Bool.not_true, Bool.false_eq_true, if_false]
    split <;> rfl
  exact runs_of_exec run ⟨unchanged_send _ (by simp) (unchanged_refl s _), rfl⟩

/-- The rate, width and flit mode found serve a link (R364, R365). -/
def goodLink (s : State) (rate : BitVec 2) (width : BitVec 3) (flit256 : Bool) : Prop :=
  (rate = 1 ∨ rate = 2 ∧ flit256 = true) ∧ width ≠ 0 ∧ width.toNat ≤ (modeWidth s.tollgate.mode).toNat

section training
variable {rate : BitVec 2} {width : BitVec 3} {flit256 : Bool} (cxl3 : Bool)

theorem trainLink_good (good : goodLink s rate width flit256) : (s.trainLink l rate width flit256 cxl3).host l =
    { s.host l with
      rate := rate, width := width, flit256 := flit256, cxl3 := cxl3 && flit256, mem := flit256 && !s.tollgate.stranded
      l2 := false } := by
  rw [State.trainLink, State.modHost_host_self]
  exact if_pos good

theorem trainLink_bad (bad : ¬goodLink s rate width flit256) : (s.trainLink l rate width flit256 cxl3).host l =
    { s.host l with rate := 0, width := 0, flit256 := false, cxl3 := false, mem := false, l2 := false } := by
  rw [State.trainLink, State.modHost_host_self]
  exact if_neg bad

theorem runs_linkTraining (may : mayTrain s l = true) (down : inL0 s l = false) :
    Runs (.cxlLinkTraining l rate width flit256 cxl3) s fun t =>
      Unchanged s t [.host l]
      ∧ ((rate = 1 ∨ rate = 2 ∧ flit256 = true) ∧ width ≠ 0 ∧ width.toNat ≤ (modeWidth s.tollgate.mode).toNat →
          inL0 t l = true ∧ (t.host l).rate = rate ∧ (t.host l).width = width ∧ (t.host l).flit256 = flit256
          ∧ (t.host l).cxl3 = (cxl3 && flit256) ∧ (t.host l).mem = (flit256 && !s.tollgate.stranded))
      ∧ (rate = 0 ∨ rate = 2 ∧ flit256 = false → inL0 t l = false) := by
  have run : exec (.cxlLinkTraining l rate width flit256 cxl3) s = .next (s.trainLink l rate width flit256 cxl3) := by
    simp only [exec, execCxlLinkTraining, may, down, Bool.not_false, Bool.and_true, if_true]
  refine runs_of_exec run ⟨unchanged_modHost _ (by simp) (unchanged_refl s _), fun good => ?_, fun slow => ?_⟩
  · have fast : (rate != 0) = true := by
      obtain ⟨h | ⟨h, -⟩, -⟩ := good <;> subst h <;> decide
    rw [inL0, trainLink_good cxl3 good]
    exact ⟨by simpa using fast, rfl, rfl, rfl, rfl, rfl⟩
  · have bad : ¬goodLink s rate width flit256 := by
      rintro ⟨h, -⟩
      obtain slow | ⟨slow, short⟩ := slow
      · subst slow; simp at h
      · subst slow short; simp at h
    rw [inL0, trainLink_bad cxl3 bad]
    rfl

end training

/-- Settles O11: training and configuration requests, then the loss of a link, whose stalls pass or reset one by one. -/
theorem linksTrainAndAnswer : Obligations.LinksTrainAndAnswer :=
  ⟨fun _ _ _ _ _ cxl3 => ⟨runs_linkTraining cxl3, runs_configRequest⟩, fun _ _ up => ⟨runs_linkDown up, runs_hotReset up⟩⟩

end Sys2Proof.Machine
end

section
/-! PROOFS. The arbiter's frames: within its shares a stall neither waits nor borrows (R377 to R380). -/

namespace Sys2Proof.Machine

open Sys2Proof.Safety

section frames
variable {s : State} {i : Stall}

/-- No request of the stall waits or has borrowed. -/
def Served (i : Stall) (fs : List FrameState) : Prop := ∀ f ∈ fs, f.req.stall = i → f.left = 0 ∧ f.lent = 0

/-- The tenths of a byte that a stall asks for. -/
def asked (i : Stall) (reqs : List FrameRequest) : Nat := ((reqs.filter fun q => q.stall == i).map fun q => 10 * q.bytes).sum

theorem served_cons {f : FrameState} {fs : List FrameState} :
    Served i (f :: fs) ↔ (f.req.stall = i → f.left = 0 ∧ f.lent = 0) ∧ Served i fs := List.forall_mem_cons

/-- Requests within what the stall's shares move are served from them. -/
theorem served_serveOwn (reqs : List FrameRequest) (own : Vector Nat 8) (within : asked i reqs ≤ own.get i) :
    Served i (serveOwn reqs own).1 := by
  induction reqs generalizing own with
  | nil => exact fun f hf => absurd hf List.not_mem_nil
  | cons q l ih =>
    unfold serveOwn
    rw [served_cons]
    by_cases mine : q.stall = i
    · subst mine
      have total : asked q.stall (q :: l) = 10 * q.bytes + asked q.stall l := by simp [asked]
      refine ⟨fun _ => ⟨by dsimp only; omega, rfl⟩, ih _ ?_⟩
      rw [vector_get_set_eq _ _ _ rfl]
      omega
    · have total : asked i (q :: l) = asked i l := by simp [asked, mine]
      refine ⟨fun h => absurd h mine, ih _ ?_⟩
      rwa [vector_get_set_ne _ _ _ fun e => mine (Fin.ext e), ← total]

/-- Idle capacity is lent to waiting requests alone. -/
theorem served_lend (n : Nat) (j : Stall) {fs : List FrameState} (h : Served i fs) : Served i (lend n j fs) := by
  induction fs with
  | nil => exact h
  | cons f l ih =>
    obtain ⟨first, rest⟩ := served_cons.mp h
    unfold lend
    split
    · next waits => exact served_cons.mpr ⟨fun mine => absurd (first mine).1 (by omega), rest⟩
    · exact served_cons.mpr ⟨first, ih rest⟩

theorem served_lendAll (n idle : Nat) {fs : List FrameState} (last : Stall) (h : Served i fs) :
    Served i (lendAll n idle fs last).1 := by
  induction n generalizing idle fs last with
  | zero => exact h
  | succ n ih =>
    unfold lendAll
    split
    · exact h
    · split
      · exact h
      · exact ih _ _ (served_lend _ _ h)

theorem served_frameOf (k : Fin 6) (reqs : List FrameRequest)
    (within : asked i (reqs.filter fun q => q.resource == k) ≤ ownTenths s k i) : Served i (frameOf s k reqs).1 :=
  served_lendAll _ _ _ (served_serveOwn _ _ (by simpa [Vector.get_eq_getElem] using within))

/-- What the frames of every resource leave of the requests. -/
def framed (s : State) (reqs : List FrameRequest) : List FrameState :=
  ((List.finRange 6).map fun k => (k, frameOf s k reqs)).flatMap fun e => e.2.1

/-- A page's counters after a frame (R380). -/
def shortfall (i : Stall) (fs : List FrameState) (p : StallPage) : StallPage :=
  let mine := fs.filter fun f => f.req.stall == i && f.req.cxlMem
  { p with
    deferred := satAdd p.deferred (mine.filter fun f => decide (0 < f.lent)).length
    wait := if mine.any fun f => decide (0 < f.left) then satAdd p.wait 1 else p.wait }

theorem satAdd_zero {w : Nat} (c : BitVec w) : satAdd c 0 = c := by
  have bound := c.isLt
  rw [satAdd, Nat.add_zero, Nat.min_eq_left (by omega), BitVec.ofNat_toNat, BitVec.setWidth_eq]

theorem shortfall_of_served {fs : List FrameState} (p : StallPage) (h : Served i fs) : shortfall i fs p = p := by
  have mine {f : FrameState} (hf : f ∈ fs.filter fun f => f.req.stall == i && f.req.cxlMem) : f.left = 0 ∧ f.lent = 0 := by
    obtain ⟨hf, mine⟩ := List.mem_filter.mp hf
    exact h f hf (beq_iff_eq.mp (Bool.and_eq_true_iff.mp mine).1)
  have lent : ((fs.filter fun f => f.req.stall == i && f.req.cxlMem).filter fun f => decide (0 < f.lent)) = [] :=
    List.filter_eq_nil_iff.mpr fun f hf => by simp [(mine hf).2]
  have waits : ((fs.filter fun f => f.req.stall == i && f.req.cxlMem).any fun f => decide (0 < f.left)) = false :=
    List.any_eq_false.mpr fun f hf => by simp [(mine hf).1]
  simp only [shortfall, lent, waits, List.length_nil, satAdd_zero, Bool.false_eq_true, if_false]

theorem served_framed (reqs : List FrameRequest)
    (within : ∀ k : Fin 6, asked i (reqs.filter fun q => q.resource == k) ≤ ownTenths s k i) : Served i (framed s reqs) := by
  intro f hf
  obtain ⟨e, he, hf⟩ := List.mem_flatMap.mp hf
  obtain ⟨k, -, rfl⟩ := List.mem_map.mp he
  exact served_frameOf k reqs (within k) f hf

theorem asked_resource (reqs : List FrameRequest) (k : Fin 6) : asked i (reqs.filter fun q => q.resource == k) =
    ((reqs.filter fun q => q.resource == k && q.stall == i).map fun q => 10 * q.bytes).sum := by
  rw [asked, List.filter_filter]
  simp only [Bool.and_comm]

/-- The state in which the frame's pages are counted. -/
def frameStart (s : State) (reqs : List FrameRequest) : State :=
  { s.atTime (s.time + 256) with arbiter := Vector.ofFn fun k => (frameOf s k reqs).2 }

theorem exec_arbiterFrame (s : State) (reqs : List FrameRequest) : exec (.arbiterFrame reqs) s =
    .next (forEach allStalls (frameStart s reqs) fun u i => u.modPage i (shortfall i (framed s reqs))) := rfl

/-- Settles O14: the owners' shares are served before anything is lent. -/
theorem framesServeOwnersFirst : Obligations.FramesServeOwnersFirst := by
  intro s reqs
  refine runs_of_exec (exec_arbiterFrame s reqs) ⟨?_, ?_, fun i within => ?_⟩
  · exact forEach_keeps allStalls (fun u i => u.modPage i (shortfall i (framed s reqs))) State.time (fun _ _ => rfl) _
  · have page (i : Stall) : Part.stall i .page ∈ Part.time :: .arbiter :: allStalls.map fun i => .stall i .page := by
      simp [mem_allStalls]
    refine unchanged_forEach _ _ (fun u i hu => unchanged_modPage _ (page i) hu) ?_
    exact unchanged_set_arbiter _ (by simp) (unchanged_atTime _ (by simp) (unchanged_refl s _))
  · obtain ⟨u, same, -, reached⟩ := forEach_stall_once (f := fun u i => u.modPage i (shortfall i (framed s reqs)))
      (fun _ => ()) (fun _ _ => rfl) (fun u j k hk => State.modStall_stall_other u j k _ hk) nodup_allStalls
      (mem_allStalls i) (frameStart s reqs)
    rw [reached, State.modPage_page, shortfall_of_served _ (served_framed reqs fun k => asked_resource reqs k ▸ within k), same]
    rfl

end frames
end Sys2Proof.Machine
end

section
/-! PROOFS. A host's write under two customs entries that overlap and map a Serai bay PLAIN and GUARDED (R280, R289,
R299): the check of R412 takes the entry that holds the first byte, and each byte goes where the first entry that holds it
leads. R416 refuses such a table, but no hypothesis of the statement says that it was checked. -/

namespace Sys2Proof.Machine

open Sys2Proof.Safety

/-- Stall 0's table: entry 1 maps Serai bay 0 PLAIN from address 0, and entry 0 the same bay GUARDED from address 4. The
host's window is open. -/
def overlapBay : State :=
  ((bayTwice 4 {} []).modCustoms 0 fun x => { x with regions :=
    [(0, { valid := true, tier := 2, guarded := true, perm := 0xF, va := 4, size := 0x5C000000 }),
      (1, { valid := true, tier := 2, perm := 0xF, va := 0, size := 0x60000000 })] }).modHost 0 fun h => { h with mem := true }

theorem overlapBay_sane : Sane overlapBay := bayTwice_sane (n := 4) (c := {}) (m := []) rfl

/-- The five bytes that the host writes to address 0. -/
def fiveBytes : List Byte := [0, 0, 0, 0, 1]

/-- Where the five addresses lie. -/
theorem placeOf_overlapBay {a : Nat} (h : a < 5) :
    overlapBay.placeOf 0 a = some (if a = 4 then .serai 0 0 true else .serai 0 a false) := by
  interval_cases a <;> rfl

theorem overlapBay_plain : PlainAt overlapBay 0 fun a => 0 ≤ a ∧ a < 0 + fiveBytes.length := by
  have within {a : Nat} (ha : 0 ≤ a ∧ a < 0 + fiveBytes.length) : a < 5 := by simpa [fiveBytes] using ha.2
  refine ⟨fun a ha => ⟨_, placeOf_overlapBay (within ha), plain_of_reset_tiers rfl _⟩, fun a b p q ha hb hp hq same => ?_⟩
  obtain rfl := Option.some.inj ((placeOf_overlapBay (within ha)).symm.trans hp)
  obtain rfl := Option.some.inj ((placeOf_overlapBay (within hb)).symm.trans hq)
  have distinct : ∀ x y : Fin 5, placeKey (if x.val = 4 then .serai 0 0 true else .serai 0 x.val false) =
      placeKey (if y.val = 4 then .serai 0 0 true else .serai 0 y.val false) → x = y := by decide
  exact congrArg Fin.val (distinct ⟨a, within ha⟩ ⟨b, within hb⟩ same)

/-- The write is granted: the entry of its first byte holds all of it. -/
theorem overlapBay_granted : windowAt overlapBay 0 0 = some (0, 0)
    ∧ cxlRefusal overlapBay 0 0 (permWrite ||| permHost) 0 fiveBytes.length = none ∧ slotOf 0 = none := by decide

/-- What the model evaluates to: the last byte sets the parity byte of its row, where the first one was written. -/
theorem overlapBay_written :
    ((overlapBay.writeBytes 0 0 fiveBytes).countBytes 0 0 fiveBytes.length).readBytes 0 0 fiveBytes.length = [1, 0, 0, 0, 1] := by
  decide

/-- Refutes O51: nothing keeps the entries of the customs table from overlapping, so that a granted write reaches a bay that
is mapped PLAIN and GUARDED at once. There the parity of its last byte overwrites its first one. -/
theorem not_hostWindowsReachTheirStall : ¬Obligations.HostWindowsReachTheirStall := by
  intro h
  obtain ⟨window, granted, noSlot⟩ := overlapBay_granted
  obtain ⟨-, writes⟩ := h overlapBay 0 0 0 0 overlapBay_sane window
  obtain ⟨written, -⟩ := writes fiveBytes
  obtain ⟨t, run, stored, -⟩ := written granted fun slot inSlot => by rw [noSlot] at inSlot; cases inSlot
  have reached : exec (.cxlMemWrite 0 0 fiveBytes) overlapBay =
      .next ((overlapBay.writeBytes 0 0 fiveBytes).countBytes 0 0 fiveBytes.length) := by
    simp only [exec, execCxlMemWrite, window, granted, noSlot]
  have back := stored overlapBay_plain
  rw [← Host.Outcome.next.inj (reached.symm.trans run), overlapBay_written] at back
  exact absurd back (by decide)

end Sys2Proof.Machine
end

section
/-! PROOFS. A buddy's checkpoint whose space lies in a Serai bay that is mapped PLAIN and GUARDED at once (R280, R289,
R462). -/

namespace Sys2Proof.Machine

open Sys2Proof.Safety

/-- The record of a CHECKPOINT region (Table 12-3). -/
def spaceRecord (index va size : Nat) : BitVec 256 := BitVec.ofNat 256 (index + 3 * 2 ^ 13 + va * 2 ^ 32 + size * 2 ^ 80)

/-- A space of 8,192 bytes for generations of 4,096 bytes: its second half starts with the one byte of the PLAIN mapping,
and goes on at the GUARDED mapping's first byte. -/
def splitSpace : Charter := { regions := [spaceRecord 0 (1 + 8192) 4096, spaceRecord 1 0 1, spaceRecord 2 1 4095] }

def spaceBay : State := bayTwice 1 splitSpace []

theorem spaceBay_sane : Sane spaceBay := bayTwice_sane (n := 1) (c := splitSpace) (m := []) rfl

/-- The regions of the space, in index order. -/
theorem splitSpace_regions : spaceRegions splitSpace = [spaceRecord 0 (1 + 8192) 4096, spaceRecord 1 0 1, spaceRecord 2 1 4095] := by
  decide

/-- Where the space's offsets lie. -/
theorem concatAddr_splitSpace (o : Nat) : concatAddr (spaceRegions splitSpace) o =
    if o < 4096 then some (8193 + o) else if o = 4096 then some 0 else if o < 8192 then some (o - 4096) else none := by
  have first : rgSize (spaceRecord 0 (1 + 8192) 4096) = 4096 ∧ rgVa (spaceRecord 0 (1 + 8192) 4096) = 8193 := by decide
  have second : rgSize (spaceRecord 1 0 1) = 1 ∧ rgVa (spaceRecord 1 0 1) = 0 := by decide
  have third : rgSize (spaceRecord 2 1 4095) = 4095 ∧ rgVa (spaceRecord 2 1 4095) = 1 := by decide
  simp only [splitSpace_regions, concatAddr, first, second, third]
  split
  · rfl
  · by_cases here : o = 4096
    · subst here; rfl
    · rw [if_neg (by omega), if_neg here]
      split
      · rw [if_pos (by omega)]
        exact congrArg some (by omega)
      · rw [if_neg (by omega)]

theorem spaceBay_plain : PlainAt spaceBay 0 fun a => ∃ o, concatAddr (spaceRegions splitSpace) o = some a :=
  plainAt_bayTwice (n := 1) (c := splitSpace) (m := []) (by decide) fun a ⟨o, ha⟩ => by
    rw [concatAddr_splitSpace] at ha
    split at ha
    · obtain rfl := Option.some.inj ha; omega
    · split at ha
      · obtain rfl := Option.some.inj ha; omega
      · split at ha
        · obtain rfl := Option.some.inj ha; omega
        · cases ha

theorem concatAddr_splitSpace_inj (o o' a : Nat) (h : concatAddr (spaceRegions splitSpace) o = some a)
    (h' : concatAddr (spaceRegions splitSpace) o' = some a) : o = o' := by
  rw [concatAddr_splitSpace] at h h'
  grind

/-- The header that the buddy sends with no state. -/
def buddyHeader : List Byte := [0, 1] ++ List.replicate 86 0

/-- The state after it is received. -/
def spaceBayAfter : State :=
  ((spaceBay.writeSpace 0 splitSpace (4096 + 4) [0]).writeSpace 0 splitSpace (4096 + 4096) []).writeSpace 0 splitSpace 4096
    (buddyHeader.set 4 1)

theorem splitSpace_generations : oneGeneration splitSpace = true ∧ generations splitSpace true = [4096]
    ∧ regionsSize (spaceRegions splitSpace) = 8192 := by decide

theorem buddyHeader_received : exec (.buddyCkptReceive 0 0 buddyHeader []) spaceBay = .next spaceBayAfter := by
  have active : (spaceBay.stall 0).charter.active = some splitSpace := rfl
  have noMirror : ¬((spaceBay.stall 0).service.mirrorMember = 0 ∧ 64 ≤ (spaceBay.stall 0).march.member.toNat) := by decide
  have empty : generationMarch spaceBay 0 splitSpace 4096 = none := by decide
  obtain ⟨-, offsets, -⟩ := splitSpace_generations
  simp only [exec, execBuddyCkptReceive, active, if_neg noMirror, offsets, List.foldl_cons, List.foldl_nil,
    List.getD_cons_zero, empty]
  rfl

/-- What the model evaluates to: the header's second byte sets the parity byte of its row, where its first one was written. -/
theorem spaceBayAfter_first : spaceByte spaceBayAfter 0 splitSpace (4096 + 0) = 1 := by decide +kernel

/-- Refutes O58: nothing keeps a checkpoint's space out of a bay that is mapped PLAIN and GUARDED at once. There the parity
of a later byte of a buddy's header (R289) overwrites an earlier one. -/
theorem not_checkpointsAreWrittenAndRestored : ¬Obligations.CheckpointsAreWrittenAndRestored := by
  intro h
  obtain ⟨one, offsets, size⟩ := splitSpace_generations
  obtain ⟨-, -, buddy, -⟩ := h spaceBay 0 splitSpace rfl
  obtain ⟨-, received, -⟩ := buddy 0 buddyHeader []
  obtain ⟨t, run, ⟨off, side, -, stored⟩, -⟩ := received (.inr (by decide)) one rfl
  rw [offsets, List.mem_singleton] at side
  subst side
  obtain ⟨-, header, -⟩ := stored
    ⟨spaceBay_plain, fun a _ => hostVisible_bayTwice (n := 1) (c := splitSpace) (m := []) a, concatAddr_splitSpace_inj⟩
    (by rw [size]; decide)
  have first := header 0 (by decide) (by decide)
  rw [← Host.Outcome.next.inj (buddyHeader_received.symm.trans run), spaceBayAfter_first] at first
  exact absurd first (by decide)

end Sys2Proof.Machine
end

section
/-! PROOFS. The slot port over a memory that is not in canonical form: the statement of O57 asks no invariant of its
state. -/

namespace Sys2Proof.Machine

open Sys2Proof.Safety

/-- The reset state, but its memory lists the first byte of near bay 0 twice. -/
def twiceListed : State := { State.reset with mem := [(placeKey (.near 0 0), 1), (placeKey (.near 0 0), 2)] }

/-- The slot port stands at word 0 of near bay 0, and no slot is locked. -/
theorem twiceListed_port : Allowed twiceListed .tollgate (charterOff 0 0x44)
    ∧ slotLocked (twiceListed.stall 0) (twiceListed.stall 0).charter.portSlot = false
    ∧ (twiceListed.stall 0).charter.portWord.toNat = 0
    ∧ (twiceListed.stall 0).page.comp.nearFirst.toNat + (if (twiceListed.stall 0).charter.portSlot then 1 else 0) = 0 := by
  unfold Allowed
  decide

/-- What the model evaluates to: a zero removes the first entry of the byte's address, and the second one shows. -/
theorem twiceListed_written : (writePortData 0 0 twiceListed).readPlace (.near 0 0) = 2 := by decide

/-- Refutes O57: without the canonical form of memory (the invariant of O4), a byte that the slot port writes need not be
read back. -/
theorem not_chartersAreCheckedBeforeTheyRun : ¬Obligations.ChartersAreCheckedBeforeTheyRun := by
  intro h
  obtain ⟨allowed, unlocked, word, bay⟩ := twiceListed_port
  obtain ⟨-, -, -, -, port⟩ := h twiceListed .tollgate 0
  obtain ⟨-, writes⟩ := port 0 allowed
  obtain ⟨t, run, -, stored, -⟩ := writes unlocked (by rw [word]; decide)
  have back := stored 0 (by decide) (plain_of_reset_tiers rfl _)
  simp only [word, bay] at back
  have reached : exec (.chtPortDataWrite .tollgate 0 0) twiceListed = .next (writePortData 0 0 twiceListed) :=
    congrArg Host.Outcome.next (guardWrite_allowed (writePortData 0 0) allowed)
  rw [← Host.Outcome.next.inj (reached.symm.trans run), twiceListed_written] at back
  exact absurd back (by decide)

end Sys2Proof.Machine
end

section
/-! PROOFS. The Tollgate's exchanges: IDE keys, waybills and signed service commands (R403 to R411, R418). -/

namespace Sys2Proof.Machine

open Sys2Proof.Safety

/-! ### Answers through the exchange buffers (R403) -/

section answers
variable {s : State} {i : Stall} {secure : Bool} {n : Fin 24} (code : Reason) (out : List Byte)

/-- The groups of registers that an answer changes. -/
def answerParts (i : Stall) (secure : Bool) : List Part := [.stall i .xchg, postsOf i secure]

theorem unchanged_setXchg {l : List Part} {t : State} (k : BitVec 8) (x : Exchange) (hl : Part.stall i .xchg ∈ l)
    (h : Unchanged s t l) : Unchanged s (t.setXchg i k x) l :=
  unchanged_modStall _ (fun _ j hj => by
    cases j with
    | xchg => exact absurd rfl hj
    | _ => rfl) hl h

theorem setXchg_self (s : State) (i : Stall) (k : BitVec 8) (x : Exchange) : (s.setXchg i k x).xchg i k = x := by
  have gone : ((s.stall i).xchg.filter fun e => e.1 != k).find? (fun e => e.1 == k) = none := by
    rw [List.find?_eq_none]
    intro e he
    simpa using (List.mem_filter.mp he).2
  simp [State.xchg, State.setXchg, List.find?_append, gone]

theorem answer_frame : Unchanged s (s.answer i secure n code out) (answerParts i secure) :=
  unchanged_ackPost _ _ _ (by simp [answerParts]) (unchanged_setXchg _ _ (by simp [answerParts]) (unchanged_refl s _))

theorem setXchg_post (k : BitVec 8) (x : Exchange) : (s.setXchg i k x).post i secure n = s.post i secure n := by
  unfold State.post State.setXchg
  rw [State.modStall_stall_self]

theorem answer_post (h : secure = true → n.val < 8) : ((s.answer i secure n code out).post i secure n).full = false
    ∧ ((s.answer i secure n code out).post i secure n).ackCode = code := by
  unfold State.answer
  rw [ackPost_self h]
  exact ⟨rfl, rfl⟩

theorem modPost_xchg (f : Post → Post) (k : BitVec 8) : (s.modPost i secure n f).xchg i k = s.xchg i k := by
  cases secure with
  | false => simp [State.xchg, State.modPost]
  | true => by_cases h : n.val < 8 <;> simp [State.xchg, State.modPost, h]

theorem answer_output : ((s.answer i secure n code out).xchg i (xchgKey (s.post i secure n) secure n.val)).output = out := by
  unfold State.answer State.ackPost
  rw [modPost_xchg, setXchg_self]

end answers

/-! ### Keys of a link (R405) -/

section keys
variable {s : State} {i : Stall} {l : LinkId}

/-- The state in which KEX answers: two draws are taken, and the link keeps the shared secret. -/
def kexState (s : State) (l : LinkId) (secret : BitVec 256) : State :=
  { s with free := s.free + 2 }.modHost l fun h => { h with secret := some secret }

/-- What KEX signs. -/
def kexDigest (inp cipher : List Byte) (l : LinkId) : List Byte :=
  bytes256 (sha3 (inp ++ cipher ++ leBytes 8 identityTag ++ [BitVec.ofNat 8 l.val]))

theorem exec_kex (asked : hasMessage s i false 1 0x01 = true) (sender : (s.post i false 1).sender = some l)
    (fits : (xchgInput s i false 1).2 = true) (live : s.tollgate.identityErased = false)
    (len : (xchgInput s i false 1).1.length = 1216) :
    let sealed_ := Config.mlkemEncaps ((xchgInput s i false 1).1.take 1184) s.free
    exec (.kex i) s = .next ((kexState s l sealed_.2).answer i false 1 0
      (sealed_.1 ++ identitySign (kexDigest (xchgInput s i false 1).1 sealed_.1 l) (s.free + 1))) := by
  simp only [exec, execKex, asked, sender, fits, live, len, Bool.not_true, Bool.false_eq_true, if_false, bne_self_eq_false,
    Bool.or_false]
  rfl

theorem runs_kex (asked : hasMessage s i false 1 0x01 = true) (sender : (s.post i false 1).sender = some l)
    (fits : (xchgInput s i false 1).2 = true) (live : s.tollgate.identityErased = false)
    (len : (xchgInput s i false 1).1.length = 1216) :
    Runs (.kex i) s fun t =>
      let sealed_ := Config.mlkemEncaps ((xchgInput s i false 1).1.take 1184) s.free
      (t.host l).secret = some sealed_.2 ∧ (t.host l).keys = (s.host l).keys
      ∧ (t.xchg i (xchgKey (s.post i false 1) false 1)).output.take sealed_.1.length = sealed_.1
      ∧ (t.post i false 1).full = false ∧ (t.post i false 1).ackCode = 0
      ∧ Unchanged s t [.free, .host l, .stall i .xchg, .stall i .posts] := by
  refine runs_of_exec (exec_kex asked sender fits live len) ?_
  generalize Config.mlkemEncaps ((xchgInput s i false 1).1.take 1184) s.free = sealed_
  generalize identitySign (kexDigest (xchgInput s i false 1).1 sealed_.1 l) (s.free + 1) = signature
  have host : ((kexState s l sealed_.2).answer i false 1 0 (sealed_.1 ++ signature)).host l =
      { s.host l with secret := some sealed_.2 } :=
    State.modHost_host_self { s with free := s.free + 2 } l fun h => { h with secret := some sealed_.2 }
  obtain ⟨empty, code⟩ := answer_post (s := kexState s l sealed_.2) (i := i) (n := 1) 0 (sealed_.1 ++ signature)
    (fun (h : false = true) => by cases h)
  have output : (((kexState s l sealed_.2).answer i false 1 0 (sealed_.1 ++ signature)).xchg i
      (xchgKey (s.post i false 1) false 1)).output = sealed_.1 ++ signature := answer_output 0 _
  have frame : Unchanged s (kexState s l sealed_.2) [.free, .host l] :=
    unchanged_modHost _ (by simp) (unchanged_set_free _ (by simp) (unchanged_refl s _))
  refine ⟨by rw [host], by rw [host], by rw [output, List.take_left], empty, code, ?_⟩
  exact Unchanged.trans (Unchanged.mono frame (by simp)) (Unchanged.mono (answer_frame _ _) (by simp [answerParts, postsOf]))

theorem runs_kex_erased (asked : hasMessage s i false 1 0x01 = true) (sender : (s.post i false 1).sender = some l)
    (erased : s.tollgate.identityErased = true) : Runs (.kex i) s fun t =>
      (t.post i false 1).ackCode = 0x070B ∧ (t.xchg i (xchgKey (s.post i false 1) false 1)).output = []
      ∧ Unchanged s t [.stall i .xchg, .stall i .posts] := by
  have run : exec (.kex i) s = .next (s.answer i false 1 0x070B []) := by
    simp only [exec, execKex, asked, sender, erased, Bool.not_true, Bool.false_eq_true, if_false, if_true]
  exact runs_of_exec run ⟨(answer_post _ _ (fun h => by cases h)).2, answer_output _ _, answer_frame _ _⟩

/-- The confirmation that a link's secret gives (R405). -/
def confirmation (key : BitVec 256) : List Byte := bytes256 (sha3 (bytes256 key ++ asciiBytes "ZG IDE commit"))

/-- The keys that a link's secret gives. -/
def linkKeys (key : BitVec 256) (l : LinkId) : BitVec 1024 :=
  ofBytes 1024 (shake256 128 (bytes256 key ++ asciiBytes "ZG IDE" ++ [BitVec.ofNat 8 l.val]))

/-- A link after its confirmation agreed; after it did not. -/
def confirmed (l : LinkId) (key : BitVec 256) (h : HostLink) : HostLink :=
  { h with secret := none, keys := some (linkKeys key l), ideIo := true, ideCm := true }
def mistrusted (h : HostLink) : HostLink := { h with secret := none }

theorem exec_commit {key : BitVec 256} (asked : hasMessage s i false 1 0x02 = true)
    (sender : (s.post i false 1).sender = some l) (secret : (s.host l).secret = some key) :
    exec (.commit i) s =
      .next (if (xchgInput s i false 1).2 = true ∧ (xchgInput s i false 1).1 = confirmation key then
          (s.modHost l (confirmed l key)).answer i false 1 0 []
        else (s.modHost l mistrusted).answer i false 1 0x0709 []) := by
  have agrees : ((xchgInput s i false 1).2 && (xchgInput s i false 1).1 == confirmation key) = true
      ↔ (xchgInput s i false 1).2 = true ∧ (xchgInput s i false 1).1 = confirmation key := by
    rw [Bool.and_eq_true, beq_iff_eq]
  change execCommit i s = _
  simp only [execCommit, asked, sender, secret, Bool.not_true, Bool.false_eq_true, if_false]
  by_cases h : (xchgInput s i false 1).2 = true ∧ (xchgInput s i false 1).1 = confirmation key
  · rw [if_pos h]
    exact if_pos (agrees.mpr h)
  · rw [if_neg h]
    exact if_neg (mt agrees.mp h)

theorem runs_commit {key : BitVec 256} (asked : hasMessage s i false 1 0x02 = true)
    (sender : (s.post i false 1).sender = some l) (secret : (s.host l).secret = some key) :
    Runs (.commit i) s fun t =>
      (t.host l).secret = none ∧ (t.post i false 1).full = false
      ∧ ((xchgInput s i false 1).2 = true ∧ (xchgInput s i false 1).1 = confirmation key →
          (t.post i false 1).ackCode = 0 ∧ (t.host l).ideIo = true ∧ (t.host l).ideCm = true
          ∧ (t.host l).keys = some (linkKeys key l))
      ∧ ((xchgInput s i false 1).2 = true ∧ (xchgInput s i false 1).1 ≠ confirmation key →
          (t.post i false 1).ackCode = 0x0709 ∧ (t.host l).keys = (s.host l).keys ∧ (t.host l).ideIo = (s.host l).ideIo)
      ∧ Unchanged s t [.host l, .stall i .xchg, .stall i .posts] := by
  refine runs_of_exec (exec_commit asked sender secret) ?_
  have frame (f : HostLink → HostLink) (code : Reason) :
      Unchanged s ((s.modHost l f).answer i false 1 code []) [.host l, .stall i .xchg, .stall i .posts] :=
    Unchanged.trans (unchanged_modHost f (by simp) (unchanged_refl s _)) (Unchanged.mono (answer_frame _ _) (by simp [answerParts, postsOf]))
  have host (f : HostLink → HostLink) (code : Reason) : ((s.modHost l f).answer i false 1 code []).host l = f (s.host l) :=
    State.modHost_host_self _ _ _
  have post (f : HostLink → HostLink) (code : Reason) :=
    answer_post (s := s.modHost l f) (i := i) (secure := false) (n := 1) code [] (fun h => by cases h)
  by_cases h : (xchgInput s i false 1).2 = true ∧ (xchgInput s i false 1).1 = confirmation key
  · rw [if_pos h, host, (post _ _).1, (post _ _).2]
    exact ⟨rfl, rfl, fun _ => ⟨rfl, rfl, rfl, rfl⟩, fun no => absurd h.2 no.2, frame _ _⟩
  · rw [if_neg h, host, (post _ _).1, (post _ _).2]
    exact ⟨rfl, rfl, fun yes => absurd yes h, fun _ => ⟨rfl, rfl, rfl⟩, frame _ _⟩

end keys

/-! ### Waybills (R406) -/

section waybills
variable {s : State} {i : Stall}

theorem slice_append_of_length {α : Type} (a b c : List α) : slice (a ++ b ++ c) a.length b.length = b := by
  rw [slice, List.append_assoc, List.drop_left, List.take_left]

/-- The magic number and the fields before the nonce. -/
def waybillHead (s : State) (i : Stall) (role : Nat) : List Byte :=
  let es := waybillEntries s i
  leBytes 2 (1 : BitVec 16) ++ [BitVec.ofNat 8 es.length,
      BitVec.ofNat 8 (debugState s i + (if (s.stall i).page.comp.test then 4 else 0) + 8 * role)]
    ++ leBytes 2 (0x9640 : BitVec 16) ++ [0x10, BitVec.ofNat 8 i.val]
    ++ leBytes 4 (BitVec.ofNat 32 (64 + 48 * es.length + 2420)) ++ leBytes 8 identityTag ++ leBytes 8 s.time

def waybillMagic : List Byte := leBytes 4 (0x4C425957 : BitVec 32)

theorem waybillBody_eq (role : Nat) (nonce : List Byte) : waybillBody s i role nonce =
    waybillMagic ++ waybillHead s i role ++ nonce ++ (waybillEntries s i).flatten := by
  simp only [waybillBody, waybillHead, waybillMagic, List.append_assoc]

theorem waybillHead_length (role : Nat) : (waybillMagic ++ waybillHead s i role).length = 32 := by
  simp [waybillMagic, waybillHead, leBytes]

theorem slice_waybill_magic (role : Nat) (nonce rest : List Byte) :
    slice (waybillBody s i role nonce ++ rest) 0 4 = waybillMagic := by
  have len : waybillMagic.length = 4 := by simp [waybillMagic, leBytes]
  rw [waybillBody_eq, slice, List.drop_zero]
  simp only [List.append_assoc]
  rw [List.take_append_of_le_length (le_of_eq len.symm), List.take_of_length_le (le_of_eq len)]

theorem slice_waybill_nonce (role : Nat) {nonce : List Byte} (rest : List Byte) (len : nonce.length = 32) :
    slice (waybillBody s i role nonce ++ rest) 32 32 = nonce := by
  have cut := slice_append_of_length (waybillMagic ++ waybillHead s i role) nonce ((waybillEntries s i).flatten ++ rest)
  rw [waybillHead_length, len] at cut
  rw [waybillBody_eq, List.append_assoc (_ ++ nonce), cut]

/-- The role of the link that asks. -/
def waybillRole (s : State) (i : Stall) : Nat :=
  match (s.post i true 1).sender with
  | some l => (roleOf s l i).getD 0
  | none => 0

theorem exec_waybill (asked : hasMessage s i true 1 0x01 = true) (fits : (xchgInput s i true 1).2 = true)
    (len : (xchgInput s i true 1).1.length = 32) (live : s.tollgate.identityErased = false) :
    let body := waybillBody s i (waybillRole s i) (xchgInput s i true 1).1
    exec (.waybillRequest i) s = .next ({ s with free := s.free + 1 }.answer i true 1 0
      (body ++ identitySign (bytes256 (sha3 body)) s.free)) := by
  simp only [exec, execWaybillRequest, asked, fits, live, len, Bool.not_true, Bool.false_eq_true, if_false, bne_self_eq_false,
    Bool.or_false]
  rfl

theorem runs_waybill (asked : hasMessage s i true 1 0x01 = true) (fits : (xchgInput s i true 1).2 = true)
    (len : (xchgInput s i true 1).1.length = 32) (live : s.tollgate.identityErased = false) :
    Runs (.waybillRequest i) s fun t =>
      slice (t.xchg i (xchgKey (s.post i true 1) true 1)).output 0 4 = leBytes 4 (0x4C425957 : BitVec 32)
      ∧ slice (t.xchg i (xchgKey (s.post i true 1) true 1)).output 32 32 = (xchgInput s i true 1).1
      ∧ (t.post i true 1).full = false ∧ (t.post i true 1).ackCode = 0
      ∧ Unchanged s t [.free, .stall i .xchg, .stall i .secure] := by
  refine runs_of_exec (exec_waybill asked fits len live) ?_
  generalize identitySign (bytes256 (sha3 (waybillBody s i (waybillRole s i) (xchgInput s i true 1).1))) s.free = rest
  have output := answer_output (s := { s with free := s.free + 1 }) (i := i) (secure := true) (n := 1) 0
    (waybillBody s i (waybillRole s i) (xchgInput s i true 1).1 ++ rest)
  obtain ⟨empty, code⟩ := answer_post (s := { s with free := s.free + 1 }) (i := i) (secure := true) (n := 1) 0
    (waybillBody s i (waybillRole s i) (xchgInput s i true 1).1 ++ rest) (fun _ => by decide)
  refine ⟨(congrArg (slice · 0 4) output).trans (slice_waybill_magic _ _ _),
    (congrArg (slice · 32 32) output).trans (slice_waybill_nonce _ _ len), empty, code, ?_⟩
  exact Unchanged.trans (unchanged_set_free _ (by simp) (unchanged_refl s _)) (Unchanged.mono (answer_frame _ _) (by simp [answerParts, postsOf]))

end waybills

/-- Settles O17: each operation is an answer of the state in which it took effect. -/
theorem keysAndWaybills : Obligations.KeysAndWaybills :=
  fun _ _ _ => ⟨fun asked sender fits => ⟨runs_kex asked sender fits, runs_kex_erased asked sender⟩,
    fun _ asked sender secret => runs_commit asked sender secret, runs_waybill⟩

end Sys2Proof.Machine
end

section
/-! PROOFS. Signed service commands: the checks come first, and a command that passes them has its effect (R397, R408 to R411,
R417, R418, R466, R467). -/

namespace Sys2Proof.Machine

open Sys2Proof.Safety

section service
variable {s : State} {i : Stall} {c : Signed} {cmd : Nat} {who : Signer} {effect : State → Signed → State × Reason}

/-- A signed container lies behind secure post 2. -/
structure Contained (s : State) (i : Stall) (c : Signed) : Prop where
  asked : hasMessage s i true 2 0x01 = true
  fits : (xchgInput s i true 2).2 = true
  reads : readSigned (xchgInput s i true 2).1 = some c

theorem readSigned_cmd {bs : List Byte} (h : readSigned bs = some c) : leAt bs 0 1 = c.cmd := by
  dsimp only [readSigned] at h
  by_cases sound : bs.length = 32 + leAt bs 16 4 + (if 0x80 ≤ leAt bs 1 1 then 1312 else 0) + 2420 ∧ zeroAt bs 2 2 = true
      ∧ zeroAt bs 20 12 = true
  · rw [if_pos sound] at h
    exact congrArg Signed.cmd (Option.some.inj h)
  · rw [if_neg sound] at h
    cases h

/-- The state in which a command that passed its checks takes effect: the counter has taken its value. -/
def counted (s : State) (c : Signed) : State := { s with tollgate := { s.tollgate with counter := c.counter } }

theorem service_other (h : Contained s i c) (other : c.cmd ≠ cmd) : s.service i cmd who effect = s := by
  unfold State.service
  rw [if_neg (by rw [h.asked]; decide)]
  exact if_pos fun e => other ((readSigned_cmd h.reads).symm.trans e)

theorem service_refused (h : Contained s i c) (named : c.cmd = cmd) (bad : signedCode s.tollgate c who ≠ 0) :
    s.service i cmd who effect = s.answer i true 2 (signedCode s.tollgate c who) [] := by
  have read : (if (xchgInput s i true 2).2 = true then readSigned (xchgInput s i true 2).1 else none) = some c := by
    rw [if_pos h.fits, h.reads]
  unfold State.service
  rw [if_neg (by rw [h.asked]; decide)]
  simp only [readSigned_cmd h.reads, named, ne_eq, not_true_eq_false, if_false, read]
  rw [if_pos bad]

theorem service_passed (h : Contained s i c) (named : c.cmd = cmd) (good : signedCode s.tollgate c who = 0) :
    s.service i cmd who effect = (effect (counted s c) c).1.answer i true 2 (effect (counted s c) c).2 [] := by
  have read : (if (xchgInput s i true 2).2 = true then readSigned (xchgInput s i true 2).1 else none) = some c := by
    rw [if_pos h.fits, h.reads]
  unfold State.service
  rw [if_neg (by rw [h.asked]; decide)]
  simp only [readSigned_cmd h.reads, named, ne_eq, not_true_eq_false, if_false, read, good]
  rfl

/-! ### The checks (R408) -/

/-- What a command leaves that fails its checks. -/
def Refuses (s : State) (i : Stall) (c : Signed) (who : Signer) (t : State) : Prop :=
  signedCode s.tollgate c who ≠ 0 →
    (t.post i true 2).ackCode = signedCode s.tollgate c who ∧ (t.post i true 2).full = false
    ∧ t.tollgate.counter = s.tollgate.counter ∧ Unchanged s t [.stall i .xchg, .stall i .secure]

theorem refuses_answer : Refuses s i c who (s.answer i true 2 (signedCode s.tollgate c who) []) := fun _ =>
  have ⟨empty, code⟩ := answer_post (s := s) (i := i) (secure := true) (n := 2) (signedCode s.tollgate c who) []
    (fun _ => by decide)
  ⟨code, empty, rfl, answer_frame _ _⟩

theorem checked_service (h : Contained s i c) {e : Instr} (run : exec e s = .next (s.service i cmd who effect)) :
    (c.cmd ≠ cmd → exec e s = .next s) ∧ (c.cmd = cmd → Runs e s (Refuses s i c who)) := by
  refine ⟨fun other => by rw [run, service_other h other], fun named => runs_of_exec run ?_⟩
  by_cases good : signedCode s.tollgate c who = 0
  · exact fun bad => absurd good bad
  · rw [service_refused h named good]
    exact refuses_answer

/-- FULL_RESET resets the module where the counter moved. -/
theorem exec_fullReset (u : State) (served : s.service i 0x11 .owner0 (fun s _ => (s, 0)) = u) :
    exec (.fullReset i) s = if u.tollgate.counter = s.tollgate.counter then .next u else .next (u.resetModule 7 0) := by
  subst served; rfl

theorem checked_fullReset (h : Contained s i c) :
    (c.cmd ≠ 0x11 → exec (.fullReset i) s = .next s) ∧ (c.cmd = 0x11 → Runs (.fullReset i) s (Refuses s i c .owner0)) := by
  refine ⟨fun other => ?_, fun named => ?_⟩
  · rw [exec_fullReset s (service_other h other), if_pos rfl]
  · by_cases good : signedCode s.tollgate c .owner0 = 0
    · unfold Runs
      rw [exec_fullReset _ rfl]
      split <;> exact ⟨_, rfl, fun bad => absurd good bad⟩
    · refine runs_of_exec ?_ refuses_answer
      rw [exec_fullReset _ (service_refused h named good)]
      exact if_pos rfl

/-- Settles O18: each command is one service, whose checks come first. -/
theorem serviceChecksComeFirst : Obligations.ServiceChecksComeFirst := by
  intro s i c asked fits reads
  have h : Contained s i c := ⟨asked, fits, reads⟩
  simp only [List.forall_mem_cons, List.not_mem_nil, false_implies, implies_true, and_true]
  exact ⟨checked_service h rfl, checked_fullReset h, checked_service h rfl, checked_service h rfl, checked_service h rfl,
    checked_service h rfl, checked_service h rfl, checked_service h rfl, checked_service h rfl, checked_service h rfl,
    checked_service h rfl⟩

end service

/-! ### The effects (R409) -/

section effects
variable {s : State} {i : Stall} {c : Signed} {cmd : Nat} {who : Signer} {effect : State → Signed → State × Reason}

/-- What a command leaves that passes its checks. -/
def Serves (s : State) (i : Stall) (c : Signed) (who : Signer) (t : State) (code : Reason) (parts : List Part) : Prop :=
  signedCode s.tollgate c who = 0 →
    t.tollgate.counter = c.counter ∧ (t.post i true 2).ackCode = code ∧ (t.post i true 2).full = false
    ∧ Unchanged s t ([.tollgate, .stall i .xchg, .stall i .secure] ++ parts)

/-- A service runs to its refusal or to its answer. -/
theorem runs_service (h : Contained s i c) {e : Instr} (run : exec e s = .next (s.service i cmd who effect))
    (named : c.cmd = cmd) {post : State → Prop}
    (refused : signedCode s.tollgate c who ≠ 0 → post (s.answer i true 2 (signedCode s.tollgate c who) []))
    (passed : signedCode s.tollgate c who = 0 → ∀ u code, effect (counted s c) c = (u, code) → post (u.answer i true 2 code [])) :
    Runs e s post := by
  refine runs_of_exec run ?_
  by_cases good : signedCode s.tollgate c who = 0
  · rw [service_passed h named good]
    exact passed good _ _ rfl
  · rw [service_refused h named good]
    exact refused good

theorem serves_answer {u : State} (code : Reason) {parts : List Part} (counter : u.tollgate.counter = c.counter)
    (frame : Unchanged s u (.tollgate :: parts)) : Serves s i c who (u.answer i true 2 code []) code parts := fun _ =>
  have ⟨empty, answered⟩ := answer_post (s := u) (i := i) (secure := true) (n := 2) code [] (fun _ => by decide)
  ⟨counter, answered, empty, Unchanged.trans (Unchanged.mono frame (by grind)) (Unchanged.mono (answer_frame _ _)
    (by simp [answerParts, postsOf]))⟩

/-- A service whose effect is known runs to it, or is refused. -/
theorem runs_serves (h : Contained s i c) {e : Instr} (run : exec e s = .next (s.service i cmd who effect))
    (named : c.cmd = cmd) {u : State} {code : Reason} {parts : List Part} {extra : State → Prop}
    (acts : effect (counted s c) c = (u, code)) (counter : u.tollgate.counter = c.counter)
    (frame : Unchanged s u (.tollgate :: parts)) (does : extra (u.answer i true 2 code [])) :
    Runs e s fun t => Serves s i c who t code parts ∧ (signedCode s.tollgate c who = 0 → extra t) := by
  refine runs_service h run named (fun bad => ⟨fun good => absurd good bad, fun good => absurd good bad⟩) fun _ v code' acts' => ?_
  obtain ⟨rfl, rfl⟩ := Prod.mk.inj (acts.symm.trans acts')
  exact ⟨serves_answer _ counter frame, fun _ => does⟩

/-- A service that finds its body unfit leaves no effect. -/
theorem runs_unfit (h : Contained s i c) {e : Instr} (run : exec e s = .next (s.service i cmd who effect))
    (named : c.cmd = cmd) {code : Reason} {kept : State → Prop} (acts : effect (counted s c) c = (counted s c, code))
    (keeps : ∀ t, (∃ n, t.tollgate = { s.tollgate with counter := n }) → kept t) :
    Runs e s fun t => Serves s i c who t code [] ∧ kept t := by
  refine runs_service h run named (fun bad => ⟨fun good => absurd good bad, keeps _ ⟨_, rfl⟩⟩) fun _ v code' acts' => ?_
  obtain ⟨rfl, rfl⟩ := Prod.mk.inj (acts.symm.trans acts')
  exact ⟨serves_answer _ rfl (unchanged_set_tollgate _ (by simp) (unchanged_refl s _)), keeps _ ⟨_, rfl⟩⟩

theorem unchanged_counted (parts : List Part) : Unchanged s (counted s c) (.tollgate :: parts) :=
  unchanged_set_tollgate _ (by simp) (unchanged_refl s _)

/-- COMPOSE (R411). -/
theorem runs_compose (h : Contained s i c) (named : c.cmd = 0x10) (quiet : ∀ k, (s.stall k).page.state ≠ 1) :
    (∀ mode l, readCompose c.body = some (mode, l) →
      Runs (.compose i) s fun t => Serves s i c .owner0 t 0 [] ∧ (signedCode s.tollgate c .owner0 = 0 →
        t.tollgate.nextMode = mode ∧ (∀ k : Fin 8, t.tollgate.table.get k = l.getD k.val {})
        ∧ t.tollgate.mode = s.tollgate.mode ∧ ∀ k, (t.stall k).page = (s.stall k).page))
    ∧ (readCompose c.body = none →
      Runs (.compose i) s fun t => Serves s i c .owner0 t 0x070A [] ∧ t.tollgate.table = s.tollgate.table) := by
  have none_resets : (allStalls.any fun k => ((counted s c).stall k).page.state == 1) = false :=
    List.any_eq_false.mpr fun k _ => by
      rw [beq_iff_eq]
      exact quiet k
  refine ⟨fun mode l read => ?_, fun read => ?_⟩
  · refine runs_serves (code := 0) (u := { counted s c with tollgate := { (counted s c).tollgate with
      nextMode := mode, table := Vector.ofFn fun k => l.getD k.val {} } }) h rfl named ?_ rfl
      (unchanged_set_tollgate _ (by simp) (unchanged_counted _)) ⟨rfl, fun k => ?_, rfl, fun k => ?_⟩
    · simp only [none_resets, Bool.false_eq_true, if_false, read]
    · exact (Vector.get_eq_getElem _ _).trans (Vector.getElem_ofFn _)
    · exact answer_frame _ _ (.stall k .page) (by simp [answerParts, postsOf])
  · refine runs_unfit h rfl named ?_ fun t ⟨n, same⟩ => by rw [same]
    simp only [none_resets, Bool.false_eq_true, if_false, read]

/-- A container that passes its checks moves the counter. -/
theorem counter_of_signedCode {g : Tollgate} (good : signedCode g c who = 0) : g.counter.toNat < c.counter.toNat := by
  unfold signedCode at good
  split at good
  · cases good
  · by_contra old
    have fails : c.counter.toNat ≤ g.counter.toNat := Nat.not_lt.mp old
    rw [if_pos fails] at good
    split at good
    · cases good
    · split at good
      · cases good
      · split at good <;> cases good

theorem runs_fullReset (h : Contained s i c) (named : c.cmd = 0x11) : Runs (.fullReset i) s fun t =>
    signedCode s.tollgate c .owner0 = 0 →
      t.starts.cause = 7 ∧ t.tollgate.counter = c.counter ∧ t.power.state = 1 ∧ ∀ k, t.stall k = {} := by
  by_cases good : signedCode s.tollgate c .owner0 = 0
  · have newer : (counted s c).tollgate.counter ≠ s.tollgate.counter := fun same =>
      absurd (counter_of_signedCode good) (by rw [← same]; exact Nat.lt_irrefl _)
    refine runs_of_exec ((exec_fullReset _ (service_passed h named good)).trans (if_neg newer)) fun _ => ?_
    exact ⟨rfl, rfl, rfl, fun k => reset_stall k⟩
  · exact runs_of_exec ((exec_fullReset _ (service_refused h named good)).trans (if_pos rfl)) fun yes => absurd yes good

/-- CLEAR_RETIRED (R467). -/
theorem runs_clearRetired (h : Contained s i c) (named : c.cmd = 0x12) {es : List (Nat × Nat)} (read : readClear c.body = some es) :
    Runs (.clearRetired i) s fun t => Serves s i c .owner0 t 0 [.log] ∧ (signedCode s.tollgate c .owner0 = 0 →
      ∀ r, r ∈ t.log.retired ↔ r ∈ s.log.retired ∧ (r.kind.toNat, r.index.toNat) ∉ es) := by
  refine runs_serves (code := 0) (u := { counted s c with log := { s.log with
      retired := s.log.retired.filter fun r => !es.contains (r.kind.toNat, r.index.toNat) } }) h rfl named ?_ rfl
    (unchanged_set_log _ (by simp) (unchanged_counted _)) fun r => ?_
  · simp only [read]
    rfl
  · change r ∈ s.log.retired.filter _ ↔ _
    rw [List.mem_filter, Bool.not_eq_true', List.contains_eq_mem, decide_eq_false_iff_not]

theorem runs_enrolKey (h : Contained s i c) (named : c.cmd = 0x13) (k : Fin 16) (slot : leAt c.body 0 1 = k.val)
    (len : c.body.length = 1320) (zero : zeroAt c.body 1 7 = true) :
    Runs (.enrolKey i) s fun t => Serves s i c .enrol t 0 [] ∧ (signedCode s.tollgate c .enrol = 0 →
      t.tollgate.keys = s.tollgate.keys.set k (c.body.drop 8)) := by
  refine runs_serves (code := 0) (u := { counted s c with tollgate := { (counted s c).tollgate with
      keys := s.tollgate.keys.set k (c.body.drop 8) } }) h rfl named ?_ rfl
    (unchanged_set_tollgate _ (by simp) (unchanged_counted _)) rfl
  simp only [slot, len, zero, k.isLt, dif_pos, and_self, if_true]
  rfl

theorem runs_revokeKey (h : Contained s i c) (named : c.cmd = 0x14) (k : Fin 16) (slot : leAt c.body 0 1 = k.val)
    (some_ : c.body ≠ []) : Runs (.revokeKey i) s fun t => Serves s i c .revoke t 0 [] ∧ (signedCode s.tollgate c .revoke = 0 →
      t.tollgate.keys = s.tollgate.keys.set k []) := by
  refine runs_serves (code := 0) (u := { counted s c with tollgate := { (counted s c).tollgate with
      keys := s.tollgate.keys.set k [] } }) h rfl named ?_ rfl (unchanged_set_tollgate _ (by simp) (unchanged_counted _)) rfl
  simp only [slot, k.isLt, dif_pos, List.isEmpty_iff, some_, if_false]
  rfl

/-- The Tollgate once an image lies in the bank that does not run. -/
def imaged (g : Tollgate) (bs : List Byte) : Tollgate := { g with banks := g.banks.set! (if !g.bank then 1 else 0) bs }

theorem imaged_banks (g : Tollgate) (bs : List Byte) :
    (imaged g bs).banks.get (if g.bank then 0 else 1) = bs
      ∧ (imaged g bs).banks.get (if g.bank then 1 else 0) = g.banks.get (if g.bank then 1 else 0) := by
  unfold imaged
  cases g.bank <;> simp [Vector.get_eq_getElem, Vector.set!_eq_setIfInBounds]

theorem runs_image (h : Contained s i c) (named : c.cmd = 0x15) (len : c.body.length = 16) (small : leAt c.body 8 8 ≤ 2 ^ 25)
    (granted : tollgateDenied s i (leAt c.body 0 8) (leAt c.body 8 8) = none) :
    Runs (.image i) s fun t => signedCode s.tollgate c .owner0 = 0 →
      t.tollgate.banks.get (if s.tollgate.bank then 0 else 1) = s.readBytes i (leAt c.body 0 8) (leAt c.body 8 8)
      ∧ t.tollgate.banks.get (if s.tollgate.bank then 1 else 0) = s.tollgate.banks.get (if s.tollgate.bank then 1 else 0)
      ∧ t.tollgate.bank = s.tollgate.bank
      ∧ (bankCheck t.tollgate (!s.tollgate.bank) = 0 →
          (t.post i true 2).ackCode = 0 ∧ t.tollgate.restart = [1, 2, 3, 4, 5, 6])
      ∧ (bankCheck t.tollgate (!s.tollgate.bank) ≠ 0 →
          (t.post i true 2).ackCode = 0x0706 ∧ t.tollgate.restart = s.tollgate.restart) := by
  refine runs_service h rfl named (fun bad good => absurd good bad) fun _ u code acts _ => ?_
  have same : tollgateDenied (counted s c) i (leAt c.body 0 8) (leAt c.body 8 8) = none := granted
  have copied : (counted s c).readBytes i (leAt c.body 0 8) (leAt c.body 8 8)
      = s.readBytes i (leAt c.body 0 8) (leAt c.body 8 8) := rfl
  obtain ⟨new, old⟩ := imaged_banks (counted s c).tollgate (s.readBytes i (leAt c.body 0 8) (leAt c.body 8 8))
  have answered (v : State) (code : Reason) := (answer_post (s := v) (i := i) (secure := true) (n := 2) code [] (fun _ => by decide)).2
  rw [if_neg (by omega)] at acts
  simp only [same, copied] at acts
  change (if bankCheck (imaged (counted s c).tollgate (s.readBytes i (leAt c.body 0 8) (leAt c.body 8 8))) (!s.tollgate.bank) = 0
    then (_, _) else (_, _)) = _ at acts
  split at acts
  · next valid =>
    obtain ⟨rfl, rfl⟩ := Prod.mk.inj acts
    exact ⟨new, old, rfl, fun _ => ⟨answered _ _, rfl⟩, fun bad => absurd valid bad⟩
  · next invalid =>
    obtain ⟨rfl, rfl⟩ := Prod.mk.inj acts
    exact ⟨new, old, rfl, fun good => absurd good invalid, fun _ => ⟨answered _ _, rfl⟩⟩

theorem toNat_maxU {w : Nat} (a b : BitVec w) : (maxU a b).toNat = max a.toNat b.toNat := by
  unfold maxU
  split <;> omega

theorem runs_commitSvn (h : Contained s i c) (named : c.cmd = 0x16) (nonempty : 1 ≤ c.body.length) (short : c.body.length ≤ 8)
    (small : ofLe c.body ≤ 63) : Runs (.commitSvn i) s fun t =>
      (ofLe c.body ≤ s.tollgate.svn.toNat → Serves s i c .owner0 t 0 [] ∧ (signedCode s.tollgate c .owner0 = 0 →
        t.tollgate.svnRaise.toNat = max s.tollgate.svnRaise.toNat (ofLe c.body)))
      ∧ (s.tollgate.svn.toNat < ofLe c.body → Serves s i c .owner0 t 0x0707 [] ∧ t.tollgate.svnRaise = s.tollgate.svnRaise) := by
  have fits : ¬(c.body.isEmpty ∨ 8 < c.body.length ∨ 63 < ofLe c.body) := by
    rw [List.isEmpty_iff_length_eq_zero]; omega
  by_cases low : ofLe c.body ≤ s.tollgate.svn.toNat
  · have run := runs_serves (extra := fun t => t.tollgate.svnRaise.toNat = max s.tollgate.svnRaise.toNat (ofLe c.body)) (code := 0)
      (parts := []) (u := { counted s c with tollgate := { (counted s c).tollgate with
        svnRaise := maxU s.tollgate.svnRaise (BitVec.ofNat 7 (ofLe c.body)) } }) h (e := .commitSvn i) rfl named
      (by dsimp only; rw [if_neg fits]; exact if_neg (Nat.not_lt.mpr low)) rfl (unchanged_set_tollgate _ (by simp) (unchanged_counted _))
      ((toNat_maxU _ _).trans (by rw [BitVec.toNat_ofNat, Nat.mod_eq_of_lt (by omega)]))
    obtain ⟨t, run, post⟩ := run
    exact ⟨t, run, fun _ => post, fun high => absurd low (Nat.not_le.mpr high)⟩
  · have run := runs_unfit (kept := fun t => t.tollgate.svnRaise = s.tollgate.svnRaise) h (e := .commitSvn i) rfl named (code := 0x0707)
      (by dsimp only; rw [if_neg fits]; exact if_pos (Nat.not_le.mp low)) fun t ⟨n, same⟩ => by rw [same]
    obtain ⟨t, run, post⟩ := run
    exact ⟨t, run, fun yes => absurd yes low, fun _ => post⟩

theorem runs_debugStall (h : Contained s i c) (named : c.cmd = 0x17) : Runs (.debugStall i) s fun t =>
    ((s.stall i).page.comp.test = true → Serves s i c .owner0 t 0 [.stall i .customs] ∧ (signedCode s.tollgate c .owner0 = 0 →
      (t.stall i).customs.debugOpen = true))
    ∧ ((s.stall i).page.comp.test = false → Serves s i c .owner0 t 0x0708 []) := by
  by_cases test : (s.stall i).page.comp.test = true
  · obtain ⟨t, run, post⟩ := runs_serves (extra := fun t => (t.stall i).customs.debugOpen = true) (code := 0)
      (parts := [.stall i .customs]) (u := (counted s c).modCustoms i fun x => { x with debugOpen := true }) h (e := .debugStall i)
      rfl named (if_pos test) rfl (unchanged_modCustoms _ (by simp) (unchanged_counted _))
      ((congrArg Customs.debugOpen (answer_frame _ _ (.stall i .customs) (by simp [answerParts, postsOf]))).trans
        (by rw [State.modCustoms_customs]))
    exact ⟨t, run, fun _ => post, fun no => by rw [test] at no; cases no⟩
  · obtain ⟨t, run, post, -⟩ := runs_unfit (kept := fun _ => True) h (e := .debugStall i) rfl named (code := 0x0708) (if_neg test)
      fun _ _ => trivial
    exact ⟨t, run, fun yes => absurd yes test, fun _ => post⟩

theorem runs_debugFull (h : Contained s i c) (named : c.cmd = 0x18) : Runs (.debugFull i) s fun t =>
    Serves s i c .vendor t 0 [] ∧ (signedCode s.tollgate c .vendor = 0 →
      t.tollgate.debugFull = true ∧ t.tollgate.identityErased = true) :=
  runs_serves h rfl named rfl rfl (unchanged_set_tollgate _ (by simp) (unchanged_counted _)) ⟨rfl, rfl⟩

theorem runs_setThresh_stack (h : Contained s i c) (named : c.cmd = 0x19) (len : c.body.length = 4) {u : Fin 8}
    (unit : leAt c.body 0 2 = u.val) : Runs (.setThresh i) s fun t =>
      Serves s i c .owner0 t 0 [.stack u] ∧ (signedCode s.tollgate c .owner0 = 0 →
        t.tiers.near[u] = { s.tiers.near[u] with ceLimit := BitVec.ofNat 16 (leAt c.body 2 2) }) := by
  refine runs_serves (code := 0) (u := (counted s c).modStack u fun t => { t with ceLimit := BitVec.ofNat 16 (leAt c.body 2 2) })
    h rfl named ?_ rfl (unchanged_modStack _ (by simp) (unchanged_counted _)) ?_
  · simp [len, unit, u.isLt]
  · exact Vector.getElem_set_self _

theorem runs_setThresh_channel (h : Contained s i c) (named : c.cmd = 0x19) (len : c.body.length = 4) {u : Fin 24}
    (unit : leAt c.body 0 2 = u.val + 8) : Runs (.setThresh i) s fun t =>
      Serves s i c .owner0 t 0 [.channel u] ∧ (signedCode s.tollgate c .owner0 = 0 →
        t.tiers.serai[u] = { s.tiers.serai[u] with ceLimit := BitVec.ofNat 16 (leAt c.body 2 2) }) := by
  refine runs_serves (code := 0) (u := (counted s c).modChannel u fun t => { t with ceLimit := BitVec.ofNat 16 (leAt c.body 2 2) })
    h rfl named ?_ rfl (unchanged_modChannel _ (by simp) (unchanged_counted _)) ?_
  · simp [len, unit, u.isLt]
  · exact Vector.getElem_set_self _

/-- The thresholds that SET_POWER stores and puts in force (R410). -/
def thresholded (s : State) (throttle halt cool : Byte) : State :=
  { s with
    tollgate := { s.tollgate with thresholds := some (throttle, halt, cool) }
    power := { s.power with throttleC := throttle, haltC := halt, coolMax := cool } }

theorem unchanged_thresholded (s : State) (throttle halt cool : Byte) :
    Unchanged s (thresholded s throttle halt cool) [.tollgate, .power] := by
  intro p hp
  have same := unchanged_refl s [] p List.not_mem_nil
  cases p with
  | tollgate => exact absurd (by simp) hp
  | power => exact absurd (by simp) hp
  | _ => exact same

theorem runs_setPower (h : Contained s i c) (named : c.cmd = 0x1A) (len : c.body.length = 4) (zero : c.body.getD 3 0 = 0)
    (halt : (c.body.getD 1 0).toNat ≤ 112) (throttle : (c.body.getD 0 0).toNat ≤ 105)
    (order : (c.body.getD 0 0).toNat < (c.body.getD 1 0).toNat) : Runs (.setPower i) s fun t =>
      Serves s i c .owner0 t 0 [.power] ∧ (signedCode s.tollgate c .owner0 = 0 →
        t.power = { s.power with throttleC := c.body.getD 0 0, haltC := c.body.getD 1 0, coolMax := c.body.getD 2 0 }
        ∧ t.tollgate.thresholds = some (c.body.getD 0 0, c.body.getD 1 0, c.body.getD 2 0)) := by
  have ok : ¬((!thresholdsOk (c.body.getD 0 0).toNat (c.body.getD 1 0).toNat || c.body.getD 3 0 != 0) = true) := by
    simp only [thresholdsOk, halt, throttle, order, zero, decide_true, Bool.and_self, Bool.not_true, bne_self_eq_false,
      Bool.or_self, Bool.false_eq_true, not_false_eq_true]
  have frame : Unchanged s (thresholded (counted s c) (c.body.getD 0 0) (c.body.getD 1 0) (c.body.getD 2 0)) [.tollgate, .power] :=
    Unchanged.trans (unchanged_counted [.power]) (unchanged_thresholded _ _ _ _)
  refine runs_serves (code := 0) h rfl named ?_ rfl frame ⟨rfl, rfl⟩
  exact (if_neg (not_not.mpr len)).trans (if_neg ok)

/-- Settles O19, one command at a time. -/
theorem serviceCommandsAct : Obligations.ServiceCommandsAct := by
  intro s i c asked fits reads
  have h : Contained s i c := ⟨asked, fits, reads⟩
  exact ⟨fun named quiet => runs_compose h named quiet, runs_fullReset h, fun named _ read => runs_clearRetired h named read,
    fun named k slot len zero => runs_enrolKey h named k slot len zero, fun named k slot some_ => runs_revokeKey h named k slot some_,
    runs_image h, runs_commitSvn h, runs_debugStall h, runs_debugFull h,
    fun named len => ⟨fun _ unit => runs_setThresh_stack h named len unit, fun _ unit => runs_setThresh_channel h named len unit⟩,
    runs_setPower h⟩

end effects
end Sys2Proof.Machine
end

section
/-! PROOFS. Resets of the module (R422 to R425, R438, R474): what they clear, what is kept, and what survives in the
Waystation. -/

namespace Sys2Proof.Machine

open Sys2Proof.Safety

section resets
variable {s t : State}

/-- Stalls, cores, engines, tiers, ports, links and host registers hold their reset values. -/
def Cleared (s t : State) : Prop :=
  (∀ i, t.stall i = {}) ∧ (∀ k, t.core k = {}) ∧ (∀ e, t.engine e = {}) ∧ t.tiers = {} ∧ (∀ p, t.port p = {} ∧ t.lnk p = {})
  ∧ (∀ p, t.optic p = { mated := (s.optic p).mated }) ∧ (∀ l, t.host l = {}) ∧ t.fabric.relay = {} ∧ t.held = []
  ∧ t.caught = [] ∧ t.pending = s.pending ∧ t.anatomy = listedAnatomy s.log.retired ∧ t.mem = hostCells s.mem

/-- The state that no reset clears. -/
def Kept (s t : State) : Prop :=
  t.log.retired = s.log.retired ∧ t.tollgate.keys = s.tollgate.keys ∧ t.tollgate.banks = s.tollgate.banks
  ∧ t.tollgate.counter = s.tollgate.counter ∧ t.tollgate.table = s.tollgate.table
  ∧ t.tollgate.thresholds = s.tollgate.thresholds

/-- What survives in the Waystation through a reset that is no power-on. -/
def Survives (s t : State) : Prop :=
  t.log.ring = s.log.ring ∧ t.log.newest = s.log.newest ∧ t.power.braces = s.power.braces ∧ t.power.halts = s.power.halts
  ∧ t.power.alarm = s.power.alarm ∧ t.power.channels = s.power.channels ∧ t.power.vote = s.power.vote

theorem optic_keptFabric (f : Fabric) (p : PortId) : (keptFabric f).optics.get p = { mated := (f.optics.get p).mated } := by
  simp [keptFabric, Vector.get_eq_getElem]

theorem cleared_resetModule (s : State) (cause : BitVec 4) (channel : BitVec 8) : Cleared s (s.resetModule cause channel) :=
  ⟨reset_stall, reset_core, reset_engine, rfl, fun p => ⟨reset_port p, reset_lnk p⟩, optic_keptFabric s.fabric, reset_host,
    rfl, rfl, rfl, rfl, rfl, rfl⟩

theorem cleared_powerUp (s : State) : Cleared s s.powerUp :=
  ⟨reset_stall, reset_core, reset_engine, rfl, fun p => ⟨reset_port p, reset_lnk p⟩, optic_keptFabric s.fabric, reset_host,
    rfl, rfl, rfl, rfl, rfl, rfl⟩

/-- Registers of the Waystation, pins and the fault log are none of those that are cleared. -/
theorem Cleared.of_unchanged {u : State} (h : Cleared s t) (same : Unchanged t u [.power, .pins, .log]) : Cleared s u := by
  obtain ⟨stall, core, engine, tiers, port, optic, host, relay, held, caught, pending, anatomy, mem⟩ := h
  have tiersSame : u.tiers = t.tiers := Unchanged.tiers_eq same (by simp) (by simp) (by simp) (by simp)
  exact ⟨fun i => (Unchanged.stall_eq same (by simp)).trans (stall i), fun k => (same (.core k) (by simp)).trans (core k),
    fun e => (same (.engine e) (by simp)).trans (engine e), tiersSame.trans tiers,
    fun p => ⟨(same (.port p) (by simp)).trans (port p).1, (same (.lnk p) (by simp)).trans (port p).2⟩,
    fun p => (same (.optic p) (by simp)).trans (optic p), fun l => (same (.host l) (by simp)).trans (host l),
    (same .relay (by simp)).trans relay, (same .held (by simp)).trans held, (same .caught (by simp)).trans caught,
    (same .pending (by simp)).trans pending, (same .anatomy (by simp)).trans anatomy, (same .mem (by simp)).trans mem⟩

theorem kept_resetModule (s : State) (cause : BitVec 4) (channel : BitVec 8) : Kept s (s.resetModule cause channel) :=
  ⟨rfl, rfl, rfl, rfl, rfl, rfl⟩

theorem survives_resetModule (s : State) (cause : BitVec 4) (channel : BitVec 8) : Survives s (s.resetModule cause channel) :=
  ⟨rfl, rfl, rfl, rfl, rfl, rfl, rfl⟩

/-- A record that names no stall changes the log alone. -/
theorem record_of_no_stall (s : State) {r : Rec} (none : r.stall = none) : Unchanged s (s.record r) [.log] := by
  unfold State.record
  simp only [none]
  exact unchanged_set_log _ (by simp) (unchanged_refl s _)

/-- A reset that a record follows. -/
theorem cleared_recorded {r : Rec} (none : r.stall = none) (h : Cleared s t) : Cleared s (t.record r) :=
  h.of_unchanged (Unchanged.mono (record_of_no_stall t none) (by simp))

theorem kept_recorded {r : Rec} (none : r.stall = none) (h : Kept s t) : Kept s (t.record r) := by
  have tollgate : (t.record r).tollgate = t.tollgate := record_of_no_stall t none .tollgate (by simp)
  unfold Kept
  rw [record_retired, tollgate]
  exact h

/-! ### The events that reset the module -/

theorem runs_powerOn (s : State) : Runs .powerOn s fun t =>
    Cleared s t ∧ Kept s t ∧ t.starts.cause = 1 ∧ t.starts.fails = s.starts.fails ∧ t.log.ring = [] ∧ t.power = {}
    ∧ t.tollgate.debugFull = false :=
  runs_of_exec rfl ⟨cleared_powerUp s, ⟨rfl, rfl, rfl, rfl, rfl, rfl⟩, rfl, rfl, rfl, rfl, rfl⟩

theorem runs_aux3v3Loss (s : State) : Runs .aux3v3Loss s fun t =>
    Cleared s t ∧ Kept s t ∧ t.power.state = 0 ∧ t.power.aux = false ∧ t.power.pumpReq = false :=
  runs_of_exec rfl ⟨(cleared_powerUp s).of_unchanged (unchanged_set_power _ (by simp) (unchanged_refl _ _)),
    ⟨rfl, rfl, rfl, rfl, rfl, rfl⟩, rfl, rfl, rfl⟩

/-- VIN48 below its reset level switches every rail off. -/
def railsOff (t : State) : State := { t with power := { t.power with state := 0 } }

theorem exec_inputReset_vin (s : State) : exec (.inputReset 48) s =
    .next (railsOff (if s.power.tripLatch then s.resetModule 8 s.starts.channel else s.resetModule 2 48)) := rfl

theorem cleared_railsOff (h : Cleared s t) : Cleared s (railsOff t) :=
  h.of_unchanged (unchanged_set_power _ (by simp) (unchanged_refl _ _))

theorem runs_inputReset_vin (untripped : s.power.tripLatch = false) : Runs (.inputReset 48) s fun t =>
    Cleared s t ∧ Kept s t ∧ Survives s t ∧ t.starts.cause = 2 ∧ t.starts.channel = 48 ∧ t.power.state = 0
    ∧ t.tollgate.mode = s.tollgate.mode := by
  refine runs_of_exec (exec_inputReset_vin s) ?_
  rw [untripped, if_neg Bool.false_ne_true]
  exact ⟨cleared_railsOff (cleared_resetModule s 2 48), kept_resetModule s 2 48, survives_resetModule s 2 48, rfl, rfl, rfl, rfl⟩

theorem runs_inputReset_tripped (tripped : s.power.tripLatch = true) : Runs (.inputReset 48) s fun t =>
    Cleared s t ∧ t.starts.cause = 8 ∧ t.starts.channel = s.starts.channel := by
  refine runs_of_exec (exec_inputReset_vin s) ?_
  rw [tripped, if_pos rfl]
  exact ⟨cleared_railsOff (cleared_resetModule s 8 _), rfl, rfl⟩

theorem runs_inputReset_pwrok (untripped : s.power.tripLatch = false) : Runs (.inputReset 0xFF) s fun t =>
    Cleared s t ∧ Kept s t ∧ Survives s t ∧ t.starts.cause = 2 ∧ t.pins.pwrok = false := by
  have run : exec (.inputReset 0xFF) s = .next
      (let u := if s.power.tripLatch then s.resetModule 8 s.starts.channel else s.resetModule 2 0xFF
       { u with pins := { u.pins with pwrok := false } }) := rfl
  refine runs_of_exec run ?_
  rw [untripped, if_neg Bool.false_ne_true]
  exact ⟨(cleared_resetModule s 2 0xFF).of_unchanged (unchanged_set_pins _ (by simp) (unchanged_refl _ _)),
    kept_resetModule s 2 0xFF, survives_resetModule s 2 0xFF, rfl, rfl⟩

theorem exec_inputReset_rail {ch : BitVec 8} (low : 55 ≤ ch.toNat) (high : ch.toNat ≤ 58) (untripped : s.power.tripLatch = false) :
    exec (.inputReset ch) s =
      .next ((s.resetModule 2 ch).record { reason := 0x0A09, cls := clsModule, detail := ch.setWidth 32 }) := by
  change execInputReset ch s = _
  unfold execInputReset
  have notPwrok : ¬ch.toNat = 0xFF := by omega
  have notVin : ¬ch.toNat = 48 := by omega
  rw [if_neg (by omega), untripped, if_neg Bool.false_ne_true]
  simp only [notPwrok, notVin, low, high, if_false, and_self, if_true]

theorem runs_inputReset_rail {ch : BitVec 8} (low : 55 ≤ ch.toNat) (high : ch.toNat ≤ 58) (untripped : s.power.tripLatch = false) :
    Runs (.inputReset ch) s fun t =>
      Cleared s t ∧ Kept s t ∧ t.starts.cause = 2 ∧ t.starts.channel = ch ∧ t.log.newest = s.log.newest + 1 :=
  runs_of_exec (exec_inputReset_rail low high untripped)
    ⟨cleared_recorded rfl (cleared_resetModule s 2 ch), kept_recorded rfl (kept_resetModule s 2 ch), rfl, rfl, rfl⟩

theorem runs_perstN {ns : Nat} (long : 100 ≤ ns) : Runs (.perstN ns) s fun t =>
    Cleared s t ∧ Kept s t ∧ Survives s t ∧ t.starts.cause = 3 ∧ t.tollgate.mode = s.tollgate.nextMode :=
  runs_of_exec (if_neg (Nat.not_lt.mpr long))
    ⟨cleared_resetModule s 3 0, kept_resetModule s 3 0, survives_resetModule s 3 0, rfl, rfl⟩

theorem runs_startRetry (waits : s.power.state = 1) (begun : s.power.bringup ≠ 0) (failed : s.starts.fails ≠ 0)
    (hopes : s.starts.fails ≠ 3) (image : s.starts.waitImage = false) : Runs .startRetry s fun t =>
      Cleared s t ∧ Kept s t ∧ Survives s t ∧ t.starts.cause = 10 ∧ t.starts.fails = s.starts.fails ∧ t.power.bringup = 0 := by
  have due : (s.power.state == 1 && s.power.bringup != 0 && s.starts.fails != 0 && s.starts.fails != 3 && !s.starts.waitImage)
      = true := by
    simp only [Bool.and_eq_true, beq_iff_eq, bne_iff_ne, Bool.not_eq_true']
    exact ⟨⟨⟨⟨waits, begun⟩, failed⟩, hopes⟩, image⟩
  exact runs_of_exec (if_pos due)
    ⟨cleared_resetModule s 10 0, kept_resetModule s 10 0, survives_resetModule s 10 0, rfl, rfl, rfl⟩

/-- The state that a thermal trip records. -/
def tripped (t : State) : State :=
  { t with power := { t.power with tripLatch := true }, pins := { t.pins with thermtripN := false } }

theorem cleared_tripped (h : Cleared s t) : Cleared s (tripped t) :=
  h.of_unchanged fun p hp => by
    have same := unchanged_refl t [] p List.not_mem_nil
    cases p with
    | power => exact absurd (by simp) hp
    | pins => exact absurd (by simp) hp
    | _ => exact same

theorem runs_thermalTrip {ch : Fin 64} (core : ch.val < 48) : Runs (.thermalTrip ch) s fun t =>
    Cleared s t ∧ Kept s t ∧ t.power.tripLatch = true ∧ t.pins.thermtripN = false ∧ t.starts.cause = 8
    ∧ t.starts.channel = BitVec.ofNat 8 ch.val ∧ t.log.newest = s.log.newest + 1 := by
  have run : exec (.thermalTrip ch) s = .next ((tripped (s.resetModule 8 (BitVec.ofNat 8 ch.val))).record
      { reason := 0x0A08, cls := clsModule, detail := BitVec.ofNat 32 ch.val }) := if_neg (Nat.not_le.mpr core)
  exact runs_of_exec run ⟨cleared_recorded rfl (cleared_tripped (cleared_resetModule s 8 _)),
    kept_recorded rfl (t := tripped (s.resetModule 8 (BitVec.ofNat 8 ch.val))) ⟨rfl, rfl, rfl, rfl, rfl, rfl⟩, rfl, rfl, rfl, rfl, rfl⟩

/-- Settles O20: each event is a reset of the module, with what follows it. -/
theorem resetsClearTheModule : Obligations.ResetsClearTheModule := by
  intro s
  exact ⟨runs_powerOn s, runs_aux3v3Loss s,
    fun untripped => ⟨runs_inputReset_vin untripped, runs_inputReset_pwrok untripped,
      fun ch low high => runs_inputReset_rail low high untripped⟩,
    runs_inputReset_tripped, fun ns => ⟨runs_perstN, fun short => if_pos short⟩, runs_startRetry, fun _ => runs_thermalTrip⟩

end resets
end Sys2Proof.Machine
end

section
/-! PROOFS. PWROK and its straps, and starts that fail (R426, R427, R430, R431, R438). -/

namespace Sys2Proof.Machine

open Sys2Proof.Safety

section straps
variable {s : State} {code : BitVec 8} {src : BitVec 2} {clk : Bool}

/-- Is a seat code at the edge of its range (R427)? -/
def marginalSeat (code : BitVec 8) : Bool := code.toNat % 16 == 0 || code.toNat % 16 == 15

/-- The state once the straps are sampled. -/
def strapped (s : State) (code : BitVec 8) (src : BitVec 2) (clk : Bool) : State :=
  let clears := s.power.tripLatch && allBelow s 70
  { s with
    pins := { s.pins with pwrok := true, thermtripN := s.pins.thermtripN || clears }
    power := { s.power with tripLatch := s.power.tripLatch && !clears }
    starts := { s.starts with
      seatCode := code, seat := fld code 4 4, seatMarginal := marginalSeat code, bootsrc := src, clkmode := clk, t0 := s.time } }

theorem unchanged_strapped : Unchanged s (strapped s code src clk) [.pins, .power, .starts] := by
  intro p hp
  have same := unchanged_refl s [] p List.not_mem_nil
  cases p with
  | pins => exact absurd (by simp) hp
  | power => exact absurd (by simp) hp
  | starts => exact absurd (by simp) hp
  | _ => exact same

theorem unchanged_raiseAlarm {t : State} {l : List Part} (bits : BitVec 9) (hp : Part.power ∈ l) (hn : Part.pins ∈ l)
    (h : Unchanged s t l) : Unchanged s (t.raiseAlarm bits) l := by
  intro p hx
  have same := h p hx
  cases p with
  | pins => exact absurd hn hx
  | power => exact absurd hp hx
  | _ => exact same

theorem exec_pwrokRise (low : s.pins.pwrok = false) (aux : s.power.aux = true) : exec (.pwrokRise code src clk) s =
    .next (if marginalSeat code = true then (strapped s code src clk).raiseAlarm 0x080 else strapped s code src clk) := by
  have rises : ¬((s.pins.pwrok || !s.power.aux) = true) := by rw [low, aux]; decide
  exact if_neg rises

/-- A latched alarm asserts ALERT_N (R436). -/
theorem raiseAlarm_set (t : State) {bits : BitVec 9} {n : Nat} (set : bits.getLsbD n = true) :
    bit (t.raiseAlarm bits).power.alarm n = true ∧ (t.raiseAlarm bits).pins.alertN = false := by
  have latched : (t.power.alarm ||| bits).getLsbD n = true := by rw [BitVec.getLsbD_or, set, Bool.or_true]
  refine ⟨latched, beq_eq_false_iff_ne.mpr fun none => ?_⟩
  rw [none, show (0 : BitVec 9).getLsbD n = false from BitVec.getLsbD_zero] at latched
  cases latched

theorem tripLatch_strapped (latched : s.power.tripLatch = true) :
    (strapped s code src clk).power.tripLatch = false ↔ allBelow s 70 = true := by
  change (s.power.tripLatch && !(s.power.tripLatch && allBelow s 70)) = false ↔ _
  rw [latched]
  cases allBelow s 70 <;> decide

theorem runs_pwrokRise (low : s.pins.pwrok = false) (aux : s.power.aux = true) : Runs (.pwrokRise code src clk) s fun t =>
    t.pins.pwrok = true ∧ t.starts.seatCode = code ∧ t.starts.seat = fld code 4 4 ∧ t.starts.bootsrc = src
    ∧ t.starts.clkmode = clk ∧ t.starts.t0 = s.time
    ∧ t.starts.seatMarginal = (code.toNat % 16 == 0 || code.toNat % 16 == 15)
    ∧ (t.starts.seatMarginal = true → bit t.power.alarm 7 = true ∧ t.pins.alertN = false)
    ∧ (s.power.tripLatch = true → (t.power.tripLatch = false ↔ allBelow s 70 = true))
    ∧ Unchanged s t [.pins, .power, .starts] := by
  refine runs_of_exec (exec_pwrokRise low aux) ?_
  by_cases marginal : marginalSeat code = true
  · rw [if_pos marginal]
    exact ⟨rfl, rfl, rfl, rfl, rfl, rfl, rfl, fun _ => raiseAlarm_set _ rfl,
      tripLatch_strapped (code := code) (src := src) (clk := clk),
      unchanged_raiseAlarm _ (by simp) (by simp) unchanged_strapped⟩
  · rw [if_neg marginal]
    exact ⟨rfl, rfl, rfl, rfl, rfl, rfl, rfl, fun yes => absurd yes marginal,
      tripLatch_strapped (code := code) (src := src) (clk := clk), unchanged_strapped⟩

end straps

/-! ### Failed starts (R430, R431) -/

section failed
variable {s : State} {reason : Reason} {step : BitVec 4}

/-- The count of failed starts after one more: it stops at 3. -/
def nextFails (s : State) : BitVec 2 := if s.starts.fails = 3 then 3 else s.starts.fails + 1

/-- A failed start is recorded and counted, and FAULT_N is asserted. -/
def failedStart (s : State) (reason : Reason) (step : BitVec 4) : State :=
  let s1 := s.record { reason := reason }
  { s1 with
    starts := { s1.starts with fails := nextFails s, lastFail := fld reason 0 8, step := step }
    power := { s1.power with state := 1, bringup := step }
    pins := { s1.pins with faultN := false } }

theorem startFailed_eq (awake : s.power.waking = false) : s.startFailed reason step =
    if nextFails s = 3 then (failedStart s reason step).strand 1 else failedStart s reason step := by
  have waking : ¬((s.record { reason := reason }).power.waking = true) := by
    rw [record_power, awake]
    decide
  unfold State.startFailed
  simp only [if_neg waking]
  rfl

theorem nextFails_toNat (s : State) : (nextFails s).toNat = min 3 (s.starts.fails.toNat + 1) := by
  unfold nextFails
  generalize s.starts.fails = n
  revert n
  decide

theorem unchanged_failedStart : Unchanged s (failedStart s reason step) [.starts, .pins, .power, .log] := by
  intro p hp
  have same := record_of_no_stall s (r := { reason := reason }) rfl p
  cases p with
  | starts => exact absurd (by simp) hp
  | pins => exact absurd (by simp) hp
  | power => exact absurd (by simp) hp
  | log => exact absurd (by simp) hp
  | _ => exact same (by simp)

/-- What stranded mode closes in every stall (R431). -/
def strandStalls (s : State) : State := forEach allStalls s fun s i => s.modPage i fun p => { p with state := 3 }

theorem strandStalls_page (s : State) (i : Stall) : ((strandStalls s).stall i).page.state = 3 := by
  obtain ⟨u, -, -, reached⟩ := forEach_stall_once (f := fun u i => u.modPage i fun p => { p with state := 3 })
    (fun _ => ()) (fun _ _ => rfl) (fun u j k hk => State.modStall_stall_other u j k _ hk) nodup_allStalls (mem_allStalls i) s
  unfold strandStalls
  rw [reached, State.modPage_page]

theorem strandStalls_rest (s : State) : (strandStalls s).starts = s.starts ∧ (strandStalls s).time = s.time
    ∧ (strandStalls s).mem = s.mem :=
  ⟨forEach_keeps _ (fun u i => u.modPage i fun p => { p with state := 3 }) State.starts (fun _ _ => rfl) s,
    forEach_keeps _ (fun u i => u.modPage i fun p => { p with state := 3 }) State.time (fun _ _ => rfl) s,
    forEach_keeps _ (fun u i => u.modPage i fun p => { p with state := 3 }) State.mem (fun _ _ => rfl) s⟩

/-- What stranded mode sets of the module. -/
def strandModule (s : State) (why : BitVec 2) : State :=
  { s with
    tollgate := { s.tollgate with stranded := true }
    starts := { s.starts with why := why }
    power := { s.power with state := 5, bringup := 2 }
    pins := { s.pins with faultN := false } }

theorem strand_eq (s : State) (why : BitVec 2) : s.strand why = (strandModule (strandStalls s) why).record { reason := 0x0A05 } := rfl

/-- What a module in stranded mode reads. -/
structure Stranded (s t : State) (why : BitVec 2) : Prop where
  state : t.power.state = 5
  stranded : t.tollgate.stranded = true
  starts : t.starts = { s.starts with why := why }
  fault : t.pins.faultN = false
  stalls : ∀ i, (t.stall i).page.state = 3
  mem : t.mem = s.mem
  time : t.time = s.time

theorem stranded_strandModule {u : State} {why : BitVec 2} (stalls : ∀ i, (u.stall i).page.state = 3) :
    Stranded u ((strandModule u why).record { reason := 0x0A05 }) why :=
  ⟨rfl, rfl, rfl, rfl, stalls, rfl, rfl⟩

theorem stranded_strand (s : State) (why : BitVec 2) : Stranded s (s.strand why) why := by
  obtain ⟨starts, time, mem⟩ := strandStalls_rest s
  have closed := stranded_strandModule (why := why) (strandStalls_page s)
  have starts' := closed.starts.trans (congrArg (fun x : Starts => { x with why := why }) starts)
  rw [strand_eq]
  exact ⟨closed.state, closed.stranded, starts', closed.fault, closed.stalls, closed.mem.trans mem, closed.time.trans time⟩

/-- A start that fails outside a wake. -/
theorem startFailed_post (awake : s.power.waking = false) :
    let t := s.startFailed reason step
    t.time = s.time ∧ t.starts.lastFail = fld reason 0 8 ∧ t.starts.step = step ∧ t.pins.faultN = false
    ∧ t.starts.fails = nextFails s
    ∧ (nextFails s = 3 → t.power.state = 5 ∧ t.tollgate.stranded = true ∧ t.starts.why = 1 ∧ ∀ i, (t.stall i).page.state = 3)
    ∧ (nextFails s ≠ 3 → t.power.state = 1 ∧ Unchanged s t [.starts, .pins, .power, .log])
    ∧ t.mem = s.mem := by
  intro t
  have ht : t = _ := startFailed_eq awake
  rw [ht]
  by_cases third : nextFails s = 3
  · rw [if_pos third]
    have h := stranded_strand (failedStart s reason step) 1
    rw [h.starts]
    exact ⟨h.time, rfl, rfl, h.fault, rfl, fun _ => ⟨h.state, h.stranded, rfl, h.stalls⟩, fun no => absurd third no, h.mem⟩
  · rw [if_neg third]
    exact ⟨rfl, rfl, rfl, rfl, rfl, fun yes => absurd yes third, fun _ => ⟨rfl, unchanged_failedStart⟩, rfl⟩

theorem exec_startTimeout_due (due : (starting s && s.pins.pwrok && !s.power.tripLatch) = true) :
    exec .startTimeout s = .next ((s.atTime (s.starts.t0 + 4000000000)).startFailed 0x0A03 1) := if_pos due

theorem exec_startTimeout (begun : starting s = true) (pwrok : s.pins.pwrok = true) (untripped : s.power.tripLatch = false) :
    exec .startTimeout s = .next ((s.atTime (s.starts.t0 + 4000000000)).startFailed 0x0A03 1) :=
  exec_startTimeout_due (by rw [begun, pwrok, untripped]; rfl)

theorem runs_startTimeout (begun : starting s = true) (pwrok : s.pins.pwrok = true) (untripped : s.power.tripLatch = false)
    (awake : s.power.waking = false) : Runs .startTimeout s fun t =>
      t.time = maxU s.time (s.starts.t0 + 4000000000) ∧ t.starts.lastFail = 0x03 ∧ t.pins.faultN = false
      ∧ t.starts.fails.toNat = min 3 (s.starts.fails.toNat + 1)
      ∧ (t.starts.fails = 3 → t.power.state = 5 ∧ t.tollgate.stranded = true ∧ t.starts.why = 1
          ∧ ∀ i, (t.stall i).page.state = 3)
      ∧ (t.starts.fails ≠ 3 → t.power.state = 1 ∧ Unchanged s t [.time, .starts, .pins, .power, .log])
      ∧ t.mem = s.mem := by
  have awake' (b : BitVec 64) : (s.atTime b).power.waking = false := awake
  have count (b : BitVec 64) : (nextFails (s.atTime b)).toNat = min 3 (s.starts.fails.toNat + 1) := nextFails_toNat (s.atTime b)
  have moment (b : BitVec 64) : (s.atTime b).time = maxU s.time b ∧ (s.atTime b).mem = s.mem := ⟨rfl, rfl⟩
  have moved (b : BitVec 64) : Unchanged s (s.atTime b) [.time, .starts, .pins, .power, .log] :=
    unchanged_atTime b (by simp) (unchanged_refl s _)
  obtain ⟨time, last, -, fault, fails, third, other, mem⟩ :=
    startFailed_post (reason := 0x0A03) (step := 1) (awake' (s.starts.t0 + 4000000000))
  refine runs_of_exec (exec_startTimeout begun pwrok untripped) ⟨time.trans (moment _).1, last, fault, ?_, fun yes => ?_,
    fun no => ?_, mem.trans (moment _).2⟩
  · rw [fails]
    exact count _
  · exact third (fails.symm.trans yes)
  · obtain ⟨state, frame⟩ := other fun yes => no (fails.trans yes)
    exact ⟨state, Unchanged.trans (moved _) (Unchanged.mono frame (by simp))⟩

/-- Settles O21: the straps at PWROK, and the start that takes too long. -/
theorem startsAndStraps : Obligations.StartsAndStraps :=
  fun _ _ _ _ => ⟨runs_pwrokRise, runs_startTimeout⟩

end failed
end Sys2Proof.Machine
end

section
/-! PROOFS. Bring-up: the image, the tests, training, composition and the Tollgate's passes (R288, R354, R369, R399, R400,
R428 to R430). -/

namespace Sys2Proof.Machine

open Sys2Proof.Safety

/-! ### The Tollgate's pass (R354, R412, R415) -/

section pass
variable {s t : State} {l : List Part} {i : Stall}

/-- What a pass and the load at its end change. -/
def passParts (i : Stall) : List Part := [.out, .stall i .charter, .stall i .customs]

theorem unchanged_writeTable (c : Option Charter) (hu : Part.stall i .customs ∈ l) (h : Unchanged s t l) :
    Unchanged s (t.writeTable i c) l := unchanged_modCustoms _ hu (unchanged_modCustoms _ hu h)

theorem unchanged_chooseSlot (hc : Part.stall i .charter ∈ l) (h : Unchanged s t l) : Unchanged s (t.chooseSlot i).2 l :=
  unchanged_modCharter _ hc h

theorem unchanged_passTable (hc : Part.stall i .charter ∈ l) (hu : Part.stall i .customs ∈ l) (h : Unchanged s t l) :
    Unchanged s (t.passTable i) l := by
  have chosen := unchanged_chooseSlot hc (unchanged_modCharter (fun p => { p with
    keyIndex := fld (t.stall i).page.comp.policy 4 4, signedOnly := bit (t.stall i).page.comp.policy 0 }) hc h)
  unfold State.passTable
  exact unchanged_writeTable _ hu chosen

theorem unchanged_noteRefusal (code detail : Reason) (sec item : Nat) (ho : Part.out ∈ l) (hc : Part.stall i .charter ∈ l)
    (h : Unchanged s t l) : Unchanged s (t.noteRefusal i code detail sec item) l :=
  unchanged_raiseEvent _ _ ho (unchanged_modCharter _ hc h)

theorem unchanged_doLoad (hl : ∀ p ∈ passParts i, p ∈ l) (h : Unchanged s t l) : Unchanged s (t.doLoad i) l := by
  have ho : Part.out ∈ l := hl _ (by simp [passParts])
  have hc : Part.stall i .charter ∈ l := hl _ (by simp [passParts])
  have hu : Part.stall i .customs ∈ l := hl _ (by simp [passParts])
  have chosen := unchanged_chooseSlot hc h
  unfold State.doLoad
  split
  rename_i choice u e
  rw [e] at chosen
  split
  · exact unchanged_noteRefusal _ _ _ _ ho hc (unchanged_modCharter _ hc chosen)
  · refine unchanged_modCharter _ hc ?_
    split
    · exact unchanged_passTable hc hu chosen
    · exact chosen

theorem unchanged_beginLoad (hl : ∀ p ∈ passParts i, p ∈ l) (h : Unchanged s t l) : Unchanged s (t.beginLoad i) l := by
  unfold State.beginLoad
  split
  · exact unchanged_modCharter _ (hl _ (by simp [passParts])) h
  · exact unchanged_doLoad hl h

theorem unchanged_tollgatePass (hl : ∀ p ∈ passParts i, p ∈ l) (h : Unchanged s t l) : Unchanged s (t.tollgatePass i) l := by
  have hc : Part.stall i .charter ∈ l := hl _ (by simp [passParts])
  have hu : Part.stall i .customs ∈ l := hl _ (by simp [passParts])
  have passed := unchanged_passTable hc hu h
  unfold State.tollgatePass
  dsimp only
  split
  · exact unchanged_beginLoad hl passed
  · exact passed

/-- The passes of the stalls of a list. -/
def passesOf (s : State) (xs : List Stall) : State := forEach xs s fun s i => s.tollgatePass i

theorem unchanged_passesOf (xs : List Stall) : Unchanged s (passesOf s xs) (allStalls.flatMap passParts) :=
  unchanged_forEach _ _ (fun _ i hu => unchanged_tollgatePass (fun _ hp => List.mem_flatMap.mpr ⟨i, mem_allStalls i, hp⟩) hu)
    (unchanged_refl s _)

end pass

/-! ### Tests and training (R17, R288) -/

section tests
variable {s : State}

/-- The state once the image is chosen: PWR_THRESH takes what SET_POWER stored (R410). -/
def imageChosen (s : State) (rep : BringupReport) (b : Bool) : State :=
  { s with
    tollgate := runBank s.tollgate b (rep.banksValid.contains (if b then 0 else 1))
    starts := { s.starts with installed := false }
    power := match s.tollgate.thresholds with
      | some (t, h, m) => { s.power with throttleC := t, haltC := h, coolMax := m }
      | none => s.power }

/-- The test of cores retires cores alone. -/
theorem testCores_retired (bad : List (DieId × Fin 9)) (none : s.log.retired = []) :
    ∀ e ∈ (s.testCores bad).log.retired, e.kind = 1 := by
  unfold State.testCores
  refine forEach_invariant (fun u => ∀ e ∈ u.log.retired, e.kind = 1) _ _ (fun u e _ hu => ?_) (by simp [none])
  unfold State.retire
  split
  · rw [record_retired]
    exact hu
  · intro r hr
    rw [record_retired] at hr
    obtain old | new := List.mem_append.mp hr
    · exact hu r old
    · rw [List.mem_singleton.mp new]

theorem testCores_rest (s : State) (bad : List (DieId × Fin 9)) :
    (s.testCores bad).tollgate = s.tollgate ∧ (s.testCores bad).power = s.power := by
  have frame : Unchanged s (s.testCores bad) [.anatomy, .log] := by
    unfold State.testCores
    refine unchanged_forEach _ _ (fun u e hu => unchanged_retire _ _ _ _ (by simp) ?_)
      (unchanged_set_anatomy _ (by simp) (unchanged_refl s _))
    exact Unchanged.trans hu (Unchanged.mono (record_of_no_stall u rfl) (by simp))
  exact ⟨frame .tollgate (by simp), frame .power (by simp)⟩

theorem isRetired_of_kind {kind : BitVec 8} (cores : ∀ e ∈ s.log.retired, e.kind = 1) (other : kind ≠ 1) (index : Nat) :
    isRetired s kind index = false :=
  List.any_eq_false.mpr fun e he => by
    rw [Bool.and_eq_true, beq_iff_eq]
    exact fun found => other (found.1.symm.trans (cores e he))

/-- Training without a failed or a listed unit protects every group. -/
theorem trainMemory_none (cores : ∀ e ∈ s.log.retired, e.kind = 1) :
    (∀ k : Fin 16, (s.trainMemory []).tiers.nearGroups.get k = 0) ∧ (s.trainMemory []).tiers.seraiGroup = 0
      ∧ (s.trainMemory []).tollgate = s.tollgate ∧ (s.trainMemory []).power = s.power := by
  have near (pc : Nat) : isRetired s 2#8 pc = false := isRetired_of_kind cores (by decide) pc
  have serai (ch : Nat) : isRetired s 3#8 ch = false := isRetired_of_kind cores (by decide) ch
  refine ⟨fun k => ?_, ?_, rfl, rfl⟩
  · simp [State.trainMemory, forEach, near, trainedGroup, Vector.get_eq_getElem]
  · simp [State.trainMemory, forEach, serai, trainedGroup]

end tests

/-! ### Optics, links and composition (R325, R332, R369, R429) -/

section compose
variable {s : State}

theorem listedOptics_rest (s : State) : s.listedOptics.tiers = s.tiers ∧ s.listedOptics.tollgate = s.tollgate := by
  have frame : Unchanged s s.listedOptics everyPort := by
    unfold State.listedOptics
    exact unchanged_forEach _ _ (fun u p hu => unchanged_modOptic _ (optic_mem_everyPort p)
      (unchanged_modPort _ (port_mem_everyPort p) hu)) (unchanged_refl s _)
  exact ⟨Unchanged.tiers_eq frame (by simp [everyPort]) (by simp [everyPort]) (by simp [everyPort]) (by simp [everyPort]),
    frame .tollgate (by simp [everyPort])⟩

theorem unchanged_trainLinks (rep : BringupReport) : Unchanged s (s.trainLinks rep) ([.power, .pins, .log] ++ everyHost) := by
  have trained : Unchanged s (forEach (rep.linksUp.filter fun l => mayTrain s l) s fun s l =>
      s.trainLink l (if rep.links64.contains l then 2 else 1) (modeWidth s.tollgate.mode) (rep.links256.contains l)
        (rep.links256.contains l)) ([.power, .pins, .log] ++ everyHost) :=
    unchanged_forEach _ _ (fun u l hu => unchanged_modHost _ (by simp [everyHost]) hu) (unchanged_refl s _)
  unfold State.trainLinks
  dsimp only
  split
  · exact Unchanged.trans (unchanged_raiseAlarm _ (by simp) (by simp) trained)
      (Unchanged.mono (record_of_no_stall _ rfl) (by simp))
  · exact trained

theorem trainLinks_rest (s : State) (rep : BringupReport) :
    (s.trainLinks rep).tiers = s.tiers ∧ (s.trainLinks rep).tollgate = s.tollgate :=
  ⟨Unchanged.tiers_eq (unchanged_trainLinks rep) (by simp [everyHost]) (by simp [everyHost]) (by simp [everyHost])
    (by simp [everyHost]), unchanged_trainLinks rep .tollgate (by simp [everyHost])⟩

/-- A stall's page as the composition table gives it (R369). -/
def composedPage (c : Composition) (p : StallPage) : StallPage := { p with comp := c, state := if c.owner.isSome then 2 else 0 }

/-- The stalls as the composition table gives them. -/
def composeStalls (s : State) : State := forEach allStalls s fun s i => s.modPage i (composedPage (s.tollgate.table.get i))

theorem composeStalls_page (s : State) (i : Stall) : ((composeStalls s).stall i).page =
    composedPage (s.tollgate.table.get i) (s.stall i).page := by
  obtain ⟨u, same, gate, reached⟩ := forEach_stall_once (f := fun u i => u.modPage i (composedPage (u.tollgate.table.get i)))
    State.tollgate (fun _ _ => rfl) (fun u j k hk => State.modStall_stall_other u j k _ hk) nodup_allStalls (mem_allStalls i) s
  unfold composeStalls
  rw [reached, State.modPage_page, same, gate]

theorem composeStalls_rest (s : State) : (composeStalls s).tiers = s.tiers ∧ (composeStalls s).tollgate = s.tollgate :=
  ⟨forEach_keeps _ (fun u i => u.modPage i (composedPage (u.tollgate.table.get i))) State.tiers (fun _ _ => rfl) s,
    forEach_keeps _ (fun u i => u.modPage i (composedPage (u.tollgate.table.get i))) State.tollgate (fun _ _ => rfl) s⟩

/-- The units of the present stalls are powered (R371). -/
def setUnits (s : State) (cores : Vector Core 32) (engines : Vector CopyEngine 8) : State :=
  { s with cores := cores, engines := engines }

theorem setUnits_rest (s : State) (cores : Vector Core 32) (engines : Vector CopyEngine 8) :
    (setUnits s cores engines).tiers = s.tiers ∧ (setUnits s cores engines).tollgate = s.tollgate
      ∧ ∀ i, (setUnits s cores engines).stall i = s.stall i := ⟨rfl, rfl, fun _ => rfl⟩

theorem composeAll_eq (s : State) : ∃ cores engines, s.composeAll = setUnits (composeStalls s) cores engines := ⟨_, _, rfl⟩

theorem composeAll_rest (s : State) : s.composeAll.tiers = s.tiers ∧ s.composeAll.tollgate = s.tollgate
    ∧ ∀ i, (s.composeAll.stall i).page = composedPage (s.tollgate.table.get i) (s.stall i).page := by
  obtain ⟨cores, engines, composed⟩ := composeAll_eq s
  obtain ⟨tiers, gate, stalls⟩ := setUnits_rest (composeStalls s) cores engines
  obtain ⟨tiers', gate'⟩ := composeStalls_rest s
  rw [composed]
  exact ⟨tiers.trans tiers', gate.trans gate', fun i => (congrArg StallState.page (stalls i)).trans (composeStalls_page s i)⟩

/-- The module is READY (R428). -/
def readied (s : State) (rep : BringupReport) : State :=
  { s with
    fabric := { s.fabric with optics := s.fabric.optics.map fun o => { o with interlock := rep.interlock } }
    power := { s.power with state := 2, bringup := 9, interlock := rep.interlock, waking := false }
    pins := { s.pins with lasers := true, faultN := true }
    starts := { s.starts with fails := 0 } }

/-- What the retention memory gives back to the stalls after a wake (R444); to the cores and the Waystation. -/
def regainStalls (s : State) (kept : Vector Retained 8) : State :=
  forEach allStalls s fun s i => s.modStall i (giveBack (kept.get i))
def regainUnits (s : State) (cores : Vector Core 32) (power : Power) : State := { s with cores := cores, power := power }

def regained (p : Power) (s : State) : State :=
  match p.retained with
  | some (kept, choosers) =>
    regainUnits (regainStalls s kept)
      (Vector.ofFn fun k => { (s.cores.get k) with chooser := choosers.get k, chooserWritten := choosers.get k })
      { s.power with retained := none }
  | none => s

/-- The parts that giving back leaves as they were. -/
structure Regained (s t : State) : Prop where
  tiers : t.tiers = s.tiers
  tollgate : t.tollgate = s.tollgate
  starts : t.starts = s.starts
  pins : t.pins = s.pins
  state : t.power.state = s.power.state
  bringup : t.power.bringup = s.power.bringup
  pages : ∀ i, (t.stall i).page = (s.stall i).page

theorem modStall_giveBack_page (u : State) (i j : Stall) (k : Retained) :
    ((u.modStall j (giveBack k)).stall i).page = (u.stall i).page := by
  by_cases h : i = j
  · subst h
    rw [State.modStall_stall_self]
    rfl
  · rw [State.modStall_stall_other u j i _ h]

theorem regained_regainStalls (s : State) (kept : Vector Retained 8) : Regained s (regainStalls s kept) := by
  have keeps {α : Type} (v : State → α) (h : ∀ u i, v (u.modStall i (giveBack (kept.get i))) = v u) :
      v (regainStalls s kept) = v s := forEach_keeps allStalls (fun u i => u.modStall i (giveBack (kept.get i))) v h s
  exact ⟨keeps State.tiers fun _ _ => rfl, keeps State.tollgate fun _ _ => rfl, keeps State.starts fun _ _ => rfl,
    keeps State.pins fun _ _ => rfl, keeps (fun u => u.power.state) fun _ _ => rfl, keeps (fun u => u.power.bringup) fun _ _ => rfl,
    fun i => keeps (fun u => (u.stall i).page) fun u j => modStall_giveBack_page u i j _⟩

theorem Regained.units {u : State} (h : Regained s u) (cores : Vector Core 32) (power : Power)
    (state : power.state = s.power.state) (bringup : power.bringup = s.power.bringup) : Regained s (regainUnits u cores power) :=
  ⟨h.tiers, h.tollgate, h.starts, h.pins, state, bringup, h.pages⟩

theorem regained_regained (p : Power) (s : State) : Regained s (regained p s) := by
  unfold regained
  split
  · exact (regained_regainStalls s _).units _ _ rfl rfl
  · exact ⟨rfl, rfl, rfl, rfl, rfl, rfl, fun _ => rfl⟩

end compose

/-! ### Bring-up (R428 to R430) -/

section bringup
variable {s : State} {rep : BringupReport} {b : Bool}

/-- The state after the tests and the training. -/
def trained (s : State) (rep : BringupReport) (b : Bool) : State :=
  ((imageChosen s rep b).testCores rep.failedCores).trainMemory rep.failedUnits

/-- The state in which the Tollgate's passes begin. -/
def composed (s : State) (rep : BringupReport) (b : Bool) : State :=
  regained s.power (readied ((trained s rep b).listedOptics.trainLinks rep).composeAll rep)

theorem finishBringup_eq (protected_ : ((trained s rep b).tiers.nearGroups.toList.any (· == 3)
    || (trained s rep b).tiers.seraiGroup == 3) = false) :
    s.finishBringup rep b = passesOf (composed s rep b) (presentStalls (composed s rep b)) := by
  change (if _ then _ else _) = _
  exact if_neg fun failed => Bool.false_ne_true (protected_.symm.trans failed)

/-- What a module reads that is READY. -/
structure Ready (s t : State) (b : Bool) : Prop where
  state : t.power.state = 2
  bringup : t.power.bringup = 9
  fails : t.starts.fails = 0
  fault : t.pins.faultN = true
  bank : t.tollgate.bank = b
  pages : ∀ i, (t.stall i).page.comp = s.tollgate.table.get i
    ∧ ((t.stall i).page.state = 2 ↔ (s.tollgate.table.get i).owner.isSome = true)
  near : ∀ k : Fin 16, t.tiers.nearGroups.get k = 0
  serai : t.tiers.seraiGroup = 0

theorem composedPage_state (c : Composition) (p : StallPage) : (composedPage c p).state = 2 ↔ c.owner.isSome = true := by
  unfold composedPage
  cases c.owner.isSome <;> simp

theorem imageChosen_tollgate (s : State) (rep : BringupReport) (b : Bool) :
    (imageChosen s rep b).tollgate.bank = b ∧ (imageChosen s rep b).tollgate.table = s.tollgate.table := ⟨rfl, rfl⟩

/-- A module that is ready stays so through the parts that giving back and the Tollgate's passes leave. -/
theorem Ready.of_regained {u t : State} (h : Ready s t b) (same : Regained t u) : Ready s u b := by
  obtain ⟨state, bringup, fails, fault, bank, pages, near, serai⟩ := h
  exact ⟨same.state.trans state, same.bringup.trans bringup, same.starts ▸ fails, same.pins ▸ fault, same.tollgate ▸ bank,
    fun i => same.pages i ▸ pages i, same.tiers ▸ near, same.tiers ▸ serai⟩

theorem regained_passesOf (t : State) (xs : List Stall) : Regained t (passesOf t xs) := by
  have frame := unchanged_passesOf (s := t) xs
  exact ⟨Unchanged.tiers_eq frame (by simp [passParts]) (by simp [passParts]) (by simp [passParts]) (by simp [passParts]),
    frame .tollgate (by simp [passParts]), frame .starts (by simp [passParts]), frame .pins (by simp [passParts]),
    congrArg Power.state (frame .power (by simp [passParts])), congrArg Power.bringup (frame .power (by simp [passParts])),
    fun i => frame (.stall i .page) (by simp [passParts])⟩

theorem ready_readied {u : State} (bank : u.tollgate.bank = b)
    (pages : ∀ i, ∃ p, (u.stall i).page = composedPage (s.tollgate.table.get i) p)
    (near : ∀ k : Fin 16, u.tiers.nearGroups.get k = 0) (serai : u.tiers.seraiGroup = 0) : Ready s (readied u rep) b :=
  ⟨rfl, rfl, rfl, rfl, bank, fun i => by
    obtain ⟨p, hp⟩ := pages i
    have same : ((readied u rep).stall i).page = composedPage (s.tollgate.table.get i) p := hp
    rw [same]
    exact ⟨rfl, composedPage_state _ _⟩, near, serai⟩

/-- With no failed and no listed unit, bring-up ends in READY. -/
theorem ready_finishBringup (intact : rep.failedUnits = []) (none_retired : s.log.retired = []) :
    Ready s (s.finishBringup rep b) b := by
  obtain ⟨gate, -⟩ := testCores_rest (imageChosen s rep b) rep.failedCores
  obtain ⟨near, serai, gate', -⟩ := trainMemory_none (testCores_retired (s := imageChosen s rep b) rep.failedCores none_retired)
  rw [← intact] at near serai gate'
  change ∀ k : Fin 16, (trained s rep b).tiers.nearGroups.get k = 0 at near
  change (trained s rep b).tiers.seraiGroup = 0 at serai
  change (trained s rep b).tollgate = _ at gate'
  obtain ⟨bank, table⟩ := imageChosen_tollgate s rep b
  generalize htr : trained s rep b = w at near serai gate'
  have failed : ((trained s rep b).tiers.nearGroups.toList.any (· == 3) || (trained s rep b).tiers.seraiGroup == 3) = false := by
    rw [htr, serai, Bool.or_eq_false_iff]
    refine ⟨List.any_eq_false.mpr fun g hg => ?_, rfl⟩
    obtain ⟨k, hk, rfl⟩ := Vector.mem_iff_getElem.mp (Vector.mem_toList_iff.mp hg)
    have zero : w.tiers.nearGroups[k] = 0 := near ⟨k, hk⟩
    rw [zero]
    decide
  rw [finishBringup_eq failed]
  refine Ready.of_regained ?_ (regained_passesOf _ _)
  unfold composed
  rw [htr]
  refine Ready.of_regained ?_ (regained_regained _ _)
  obtain ⟨tiersC, gateC, pages⟩ := composeAll_rest (w.listedOptics.trainLinks rep)
  obtain ⟨tiersL, gateL⟩ := trainLinks_rest w.listedOptics rep
  obtain ⟨tiersO, gateO⟩ := listedOptics_rest w
  have tiers := tiersC.trans (tiersL.trans tiersO)
  have gates := gateL.trans (gateO.trans (gate'.trans gate))
  refine ready_readied ?_ (fun i => ⟨_, (pages i).trans (by rw [gates, table])⟩) (fun k => ?_) ?_
  · rw [gateC, gates, bank]
  · rw [tiers, near]
  · rw [tiers, serai]

/-- The state in which a bring-up begins that is no wake. -/
def begunBringup (s : State) : State := { s with power := { s.power with state := 1 } }

section begun
variable (begun : starting s = true) (pwrok : s.pins.pwrok = true) (perstN : s.pins.perstN = true)
  (untripped : s.power.tripLatch = false) (awake : s.power.waking = false) (hopes : s.starts.fails ≠ 3) (secure : s.starts.bootsrc ≠ 3)
include begun pwrok perstN untripped awake hopes secure

theorem exec_bringup_bank (bank : startBank s rep.banksValid = some b) :
    exec (.bringup rep) s = .next ((begunBringup s).finishBringup rep b) := by
  have due : ¬((!starting s || !s.pins.pwrok || !s.pins.perstN || s.power.tripLatch) = true) := by
    rw [begun, pwrok, perstN, untripped]
    decide
  have chosen : startBank (begunBringup s) rep.banksValid = some b := bank
  change execBringup rep s = _
  unfold execBringup
  rw [if_neg due, awake]
  simp only [Bool.false_eq_true, if_false]
  rw [show { s with power := { s.power with state := 1 } } = begunBringup s from rfl, if_neg hopes, if_neg secure, chosen]

theorem exec_bringup_none (bank : startBank s rep.banksValid = none) (nowhere : waitsForImage s rep = false) :
    exec (.bringup rep) s = .next ((begunBringup s).startFailed 0x0A01 2) := by
  have due : ¬((!starting s || !s.pins.pwrok || !s.pins.perstN || s.power.tripLatch) = true) := by
    rw [begun, pwrok, perstN, untripped]
    decide
  have chosen : startBank (begunBringup s) rep.banksValid = none := bank
  have waits : ¬(waitsForImage (begunBringup s) rep = true) := by
    change ¬(waitsForImage s rep = true)
    rw [nowhere]
    decide
  change execBringup rep s = _
  unfold execBringup
  rw [if_neg due, awake]
  simp only [Bool.false_eq_true, if_false]
  rw [show { s with power := { s.power with state := 1 } } = begunBringup s from rfl, if_neg hopes, if_neg secure, chosen]
  exact if_neg waits

end begun

theorem nextFails_of_ne (hopes : s.starts.fails ≠ 3) : nextFails s = s.starts.fails + 1 := if_neg hopes

/-- Settles O22: a bank that may start leads to READY; without one the start fails at step 2. -/
theorem bringupReachesReady : Obligations.BringupReachesReady := by
  intro s rep begun pwrok perstN untripped awake hopes secure
  refine ⟨fun b bank intact none_retired => ?_, fun bank nowhere => ?_⟩
  · have h := ready_finishBringup (s := begunBringup s) (b := b) intact none_retired
    exact runs_of_exec (exec_bringup_bank begun pwrok perstN untripped awake hopes secure bank)
      ⟨h.state, h.bringup, h.fails, h.bank, h.fault, h.pages, h.near, h.serai⟩
  · obtain ⟨-, last, step, fault, fails, -, -, mem⟩ :=
      startFailed_post (s := begunBringup s) (reason := 0x0A01) (step := 2) awake
    exact runs_of_exec (exec_bringup_none begun pwrok perstN untripped awake hopes secure bank nowhere)
      ⟨last, step, fault, fails.trans (nextFails_of_ne hopes), mem⟩

end bringup
end Sys2Proof.Machine
end

section
/-! PROOFS. Clock steps and the power cap (R32, R436). -/

namespace Sys2Proof.Machine

open Sys2Proof.Safety

section clocks
variable {s : State} {k : CoreId}

/-! ### A core's clock limits (R32) -/

/-- A limit within the range of a core clock. -/
def clockLimit (n : Nat) : Nat := max 18 (min 36 n)

theorem clockLimit_bounds (n : Nat) : 18 ≤ clockLimit n ∧ clockLimit n ≤ 36 := by unfold clockLimit; omega

theorem setClock_limits (x : Core) (thr cap : Nat) :
    (setClock x thr cap).thrClock.toNat = clockLimit thr ∧ (setClock x thr cap).capClock.toNat = clockLimit cap
      ∧ (setClock x thr cap).clock.toNat = min (clockLimit thr) (clockLimit cap) := by
  have small {n : Nat} (h : n ≤ 36) : (BitVec.ofNat 6 n).toNat = n := Nat.mod_eq_of_lt (by omega)
  obtain ⟨-, thrHigh⟩ := clockLimit_bounds thr
  obtain ⟨-, capHigh⟩ := clockLimit_bounds cap
  exact ⟨small thrHigh, small capHigh, small (Nat.le_trans (Nat.min_le_left _ _) thrHigh)⟩

/-! ### A clock step -/

/-- The time to a core's next step, and the limits it steps to (R436). -/
def stepWait (s : State) (k : CoreId) : Nat :=
  if coreHot s k then 1000000 else if s.power.capped || s.power.limited then 500000 else 10000000
def stepThr (s : State) (k : CoreId) : Nat :=
  if coreHot s k then (s.core k).thrClock.toNat - 1 else (s.core k).thrClock.toNat + 1
def stepCap (s : State) (k : CoreId) : Nat :=
  if s.power.capped then (s.core k).capClock.toNat - (if coreHot s k then 4 else 2)
  else if s.power.capped || s.power.limited then (s.core k).capClock.toNat else (s.core k).capClock.toNat + 1

/-- The state after a step at an instant. -/
def steppedAt (s : State) (k : CoreId) (time : BitVec 64) : State :=
  (s.atTime time).modCore k fun x => { setClock x (stepThr s k) (stepCap s k) with stepAt := (s.atTime time).time }

theorem steppedAt_core (time : BitVec 64) : (steppedAt s k time).core k =
    { setClock (s.core k) (stepThr s k) (stepCap s k) with stepAt := (s.atTime time).time } :=
  State.modCore_core_self _ _ _

theorem steppedAt_frame (time : BitVec 64) : (steppedAt s k time).time = maxU s.time time
    ∧ Unchanged s (steppedAt s k time) [.time, .core k] :=
  ⟨rfl, unchanged_modCore _ (by simp) (unchanged_atTime _ (by simp) (unchanged_refl s _))⟩

theorem exec_throttleStep (cool : s.power.thermalHalt = false) :
    exec (.throttleStep k) s = .next (steppedAt s k ((s.core k).stepAt + BitVec.ofNat 64 (stepWait s k))) :=
  if_neg (by rw [cool]; exact Bool.false_ne_true)

theorem runs_throttleStep (cool : s.power.thermalHalt = false) (thr : (s.core k).thrClock.toNat ≤ 36)
    (cap : (s.core k).capClock.toNat ≤ 36) : Runs (.throttleStep k) s fun t =>
      (t.core k).clock.toNat = min (t.core k).thrClock.toNat (t.core k).capClock.toNat
      ∧ 18 ≤ (t.core k).clock.toNat ∧ (t.core k).clock.toNat ≤ 36
      ∧ (coreHot s k = true → (t.core k).thrClock.toNat = max 18 ((s.core k).thrClock.toNat - 1)
          ∧ t.time = maxU s.time ((s.core k).stepAt + 1000000))
      ∧ (coreHot s k = false → (t.core k).thrClock.toNat = max 18 (min 36 ((s.core k).thrClock.toNat + 1)))
      ∧ (coreHot s k = false → s.power.capped = true → (t.core k).capClock.toNat = max 18 ((s.core k).capClock.toNat - 2)
          ∧ t.time = maxU s.time ((s.core k).stepAt + 500000))
      ∧ (s.power.capped = false → s.power.limited = false →
          (t.core k).capClock.toNat = max 18 (min 36 ((s.core k).capClock.toNat + 1)))
      ∧ (t.core k).da = (s.core k).da ∧ Unchanged s t [.time, .core k] := by
  refine runs_of_exec (exec_throttleStep cool) ?_
  generalize hw : (s.core k).stepAt + BitVec.ofNat 64 (stepWait s k) = instant
  obtain ⟨time, frame⟩ := steppedAt_frame (s := s) (k := k) instant
  obtain ⟨newThr, newCap, newClock⟩ := setClock_limits (s.core k) (stepThr s k) (stepCap s k)
  obtain ⟨thrLow, thrHigh⟩ := clockLimit_bounds (stepThr s k)
  obtain ⟨capLow, capHigh⟩ := clockLimit_bounds (stepCap s k)
  rw [steppedAt_core]
  refine ⟨by rw [newThr, newCap, newClock], by rw [newClock]; omega, by rw [newClock]; omega, fun hot => ⟨?_, ?_⟩, fun mild => ?_,
    fun mild capped => ⟨?_, ?_⟩, fun free free' => ?_, rfl, frame⟩
  · rw [newThr, stepThr, if_pos hot, clockLimit]
    omega
  · rw [time, ← hw, stepWait, if_pos hot]
    rfl
  · rw [newThr, stepThr, if_neg (by rw [mild]; exact Bool.false_ne_true), clockLimit]
  · rw [newCap, stepCap, if_pos capped, if_neg (by rw [mild]; exact Bool.false_ne_true), clockLimit]
    omega
  · rw [time, ← hw, stepWait, if_neg (by rw [mild]; exact Bool.false_ne_true), if_pos (by rw [capped]; rfl)]
    rfl
  · rw [newCap, stepCap, if_neg (by rw [free]; exact Bool.false_ne_true), if_neg (by rw [free, free']; exact Bool.false_ne_true),
      clockLimit]

/-! ### The power cap -/

/-- Every core's cap goes down, and the module is capped. -/
def cappedAt (s : State) (time : BitVec 64) : State :=
  let u := s.atTime time
  { u with
    power := { u.power with capped := true }
    cores := u.cores.map fun x => setClock x x.thrClock.toNat (x.capClock.toNat - 2) }

theorem exec_powerCap {t0 : BitVec 64} (since : s.power.capSince = some t0) (uncapped : s.power.capped = false) :
    exec .powerCap s = .next (((cappedAt s (t0 + 5000000)).raiseAlarm 0x020).record { reason := 0x0A0A }) := by
  change execPowerCap s = _
  simp only [execPowerCap, since, uncapped, Bool.false_eq_true, if_false]
  rfl

theorem cappedAt_core (time : BitVec 64) : (cappedAt s time).core k =
    setClock (s.core k) (s.core k).thrClock.toNat ((s.core k).capClock.toNat - 2) :=
  (Vector.getElem_map _ _)

theorem unchanged_cappedAt (time : BitVec 64) : Unchanged s (cappedAt s time) ([.time, .power] ++ everyCore) := by
  intro p hp
  have same := unchanged_refl s [] p List.not_mem_nil
  cases p with
  | time => exact absurd (by simp) hp
  | power => exact absurd (by simp) hp
  | core j => exact absurd (List.mem_append_right _ (core_mem_everyCore j)) hp
  | _ => exact same

/-- What the cap leaves when it begins at an instant. -/
theorem cappedAt_post (s : State) (k : CoreId) (instant : BitVec 64) :
    let t := ((cappedAt s instant).raiseAlarm 0x020).record { reason := 0x0A0A }
    t.power.capped = true ∧ bit t.power.alarm 5 = true ∧ t.time = maxU s.time instant
    ∧ (t.core k).clock.toNat ≤ max 18 ((s.core k).capClock.toNat - 2) ∧ t.log.newest = s.log.newest + 1
    ∧ Unchanged s t ([.time, .power, .pins, .log] ++ everyCore) := by
  obtain ⟨-, -, clock⟩ := setClock_limits (s.core k) (s.core k).thrClock.toNat ((s.core k).capClock.toNat - 2)
  have alarmed : Unchanged s ((cappedAt s instant).raiseAlarm 0x020) ([.time, .power, .pins, .log] ++ everyCore) :=
    unchanged_raiseAlarm _ (by simp) (by simp) (Unchanged.mono (unchanged_cappedAt instant) (by simp +contextual))
  refine ⟨rfl, (raiseAlarm_set (cappedAt s instant) rfl).1, rfl, ?_, rfl,
    Unchanged.trans alarmed (Unchanged.mono (record_of_no_stall _ rfl) (by simp))⟩
  change ((cappedAt s instant).core k).clock.toNat ≤ _
  rw [cappedAt_core, clock, clockLimit, clockLimit]
  omega

theorem runs_powerCap {t0 : BitVec 64} (since : s.power.capSince = some t0) (uncapped : s.power.capped = false) :
    Runs .powerCap s fun t =>
      t.power.capped = true ∧ bit t.power.alarm 5 = true ∧ t.time = maxU s.time (t0 + 5000000)
      ∧ (t.core k).clock.toNat ≤ max 18 ((s.core k).capClock.toNat - 2) ∧ t.log.newest = s.log.newest + 1
      ∧ Unchanged s t ([.time, .power, .pins, .log] ++ everyCore) :=
  runs_of_exec (exec_powerCap since uncapped) (cappedAt_post s k _)

/-- Settles O24: a clock step, and the cap that every core takes. -/
theorem clocksFollowTheLimits : Obligations.ClocksFollowTheLimits :=
  fun _ _ cool thr cap => ⟨runs_throttleStep cool thr cap, fun _ since uncapped => runs_powerCap since uncapped⟩

end clocks
end Sys2Proof.Machine
end

section
/-! PROOFS. Brace, its end, and the supply halt (R440, R441). -/

namespace Sys2Proof.Machine

open Sys2Proof.Safety

/-! ### Brace begins -/

section begins
variable {s : State}

/-- A channel in service holds its writes in a brace (R301). -/
def holdingChannel (c : SeraiChannel) : SeraiChannel := if c.state = 2 then { c with braceHold := true } else c

/-- The flag of brace in a core. -/
def flagCore (on : Bool) (x : Core) : Core := { x with brace := on, da := x.da.map fun a => { a with braced := on } }

/-- The state of a brace that begins, before its alarm and its record. -/
def braceBegun (s : State) : State :=
  { s with
    power := { s.power with brace := true, braces := satAdd s.power.braces 1, braceAt := s.time, supplyDone := false }
    cores := s.cores.map (flagCore true)
    tiers := { s.tiers with serai := s.tiers.serai.map holdingChannel } }

theorem exec_brace (rail : Bool) (calm : s.power.brace = false) (runs : s.power.state = 2 ∨ s.power.state = 3) :
    exec (.brace rail) s = .next (((braceBegun s).raiseAlarm (if rail then 0x005 else 0x001)).record { reason := 0x0A06 }) := by
  have due : ¬((s.power.brace || (s.power.state != 2 && s.power.state != 3)) = true) := by
    rw [calm]
    obtain h | h := runs <;> rw [h] <;> decide
  exact if_neg due

theorem holdingChannel_hold (c : SeraiChannel) : (holdingChannel c).braceHold = (c.braceHold || c.state == 2) := by
  unfold holdingChannel
  by_cases h : c.state = 2
  · simp [h]
  · rw [if_neg h, beq_eq_false_iff_ne.mpr h, Bool.or_false]

theorem runs_brace (rail : Bool) (calm : s.power.brace = false) (runs : s.power.state = 2 ∨ s.power.state = 3) :
    Runs (.brace rail) s fun t =>
      t.power.brace = true ∧ t.power.braces = satAdd s.power.braces 1 ∧ t.power.braceAt = s.time
      ∧ (∀ k, (t.core k).brace = true ∧ (t.core k).da = (s.core k).da.map fun a => { a with braced := true })
      ∧ (∀ ch : Fin 24, t.tiers.serai[ch].braceHold = (s.tiers.serai[ch].braceHold || s.tiers.serai[ch].state == 2))
      ∧ bit t.power.alarm 0 = true ∧ t.pins.alertN = false ∧ t.log.newest = s.log.newest + 1
      ∧ t.mem = s.mem ∧ t.fabric = s.fabric ∧ t.engines = s.engines ∧ t.stalls = s.stalls ∧ t.time = s.time := by
  refine runs_of_exec (exec_brace rail calm runs) ?_
  have warned : (if rail then 0x005 else 0x001 : BitVec 9).getLsbD 0 = true := by cases rail <;> rfl
  obtain ⟨alarm, alert⟩ := raiseAlarm_set (braceBegun s) warned
  have core (k : CoreId) : (braceBegun s).core k = flagCore true (s.core k) := Vector.getElem_map _ _
  have channel (ch : Fin 24) : (braceBegun s).tiers.serai[ch] = holdingChannel s.tiers.serai[ch] := Vector.getElem_map _ _
  refine ⟨rfl, rfl, rfl, fun k => ?_, fun ch => (congrArg SeraiChannel.braceHold (channel ch)).trans (holdingChannel_hold _),
    alarm, alert, rfl, rfl, rfl, rfl, rfl, rfl⟩
  exact ⟨congrArg Core.brace (core k), congrArg Core.da (core k)⟩

end begins

/-! ### Brace ends -/

section ends
variable {s : State}

/-- The state of a brace that ends, before the buffers drain. -/
def braceEnded (s : State) : State :=
  { s with
    power := { s.power with
      brace := false, braceLast := BitVec.ofNat 32 ((s.time - s.power.braceAt).toNat / 1000), supplyDone := false }
    cores := s.cores.map (flagCore false) }

/-- A channel that holds its writes drains. -/
def drainHeld (s : State) (ch : Fin 24) : State := if (s.tiers.serai.get ch).braceHold then s.drainChannel ch else s

def drainAll (s : State) : State := forEach (List.finRange 24) s drainHeld

theorem exec_braceEnd (braced : s.power.brace = true) : exec .braceEnd s = .next (drainAll (braceEnded s)).reportReady :=
  if_neg (by rw [braced]; decide)

theorem drainChannel_hold (s : State) (ch k : Fin 24) : (s.drainChannel ch).tiers.serai[k].braceHold =
    if k = ch then false else s.tiers.serai[k].braceHold := by
  unfold State.drainChannel
  by_cases h : k = ch
  · subst h
    rw [modChannel_self, if_pos rfl]
  · have apart : ch.val ≠ k.val := fun e => h (Fin.ext e.symm)
    simp [State.modChannel, commitHeld_tiers, Vector.getElem_set_ne, apart, h]

theorem drainHeld_hold (s : State) (ch k : Fin 24) : (drainHeld s ch).tiers.serai[k].braceHold =
    if k = ch then false else s.tiers.serai[k].braceHold := by
  unfold drainHeld
  split
  · exact drainChannel_hold s ch k
  · next free =>
    split
    · next same =>
      subst same
      exact Bool.eq_false_iff.mpr free
    · rfl

theorem drainHeld_each (xs : List (Fin 24)) (s : State) :
    ∀ k ∈ xs, (forEach xs s drainHeld).tiers.serai[k].braceHold = false := by
  refine forEach_each (fun (ch : Fin 24) u => u.tiers.serai[ch].braceHold = false) drainHeld (fun u x => ?_)
    (fun u x y free => ?_) xs s
  · rw [drainHeld_hold, if_pos rfl]
  · rw [drainHeld_hold]
    split
    · rfl
    · exact free

theorem drainAll_hold (s : State) (k : Fin 24) : (drainAll s).tiers.serai[k].braceHold = false := by
  unfold drainAll
  generalize all : List.finRange 24 = xs
  exact drainHeld_each xs s k (all ▸ List.mem_finRange k)

theorem commitHeld_rest (s : State) (w : List (Place × Byte)) : (s.commitHeld w).power = s.power ∧ (s.commitHeld w).cores = s.cores :=
  ⟨forEach_keeps w (fun u e => u.storePlace e.1 e.2) State.power (fun _ _ => rfl) s,
    forEach_keeps w (fun u e => u.storePlace e.1 e.2) State.cores (fun _ _ => rfl) s⟩

theorem drainHeld_rest (s : State) (ch : Fin 24) : (drainHeld s ch).power = s.power ∧ (drainHeld s ch).cores = s.cores := by
  unfold drainHeld
  split
  · exact commitHeld_rest s _
  · exact ⟨rfl, rfl⟩

theorem drainAll_rest (s : State) : (drainAll s).power = s.power ∧ (drainAll s).cores = s.cores :=
  ⟨forEach_keeps _ drainHeld State.power (fun u ch => (drainHeld_rest u ch).1) s,
    forEach_keeps _ drainHeld State.cores (fun u ch => (drainHeld_rest u ch).2) s⟩

/-- What the reports of readiness change: at a lead its march, and what is sent. -/
def reportParts : List Part := .out :: allStalls.flatMap fun i => [.stall i .march, .stall i .seq]

theorem unchanged_reportReady (s : State) : Unchanged s s.reportReady reportParts := by
  have out : Part.out ∈ reportParts := List.mem_cons_self
  have march (i : Stall) : Part.stall i .march ∈ reportParts := by simp [reportParts, mem_allStalls]
  have seq (i : Stall) : Part.stall i .seq ∈ reportParts := by simp [reportParts, mem_allStalls]
  unfold State.reportReady
  split
  · exact unchanged_refl s _
  · refine unchanged_forEach _ _ (fun u i hu => ?_) (unchanged_refl s _)
    dsimp only
    split
    · exact unchanged_announceRepeat out (march i) (seq i) (unchanged_modSeq _ (seq i) hu)
    · split
      · exact hu
      · exact unchanged_send _ out hu

theorem reportReady_rest (s : State) :
    s.reportReady.power = s.power ∧ s.reportReady.cores = s.cores ∧ s.reportReady.tiers = s.tiers := by
  have frame := unchanged_reportReady s
  exact ⟨frame .power (by simp [reportParts]), Unchanged.cores_eq frame (by simp [reportParts]),
    Unchanged.tiers_eq frame (by simp [reportParts]) (by simp [reportParts]) (by simp [reportParts]) (by simp [reportParts])⟩

theorem runs_braceEnd (braced : s.power.brace = true) : Runs .braceEnd s fun t =>
    t.power.brace = false ∧ t.power.braceLast = BitVec.ofNat 32 ((s.time - s.power.braceAt).toNat / 1000)
    ∧ (∀ k, (t.core k).brace = false ∧ (t.core k).da = (s.core k).da.map fun a => { a with braced := false })
    ∧ ∀ ch : Fin 24, t.tiers.serai[ch].braceHold = false := by
  refine runs_of_exec (exec_braceEnd braced) ?_
  obtain ⟨power, cores, tiers⟩ := reportReady_rest (drainAll (braceEnded s))
  obtain ⟨power', cores'⟩ := drainAll_rest (braceEnded s)
  have core (k : CoreId) : (drainAll (braceEnded s)).reportReady.core k = flagCore false (s.core k) :=
    (congrArg (fun v : Vector Core 32 => v[k]) (cores.trans cores')).trans (Vector.getElem_map _ _)
  rw [power, power']
  refine ⟨rfl, rfl, fun k => ⟨congrArg Core.brace (core k), congrArg Core.da (core k)⟩, fun ch => ?_⟩
  rw [tiers]
  exact drainAll_hold _ ch

end ends

/-! ### The supply halt (R441) -/

section supply
variable {s : State} {i : Stall}

/-- A march that runs. -/
def marchRuns (t : StallState) : Bool :=
  match t.march.state with
  | .empty | .ready | .armed => false
  | _ => true

/-- The halt is counted and its alarm raised. -/
def supplyCounted (s : State) : State :=
  { s with power := { s.power with halts := addHalt s.power.halts true } }.raiseAlarm 0x002

/-- The supply halt of one march. -/
def supplyHalt (s : State) (i : Stall) : State :=
  (s.record { reason := 0x0202, cls := clsRepeat, stall := some i }).causeNow i vSupply 0x0202

/-- The state at the instant of the supply halt. -/
def supplyAt (s : State) (time : BitVec 64) : State :=
  let u := s.atTime time
  { u with power := { u.power with supplyDone := true } }

/-- The marches that halt. -/
def supplyHalted (s : State) : List Stall :=
  ((presentStalls s).filter fun i => marchRuns (s.stall i)).filter fun i =>
    (s.stall i).march.state == .legs && !(s.stall i).seq.haltKnown

/-- The supply halt once its time has come: it is counted where a march runs, and every march in LEGS halts. -/
def supplyOver (s : State) : State :=
  let runs := (presentStalls s).filter fun i => marchRuns (s.stall i)
  let u := if runs.isEmpty then s else supplyCounted s
  forEach (runs.filter fun i => (u.stall i).march.state == .legs && !(u.stall i).seq.haltKnown) u supplyHalt

theorem exec_haltSupply (braced : s.power.brace = true) (first : s.power.supplyDone = false) :
    exec .haltSupply s = .next (supplyOver (supplyAt s (s.power.braceAt + 2000000))) :=
  if_neg (by rw [braced, first]; decide)

theorem supplyOver_of_legs (present : i ∈ presentStalls s) (legs : (s.stall i).march.state = .legs) :
    supplyOver s = forEach (supplyHalted s) (supplyCounted s) supplyHalt := by
  have runs : ((presentStalls s).filter fun i => marchRuns (s.stall i)).isEmpty = false := by
    rw [List.isEmpty_eq_false_iff_exists_mem]
    exact ⟨i, List.mem_filter.mpr ⟨present, by rw [marchRuns, legs]⟩⟩
  unfold supplyOver
  dsimp only
  rw [runs]
  rfl

theorem supplyHalt_frame (s : State) (i : Stall) : Unchanged s (supplyHalt s i) [.out, .log, .stall i .seq] :=
  unchanged_causeNow vSupply 0x0202 (by simp) (by simp) (unchanged_record _ (by simp) (by simp) (unchanged_refl s _))

theorem nodup_supplyHalted (s : State) : (supplyHalted s).Nodup := ((nodup_allStalls.filter _).filter _).filter _

theorem supplyHalt_seq (legs : (s.stall i).march.state = .legs) : ((supplyHalt s i).stall i).seq.haltKnown = true
    ∧ ((supplyHalt s i).stall i).seq.stopped = true ∧ bit ((supplyHalt s i).stall i).seq.causes 8 = true := by
  obtain ⟨seq, -⟩ := causeNow_halts (s.record { reason := 0x0202, cls := clsRepeat, stall := some i }) i vSupply 0x0202
    (by rw [record_stall]; exact legs) rfl
  unfold supplyHalt
  rw [seq]
  exact ⟨rfl, rfl, bit_setBit_self _ (by decide)⟩

theorem fld_addHalt (h : Word) : fld (addHalt h true) 16 16 = satAdd (fld h 16 16) 1 := by
  unfold addHalt
  generalize fld h 0 16 = lo
  simp only [if_true]
  generalize satAdd (fld h 16 16) 1 = hi
  exact BitVec.extractLsb'_append_eq_left

/-- What the supply halts leave of the state in which they begin. -/
theorem supplyHalts_post (s : State) (xs : List Stall) : (forEach xs s supplyHalt).time = s.time
    ∧ (forEach xs s supplyHalt).power = s.power ∧ (forEach xs s supplyHalt).mem = s.mem :=
  ⟨forEach_keeps xs supplyHalt State.time (fun u j => supplyHalt_frame u j .time (by simp)) s,
    forEach_keeps xs supplyHalt State.power (fun u j => supplyHalt_frame u j .power (by simp)) s,
    forEach_keeps xs supplyHalt State.mem (fun u j => supplyHalt_frame u j .mem (by simp)) s⟩

/-- What the supply halt leaves, at any instant. -/
theorem supplyOver_post (present : i ∈ presentStalls s) (legs : (s.stall i).march.state = .legs)
    (fresh : (s.stall i).seq.haltKnown = false) : ((supplyOver s).stall i).seq.haltKnown = true
      ∧ ((supplyOver s).stall i).seq.stopped = true ∧ bit ((supplyOver s).stall i).seq.causes 8 = true
      ∧ (supplyOver s).time = s.time ∧ (supplyOver s).power.brace = s.power.brace
      ∧ fld (supplyOver s).power.halts 16 16 = satAdd (fld s.power.halts 16 16) 1
      ∧ bit (supplyOver s).power.alarm 1 = true ∧ (supplyOver s).mem = s.mem := by
  rw [supplyOver_of_legs present legs]
  have listed : i ∈ supplyHalted s := by
    refine List.mem_filter.mpr ⟨List.mem_filter.mpr ⟨present, by rw [marchRuns, legs]⟩, ?_⟩
    rw [legs, fresh]
    decide
  obtain ⟨time, power, mem⟩ := supplyHalts_post (supplyCounted s) (supplyHalted s)
  obtain ⟨u, before, -, reached⟩ := forEach_stall_once (f := supplyHalt) (fun _ => ()) (fun _ _ => rfl)
    (fun u j k hk => Unchanged.stall_eq (supplyHalt_frame u j) (by simp [hk])) (nodup_supplyHalted s) listed (supplyCounted s)
  obtain ⟨known, stopped, cause⟩ := supplyHalt_seq (s := u) (i := i) (by rw [before]; exact legs)
  rw [reached, power]
  exact ⟨known, stopped, cause, time, rfl, fld_addHalt _, (raiseAlarm_set _ rfl).1, mem⟩

theorem supplyAt_post (s : State) (instant : BitVec 64) : (supplyAt s instant).time = maxU s.time instant
    ∧ (supplyAt s instant).power.brace = s.power.brace ∧ (supplyAt s instant).power.halts = s.power.halts
    ∧ (supplyAt s instant).mem = s.mem := ⟨rfl, rfl, rfl, rfl⟩

theorem runs_haltSupply (braced : s.power.brace = true) (first : s.power.supplyDone = false) (present : i ∈ presentStalls s)
    (legs : (s.stall i).march.state = .legs) (fresh : (s.stall i).seq.haltKnown = false) : Runs .haltSupply s fun t =>
      t.time = maxU s.time (s.power.braceAt + 2000000) ∧ (t.stall i).seq.haltKnown = true
      ∧ (t.stall i).seq.stopped = true ∧ bit (t.stall i).seq.causes 8 = true ∧ t.power.brace = true
      ∧ fld t.power.halts 16 16 = satAdd (fld s.power.halts 16 16) 1 ∧ bit t.power.alarm 1 = true
      ∧ t.mem = s.mem := by
  have halted (b : BitVec 64) := supplyOver_post (s := supplyAt s b) (i := i) present legs fresh
  obtain ⟨known, stopped, cause, time, brace, halts, alarm, mem⟩ := halted (s.power.braceAt + 2000000)
  obtain ⟨time', brace', halts', mem'⟩ := supplyAt_post s (s.power.braceAt + 2000000)
  exact runs_of_exec (exec_haltSupply braced first)
    ⟨time.trans time', known, stopped, cause, (brace.trans brace').trans braced, halts' ▸ halts, alarm, mem.trans mem'⟩

/-- Settles O25: brace begins, ends, and lasts 2 ms. -/
theorem braceHoldsWrites : Obligations.BraceHoldsWrites :=
  fun _ => ⟨runs_brace, fun braced => ⟨runs_braceEnd braced,
    fun first _ present legs fresh => runs_haltSupply braced first present legs fresh⟩⟩

end supply
end Sys2Proof.Machine
end

section
/-! PROOFS. What a sample moves and what is judged from it (R434 to R437). -/

namespace Sys2Proof.Machine

open Sys2Proof.Safety

/-! ### The parts that a judgement may change -/

section parts
variable {s t : State} {l : List Part}

/-- What a sample and the decisions on it may change. -/
def judgedParts : List Part := [.power, .pins, .log, .out] ++ everyCore ++ everyStall

theorem judged_power : Part.power ∈ judgedParts := by simp [judgedParts]
theorem judged_pins : Part.pins ∈ judgedParts := by simp [judgedParts]
theorem judged_log : Part.log ∈ judgedParts := by simp [judgedParts]
theorem judged_out : Part.out ∈ judgedParts := by simp [judgedParts]
theorem judged_seq (i : Stall) : Part.stall i .seq ∈ judgedParts := by
  have listed : Part.stall i .seq ∈ everyStall := List.mem_flatMap.mpr ⟨i, mem_allStalls i, by simp [wholeStall]⟩
  exact List.mem_append_right _ listed
theorem judged_core (k : CoreId) : Part.core k ∈ judgedParts :=
  List.mem_append_left _ (List.mem_append_right _ (core_mem_everyCore k))

/-- The state with other power registers and other cores. -/
def setPowerCores (s : State) (power : Power) (cores : Vector Core 32) : State := { s with power := power, cores := cores }

theorem unchanged_setPowerCores (power : Power) (cores : Vector Core 32) (h : Unchanged s t judgedParts) :
    Unchanged s (setPowerCores t power cores) judgedParts := by
  intro p hp
  have same := h p hp
  cases p with
  | power => exact absurd judged_power hp
  | core k => exact absurd (judged_core k) hp
  | _ => exact same

theorem unchanged_setPower (power : Power) (h : Unchanged s t judgedParts) :
    Unchanged s { t with power := power } judgedParts := unchanged_setPowerCores power t.cores h

theorem judged_alarm (bits : BitVec 9) (h : Unchanged s t judgedParts) : Unchanged s (t.raiseAlarm bits) judgedParts :=
  unchanged_raiseAlarm bits judged_power judged_pins h

theorem judged_alarmIf (due : Bool) (bits : BitVec 9) (h : Unchanged s t judgedParts) :
    Unchanged s (if due then t.raiseAlarm bits else t) judgedParts := by
  split
  · exact judged_alarm bits h
  · exact h

theorem judged_record {r : Rec} (none : r.stall = none) (h : Unchanged s t judgedParts) :
    Unchanged s (t.record r) judgedParts :=
  Unchanged.trans h (Unchanged.mono (record_of_no_stall t none) (by simp [judgedParts]))

end parts

/-! ### The thermal halt -/

section halt
variable {s t : State}

/-- What the temperature channels are judged by. -/
def readings (s : State) : Vector Channel 64 × Vector Bool 64 × BitVec 8 × BitVec 8 :=
  (s.power.channels, s.power.hotFlags, s.power.throttleC, s.power.haltC)

/-- The state of a thermal halt before the marches end: the alarm is raised and the halt is recorded. -/
def haltStated (s : State) : State :=
  ((setPowerCores s { s.power with thermalHalt := true, halts := addHalt s.power.halts false }
    (s.cores.map fun x =>
      setClock { x with da := x.da.map fun a => { a with target := 0, hold := false } } 18 x.capClock.toNat)).raiseAlarm
    0x010).record { reason := 0x0A07, cls := clsModule }

theorem thermalHalt_eq : s.thermalHalt = if s.power.thermalHalt then s
    else forEach (presentStalls (haltStated s)) (haltStated s) fun u i => u.cause i vFault 0x0A07 := rfl

theorem cause_power (s : State) (i : Stall) : (s.cause i vFault 0x0A07).power = s.power :=
  unchanged_cause (l := [.out, .stall i .seq]) _ _ (by simp) (by simp) (unchanged_refl s _) .power (by simp)

theorem thermalHalt_power (s : State) : s.thermalHalt.power.thermalHalt = true ∧ readings s.thermalHalt = readings s := by
  rw [thermalHalt_eq]
  split
  · next on => exact ⟨on, rfl⟩
  · have power := forEach_keeps (presentStalls (haltStated s)) (fun u i => u.cause i vFault 0x0A07) State.power
      (fun u i => cause_power u i) (haltStated s)
    unfold readings
    rw [power]
    exact ⟨rfl, rfl⟩

theorem unchanged_thermalHalt (h : Unchanged s t judgedParts) : Unchanged s t.thermalHalt judgedParts := by
  rw [thermalHalt_eq]
  split
  · exact h
  · exact unchanged_forEach _ _ (fun u i hu => unchanged_cause _ _ judged_out (judged_seq i) hu)
      (judged_record rfl (judged_alarm _ (unchanged_setPowerCores _ _ h)))

end halt

/-! ### The decisions of Table 15-6 -/

section decisions
variable {s t : State} {ch : Fin 64}

theorem unchanged_decideThrottle (h : Unchanged s t judgedParts) : Unchanged s (t.decideThrottle ch) judgedParts := by
  have flagged := fun p => unchanged_setPower p h
  unfold State.decideThrottle
  dsimp only
  split
  · split
    · exact judged_record rfl (judged_alarm _ (judged_alarmIf _ _ (flagged _)))
    · split
      · exact judged_record rfl (judged_alarm _ (flagged _))
      · exact flagged _
  · split
    · exact judged_alarm _ (flagged _)
    · exact flagged _

/-- The throttle flag of a channel below 48, with its hysteresis of 3 °C (R436). -/
def flagOf (s : State) (ch : Fin 64) : Bool :=
  decide (64 * (s.power.throttleC.toNat : Int) ≤ chanY s ch)
    || (s.power.hotFlags.get ch && decide (64 * ((s.power.throttleC.toNat : Int) - 3) ≤ chanY s ch))

theorem decideThrottle_readings (core : ch.val < 48) : readings (s.decideThrottle ch) =
    (s.power.channels, s.power.hotFlags.set ch (flagOf s ch), s.power.throttleC, s.power.haltC) := by
  have other : ch.val ≠ 59 := by omega
  have flag : readings (s.decideThrottle ch) = readings { s with power := { s.power with
      hotFlags := s.power.hotFlags.set ch (flagOf s ch), coolBad := s.power.coolBad } } := by
    unfold State.decideThrottle flagOf
    simp only [if_neg other, decide_eq_false other, Bool.false_and, Bool.false_or]
    split <;> rfl
  exact flag

theorem decideThrottle_channels : (s.decideThrottle ch).power.channels = s.power.channels := by
  unfold State.decideThrottle
  dsimp only
  repeat' split
  all_goals rfl

/-- The state with the times since which a channel is slow and hot and the module cool. -/
def setSince (s : State) (ch : Fin 64) (slow cool : Option (BitVec 64)) : State :=
  { s with power := { s.power with slowSince := s.power.slowSince.setIfInBounds ch.val slow, coolSince := cool } }

/-- The halt threshold halts at once; so does a core that stays hot at its lowest clock (R437). -/
theorem decideHalt_cases (s : State) (ch : Fin 64) : ∃ (slow cool : Option (BitVec 64)) (long : Bool), s.decideHalt ch =
    if 64 * (s.power.haltC.toNat : Int) ≤ chanY s ch || long then (setSince s ch slow cool).thermalHalt
    else setSince s ch slow cool := ⟨_, _, _, rfl⟩

theorem unchanged_decideHalt (h : Unchanged s t judgedParts) : Unchanged s (t.decideHalt ch) judgedParts := by
  obtain ⟨slow, cool, long, eq⟩ := decideHalt_cases t ch
  have since : Unchanged s (setSince t ch slow cool) judgedParts := unchanged_setPower _ h
  rw [eq]
  split
  · exact unchanged_thermalHalt since
  · exact since

theorem decideHalt_power : readings (s.decideHalt ch) = readings s
    ∧ (64 * (s.power.haltC.toNat : Int) ≤ chanY s ch → (s.decideHalt ch).power.thermalHalt = true) := by
  obtain ⟨slow, cool, long, eq⟩ := decideHalt_cases s ch
  obtain ⟨halted, same⟩ := thermalHalt_power (setSince s ch slow cool)
  rw [eq]
  split
  · exact ⟨same, fun _ => halted⟩
  · next mild =>
    refine ⟨rfl, fun above => absurd ?_ mild⟩
    rw [decide_eq_true above]
    rfl

theorem unchanged_decidePower (h : Unchanged s t judgedParts) : Unchanged s t.decidePower judgedParts := by
  unfold State.decidePower
  dsimp only
  split
  · exact judged_record rfl (judged_alarm _ (unchanged_setPowerCores _ _ h))
  · exact unchanged_setPower _ h

theorem decidePower_power : s.decidePower.power.channels = s.power.channels
    ∧ s.decidePower.power.capSince = (if 3000 < inputWatts s then some (s.power.capSince.getD s.time) else none)
    ∧ s.decidePower.power.capped = (s.power.capped && decide (2900 ≤ inputWatts s))
    ∧ s.decidePower.power.limited = ((s.power.limited || decide (3400 < inputWatts s)) && decide (2900 ≤ inputWatts s)) := by
  unfold State.decidePower
  dsimp only
  split <;> exact ⟨rfl, rfl, rfl, rfl⟩

end decisions

/-! ### A sample -/

section sample
variable {s : State} {ch : Fin 64} {raw : BitVec 16}

/-- The channel moved by its sample. -/
def sampledState (s : State) (ch : Fin 64) (raw : BitVec 16) : State :=
  { s with power := { s.power with channels := s.power.channels.set ch (sampled ch.val (s.power.channels.get ch) raw) } }

/-- The decisions on a channel (Table 15-6). -/
def judge (s : State) (ch : Fin 64) : State :=
  if isTemp ch.val then ((s.decideThrottle ch).decideHalt ch).decidePump
  else if ch.val = 48 then s.decidePower
  else if ch.val = 49 then
    { s.decidePower with
      power := { s.decidePower.power with means := (inputWatts s.decidePower :: s.decidePower.power.means).take 500 } }
  else s

theorem exec_channelSample (rated : beyondTable ch.val raw = false) (aux : s.power.aux = true) :
    exec (.channelSample ch raw) s = .next (judge (sampledState s ch raw) ch) := by
  change execChannelSample ch raw s = _
  unfold execChannelSample
  rw [if_neg (by rw [rated]; exact Bool.false_ne_true), if_neg (by rw [aux]; decide)]
  rfl

theorem unchanged_judge : Unchanged s (judge s ch) judgedParts := by
  have start := unchanged_refl s judgedParts
  unfold judge
  split
  · exact unchanged_setPower _ (unchanged_decideHalt (unchanged_decideThrottle start))
  · split
    · exact unchanged_decidePower start
    · split
      · exact unchanged_setPower _ (unchanged_decidePower start)
      · exact start

theorem judge_channels : (judge s ch).power.channels = s.power.channels := by
  unfold judge
  split
  · exact (congrArg Prod.fst (decideHalt_power (s := s.decideThrottle ch) (ch := ch)).1).trans decideThrottle_channels
  · split
    · exact decidePower_power.1
    · split
      · exact decidePower_power.1
      · rfl

theorem chanY_judge (k : Fin 64) : chanY (judge s ch) k = chanY s k := by
  unfold chanY
  rw [judge_channels]

theorem judge_temperature (core : ch.val < 48) : (judge s ch).power.hotFlags.get ch = flagOf s ch
    ∧ (64 * (s.power.haltC.toNat : Int) ≤ chanY s ch → (judge s ch).power.thermalHalt = true) := by
  have temp : isTemp ch.val = true := by rw [isTemp, decide_eq_true core]; rfl
  unfold judge
  rw [if_pos temp]
  have throttled := decideThrottle_readings (s := s) core
  obtain ⟨halted, halts⟩ := decideHalt_power (s := s.decideThrottle ch) (ch := ch)
  have flags : ((s.decideThrottle ch).decideHalt ch).power.hotFlags = s.power.hotFlags.set ch (flagOf s ch) :=
    congrArg (fun r => r.2.1) (halted.trans throttled)
  have limit : (s.decideThrottle ch).power.haltC = s.power.haltC := congrArg (fun r => r.2.2.2) throttled
  have same : chanY (s.decideThrottle ch) ch = chanY s ch := by unfold chanY; rw [decideThrottle_channels]
  refine ⟨?_, fun above => halts (by rw [limit, same]; exact above)⟩
  change ((s.decideThrottle ch).decideHalt ch).power.hotFlags.get ch = _
  rw [flags]
  exact Vector.getElem_set_self _

theorem judge_input (input : ch.val = 48) : judge s ch = s.decidePower := by
  unfold judge
  rw [if_neg (by rw [input]; decide), if_pos input]

theorem sampledState_channel : (sampledState s ch raw).power.channels.get ch = sampled ch.val (s.power.channels.get ch) raw :=
  Vector.getElem_set_self _

theorem sampledState_other {k : Fin 64} (other : k ≠ ch) :
    (sampledState s ch raw).power.channels.get k = s.power.channels.get k :=
  Vector.getElem_set_ne ch.isLt k.isLt fun same => other (Fin.ext same.symm)

theorem runs_channelSample (rated : beyondTable ch.val raw = false) (aux : s.power.aux = true) :
    Runs (.channelSample ch raw) s fun t =>
      let m := medianOf ch.val ((raw :: (s.power.channels.get ch).samples).take 5)
      (t.power.channels.get ch).y = BitVec.ofInt 16 (chanY s ch + (m - chanY s ch) / 2 ^ filterShift ch.val)
      ∧ (∀ k, k ≠ ch → t.power.channels.get k = s.power.channels.get k)
      ∧ (ch.val < 48 →
          t.power.hotFlags.get ch = (decide (64 * (s.power.throttleC.toNat : Int) ≤ chanY t ch)
            || (s.power.hotFlags.get ch && decide (64 * ((s.power.throttleC.toNat : Int) - 3) ≤ chanY t ch)))
          ∧ (64 * (s.power.haltC.toNat : Int) ≤ chanY t ch → t.power.thermalHalt = true))
      ∧ (ch.val = 48 → (3000 < inputWatts t → t.power.capSince = some (s.power.capSince.getD s.time))
          ∧ (inputWatts t < 2900 → t.power.capped = false ∧ t.power.limited = false))
      ∧ Unchanged s t ([.power, .pins, .log, .out] ++ everyCore ++ everyStall) := by
  refine runs_of_exec (exec_channelSample rated aux) ⟨?_, fun k other => ?_, fun core => ?_, fun input => ?_, ?_⟩
  · rw [judge_channels, sampledState_channel]
    rfl
  · rw [judge_channels, sampledState_other other]
  · rw [chanY_judge]
    exact judge_temperature core
  · rw [judge_input input]
    obtain ⟨channels, since, capped, limited⟩ := decidePower_power (s := sampledState s ch raw)
    have watts : inputWatts (sampledState s ch raw).decidePower = inputWatts (sampledState s ch raw) := by
      unfold inputWatts chanY
      rw [channels]
    rw [watts]
    refine ⟨fun above => since.trans (if_pos above), fun below => ?_⟩
    have under : decide (2900 ≤ inputWatts (sampledState s ch raw)) = false := decide_eq_false (Nat.not_le.mpr below)
    exact ⟨capped.trans (by rw [under, Bool.and_false]), limited.trans (by rw [under, Bool.and_false])⟩
  · exact Unchanged.trans (unchanged_setPower _ (unchanged_refl s _)) unchanged_judge

/-- Settles O23: the filter step of a sample and the decisions on it; beyond the ratings a fault. -/
theorem channelsAreFilteredAndJudged : Obligations.ChannelsAreFilteredAndJudged :=
  fun _ _ _ => ⟨fun beyond => if_pos beyond, runs_channelSample⟩

end sample
end Sys2Proof.Machine
end

section
/-! PROOFS. The watchdog of the Tollgate over a stall with a write that waits for its host: the reset of the stall drops the
write (R372, log entry 24), so the tiers do not all stay. -/

namespace Sys2Proof.Machine

open Sys2Proof.Safety

section watchdog
variable {s : State} {i : Stall}

/-- A reset of a stall drops its writes that wait for a host. -/
theorem beginStallReset_snoops (owned : (s.stall i).page.comp.owner.isSome = true) :
    ∀ h ∈ (s.beginStallReset i).tiers.snoops, h.stall ≠ i := by
  have present : ¬(s.stall i).page.comp.owner.isNone = true := by rw [← Option.not_isSome, owned]; decide
  unfold State.beginStallReset
  rw [if_neg present]
  intro h waits
  exact bne_iff_ne.mp (List.mem_filter.mp waits).2

/-- Where one stall is present, the Tollgate's watchdog drops the writes that wait for its host. -/
theorem resetTollgate_snoops (only : presentStalls s = [i]) : ∀ h ∈ s.resetTollgate.tiers.snoops, h.stall ≠ i := by
  have owned : i ∈ presentStalls s := only ▸ List.mem_singleton_self i
  unfold State.resetTollgate
  rw [only]
  exact beginStallReset_snoops (List.mem_filter.mp owned).2

theorem exec_tollgateWatchdog (started : starting s = false) (live : tollgateLive s = true) (active : s.power.state = 2) :
    exec .tollgateWatchdog s = .next (s.record { reason := 0x020C, cls := clsModule }).resetTollgate := by
  change execTollgateWatchdog s = _
  unfold execTollgateWatchdog
  rw [started, live, active]
  rfl

/-- Stall 0 present and ACTIVE, with one byte of a copy engine that waits for the host. -/
def oneWaiting : State :=
  let s := State.reset.modPage 0 fun p => { p with comp := { p.comp with owner := some (some 0) } }
  { s with power := { s.power with state := 2 }, tiers := { s.tiers with snoops := [⟨.copy 0, 0, 0x3000, 7⟩] } }

theorem oneWaiting_present : presentStalls oneWaiting = [0] := by decide

/-- Refutes O60: the watchdog of the Tollgate resets the one stall, and its write that waits for the host is dropped, so the
tiers are not as before. -/
theorem not_componentsRestartInTurn : ¬Obligations.ComponentsRestartInTurn := by
  intro h
  obtain ⟨-, -, -, -, watchdog, -⟩ := h oneWaiting
  have active : oneWaiting.power.state = 2 := rfl
  obtain ⟨t, run, -, -, -, -, -, -, -, tiers, -⟩ := watchdog rfl nofun (.inl active)
  have reached := exec_tollgateWatchdog (s := oneWaiting) rfl rfl active
  have dropped := resetTollgate_snoops (s := oneWaiting.record { reason := 0x020C, cls := clsModule }) oneWaiting_present
  rw [Host.Outcome.next.inj (reached.symm.trans run), tiers] at dropped
  exact dropped ⟨.copy 0, 0, 0x3000, 7⟩ (List.mem_singleton_self _) rfl

end watchdog
end Sys2Proof.Machine
end
